-- ==== Sys2Proof/Word.lean ====
section
/-!
DEFINITION. The word types of the YV-9 and their plainest arithmetic: bytes, 32-bit words, 16-bit
status codes (R13), and saturating counters.
-/

namespace Sys2Proof

/-- A byte (R6). -/
abbrev Byte := BitVec 8

/-- A word is 32 bits (R77). -/
abbrev Word := BitVec 32

/-- A 128-bit beat-code word (R221). -/
abbrev BcWord := BitVec 128

/-- A status code is 16 bits: class, then code (R13). -/
abbrev Code := BitVec 16

/-- A logical frame number, 0 to 63 (R22). -/
abbrev FrameNo := Fin 64

/-- A function number: 0 the PF, n the VF n (R422). -/
abbrev FuncNo := Fin 64

/-- A counter of width `w` that saturates at its largest value. -/
def satInc {w : Nat} (x : BitVec w) : BitVec w := if x = BitVec.allOnes w then x else x + 1

/-- A saturating counter advanced by `n`. -/
def satAdd {w : Nat} (x : BitVec w) (n : Nat) : BitVec w :=
  if x.toNat + n < 2 ^ w then BitVec.ofNat w (x.toNat + n) else BitVec.allOnes w

/-- Ceiling division, 0 when the divisor is 0. -/
def ceilDiv (a b : Nat) : Nat := if b = 0 then 0 else (a + b - 1) / b

end Sys2Proof
end

