-- ==== Sys2Proof/Syntax.lean ====
section
/-!
DEFINITION. The commands of the YV-9: one constructor for each row of spec/opcode_table.json, with the
operands the sender or the surroundings give it. A row whose operands all stand in the part's state
(a beat-code word in its frame's queue window, a record accepted, a mailbox request) has none of its own.
-/

namespace Sys2Proof

/-- What the check of a 64-byte sector of device memory finds (R358, R359): a single-bit error, an error it cannot
correct, or a sector that was written at another address. -/
inductive SectorErr where
  | single | uncorrectable | misplaced
deriving DecidableEq, Repr

/-- What a cell has come to hold that is not what was written to it, in the surroundings' gift: in a sector of device
memory (by address / 64), in 64 bits of a scratchpad (by address / 8), in a line of a frame's remote-read cache, in a word
of a frame's queue window (by its index in the stream) or in an entry of its descriptor table (R359, R485). -/
inductive Upset where
  | sector (n : Nat) (e : SectorErr)
  | spad (w : Nat) (multi : Bool)
  | cache (f : FrameNo) (line : Nat) (multi : Bool)
  | word (f : FrameNo) (i : Nat)
  | desc (f : FrameNo) (i : Nat)
deriving DecidableEq, Repr

/-- The rates at which the host port's link may run (Table 13.1). -/
inductive PcieRate where
  | gt2p5 | gt5 | gt8 | gt16 | gt32 | gt64
deriving DecidableEq, Repr, Inhabited

/-- The widths of the host port's link, in full and in L0p (Table 13.1). -/
inductive PcieWidth where
  | x4 | x8 | x16
deriving DecidableEq, Repr, Inhabited

/-- What the host's configuration leaves of the link and of configuration space: rate and width, the width in
use under L0p, the VFs it enables, and the sizes it gives PF BAR2 and every VF BAR2, as log2 less 28 (Tables 13.1 and
13.4). -/
structure HostLink where
  rate : PcieRate := .gt64
  width : PcieWidth := .x16
  active : PcieWidth := .x16
  numVfs : Fin 64 := 63
  bar2 : Fin 13 := 0
  vfBar2 : Fin 12 := 11
deriving DecidableEq, Repr, Inhabited

/-- A place that a command reads, and what the surroundings have made of cells (R358, R359, R485). -/
structure Met (α : Type) where
  place : α
  upsets : List Upset := []
deriving DecidableEq, Repr, Inhabited

/-- What the host writes to a register: its bits, and whether it comes with EP set (R422). A write of configuration
space, whose registers the spec does not give, carries in `config` what it leaves of the link and the BARs. -/
structure HostWrite where
  bits : BitVec 64
  ep : Bool := false
  config : Option HostLink := none
deriving DecidableEq, Repr, Inhabited

/-- A command or event of the part (spec/opcode_table.json). -/
inductive Instr where
  /-- BEAT_LAUNCH, R48. -/
  | beatLaunch (ns : Nat) (last : BitVec 8)
  /-- FRAME_BEAT_COMPLETE, R44. -/
  | frameBeatComplete (f : FrameNo)
  /-- PHASE_GROUP_START, R455. -/
  | phaseGroupStart
  /-- ADMISSION_GRANT, R454. -/
  | admissionGrant
  /-- BEAT_WATCHDOG, R58. -/
  | beatWatchdog
  /-- TALLY_RUN, R60. -/
  | tallyRun (run : Bool)
  /-- STR_CLEAR, R55. -/
  | strClear
  /-- MARK_ARM, R67. -/
  | markArm (high : Word)
  /-- TIMEBASE_EDGE, R64. -/
  | timebaseEdge
  /-- TB_HOLDOVER, R65. -/
  | tbHoldover
  /-- SYNC_IN_EDGE, R66. -/
  | syncInEdge
  /-- LOAD_NOW, R66. -/
  | loadNow
  /-- LOAD_ARM, R66. -/
  | loadArm
  /-- SYNC_OUT_PERIODIC, R571. -/
  | syncOutPeriodic
  /-- FORM, R69. -/
  | form
  /-- LEAVE, R75. -/
  | leave
  /-- JUNCTION_TOKEN_SEND, R70. -/
  | junctionTokenSend
  /-- JUNCTION_TOKEN_RECEIVE, R414. -/
  | junctionTokenReceive
  /-- JUNCTION_EXPIRED, R73. -/
  | junctionExpired
  /-- PRIME_COMMIT, R83. -/
  | primeCommit (index : BitVec 8) (rootLog : BitVec 5)
  /-- PRIME_COMMIT_COMPLETE, R84. -/
  | primeCommitComplete
  /-- NOP, R216. -/
  | nop (f : FrameNo)
  /-- END, R246. -/
  | endWord (f : FrameNo)
  /-- BR, R233. -/
  | br (f : FrameNo)
  /-- LOOP, R235. -/
  | loop (f : FrameNo)
  /-- SOP, R228. -/
  | sop (f : FrameNo)
  /-- FLAG_SET, R238. -/
  | flagSet (f : FrameNo)
  /-- FLAG_WAIT, R239. -/
  | flagWait (f : FrameNo)
  /-- FLAG_ACQ, R335. -/
  | flagAcq (f : FrameNo)
  /-- WAIT_EXPIRED, R239. -/
  | waitExpired (f : FrameNo)
  /-- LDROP, R232. -/
  | ldrop (f : FrameNo)
  /-- NTT_F, R114. -/
  | nttF (f : FrameNo)
  /-- NTT_I, R114. -/
  | nttI (f : FrameNo)
  /-- BCONV, R130. -/
  | bconv (f : FrameNo)
  /-- KSIP, R135. -/
  | ksip (f : FrameNo)
  /-- PMAT, R138. -/
  | pmat (f : FrameNo)
  /-- LCHAIN, R157. -/
  | lchain (f : FrameNo)
  /-- LEXP, R162. -/
  | lexp (f : FrameNo)
  /-- LRED, R229. -/
  | lred (f : FrameNo)
  /-- SMUL_OPEN, R178. -/
  | smulOpen (f : FrameNo)
  /-- SMUL_CLOSE, R179. -/
  | smulClose (f : FrameNo)
  /-- SRESHARE, R183. -/
  | sreshare (f : FrameNo)
  /-- NFLOOD, R184. -/
  | nflood (f : FrameNo)
  /-- ENC_PK, R185. -/
  | encPk (f : FrameNo)
  /-- SEXPORT, R187. -/
  | sexport (f : FrameNo)
  /-- SIMPORT, R188. -/
  | simport (f : FrameNo)
  /-- AUT, R145. -/
  | aut (f : FrameNo)
  /-- TRP, R148. -/
  | trp (f : FrameNo)
  /-- KREGEN, R200. -/
  | kregen (f : FrameNo)
  /-- XFER, R312. -/
  | xfer (f : FrameNo)
  /-- KSTREAM, R203. -/
  | kstream (f : FrameNo)
  /-- FLAG_REL, R329. -/
  | flagRel (f : FrameNo)
  /-- ATOM, R343. -/
  | atom (f : FrameNo)
  /-- SLD, R230. -/
  | sld (f : FrameNo)
  /-- FEEDER_ACCEPT, R244. -/
  | feederAccept (f : FrameNo)
  /-- WORD_FETCH, R251. -/
  | wordFetch (f : Met FrameNo)
  /-- ENGINE_OPERATION_END, R111. -/
  | engineOperationEnd (f : FrameNo) (te fail : Bool)
  /-- TRANSFER_LANDED, R301. -/
  | transferLanded (id : Nat)
  /-- REMOTE_ROW_ARRIVAL, R304. -/
  | remoteRowArrival (id : Nat)
  /-- GRANT_APPLY, R303. -/
  | grantApply (id : Nat)
  /-- ACC_WRITE_APPLY, R315. -/
  | accWriteApply (id : Nat)
  /-- ATOM_APPLY, R343. -/
  | atomApply (id : Nat)
  /-- SLD_HOME_READ, R338. -/
  | sldHomeRead (id : Nat)
  /-- RRC_FILL, R339. -/
  | rrcFill (f : FrameNo) (line : Met Nat)
  /-- RELEASE_UPDATE_SEND, R330. -/
  | releaseUpdateSend (id : Nat)
  /-- FLAG_UPDATE_APPLY, R336. -/
  | flagUpdateApply (id : Nat)
  /-- PF_FLAG_WRITE, R351. -/
  | pfFlagWrite (f : FrameNo) (flag : BitVec 8) (value : Word)
  /-- PROGRAM_START, R219. -/
  | programStart (run : Nat)
  /-- FRAME_PART_END, R246. -/
  | framePartEnd (f : FrameNo)
  /-- PROGRAM_ABORT, R480. -/
  | programAbort (run : Nat)
  /-- BEAT_STOP_ARM, R253. -/
  | beatStopArm (f : FrameNo) (beat : BitVec 48)
  /-- BEAT_STOP_RELEASE, R255. -/
  | beatStopRelease (f : FrameNo)
  /-- SEAL_SET, R172. -/
  | sealSet
  /-- SEAL_RELEASE, R172. -/
  | sealRelease
  /-- SEAL_OP_COMPLETE, R171. -/
  | sealOpComplete
  /-- REGION_FREE, R297. -/
  | regionFree (f : FrameNo) (number : BitVec 8)
  /-- REGION_FREE_COMPLETE, R297. -/
  | regionFreeComplete (f : FrameNo)
  /-- SPAD_XFER_GO, R324. -/
  | spadXferGo (f : FrameNo) (first : BitVec 12) (rows : BitVec 13) (toMem : Bool)
  /-- SPAD_XFER_COMPLETE, R324. -/
  | spadXferComplete (f : FrameNo)
  /-- FRAME_WIPE_COMPLETE, R296. -/
  | frameWipeComplete (f : FrameNo)
  /-- MEMC_WIPE_GO, R372. -/
  | memcWipeGo
  /-- WIPE_COMPLETE, R370. -/
  | wipeComplete (k : Nat)
  /-- HELD_ACCESS_RELEASE, R371. -/
  | heldAccessRelease
  /-- WIPE_PENDING, R371. -/
  | wipePending
  /-- SCRUB_READ, R369. -/
  | scrubRead (port : Fin 16) (ce ue : List Nat)
  /-- MEM_RETRAIN, R357. -/
  | memRetrain (port : Fin 16)
  /-- HOST_BAR2_READ, R428. -/
  | hostBar2Read (func : FuncNo) (offset : Met Nat) (len tag : Nat)
  /-- HOST_BAR2_WRITE, R428. -/
  | hostBar2Write (func : FuncNo) (offset : Nat) (bytes : List Byte) (ep : Bool)
  /-- DEFINE, R373. -/
  | masDefine (layer : Fin 64)
  /-- OPEN, R374. -/
  | masOpen (layer : Fin 64)
  /-- CLOSE, R374. -/
  | masClose (layer : Fin 64)
  /-- CLOSING_DONE, R374. -/
  | closingDone (layer : Fin 64)
  /-- STEP, R379. -/
  | masStep (layer : Fin 64) (clearM solo : Bool)
  /-- MAS_RELEASE, R374. -/
  | masRelease (layer : Fin 64)
  /-- ETA_WRITE, R377. -/
  | etaWrite (layer : Fin 64) (eta : BitVec 64)
  /-- STEPS_WRITE, R381. -/
  | stepsWrite (layer : Fin 64) (steps : BitVec 64)
  /-- INGEST_ADD, R375. -/
  | ingestAdd (layer : Fin 64) (addr : Nat) (bytes : List Byte) (poison : Bool)
  /-- VOTE_RESULT, R379. -/
  | voteResult (layer : Fin 64)
  /-- STEP_VOTE_EXPIRED, R380. -/
  | stepVoteExpired (layer : Fin 64)
  /-- STEP_COMPLETE, R378. -/
  | stepComplete (layer : Fin 64)
  /-- FLIT_RECEIVE, R388. -/
  | flitReceive (port : Fin 8) (lost : Option Nat) (flit : List Byte)
  /-- PACKET_ROUTE, R395. -/
  | packetRoute
  /-- REQUEST_ARRIVAL, R400. -/
  | requestArrival
  /-- RESPONSE_ARRIVAL, R392. -/
  | responseArrival
  /-- ACK_TIMEOUT, R401. -/
  | ackTimeout (tag : BitVec 12)
  /-- PORT_ENABLE, R416. -/
  | portEnable (port : Fin 8) (enable : Bool)
  /-- EQUALIZE_DONE, R416. -/
  | equalizeDone (port : Fin 8)
  /-- ALIGN_DONE, R416. -/
  | alignDone (port : Fin 8) (good : BitVec 34)
  /-- IDENT, R394. -/
  | ident (port : Fin 8) (peerRole : BitVec 4) (peerDev : BitVec 12) (peerProfile : BitVec 2)
  /-- RETRAIN, R416. -/
  | retrain (port : Fin 8)
  /-- LINK_HOLD_EXPIRY, R402. -/
  | linkHoldExpiry (port : Fin 8)
  /-- DOWN_RETRY, R416. -/
  | downRetry (port : Fin 8)
  /-- LANE_LOCK_LOSS, R416. -/
  | laneLockLoss (port : Fin 8) (lane : Fin 34) (spareTrained : Bool)
  /-- LANE_SWAP, R418. -/
  | laneSwap (port : Fin 8) (lane spare : Fin 34)
  /-- BYPASS, R399. -/
  | bypass (on : Bool)
  /-- PING, R415. -/
  | ping (port : Fin 8)
  /-- TIME_PING_RECEIVE, R415. -/
  | timePingReceive
  /-- TIME_ECHO_RECEIVE, R415. -/
  | timeEchoReceive
  /-- ARM, R404. -/
  | rsArm (set : Fin 64)
  /-- DISARM, R404. -/
  | rsDisarm (set : Fin 64)
  /-- CONTRIBUTION, R405. -/
  | contribution (set : Fin 64) (addr : Nat) (bytes : List Byte) (poison : Bool)
  /-- RED_RECEIVE, R406. -/
  | redReceive
  /-- REDDOWN_RECEIVE, R409. -/
  | reddownReceive
  /-- RED_LINE_TIMEOUT, R411. -/
  | redLineTimeout (set : Fin 64) (line : Nat)
  /-- SQ_TAIL, R431. -/
  | sqTail (func : FuncNo) (q : Fin 64) (tail : BitVec 16)
  /-- CQ_HEAD, R433. -/
  | cqHead (func : FuncNo) (q : Fin 64) (head : BitVec 16)
  /-- QUEUE_ENABLE, R430. -/
  | queueEnable (func : FuncNo) (cq : Bool) (q : Fin 64) (enable : Bool)
  /-- RECORD_FETCH, R432. -/
  | recordFetch (func : FuncNo) (q : Fin 64) (records : List (BitVec 512)) (dmaFault : Bool)
  /-- LOAD, R437. -/
  | load
  /-- UNLOAD, R438. -/
  | unload
  /-- BIND, R440. -/
  | bind
  /-- UNBIND, R440. -/
  | unbind
  /-- LAUNCH, R441. -/
  | launch
  /-- HCOPY, R444. -/
  | hcopy
  /-- HCOPY_COMPLETE, R444. -/
  | hcopyComplete (rec : Nat) (data : List Byte) (ep : List (Nat × Nat)) (dmaFault : Bool)
  /-- LAUNCH_ADMIT, R442. -/
  | launchAdmit
  /-- COMPLETION_RECORD_WRITE, R433. -/
  | completionRecordWrite (k : Nat)
  /-- COAL_TIME_EXPIRY, R445. -/
  | coalTimeExpiry (func : FuncNo) (q : Fin 64)
  /-- FUNC_ENABLE, R423. -/
  | funcEnable (func : FuncNo)
  /-- FUNCTION_RESET, R446. -/
  | functionReset (func : FuncNo)
  /-- PF_FUNCTION_RESET, R447. -/
  | pfFunctionReset
  /-- BUDGET_WRITE, R458. -/
  | budgetWrite (budget : BitVec 16)
  /-- BUDGET_STALE, R453. -/
  | budgetStale
  /-- CNT_CLEAR, R55. -/
  | cntClear
  /-- THERMAL_SCAN, R461. -/
  | thermalScan
  /-- FORCE_DRAIN_EXPIRY, R463. -/
  | forceDrainExpiry (domain : Fin 36)
  /-- DOMAIN_ON, R470. -/
  | domainOn (domain : Fin 36)
  /-- DOMAIN_RETAIN, R470. -/
  | domainRetain (domain : Fin 36)
  /-- DOMAIN_OFF, R470. -/
  | domainOff (domain : Fin 36)
  /-- DOMAIN_TRANSITION_COMPLETE, R467. -/
  | domainTransitionComplete
  /-- GATE_WAIT_EXPIRY, R470. -/
  | gateWaitExpiry
  /-- VCORE_SET: the set point in mV, and whether the regulator answers; R459, R460. -/
  | vcoreSet (rail : Fin 2) (point : BitVec 10 × Bool)
  /-- REMAP, R488. -/
  | remap (f : FrameNo)
  /-- REMAP_COMPLETE, R488. -/
  | remapComplete (f : FrameNo)
  /-- HEALTH_CLEAR, R484. -/
  | healthClear (f : FrameNo)
  /-- FAULT_RING_HEAD, R491. -/
  | faultRingHead (head : BitVec 16)
  /-- ALERT_CLR, R492. -/
  | alertClr
  /-- RECKONER_WATCHDOG, R494. -/
  | reckonerWatchdog (lockstep : Bool)
  /-- WATCHDOG_KICK, R494. -/
  | watchdogKick
  /-- ALIVE, R501. -/
  | alive
  /-- BUDGET_UPDATE, R503. -/
  | budgetUpdate (avs pkgMw : Nat)
  /-- SENSOR_SAMPLE, R504. -/
  | sensorSample (sensor : Fin 189) (value : Int)
  /-- LOG_FLUSH, R508. -/
  | logFlush
  /-- DRBG_RESEED, R518. -/
  | drbgReseed (die : Fin 3)
  /-- ENTROPY_HEALTH, R519. -/
  | entropyHealth
  /-- GET_INFO, R510. -/
  | getInfo
  /-- READ_SENSORS, R510. -/
  | readSensors
  /-- SET_THRESHOLD, R505. -/
  | setThreshold
  /-- READ_LOG, R509. -/
  | readLog
  /-- SET_POWER, R510. -/
  | setPower
  /-- FW_BEGIN, R528. -/
  | fwBegin
  /-- FW_WRITE, R528. -/
  | fwWrite
  /-- FW_VERIFY, R528. -/
  | fwVerify
  /-- FW_ACTIVATE, R529. -/
  | fwActivate
  /-- FW_COMMIT_SVN, R530. -/
  | fwCommitSvn
  /-- TRIAL_COMMIT, R529. -/
  | trialCommit
  /-- LC_NONCE, R516. -/
  | lcNonce
  /-- LC_SET, R516. -/
  | lcSet
  /-- SESSION_AGREE, R526. -/
  | sessionAgree
  /-- SESSION_CLEAR, R527. -/
  | sessionClear
  /-- GET_CERT, R510. -/
  | getCert
  /-- GET_MEASUREMENTS, R514. -/
  | getMeasurements
  /-- DRENIL_VENDOR_MESSAGE, R513. -/
  | drenilVendorMessage (dest : BitVec 8) (opcode : BitVec 8) (request : List Byte)
  /-- SET_ENDPOINT_ID, R513. -/
  | setEndpointId (dest : BitVec 8) (eid : BitVec 8)
  /-- GET_ENDPOINT_ID, R513. -/
  | getEndpointId (dest : BitVec 8)
  /-- GET_ENDPOINT_UUID, R513. -/
  | getEndpointUuid (dest : BitVec 8)
  /-- GET_MCTP_VERSION_SUPPORT, R513. -/
  | getMctpVersionSupport (dest : BitVec 8) (mtype : BitVec 8)
  /-- GET_MESSAGE_TYPE_SUPPORT, R513. -/
  | getMessageTypeSupport (dest : BitVec 8)
  /-- GET_VENDOR_DEFINED_MESSAGE_SUPPORT, R513. -/
  | getVendorDefinedMessageSupport (dest : BitVec 8) (selector : BitVec 8)
  /-- GET_TID, R513. -/
  | getTid (dest : BitVec 8)
  /-- GET_PLDM_VERSION, R513. -/
  | getPldmVersion (dest : BitVec 8) (ptype : BitVec 8)
  /-- GET_PLDM_TYPES, R513. -/
  | getPldmTypes (dest : BitVec 8)
  /-- GET_PLDM_COMMANDS, R513. -/
  | getPldmCommands (dest : BitVec 8) (ptype : BitVec 8)
  /-- GET_PDR, R513. -/
  | getPdr (dest : BitVec 8) (record : Word)
  /-- GET_SENSOR_READING, R513. -/
  | getSensorReading (dest : BitVec 8) (sensor : BitVec 16)
  /-- GET_STATE_SENSOR_READINGS, R513. -/
  | getStateSensorReadings (dest : BitVec 8) (sensor : BitVec 16)
  /-- POLL_FOR_PLATFORM_EVENT_MESSAGE, R513. -/
  | pollForPlatformEventMessage (dest : BitVec 8)
  /-- QUERY_DEVICE_IDENTIFIERS, R513. -/
  | queryDeviceIdentifiers (dest : BitVec 8)
  /-- GET_FIRMWARE_PARAMETERS, R513. -/
  | getFirmwareParameters (dest : BitVec 8)
  /-- REQUEST_UPDATE, R513. -/
  | requestUpdate (dest : BitVec 8)
  /-- PASS_COMPONENT_TABLE, R513. -/
  | passComponentTable (dest : BitVec 8) (comps : List (BitVec 16))
  /-- UPDATE_COMPONENT, R513. -/
  | updateComponent (dest : BitVec 8) (comp : BitVec 16) (size : Word)
  /-- REQUEST_FIRMWARE_DATA, R528. -/
  | requestFirmwareData (bytes : List Byte) (transferDone : Bool)
  /-- ACTIVATE_FIRMWARE, R513. -/
  | activateFirmware (dest : BitVec 8)
  /-- GET_STATUS, R513. -/
  | getStatus (dest : BitVec 8)
  /-- CANCEL_UPDATE, R513. -/
  | cancelUpdate (dest : BitVec 8)
  /-- CANCEL_UPDATE_COMPONENT, R513. -/
  | cancelUpdateComponent (dest : BitVec 8)
  /-- GET_VERSION, R513. -/
  | getVersion (dest : BitVec 8)
  /-- GET_CAPABILITIES, R513. -/
  | getCapabilities (dest : BitVec 8)
  /-- NEGOTIATE_ALGORITHMS, R513. -/
  | negotiateAlgorithms (dest : BitVec 8) (p384 sha384 : Bool)
  /-- GET_DIGESTS, R513. -/
  | getDigests (dest : BitVec 8)
  /-- GET_CERTIFICATE, R513. -/
  | getCertificate (dest : BitVec 8) (slot : BitVec 8) (offset length : BitVec 16)
  /-- CHALLENGE, R513. -/
  | challenge (dest : BitVec 8) (slot : BitVec 8) (nonce : BitVec 256)
  /-- SPDM_GET_MEASUREMENTS, R514. -/
  | spdmGetMeasurements (dest : BitVec 8) (index : BitVec 8) (nonce : BitVec 256)
  /-- MODMUL, R523. -/
  | modmul (lenW : BitVec 8)
  /-- MODEXP, R523. -/
  | modexp (lenW : BitVec 8)
  /-- MODINV, R523. -/
  | modinv (lenW : BitVec 8)
  /-- EC_PUB, R522. -/
  | ecPub (lenW : BitVec 8) (p384 : Bool)
  /-- ECDH, R522. -/
  | ecdh (lenW : BitVec 8) (p384 : Bool)
  /-- ECDSA_SIGN, R522. -/
  | ecdsaSign (lenW : BitVec 8) (p384 : Bool)
  /-- ECDSA_VERIFY, R522. -/
  | ecdsaVerify (lenW : BitVec 8) (p384 : Bool)
  /-- X25519, R522. -/
  | x25519 (lenW : BitVec 8)
  /-- ED25519_PUB, R522. -/
  | ed25519Pub (lenW : BitVec 8)
  /-- ED25519_SIGN, R522. -/
  | ed25519Sign (lenW : BitVec 8) (msgLen : BitVec 9)
  /-- ED25519_VERIFY, R522. -/
  | ed25519Verify (lenW : BitVec 8) (msgLen : BitVec 9)
  /-- LNE_PENDING_START, R524. -/
  | lnePendingStart
  /-- LNE_DONE, R523. -/
  | lneDone
  /-- POWER_ON, R533. -/
  | powerOn
  /-- DEVICE_RESET, R535. -/
  | deviceReset (cause : BitVec 3)
  /-- HOST_RESET, R533. -/
  | hostReset
  /-- BOOT_STAGE_ADVANCE, R545. -/
  | bootStageAdvance (ms : Nat) (ok : BitVec 32)
  /-- HOST_LINK_TRAINING, R549. -/
  | hostLinkTraining
  /-- SUPPLY_FAULT, R564. -/
  | supplyFault (sensor : Fin 24)
  /-- BROWN_OUT, R565. -/
  | brownOut (rail : Fin 4)
  /-- REFCLK_LINK_LOSS, R573. -/
  | refclkLinkLoss
  /-- REFCLK_PCIE_LOSS, R573. -/
  | refclkPcieLoss
  /-- BYPASS_INSTRUCTION, R575. -/
  | bypassInstruction (code : BitVec 8) (tdi : Bool)
  /-- SAMPLE_PRELOAD, R575. -/
  | samplePreload (pins : BitVec 2413)
  /-- EXTEST, R575. -/
  | extest (resetLow : Bool)
  /-- HIGHZ, R575. -/
  | highz (resetLow : Bool)
  /-- CLAMP, R575. -/
  | clamp (resetLow : Bool)
  /-- REGISTER_WRITE, R8. -/
  | registerWrite (func : FuncNo) (offset : Nat) (width : Nat) (value : HostWrite)
  /-- REGISTER_READ, R8. -/
  | registerRead (func : FuncNo) (offset : Nat) (width : Nat) (tag : Nat)
  /-- LNE_RESERVED_OP, R525. -/
  | lneReservedOp (op lenW : BitVec 8) (msgLen : BitVec 9)
  /-- MAILBOX_UNDEFINED_OPCODE, R511. -/
  | mailboxUndefinedOpcode
  /-- UNSUPPORTED_MCTP_MESSAGE, R513. -/
  | unsupportedMctpMessage (dest mtype : BitVec 8) (command : BitVec 16)
  /-- TAP_RESET, R575. -/
  | tapReset
deriving DecidableEq, Repr, Inhabited

end Sys2Proof
end

