-- ==== Sys2Proof/Decode.lean ====
section
/-!
DEFINITION. The command a word spells by the bits of spec/opcode_table.json. No row of the table has
bits (every row's field list is empty), so no word spells a command.
-/

namespace Sys2Proof

/-- The command that a word of `nbits` bits spells: the table gives no row any bits, so none. -/
def decodeTableWord (_nbits _w : Nat) : Option Instr := none

end Sys2Proof
end

