-- ==== Sys2Proof/Machine/Arith.lean ====
section
/-!
DEFINITION. Modular arithmetic: the Montgomery product (R80), powers and inverses, the Miller–Rabin test
(R83), LOG2Q (R84), bit reversal and the number-theoretic transforms (R114), and signed readings of words.
-/

namespace Sys2Proof.Machine

open Sys2Proof

/-- The signed reading of the low `w` bits of a number. -/
def signed (w n : Nat) : Int :=
  if w = 0 then 0 else
  if n % 2 ^ w < 2 ^ (w - 1) then (n % 2 ^ w : Nat) else (n % 2 ^ w : Nat) - (2 ^ w : Nat)

/-- The `w`-bit two's-complement pattern of an integer. -/
def unsignedOf (w : Nat) (x : Int) : Nat := (x % (2 ^ w : Nat)).toNat

/-- An integer reduced to 0 .. q − 1. -/
def intMod (x : Int) (q : Nat) : Nat := (x % (q : Int)).toNat

/-- Square and multiply, `fuel` exponent bits from the lowest. -/
def powModFuel : Nat → Nat → Nat → Nat → Nat
  | 0, _, _, m => 1 % m
  | n + 1, b, e, m =>
    let r := powModFuel n (b * b % m) (e / 2) m
    if e % 2 = 1 then b * r % m else r

/-- b ^ e mod m. -/
def powMod (b e m : Nat) : Nat := powModFuel (e.log2 + 1) (b % m) e m

/-- The inverse modulo a prime. -/
def invPrime (a q : Nat) : Nat := powMod a (q - 2) q

/-- One step of the extended Euclidean algorithm, `fuel` of them: the coefficient of `a` and the gcd. -/
def egcdFuel : Nat → Nat → Nat → Int → Int → Int × Nat
  | 0, r, _, s, _ => (s, r)
  | n + 1, r, r', s, s' => if r' = 0 then (s, r) else egcdFuel n r' (r % r') s' (s - (r / r' : Nat) * s')

/-- The inverse of `a` mod `m`, where they are coprime. -/
def invMod? (a m : Nat) : Option Nat :=
  let (s, g) := egcdFuel (2 * (a.log2 + m.log2 + 2)) (a % m) m 1 0
  if g = 1 then some (intMod s m) else none

/-- Newton iteration for the inverse of an odd number mod 2^32. -/
def newton32 : Nat → Nat → Nat → Nat
  | 0, _, x => x
  | n + 1, q, x => newton32 n q (x * ((2 + 2 ^ 64 - q * x % 2 ^ 32) % 2 ^ 32) % 2 ^ 32)

/-- QNEG = −Q^-1 mod 2^32 (R84). -/
def qnegOf (q : Nat) : Nat := (2 ^ 32 - newton32 5 q q % 2 ^ 32) % 2 ^ 32

/-- The Montgomery product a · b · 2^-32 mod q as the multipliers compute it (R80). -/
def mont (a b q : Nat) : Nat :=
  let t := a * b
  let m := (t % 2 ^ 32) * qnegOf q % 2 ^ 32
  let u := (t + m * q) / 2 ^ 32
  if q ≤ u then u - q else u

/-- The M-form of a value: v · 2^32 mod q. -/
def toM (v q : Nat) : Nat := v % q * 2 ^ 32 % q

/-- `LOG2Q` = 256 × log2 Q, rounded to the nearest integer with halves up (R84). -/
def log2qOf (q : Nat) : Nat := ((q ^ 256 * q ^ 256).log2 + 1) / 2

/-- The powers of two in n, and the odd part, `fuel` halvings. -/
def oddPart : Nat → Nat → Nat × Nat
  | 0, n => (0, n)
  | f + 1, n => if n % 2 = 0 then let (k, m) := oddPart f (n / 2); (k + 1, m) else (0, n)

/-- Does x reach n − 1 within k squarings? -/
def reachesMinusOne : Nat → Nat → Nat → Bool
  | 0, x, n => x == n - 1
  | k + 1, x, n => x == n - 1 || reachesMinusOne k (x * x % n) n

/-- One round of Miller–Rabin to base `a`. -/
def millerRabinBase (n a : Nat) : Bool :=
  if a % n = 0 then true else
  let (k, d) := oddPart 32 (n - 1)
  let x := powMod a d n
  x == 1 || reachesMinusOne (k - 1) x n

/-- The Miller–Rabin test to the bases 2, 7 and 61 (Table 3.2). -/
def millerRabin (n : Nat) : Bool := millerRabinBase n 2 && millerRabinBase n 7 && millerRabinBase n 61

/-- The low `k` bits of `j` reversed. -/
def brv : Nat → Nat → Nat
  | 0, _ => 0
  | k + 1, j => j % 2 * 2 ^ k + brv k (j / 2)

/-- The ψ of a limb: ROOT^(2^(ROOT_LOG − 1) / N) (R114). -/
def psiOf (root rootLog logN q : Nat) : Nat := powMod root (2 ^ (rootLog - 1 - logN)) q

/-- The sum of a[k] times the M-form multiplier that `m k` gives, mod q. -/
def twistSum (a : List Nat) (m : Nat → Nat) (q : Nat) : Nat :=
  a.zipIdx.foldl (fun acc p => (acc + mont p.1 (m p.2) q) % q) 0

/-- NTT.F of one limb (R114): slot j holds the polynomial's value at ψ^(2·brv(j) + 1); `pw x` is ψ^x in M-form, for
x below 2N. -/
def nttF (a : List Nat) (logN : Nat) (pw : Nat → Nat) (q : Nat) : List Nat :=
  (List.range (2 ^ logN)).map fun j => twistSum a (fun i => pw ((2 * brv logN j + 1) * i % (2 * 2 ^ logN))) q

/-- NTT.I of one limb (R114); `ipw x` is ψ^(−x) in M-form, for x below 2N. -/
def nttI (a : List Nat) (logN : Nat) (ipw : Nat → Nat) (q : Nat) : List Nat :=
  let ninv := invPrime (2 ^ logN % q) q
  (List.range (2 ^ logN)).map fun i =>
    ninv * twistSum a (fun j => ipw ((2 * brv logN j + 1) * i % (2 * 2 ^ logN))) q % q

/-- Lists all of whose elements are below a bound, summed modulo q. -/
def sumMod (a : List Nat) (q : Nat) : Nat := a.foldl (fun acc x => (acc + x) % q) 0

/-- The product of a list. -/
def prodOf (l : List Nat) : Nat := l.foldl (· * ·) 1

/-- The bits set among the low `w` bits. -/
def popcount : Nat → Nat → Nat
  | 0, _ => 0
  | w + 1, n => n % 2 + popcount w (n / 2)

/-- The length of a number in bits. -/
def bitlen (n : Nat) : Nat := if n = 0 then 0 else n.log2 + 1

end Sys2Proof.Machine
end

