-- ==== Sys2Proof/Config.lean ====
section
/-!
DEFINITION. What an implementation fixes and what the spec leaves open: constants with no body, so that
no proof can see their values.
-/

namespace Sys2Proof.Config

open Sys2Proof

/-- 1,024 raw bits of the entropy source's oscillators (R517): the n-th such sample. Log entry 10. -/
opaque rawBits : Nat → BitVec 1024

/-- The public keys whose digests the boot ROM holds (R516, R520, R542, R543), as points x ‖ y:
0 lifecycle, 1 configuration, 2 firmware, 3 microcode. Log entry 11. -/
opaque drenilKey : Nat → BitVec 768

/-- The digest of the boot ROM (R514). Log entry 11. -/
opaque bootRomDigest : BitVec 384

/-- The endpoint UUID and the PLDM terminus ID of R513. Log entry 11. -/
opaque endpointUuid : BitVec 128

opaque terminusId : BitVec 8

/-- The version of a PLDM type that R513 supports. Log entry 11. -/
opaque pldmVersion : Nat → BitVec 32

/-- A value the spec leaves unstated: the n-th such value. Log entry 12. -/
opaque openValue : Nat → BitVec 64

/-- The byte left at an address by an operation whose result there is unspecified: the n-th such
operation (R106, R254). Log entry 12. -/
opaque openByte : Nat → Nat → BitVec 8

end Sys2Proof.Config
end

