-- ==== Sys2Proof/Machine/Codes.lean ====
section
/-!
DEFINITION. The status codes of Table 0.3 and of the chapters' "Codes added" tables (R14), by name.
-/

namespace Sys2Proof.Machine.Codes

open Sys2Proof

def ok : Code := 0x0000
def loadFootprint : Code := 0x0101
def loadWaitCycle : Code := 0x0102
def loadBasisSingular : Code := 0x0103
def loadReservedZero : Code := 0x0104
def loadWriteAlias : Code := 0x0105
def loadBeatConflict : Code := 0x0106
def loadVersion : Code := 0x0107
def loadCostMismatch : Code := 0x0108
def loadDescriptorInvalid : Code := 0x0109
def loadPrimeInvalid : Code := 0x010A
def loadPrimeSetConflict : Code := 0x010B
def loadSealRule : Code := 0x010C
def loadKeyStream : Code := 0x010D
def loadEncoding : Code := 0x010E
def loadControlFlow : Code := 0x010F
def loadPlacement : Code := 0x0110
def loadRecordInvalid : Code := 0x0111
def loadStreamBusy : Code := 0x0112
def loadFrames : Code := 0x0113
def levelExhausted : Code := 0x0201
def keyTagMismatch : Code := 0x0202
def poisonConsumed : Code := 0x0203
def transformCheckFail : Code := 0x0204
def laneFlags : Code := 0x0205
def scaleRange : Code := 0x0206
def noiseExhausted : Code := 0x0207
def operandMismatch : Code := 0x0208
def tripleSpent : Code := 0x0209
def keyHeaderInvalid : Code := 0x020A
def stepRange : Code := 0x020B
def waitExpired : Code := 0x0301
def beatWatchdog : Code := 0x0302
def counterSkew : Code := 0x0303
def junctionExpired : Code := 0x0304
def startWindowMissed : Code := 0x0305
def beatStopped : Code := 0x0306
def issueCheckFail : Code := 0x0307
def stepVoteExpired : Code := 0x0308
def writeAlias : Code := 0x0401
def lostWrite : Code := 0x0402
def creditUnderflow : Code := 0x0403
def eccUncorrectable : Code := 0x0404
def wipePending : Code := 0x0405
def writeOob : Code := 0x0406
def regionOverrun : Code := 0x0407
def flagRefused : Code := 0x0408
def releaseSuppressed : Code := 0x0409
def ingestClosed : Code := 0x040A
def hostDmaFault : Code := 0x040B
def linkDown : Code := 0x0501
def primeTableHash : Code := 0x0502
def routeUnreachable : Code := 0x0503
def targetBypassed : Code := 0x0504
def reducePartial : Code := 0x0505
def remoteRefused : Code := 0x0506
def reduceBroken : Code := 0x0507
def beatSplit : Code := 0x0601
def thermalThrottle : Code := 0x0602
def domainOffAccess : Code := 0x0603
def forcedGate : Code := 0x0604
def supplyFault : Code := 0x0605
def sealViolation : Code := 0x0701
def microcodeSignature : Code := 0x0702
def lifecycleLock : Code := 0x0703
def entropyUnavailable : Code := 0x0704
def firmwareRejected : Code := 0x0705
def entropyHealth : Code := 0x0706
def reckonerWatchdog : Code := 0x0801
def orphanMode : Code := 0x0802
def lockstepMismatch : Code := 0x0803
def sensorThreshold : Code := 0x0804
def bootRecovery : Code := 0x0805
def memoryTraining : Code := 0x0806

end Sys2Proof.Machine.Codes
end

