-- ==== Sys2Proof/Machine/StFrame.lean ====
section
/-!
DEFINITION. The state of one logical frame and of the programs (chapters 3, 5, 6, 7, 9, 10, 15).
Each field's default value is its value at reset; the comment after a field names its rule, the file
of spec/ and whether the spec gives the reset value. INVENTORY.md lists every one.
-/

namespace Sys2Proof.Machine

open Sys2Proof

/-- A poison mark of a row, line, descriptor, scalar or index (R105, R110, R180, R206): `cause` is the
code recorded with the poison (0: no recorded cause, R476) and `run` the launch that already recorded
it in its fault record (0: none has). -/
structure Mark where
  cause : Code := 0
  run   : Nat := 0
deriving DecidableEq, Repr, Inhabited

/-- A scalar register: 32 bits and a poison bit (R227); the poison keeps its mark (R110, R476). -/
structure Scalar where
  value  : Word := 0                    -- R227 07; reset 0 (FRM_SCALAR_i.VALUE)
  poison : Option Mark := none          -- R227 07; reset unpoisoned (FRM_SCALAR_i.POISON)
deriving DecidableEq, Repr, Inhabited

/-- A descriptor, the fields of Table 3.7 (R93). `mark` is the mark of the POISON bit. -/
structure Desc where
  kind : Nat := 0
  scheme : Nat := 0
  logN : Nat := 0
  level : Nat := 0
  special : Nat := 0
  domain : Nat := 0
  form : Nat := 0
  comps : Nat := 0
  mark : Option Mark := none
  pset : Nat := 0
  keyform : Nat := 0
  keytype : Nat := 0
  party : Nat := 0
  etype : Nat := 0
  layout : Nat := 0
  location : Nat := 0
  keyTag : Nat := 0
  scale : Nat := 0
  noise : Nat := 0
  galois : Nat := 0
  region : Nat := 0
  capacity : Nat := 0
  ccap : Nat := 0
  base : Nat := 0
  dim0 : Nat := 0
  dim1 : Nat := 0
  dim2 : Nat := 0
  dim3 : Nat := 0
deriving DecidableEq, Repr, Inhabited

/-- One entry of a region's credit table (R303, FRM_CREDIT_i_e). -/
structure Credit where
  dev : Nat := 0
  frame : Nat := 0
  rows : Nat := 0
deriving DecidableEq, Repr, Inhabited

/-- One tile slot of a key ring (R201): digit, extended limb, key descriptor, seed, and the set position and
prime of the limb (R198). -/
structure TileSlot where
  digit : Nat := 0
  limb : Nat := 0
  key : Nat := 0
  seed : List Byte := []
  pos : Nat := 0
  q : Nat := 0
deriving DecidableEq, Repr, Inhabited

/-- The three positions of a key ring and its slots' state (R201). -/
structure Ring where
  depth : Nat := 0
  head : Nat := 0
  regen : Nat := 0
  tail : Nat := 0
  slots : List TileSlot := []
deriving DecidableEq, Repr, Inhabited

/-- A region a frame holds (R288, R291, R292, R303; FRM_REGION_i). -/
structure Region where
  number : Nat := 0
  slot : Nat := 0
  resident : Bool := false
  isSealed : Bool := false
  keyring : Bool := false
  remote : Bool := false
  overrun : Bool := false
  owner : Nat := 0
  head : BitVec 32 := 0
  tail : BitVec 32 := 0
  originRow : Nat := 0
  sizeRows : Nat := 0
  credits : List Credit := []
  ring : Option Ring := none
deriving DecidableEq, Repr, Inhabited

/-- A stage word of a chain entry (Table 5.2) in fields. -/
structure Stage where
  op : Nat := 0
  asel : Nat := 0
  bsel : Nat := 0
  csel : Nat := 0
  shift : Nat := 0
deriving DecidableEq, Repr, Inhabited

/-- A chain-table entry (Table 5.1), its STAGES stage words and IMM0 to IMM3. -/
structure Chain where
  stages : List Stage := []
  ksrc : Nat := 0
  iscale : Nat := 0
  imms : List Word := []
deriving DecidableEq, Repr, Inhabited

/-- A transfer record (Tables 9.4 and 9.5). -/
structure XRec where
  kind : Nat := 0
  mode : BitVec 8 := 0
  prime : Nat := 0
  fill : Word := 0
  count : List Nat := []
  soff : Int := 0
  sstr : List Int := []
  doff : Int := 0
  dstr : List Int := []
  padlo : List Nat := []
  padhi : List Nat := []
  advrows : Nat := 0
  gRegion : Nat := 0
  gDev : Nat := 0
  gFrame : Nat := 0
  gRows : Nat := 0
deriving DecidableEq, Repr, Inhabited

/-- A region-table entry as the load read it (Table 9.1). -/
structure RegEntry where
  number : Nat := 0
  attr : Nat := 0
  depth : Nat := 0
  origin : Nat := 0
  size : Nat := 0
  srcs : List Credit := []
deriving DecidableEq, Repr, Inhabited

/-- The part of a loaded program that one frame runs (Table 7.13), with its tables as loaded (R247), and the indices of its
words that make the positions after them floating (R242). -/
structure FramePart where
  frame : Nat := 0
  words : Nat := 0
  qoffset : Nat := 0
  dtab : List Desc := []
  flagClear : BitVec 256 := 0
  rtab : List RegEntry := []
  xtab : List XRec := []
  waits : List Nat := []
deriving DecidableEq, Repr, Inhabited

/-- A loaded program (R247, R437): its header, tables and frame parts. -/
structure Program where
  handle : Nat := 0
  func : Nat := 0
  hdr : Nat := 0
  frames : BitVec 64 := 0
  scaleTol : Nat := 0
  group : Bool := false
  chains : Option (List Chain) := none
  noise : Option (List (Nat × Nat)) := none
  msets : Option (List (BitVec 64)) := none
  psets : BitVec 64 := 0
  parts : List FramePart := []
  bound : Nat := 0
deriving DecidableEq, Repr, Inhabited

/-- A fault or event a program recorded: code, beat and logical frame (R110, R475). -/
structure FaultRec where
  code : Code := 0
  beat : Nat := 0
  frame : Nat := 0
deriving DecidableEq, Repr, Inhabited

/-- A running (or stopped, or ended but not yet reported) launch of a program (R110, R219, R442, R475). -/
structure Run where
  id : Nat := 0
  func : Nat := 0
  handle : Nat := 0
  stream : Nat := 0
  keyTag : Nat := 0
  frames : BitVec 64 := 0
  group : Bool := false
  startWindow : Nat := 0
  started : Bool := false
  startBeat : Nat := 0
  endBeat : Option Nat := none
  stopped : Bool := false
  fault : Option FaultRec := none
  event : Option FaultRec := none
  nFaults : Nat := 0
  overrunSeen : Bool := false
  aborts : List (Nat × Code) := []
  aborted : Option Code := none  -- the abort in force, R480
  residue : Bool := false        -- the abort is made, its residue not yet (PROGRAM_ABORT)
  starting : Bool := false       -- starts at the launch just made (PROGRAM_START)
  silent : Bool := false         -- ends without a completion (R446, R495)
  stopBeat : Option Nat := none  -- armed BEAT_STOP, program beat, R253
  lflags : BitVec 3 := 0         -- OR of the lane flags of its frames, R436
  index : Nat := 0               -- its stream entry, R440
  sq : Nat := 0
  recId : Nat := 0
  cookie : Nat := 0
deriving DecidableEq, Repr, Inhabited

/-- A line of a frame's remote-read cache (R339): its line number, bytes and poison, most recently used
first in the list that holds it. `fresh`: filled for a miss that no engine has read yet. -/
structure RrcLine where
  line : Nat := 0
  cells : List Host.Cell := []
  mark : Option Mark := none
  fresh : Bool := false
deriving DecidableEq, Repr, Inhabited

/-- The engines of a frame (Table 7.3). -/
inductive Engine where
  | te | be | le | pu | ksy
deriving DecidableEq, Repr, Inhabited

/-- What an operation or word will do to a frame's sequencer state at the next launch (R218). -/
inductive Pend where
  | scalar (x : Nat) (v : Scalar)
  | desc (slot : Nat) (d : Desc)
  | descPoison (slot : Nat) (m : Mark)
  | descClean (slot : Nat)
  | flag (i : Nat) (v : Word)
  | lane (fl : BitVec 3)
  | head (region : Nat) (bytes : Nat)
  | tail (region : Nat) (bytes : Nat)
  | freeTiles (region : Nat) (n : Nat)
  | tiles (region at_ : Nat) (ts : List TileSlot)
  | regenTiles (region : Nat) (n : Nat)
deriving DecidableEq, Repr, Inhabited

/-- One write of a transfer, to one address's home: an element's bytes at consecutive addresses from `addr`
(R312), or an ACC add of one element (R315) modulo `q`, or wrapping where `q` is 0. `size` 0 marks an I4 nibble
(`hi` its half); `mark` is the poison of the whole row or line it lies in. -/
structure PWrite where
  addr : Nat := 0
  value : Nat := 0
  size : Nat := 4
  hi : Bool := false
  mark : Option Mark := none
  q : Nat := 0
deriving DecidableEq, Repr, Inhabited

/-- An engine operation in progress (R43, R299): the engines it occupies, its last beat, and the effects
its last beat has, computed from the operands as they stood at its issue: the bytes it writes, the rows it
clears and marks, the sequencer state it leaves at the next launch, whether it has a checked limb (R123)
and the execution fault it raises (R111). `foot` is its destination footprint in row or line numbers and
`dslots` its destination descriptors (R306). -/
structure EngOp where
  op : Nat := 0
  engines : List Engine := []
  lastBeat : Nat := 0
  run : Nat := 0
  cells : List Host.Cell := []
  nibs : List PWrite := []
  clears : List Nat := []
  marks : List (Nat × Mark) := []
  foot : List Nat := []
  dslots : List Nat := []
  pend : List Pend := []
  checked : Bool := false
  badLimb : Option Nat := none   -- a checked limb whose two sums differ, R123
  spans : List (Nat × Nat) := [] -- its destination footprints, as addresses and lengths
  execFault : Option Code := none
deriving DecidableEq, Repr, Inhabited

/-- A remote row or line that a transfer writes elsewhere (R302, R392): its bytes and poison. `dev` is none for
another frame of this device; an ACC row adds elements as `how` says (log entry 20). -/
structure RRow where
  addr : Nat := 0
  bytes : List Byte := []
  mark : Option Mark := none
  dev : Option Nat := none
  acc : Bool := false
  how : Nat := 0
  sent : Bool := false
deriving DecidableEq, Repr, Inhabited

/-- The Feeder words (Table 7.4, 0x60 to 0x64). -/
inductive FKind where
  | copy | gather | scatter | grant | kstream | rel | atom | sld
deriving DecidableEq, Repr, Inhabited

/-- What a transfer that has not read its source yet will move: its record, or a digit's tiles of a key, and
its descriptors as at its issue, anchors applied (R203, R312). `slot` is its destination descriptor; `mark` the poison
that its issue puts on everything it writes. -/
inductive Move where
  | data (x : XRec) (slot : Nat) (d a b : Desc) (mark : Option Mark)
  | keys (key : Nat) (d : Desc) (digit first count ring : Nat) (mark : Option Mark)
deriving DecidableEq, Repr, Inhabited

/-- A transfer a Feeder has accepted and that has not landed (R244, R301). -/
structure Xfer where
  id : Nat := 0
  kind : FKind := .copy
  frame : Nat := 0
  feeder : Nat := 0
  run : Nat := 0
  func : Nat := 0
  issue : Nat := 0                -- its issue beat
  due : Option Nat := none        -- its due beat, R245
  window : Option Nat := none     -- the junction window it was issued in, R70
  isSealed : Bool := false        -- the sealed attribute of its accesses, R174
  dests : List (Option Nat × Nat) := [] -- its destination objects, as device and address (R330)
  move : Option Move := none      -- what it still has to read
  reads : List Nat := []          -- rows and lines it still has to read
  writes : List PWrite := []      -- local writes, committed when it lands
  accs : List PWrite := []        -- ACC adds not yet applied at their homes
  rows : List RRow := []          -- remote rows not yet arrived
  pends : List (Nat × Pend) := [] -- HEAD and TAIL advances and tiles, by frame, at landing
  remTail : Option (Nat × Nat) := none -- DADV on a remote region: an address in it and rows (R319)
  grant : Option (Nat × Credit) := none -- GRANT: the region and the credit (R320)
  foot : List Nat := []           -- rows and lines it would write here (R306)
  mask : BitVec 64 := 0           -- KSTREAM: the frames of its multicast set
  critical : Bool := false        -- KSTREAM: CRITICAL (R362)
  flag : Nat := 0                 -- FLAG.REL: its fields (R329)
  fop : Nat := 0
  value : Nat := 0
  tframe : Nat := 0
  device : Option Nat := none     -- the other device of a FLAG.REL or ATOM
  scope : Nat := 0
  sent : Bool := false            -- its FLAG or ATOM has been sent
  aop : Nat := 0                  -- ATOM: its fields (R343); XD also of SLD
  xd : Nat := 0
  opa : Nat := 0
  opc : Nat := 0
  prime : Nat := 0
  addr : Nat := 0                 -- ATOM and SLD: the word
  mark : Option Mark := none      -- poison of their descriptor
  result : Option Scalar := none  -- an ATOM or SLD result held for its due beat (R230)
  abandoned : Bool := false       -- abandoned by the watchdog (R58)
deriving DecidableEq, Repr, Inhabited

/-- A covered write that was dropped and has suppressed no release yet (R332): the transfer that made it and its
Feeder, or none for an engine; its due beat, or the last beat of the engine's operation; and where it was to go. -/
structure Drop where
  id : Nat := 0
  feeder : Option Nat := none
  beat : Option Nat := none
  device : Option Nat := none
  addr : Nat := 0
deriving DecidableEq, Repr, Inhabited

/-- A loop in progress (R235): first body word, body words, iterations left and index, and where its
words of BODYB beats stand. -/
structure LoopCtx where
  bodyPc : Nat := 0
  bodyW : Nat := 0
  left : Nat := 0
  index : Nat := 0
deriving DecidableEq, Repr, Inhabited

/-- A branch arm in progress (R233): the word that ends the arm, the join word, and whether the branch
has an arm that makes the join floating (R242). -/
structure ArmCtx where
  endPc : Nat := 0
  joinPc : Nat := 0
  floats : Bool := false
deriving DecidableEq, Repr, Inhabited

/-- The contexts enclosing the issue position, innermost first. -/
inductive Ctx where
  | loop (c : LoopCtx)
  | arm (c : ArmCtx)
deriving DecidableEq, Repr, Inhabited

/-- A wait in progress (R239): the flag, target, DEC, whether it is an acquire, its issue beat and T. -/
structure Wait where
  flag : Nat := 0
  target : Nat := 0
  dec : Bool := false
  acq : Bool := false
  issue : Nat := 0
  timeout : Nat := 0
  expired : Bool := false
deriving DecidableEq, Repr, Inhabited

/-- FRM_SEQ_STATUS.STATE (chapter 7). -/
inductive FState where
  | idle | assigned | running | waiting | stopped | fenced | unavailable
deriving DecidableEq, Repr, Inhabited

/-- FRM_SEQ_STATUS, FRM_BEAT_STOP, FRM_MAP and the queue-ring registers of one frame (chapter 7). -/
structure FrmSeq where
  qringBase : BitVec 32 := 0   -- FRM_QRING_BASE[47:16], R251 07; reset 0
  qringSize : BitVec 13 := 1   -- FRM_QRING_SIZE, R251 07; reset 1
  state : FState := .idle      -- FRM_SEQ_STATUS.STATE, 07; reset 0 IDLE
  floating : Bool := false     -- FRM_SEQ_STATUS.FLOATING, R242 07; reset 0
  waitFlag : BitVec 8 := 0     -- FRM_SEQ_STATUS.WAIT_FLAG, 07; reset 0
  pbeat : BitVec 64 := 0       -- FRM_SEQ_PBEAT, 07; reset 0
  stopBeat : BitVec 48 := 0    -- FRM_BEAT_STOP.STOP_BEAT, R253 07; reset 0
  stopArm : Bool := false      -- FRM_BEAT_STOP.ARM, R253 07; reset 0
  stopOrd : Nat := 0           -- place of the last arm among the frames' arms, the newest highest, R253 07; reset 0
  stopHit : Bool := false      -- FRM_BEAT_STOP.HIT, R254 07; reset 0
  stopMissed : Bool := false   -- FRM_BEAT_STOP.MISSED, R253 07; reset 0
  phys : BitVec 6 := 0         -- FRM_MAP.PHYS, R23 07; reset 0 (set at B5)
  domain : BitVec 6 := 0       -- FRM_MAP.DOMAIN, R37 07; reset 0 (set at B5)
deriving DecidableEq, Repr, Inhabited

/-- What the sequencer of a frame holds of the program it runs (R216, R218, R247). -/
structure FrmRun where
  run : Nat := 0                                   -- launch the frame is assigned to, R219 07; 0 none
  word : Nat := 0                                  -- stream index of the next word to issue, R216 07; reset 0
  nextBeat : Nat := 0                              -- TALLY_COUNT beat in which it issues, R216 07; reset 0
  window : List BcWord := []                       -- queue window from stream index winBase, R251 07; reset empty
  winBase : Nat := 0                               -- stream index of the window's first word, R251 07; reset 0
  words : Nat := 0                                 -- WORDS of its stream, R248 07; reset 0
  qoffset : Nat := 0                               -- QOFFSET, R248 07; reset 0
  ctx : List Ctx := []                             -- loops and arms around the issue position, R233 R235 07
  wait : Option Wait := none                       -- a wait in progress, R239 07; reset none
  dtab : List Desc := []                           -- descriptor table, R222 R247 07; reset empty
  xtab : List XRec := []                           -- transfer records, R311 09; reset empty
  issued : Bool := true                            -- every word of the beat issued, R44 02
  endMark : Bool := false                          -- the part ends at the launch just made, R246 07; reset 0
  endIssued : Bool := false                        -- END has issued, R246 07; reset 0
  ended : Bool := true                             -- the frame's part has ended, R246 07
  tables : Bool := false                           -- the tables of the program to start are held, R219 07; reset 0
  held : Bool := false                             -- a word held for a full Feeder, R244 07; reset 0
  lastHeld : Bool := false                         -- held in this beat, R53 02; reset 0
  kcount : Nat := 0                                -- transform counter K, R124 04; zero at program start
  seeds : Vector (Option (BitVec 256)) 16 := Vector.replicate 16 none -- seed slots, R181 05; empty
  pend : List Pend := []                           -- effects of the next launch, R218 07; reset empty
  ops : List EngOp := []                           -- engine operations in progress, R149 04; reset none
  stopped : Bool := false                          -- stopped by BEAT_STOP, R254 07; reset 0
  zeroing : Bool := false                          -- the start waits for new resident regions to be zeroed, R294 09; reset 0
  feeds : List (Nat × Nat) := []                   -- Feeders and due beats of the due transfers issued, R451 R452 14; reset none
  drops : List Drop := []                          -- dropped writes that have suppressed no release, R332 10; reset none
deriving DecidableEq, Repr, Inhabited

/-- Scratchpad, ordering and health registers of one frame (chapters 5, 9, 10, 11, 15). -/
structure FrmReg where
  laneSticky : BitVec 3 := 0    -- FRM_LANE_FLAGS.STICKY, R164 05; reset 0
  laneLast : BitVec 3 := 0      -- FRM_LANE_FLAGS.LAST, R164 05; reset 0
  regNumber : BitVec 8 := 0     -- FRM_REGION_CTRL.NUMBER, R297 09; reset 0
  regBusy : Bool := false       -- FRM_REGION_CTRL.BUSY, R297 09; reset 0
  regResult : BitVec 2 := 0     -- FRM_REGION_CTRL.RESULT, R297 09; reset 0
  xferAddr : BitVec 37 := 0     -- FRM_SPAD_XFER_ADDR[47:11], R324 09; reset 0
  xferFirst : BitVec 12 := 0    -- FRM_SPAD_XFER_CTRL.FIRST_ROW, R324 09; reset 0
  xferRows : BitVec 13 := 0     -- FRM_SPAD_XFER_CTRL.ROWS, R324 09; reset 0
  xferDir : Bool := false       -- FRM_SPAD_XFER_CTRL.DIR, R324 09; reset 0
  spadBusy : Bool := false      -- FRM_SPAD_STATUS.BUSY, R324 09; reset 0
  wiping : Bool := false        -- FRM_SPAD_STATUS.WIPING, R295 R296 09; reset 0
  spadResult : BitVec 3 := 0    -- FRM_SPAD_STATUS.RESULT, R324 09; reset 0
  rrcHits : BitVec 64 := 0      -- FRM_RRC_HITS, 10; reset 0
  rrcMisses : BitVec 64 := 0    -- FRM_RRC_MISSES, 10; reset 0
  suppressed : Bool := false    -- FRM_ORDER_STATUS.SUPPRESSED, R332 10; reset 0
  flagRefused : BitVec 32 := 0  -- FRM_FLAG_REFUSED, R349 10; reset 0
  splitRead : BitVec 4 := 8     -- FRM_FEEDER_SPLIT.READ, R367 11; reset 8
  splitWrite : BitVec 4 := 4    -- FRM_FEEDER_SPLIT.WRITE, R367 11; reset 4
  splitRemote : BitVec 4 := 4   -- FRM_FEEDER_SPLIT.REMOTE, R367 11; reset 4
  checkFails : BitVec 4 := 0    -- FRM_HEALTH.CHECK_FAILS, R483 R484 15; reset 0
  remapBusy : Bool := false     -- FRM_HEALTH.BUSY, R488 15; reset 0
  remapResult : BitVec 3 := 0   -- FRM_HEALTH.RESULT, R488 15; reset 0
  fenceCause : BitVec 2 := 0    -- FRM_HEALTH.FENCE_CAUSE, R486 15; reset 0
  spadCe : BitVec 12 := 0       -- FRM_HEALTH.SPAD_CE, R485 15; reset 0
deriving DecidableEq, Repr, Inhabited

/-- One logical frame. -/
structure Frame where
  seq : FrmSeq := {}
  rn : FrmRun := {}
  reg : FrmReg := {}
  scalars : Vector Scalar 32 := Vector.replicate 32 {}  -- X0 to X31, R227 07; reset 0, unpoisoned
  flags : Vector Word 256 := Vector.replicate 256 0     -- FRM_FLAG_i, R238 07; reset 0
  regions : List Region := []       -- regions held, at most 64, R288 09; reset none
  rrc : List RrcLine := []          -- remote-read cache, 128 lines, R339 10; reset empty
  done : Bool := false              -- signalled completion of the beat in progress, R44 02; reset 0
  active : Bool := false            -- takes part in the completion tree, R45 02; reset 0 (set at a launch)
  decl : Nat := 0                   -- declaration for the next beat in AU, R452 14; reset 0
  deferWipe : Bool := false         -- whole-frame wipe deferred to ON, R468 14; reset 0
  fencePend : Bool := false         -- fence at program end by the check limit, R483 15; reset 0
  lateWrite : Bool := false         -- between a forced gate and RETAIN, R463 14; reset 0
deriving DecidableEq, Repr, Inhabited

end Sys2Proof.Machine
end

