-- ==== Sys2Proof/Machine/StCore.lean ====
section
/-!
DEFINITION. The Tally, the admission controller, the GLOBAL block, device memory and the MAS units
(chapters 2, 3, 5, 11, 13, 14, 15, 17). A field's default is its value at reset.
-/

namespace Sys2Proof.Machine

open Sys2Proof

/-- Group states (Table 2.7). -/
inductive GroupState where
  | none | forming | running | broken
deriving DecidableEq, Repr, Inhabited

/-- The TALLY block (chapter 2). -/
structure Tally where
  run : Bool := false                -- TALLY_CTRL.RUN, R60 02; reset 0
  strClear : Bool := false           -- STR_CLEAR pending for the next launch, R55 02; reset 0
  heldInBeat : Bool := true          -- RUN was 0 during the beat in progress, R53 R60 02; RUN is 0 at reset
  tbLocked : Bool := false           -- TALLY_STATUS.TB_LOCKED, R65 02; reset 0
  tbHoldover : Bool := false         -- TALLY_STATUS.TB_HOLDOVER, R65 02; reset 0
  markDone : Bool := false           -- TALLY_STATUS.MARK_DONE, R67 02; reset 0
  markMissed : Bool := false         -- TALLY_STATUS.MARK_MISSED, R67 02; reset 0
  watchdogFired : Bool := false      -- TALLY_STATUS.WATCHDOG_FIRED, R58 02; reset 0
  wdActed : Bool := false            -- the watchdog has acted for the beat in progress, R58 02; reset 0
  junctionExpired : Bool := false    -- TALLY_STATUS.JUNCTION_EXPIRED, R73 02; reset 0
  lastDoneHeld : Bool := false       -- the last frame to complete was held by a full Feeder, R53 02; reset 0
  lastCause : BitVec 3 := 0          -- TALLY_STATUS.LAST_CAUSE, R53 02; reset 0
  beatFloor : BitVec 8 := 36         -- TALLY_BEAT_FLOOR, R56 02; reset 36
  floorNow : BitVec 8 := 36          -- floor of the beat in progress, R56 02; reset 36
  tokenRate : BitVec 16 := 0         -- TALLY_TOKEN_RATE.RATE_MTOK, 02; reset 0
  count : BitVec 64 := 0             -- TALLY_COUNT, R51 02; reset 0
  strBeats : Vector (BitVec 64) 8 := Vector.replicate 8 0 -- TALLY_STR_BEATS_c, R55 02; reset 0
  strNs : Vector (BitVec 64) 8 := Vector.replicate 8 0    -- TALLY_STR_NS_c, R55 02; reset 0
  j : BitVec 13 := 256               -- TALLY_JUNCTION.J, R70 02; reset 256
  memberIndex : BitVec 4 := 0        -- TALLY_GROUP_CFG.MEMBER_INDEX, R68 02; reset 0
  membersM1 : BitVec 4 := 0          -- TALLY_GROUP_CFG.MEMBERS_M1, R68 02; reset 0
  groupId : BitVec 8 := 0            -- TALLY_GROUP_CFG.GROUP_ID, R68 02; reset 0
  portUp : BitVec 3 := 0             -- TALLY_GROUP_CFG.PORT_UP, R68 02; reset 0
  portDown : BitVec 3 := 0           -- TALLY_GROUP_CFG.PORT_DOWN, R68 02; reset 0
  closed : Bool := false             -- TALLY_GROUP_CFG.CLOSED, 02; reset 0
  gstate : GroupState := .none       -- TALLY_GROUP_STATUS.STATE, 02; reset 0 NONE
  missing : BitVec 16 := 0           -- TALLY_GROUP_STATUS.MISSING, R73 02; reset 0
  gbeat : BitVec 64 := 0             -- TALLY_GROUP_BEAT, R70 02; reset 0
  timeoutUs : BitVec 24 := 1000      -- TALLY_JUNCTION_TIMEOUT, R73 02; reset 1,000
  formSend : Bool := false           -- formation tokens to send at the next launch, R69 02; reset 0
  formReady : Bool := false          -- formation complete, next launch is group beat 0, R69 02; reset 0
  tokens : BitVec 16 := 0            -- members whose token for the closing window is held, R49 02; reset 0
  early : List (Nat × Int) := []     -- tokens held for a later window (member, window), R414 12; reset none
  tokenSent : Bool := false          -- own token for the closing window sent, R70 02; reset 0
  leavePend : Bool := false          -- LEAVE takes effect at the beat's end, R75 02; reset 0
  tb : BitVec 64 := 0                -- TALLY_TB, R64 02; reset 0
  up : Nat := 0                      -- ns since power-on, which no load of the timebase changes; the model's own (log 4)
  tbFine : Nat := 0                  -- ns interpolated since the last reference edge, below 40, R64 02; reset 0
  tbOff : Int := 0                   -- timebase minus the reference, slewed back after holdover, R65 02; reset 0
  slewEdges : Nat := 0               -- edges since the last 1 ns of slew, R65 02; reset 0
  holdNs : Nat := 0                  -- ns run in holdover, R65 02; reset 0
  tbSet : BitVec 64 := 0             -- TALLY_TB_SET, R66 02; reset 0
  syncMode : BitVec 2 := 0           -- TALLY_TB_CTRL.SYNC_MODE, R66 02; reset 0
  loadArm : Bool := false            -- TALLY_TB_CTRL.LOAD_ARM, R66 02; reset 0
  syncOutMode : BitVec 2 := 0        -- TALLY_TB_CTRL.SYNC_OUT_MODE, 02; reset 0
  syncCount : BitVec 16 := 0         -- TALLY_TB_CTRL.SYNC_COUNT, R66 02; reset 0
  lastSync : Option Nat := none      -- time of the last counted edge, R571 18; reset none
  period : BitVec 32 := 1000000      -- TALLY_SYNC_OUT_PERIOD, 02; reset 1,000,000
  lastPulse : BitVec 64 := 0         -- timebase up to which crossed multiples have pulsed, R571 18; reset 0
  capture : BitVec 64 := 0           -- TALLY_TB_CAPTURE, R66 02; reset 0
  markBeat : BitVec 64 := 0          -- TALLY_MARK_BEAT, R67 02; reset 0
  markArmed : Bool := false          -- a mark is armed, R67 02; reset 0
  markTs : BitVec 64 := 0            -- TALLY_MARK_TS, R67 02; reset 0
  latch : List (Nat × Word) := []    -- high words latched by low-word reads, R62 02; reset none
deriving DecidableEq, Repr, Inhabited

/-- A grant of the admission controller for the next beat, or the one of the beat in progress (R454). -/
structure Grant where
  phases : Nat := 1
  e : Nat := 0
  sums : List Nat := []
deriving DecidableEq, Repr, Inhabited

/-- Domain states (Table 14.3). -/
inductive DomState where
  | on | retain | off | switching
deriving DecidableEq, Repr, Inhabited

/-- A domain transition that the controller has been asked for (R463, R467): its domain and target, and whether a forced
gate asks for it. -/
structure DomTrans where
  dom : Nat := 0
  target : DomState := .on
  forced : Bool := false
deriving DecidableEq, Repr, Inhabited

/-- A power domain (ADMIT_DOMAIN_i, Table 1.7). -/
structure Domain where
  state : DomState := .off      -- ADMIT_DOMAIN_i.STATE, R465 14; reset column 0 (ON), R545: only 35 ON at B0 (log 3)
  forced : Bool := false        -- ADMIT_DOMAIN_i.FORCED, R463 14; reset 0
  cold : Bool := true           -- contents lost since it was last ON, R467 14; OFF at reset (R545: log 3)
  fvalid : BitVec 4 := 0        -- ADMIT_DOMAIN_i.FVALID, R37 14; reset 0
  lframes : Vector (BitVec 6) 4 := Vector.replicate 4 0 -- ADMIT_DOMAIN_i.LFRAME0..3, R37 14; reset 0
deriving DecidableEq, Repr, Inhabited

/-- The ADMIT block (chapter 14). -/
structure Admit where
  fixed : Bool := false            -- ADMIT_CTRL.FIXED, R453 14; reset 0
  rampEn : Bool := true            -- ADMIT_CTRL.RAMP_EN, R453 14; reset 1
  cntClear : Bool := false         -- CNT_CLEAR pending for the next launch, R55 02; reset 0
  throttled : Bool := false        -- ADMIT_STATUS.THROTTLED, R462 14; reset 0
  crit : Bool := false             -- ADMIT_STATUS.CRIT, R463 14; reset 0
  lastP : BitVec 2 := 0            -- ADMIT_STATUS.LAST_P, R454 14; reset 0
  stale : Bool := true             -- ADMIT_STATUS.STALE, R453 14; reset 1
  lastE : BitVec 16 := 0           -- ADMIT_STATUS.LAST_E, R453 14; reset 0
  budget : BitVec 16 := 1600       -- ADMIT_BUDGET.BUDGET, R458 14; reset 1,600
  budgetNow : BitVec 16 := 1600    -- budget in force since the last launch, R458 14; reset 1,600
  cap : BitVec 16 := 65535         -- ADMIT_CAP.CAP, R453 14; reset 65,535
  fallback : BitVec 16 := 1600     -- ADMIT_CAP.FALLBACK, R453 14; reset 1,600
  rampFloor : BitVec 16 := 512     -- ADMIT_RAMP.RAMP_FLOOR, R453 14; reset 512
  gateWaitMs : BitVec 16 := 100    -- ADMIT_RAMP.GATE_WAIT_MS, R470 14; reset 100
  tjHot : BitVec 8 := 100          -- ADMIT_THERMAL.TJ_HOT, R461 14; reset 100
  tjCrit : BitVec 8 := 108         -- ADMIT_THERMAL.TJ_CRIT, R461 14; reset 108
  throttleNum : BitVec 4 := 8      -- ADMIT_THERMAL.THROTTLE_NUM, R462 14; reset 8
  forceDrainUs : BitVec 12 := 10   -- ADMIT_THERMAL.FORCE_DRAIN_US, R463 14; reset 10
  phaseBeats : Vector (BitVec 64) 4 := Vector.replicate 4 0 -- ADMIT_PHASE_BEATS_p, R457 14; reset 0
  throttleBeats : BitVec 64 := 0   -- ADMIT_THROTTLE_BEATS, R462 14; reset 0
  declPeak : BitVec 16 := 0        -- ADMIT_DECL_PEAK, 14; reset 0
  domSel : BitVec 6 := 0           -- ADMIT_DOMAIN_CTRL.DOMAIN, R470 14; reset 0
  domTarget : BitVec 2 := 0        -- ADMIT_DOMAIN_CTRL.TARGET, R470 14; reset 0
  domResult : BitVec 3 := 0        -- ADMIT_DOMAIN_CTRL.RESULT, R470 14; reset 0
  domQueue : List DomTrans := []   -- transitions in the order they were asked for, the first one performed (ADMIT_DOMAIN_CTRL.BUSY), R467 R470 14; reset none
  domains : Vector Domain 36 := (Vector.replicate 36 {}).set 35 { state := .on } -- Table 1.7; R545: 35 ON at B0
  targetMv : Vector (BitVec 10) 2 := Vector.replicate 2 0 -- ADMIT_VCORE_r.TARGET_MV, R459 14; reset 0
  readMv : Vector (BitVec 10) 2 := Vector.replicate 2 0   -- ADMIT_VCORE_r.READ_MV, R459 14; reset 0
  vmin : BitVec 10 := 600          -- ADMIT_VLIMIT.VMIN_MV, R459 14; reset 600
  vmax : BitVec 10 := 850          -- ADMIT_VLIMIT.VMAX_MV, R459 14; reset 850
  grants : List (Nat × Nat) := []  -- time and AU of the beats granted in the last 100 us, R503 16; reset none
  avsStatus : Nat := 0             -- what the last AVSBus reads of R459 returned, 14; no reset given, DESIGN CHOICE 0 (log 2)
  aPrev : Nat := 0                 -- A_prev, R453 14; reset 0 (no beat before)
  grant : Option Grant := none     -- grant of the next beat, R454 14; reset none
  cur : Grant := {}                -- grant of the beat in progress, R455 14; reset one phase
  group : Nat := 0                 -- phase group in progress, R455 14; reset 0
  thermtrip : Bool := false        -- THERMTRIP_N asserted, R464 14; reset 0
  forcedPend : List Nat := []      -- domains in a forced gate not yet in RETAIN, R463 14; reset none
  splitSince : Nat := 0            -- split beats since the last BEAT_SPLIT record, R457 14; reset 0
  splitLogUp : Option Nat := none -- time of the last BEAT_SPLIT record, R457 14; reset none
deriving DecidableEq, Repr, Inhabited

/-- A prime-table entry (GLOBAL_PRIME_ENTRY_i, R83, R84). -/
structure PrimeEntry where
  q : BitVec 31 := 0       -- Q, R84 03; reset 0
  valid : Bool := false    -- VALID, R84 03; reset 0
  root : BitVec 31 := 0    -- ROOT, R84 03; reset 0
  rootLog : BitVec 5 := 0  -- ROOT_LOG, R84 03; reset 0
  log2q : BitVec 16 := 0   -- LOG2Q, R84 03; reset 0
  qneg : Word := 0         -- QNEG, R84 03; reset 0
  rModQ : Word := 0        -- R_MOD_Q, R84 03; reset 0
  rrModQ : Word := 0       -- RR_MOD_Q, R84 03; reset 0
deriving DecidableEq, Repr, Inhabited

/-- An installed prime set, the fields of its block (Table 3.4). -/
structure PSet where
  nq : Nat := 0
  np : Nat := 0
  logNMax : Nat := 0
  dnum : Nat := 0
  t : Nat := 0
  constBase : Nat := 0
  qidx : List Nat := []
  pidx : List Nat := []
deriving DecidableEq, Repr, Inhabited

/-- A seal window (GLOBAL_SEAL_WIN_i, R171). -/
structure SealWin where
  valid : Bool := false    -- VALID, R171 05; reset 0
  owner : BitVec 6 := 0    -- OWNER, R171 05; reset 0
  base : BitVec 32 := 0    -- BASE[47:16], R171 05; reset 0
  size : BitVec 21 := 0    -- SIZE, R171 05; reset 0
deriving DecidableEq, Repr, Inhabited

/-- The resources of one function (GLOBAL_FUNC_n, R423). -/
structure Func where
  frames : BitVec 64 := 0        -- FRAMES, R423 13; reset 0
  memBase : BitVec 20 := 0       -- MEM_BASE[47:28], R423 13; reset 0
  memSize : BitVec 20 := 0       -- MEM_SIZE[47:28], R423 13; reset 0
  streamFirst : BitVec 20 := 0   -- STREAM_FIRST, R423 13; reset 0
  streamCount : BitVec 21 := 0   -- STREAM_COUNT, R423 13; reset 0
  sqMax : BitVec 7 := 0          -- SQ_MAX, R423 13; reset 0
  cqMax : BitVec 7 := 0          -- CQ_MAX, R423 13; reset 0
  progMax : BitVec 12 := 0       -- PROG_MAX, R423 13; reset 0
  carryAccept : BitVec 2 := 0    -- CARRY_ACCEPT, R426 13; reset 0
  enable : Bool := false         -- ENABLE, R423 13; reset 0
  busy : Bool := false           -- BUSY, R423 13; reset 0
  enabling : Bool := false       -- an enable waits for its frame wipes, R423 13; reset 0
  result : BitVec 2 := 0         -- RESULT, R423 13; reset 0
  resetting : Bool := false      -- HOSTQ_FN_STATUS.RESETTING, R446 13; reset 0
  wiping : Bool := false         -- HOSTQ_FN_STATUS.WIPING, R446 13; reset 0
deriving DecidableEq, Repr, Inhabited

/-- The fault ring and fault registers (Table 15.5). -/
structure FaultRegs where
  orphan : Bool := false           -- GLOBAL_FAULT_STATUS.ORPHAN, R495 15; reset 0
  restarting : Bool := false       -- GLOBAL_FAULT_STATUS.RESTARTING, R494 15; reset 0
  expiries : BitVec 2 := 0         -- GLOBAL_FAULT_STATUS.EXPIRIES, R494 15; reset 0
  alert : Bool := false            -- GLOBAL_FAULT_STATUS.ALERT, R492 15; reset 0
  profileRaised : Bool := false    -- GLOBAL_FAULT_STATUS.PROFILE_RAISED, R482 15; reset 0
  lastMgmt : Code := 0             -- GLOBAL_FAULT_STATUS.LAST_MGMT_CODE, 15; reset 0
  ringBase : BitVec 52 := 0        -- GLOBAL_FAULT_RING_BASE, R491 15; reset 0
  sizeM1 : BitVec 16 := 0          -- GLOBAL_FAULT_RING_CFG.SIZE_M1, R491 15; reset 0
  ringEn : Bool := false           -- GLOBAL_FAULT_RING_CFG.ENABLE, R491 15; reset 0
  vector : BitVec 11 := 0          -- GLOBAL_FAULT_RING_CFG.VECTOR, R491 15; reset 0
  ien : Bool := false              -- GLOBAL_FAULT_RING_CFG.IEN, R491 15; reset 0
  tail : BitVec 16 := 0            -- GLOBAL_FAULT_RING_TAIL.TAIL, R491 15; reset 0
  phase : Bool := true             -- GLOBAL_FAULT_RING_TAIL.PHASE, R491 15; reset 1
  head : BitVec 16 := 0            -- head set by GLOBAL_FAULT_RING_HEAD, R491 15; reset 0
  lost : BitVec 64 := 0            -- GLOBAL_FAULT_LOST, R491 15; reset 0
  checkLimit : BitVec 4 := 4       -- GLOBAL_FAULT_CFG.CHECK_LIMIT, R483 15; reset Table 15.2 (S: 4)
  orphanWait : Option (BitVec 512) := none -- steps 4 to 6 of the orphan sequence still to come, and the record, R495 15; reset none
  orphanRec : BitVec 512 := 0      -- GLOBAL_ORPHAN_RECORD, Table 15.10 15; no reset given, DESIGN CHOICE 0 (log 2)
  fencedPhys : List Nat := []      -- fenced physical frames, die × 34 + number, R489 15; reset none
  lastNotice : List (Code × Nat × Nat × Nat) := [] -- last notice per code, source and index, and its time, R491 15; reset none
deriving DecidableEq, Repr, Inhabited

/-- The GLOBAL block (chapters 3, 5, 13, 15, 17). -/
structure Global where
  ready : Bool := false              -- GLOBAL_STATUS.READY, 13; reset 0
  profile : BitVec 2 := 0            -- GLOBAL_STATUS.PROFILE, R482 13; reset 0
  pfErrCode : Code := 0              -- GLOBAL_PF_ERR.LAST_CODE, 13; reset 0
  pfErrFunc : BitVec 6 := 0          -- GLOBAL_PF_ERR.LAST_FUNC, 13; reset 0
  pfErrCount : BitVec 32 := 0        -- GLOBAL_PF_ERR.COUNT, 13; reset 0
  bar2Base : BitVec 20 := 0          -- GLOBAL_BAR2_WINDOW.BASE[47:28], R428 13; reset 0
  funcs : Vector Func 64 := Vector.replicate 64 {} -- GLOBAL_FUNC_n, R423 13; reset 0
  streamBase : BitVec 22 := 0        -- GLOBAL_STREAM_BASE[47:26], R439 13; reset 0
  streamHits : BitVec 64 := 0        -- GLOBAL_STREAM_HITS, 13; reset 0
  streamMisses : BitVec 64 := 0      -- GLOBAL_STREAM_MISSES, 13; reset 0
  link : HostLink := {}              -- the host port's link and BAR sizes, R421 R427 13; DESIGN CHOICE (log 2)
  stageQ : BitVec 31 := 0            -- GLOBAL_PRIME_STAGE.Q, R83 03; reset 0
  stageRoot : BitVec 31 := 0         -- GLOBAL_PRIME_STAGE.ROOT, R83 03; reset 0
  primeIndex : BitVec 8 := 0         -- GLOBAL_PRIME_CTRL.INDEX, R83 03; reset 0
  primeRootLog : BitVec 5 := 0       -- GLOBAL_PRIME_CTRL.ROOT_LOG, R83 03; reset 0
  primeBusy : Bool := false          -- GLOBAL_PRIME_STATUS.BUSY, R83 03; reset 0
  primeResult : BitVec 3 := 0        -- GLOBAL_PRIME_STATUS.RESULT, R83 03; reset 0
  primeLast : BitVec 8 := 0          -- GLOBAL_PRIME_STATUS.LAST_INDEX, 03; reset 0
  primes : Vector PrimeEntry 256 := Vector.replicate 256 {} -- GLOBAL_PRIME_ENTRY_i, R83 03; reset empty (R85)
  psets : List (Nat × PSet) := []    -- installed prime sets (GLOBAL_PSET_VALID), R88 03; reset none
  sealBase : BitVec 32 := 0          -- GLOBAL_SEAL_STAGE.BASE, R171 05; reset 0
  sealIndex : BitVec 6 := 0          -- GLOBAL_SEAL_CTRL.INDEX, R171 05; reset 0
  sealOwner : BitVec 6 := 0          -- GLOBAL_SEAL_CTRL.OWNER, R171 05; reset 0
  sealOp : Bool := false             -- GLOBAL_SEAL_CTRL.OP, R171 05; reset 0
  sealSize : BitVec 21 := 0          -- GLOBAL_SEAL_CTRL.SIZE, R171 05; reset 0
  sealBusy : Bool := false           -- GLOBAL_SEAL_STATUS.BUSY, R171 05; reset 0
  sealPend : Option (Bool × BitVec 6 × SealWin × BitVec 3) := none -- SET or RELEASE in progress, with a release's RESULT, R171 R172 05; reset none
  sealResult : BitVec 3 := 0         -- GLOBAL_SEAL_STATUS.RESULT, R171 05; reset 0
  sealLast : BitVec 6 := 0           -- GLOBAL_SEAL_STATUS.LAST_INDEX, 05; reset 0
  seals : Vector SealWin 64 := Vector.replicate 64 {} -- GLOBAL_SEAL_WIN_i, R171 05; reset 0
  fault : FaultRegs := {}
deriving DecidableEq, Repr, Inhabited

/-- One memory port's MEMC registers (Table 11.4). -/
structure MemPort where
  rate : BitVec 3 := 0         -- MEMC_CFG.RATE, 11; reset 0
  density : BitVec 2 := 0      -- MEMC_CFG.DENSITY, 11; reset 0
  ranks : Bool := false        -- MEMC_CFG.RANKS, 11; reset 0
  granule : BitVec 2 := 0      -- MEMC_CFG.GRANULE, R361 11; reset 0
  trained : Bool := false      -- MEMC_STATUS.TRAINED, 11; reset 0
  retraining : Bool := false   -- MEMC_STATUS.RETRAINING, R357 11; reset 0
  refresh : BitVec 3 := 0      -- MEMC_STATUS.REFRESH, 11; reset 0
  scrubbing : Bool := false    -- MEMC_STATUS.SCRUBBING, R369 11; reset 0
  p0max : BitVec 7 := 48       -- MEMC_PRIO.P0_MAX, R363 11; reset 48
  p3min : BitVec 6 := 2        -- MEMC_PRIO.P3_MIN, R363 11; reset 2
  w1 : BitVec 4 := 2           -- MEMC_PRIO.W1, R363 11; reset 2
  w2 : BitVec 4 := 1           -- MEMC_PRIO.W2, R363 11; reset 1
  ce : BitVec 32 := 0          -- MEMC_ECC_CE, R359 11; reset 0
  ue : BitVec 32 := 0          -- MEMC_ECC_UE, R359 11; reset 0
  eccLine : BitVec 37 := 0     -- MEMC_ECC_ADDR.LINE, R359 11; reset 0
  periodH : BitVec 16 := 24    -- MEMC_SCRUB.PERIOD_H, R369 11; reset 24
  passes : BitVec 16 := 0      -- MEMC_SCRUB.PASSES, R369 11; reset 0
  scrubNext : Nat := 0         -- port-local line the scrub reads next, R369 11; DESIGN CHOICE 0 (log 2)
  bytes : Vector (BitVec 64) 4 := Vector.replicate 4 0 -- MEMC_BYTES_c, 11; reset 0
deriving DecidableEq, Repr, Inhabited

/-- Why a device-memory wipe runs (R370, R423, R446, R172). -/
inductive WipeKind where
  | span | boot | part (f : Nat) | sealed (i : Nat)
deriving DecidableEq, Repr, Inhabited

/-- A wipe in progress: the lines of [base, base + size) not yet reached (R370, R371). -/
structure Wipe where
  kind : WipeKind := .span
  base : Nat := 0
  size : Nat := 0
  wiped : List Nat := []   -- lines wiped ahead of order (R371)
deriving DecidableEq, Repr, Inhabited

/-- A host read that waits for the lines it reaches to be wiped (R371): what it reads stands, its place in the order of
its lines being kept (R364). -/
structure HeldRead where
  func : Nat := 0
  offset : Nat := 0
  tag : Nat := 0
  lines : List Nat := []
  bytes : List Byte := []
  ep : Bool := false
deriving DecidableEq, Repr, Inhabited

/-- Device memory's registers and wipes (chapter 11). -/
structure MemC where
  ports : Vector MemPort 16 := Vector.replicate 16 {}
  wipeBase : BitVec 37 := 0       -- MEMC_WIPE_BASE[47:11], R372 11; reset 0
  wipeSize : BitVec 37 := 0       -- MEMC_WIPE_SIZE[47:11], R372 11; reset 0
  wipeResult : BitVec 2 := 0      -- MEMC_WIPE_CTRL.RESULT, R372 11; reset 0
  holdLimit : BitVec 16 := 8000   -- MEMC_WIPE_CTRL.HOLD_LIMIT_US, R371 11; reset 8,000
  wipeDone : BitVec 64 := 0       -- MEMC_WIPE_DONE, 11; reset 0
  wipes : List Wipe := []         -- wipes in progress (BUSY), R370 11; reset none
  selfRefresh : Bool := false     -- the DRAM is in self-refresh, R495 15; reset 0
  held : List HeldRead := []      -- host reads held, R371 11; reset none
deriving DecidableEq, Repr, Inhabited

/-- Layer states (Table 11.6). -/
inductive LState where
  | idle | opened | closing | closed | voting | stepping
deriving DecidableEq, Repr, Inhabited

/-- A shape in the format of MAS_L_SHAPE (R373, R403). -/
structure Shape where
  logN : BitVec 5 := 0        -- LOG_N, R373 11; reset 0
  level : BitVec 7 := 0       -- LEVEL, R373 11; reset 0
  capacity : BitVec 8 := 0    -- CAPACITY, R373 11; reset 0
  comps : BitVec 2 := 0       -- COMPONENTS, R373 11; reset 0
  scheme : BitVec 4 := 0      -- SCHEME, R373 11; reset 0
  pset : BitVec 8 := 0        -- PSET, R373 11; reset 0
  objects : BitVec 16 := 0    -- OBJECTS, R373 11; reset 0
deriving DecidableEq, Repr, Inhabited

/-- One MAS layer entry (Table 11.7). -/
structure Layer where
  wBase : BitVec 37 := 0      -- MAS_L_W_BASE[47:11], R373 11; reset 0
  mBase : BitVec 37 := 0      -- MAS_L_M_BASE[47:11], R373 11; reset 0
  shape : Shape := {}
  scaleW : BitVec 20 := 0     -- MAS_L_SCALE.SCALE_W, R373 11; reset 0
  scaleM : BitVec 20 := 0     -- MAS_L_SCALE.SCALE_M, R373 11; reset 0
  cfrac : BitVec 6 := 0       -- MAS_L_SCALE.CFRAC, R373 11; reset 0
  beta : BitVec 64 := 0       -- MAS_L_BETA, R377 11; reset 0
  eta : BitVec 64 := 0        -- MAS_L_ETA, R377 11; reset 0
  steps : BitVec 64 := 0      -- MAS_L_STEPS, R381 11; reset 0
  shards : BitVec 13 := 0     -- MAS_L_SHARD.SHARDS, R379 11; reset 0
  rset : BitVec 6 := 0        -- MAS_L_SHARD.RSET, R379 11; reset 0
  state : LState := .idle     -- MAS_L_STATUS.STATE, R374 11; reset IDLE
  etaValid : Bool := false    -- MAS_L_STATUS.ETA_VALID, R377 11; reset 0
  result : BitVec 4 := 0      -- MAS_L_STATUS.RESULT, R374 11; reset 0
  lastCode : Code := 0        -- MAS_L_STATUS.LAST_CODE, R381 11; reset 0
  linesIn : BitVec 64 := 0    -- MAS_L_LINES_IN, R375 11; reset 0
  dropped : BitVec 64 := 0    -- MAS_L_DROPPED, R376 11; reset 0
  lastC : BitVec 64 := 0      -- MAS_L_LAST_C, R377 11; reset 0
  clearM : Bool := false      -- CLEAR_M of the STEP in progress, R378 11; reset 0
  voteEta : BitVec 64 := 0    -- ETA latched by the vote, R379 11; reset 0
  coef : Int := 0             -- C of the step in progress, R377 11; reset 0
  voteRound : Option Nat := none -- round of RSET that the vote went into, R379 R380 11; reset none
deriving DecidableEq, Repr, Inhabited

/-- The MAS block (chapter 11). -/
structure Mas where
  voteTimeout : BitVec 24 := 1000  -- MAS_CTRL.VOTE_TIMEOUT_US, R380 11; reset 1,000
  irqVector : BitVec 11 := 0       -- MAS_IRQ.VECTOR, R381 11; reset 0
  irqIen : Bool := false           -- MAS_IRQ.IEN, R381 11; reset 0
  layers : Vector Layer 64 := Vector.replicate 64 {}
deriving DecidableEq, Repr, Inhabited

end Sys2Proof.Machine
end

