-- ==== Sys2Proof/Machine/StLink.lean ====
section
/-!
DEFINITION. The Carry ports, the packets and flits they carry, the requests a device has outstanding
and its reduction sets (chapter 12). A field's default is its value at reset.
-/

namespace Sys2Proof.Machine

open Sys2Proof

/-- A Carry packet: the header of Table 12.5 and the extension and data of Table 12.6. Fields a type
does not carry are 0. -/
structure Packet where
  ptype : Nat := 0
  dl : Bool := false
  poison : Bool := false
  acc : Bool := false
  det : Bool := false
  dst : Nat := 0
  src : Nat := 0
  sframe : Nat := 0
  siod : Bool := false
  adv : Bool := false
  addr : Nat := 0
  len : Nat := 0
  tag : Nat := 0
  func : Nat := 0
  arg : Nat := 0
  ext : List Byte := []
  data : List Byte := []
deriving DecidableEq, Repr, Inhabited

/-- A flit in the replay buffer (R388): the fields of its header that a replay sends again (Table 12.3), its
payload and the packets that end in it. -/
structure FlitRec where
  seq : Nat := 0
  nak : Bool := false
  idle : Bool := false
  first : Nat := 255
  crvc : Nat := 0
  crcnt : Nat := 0
  payload : List Byte := []
  packets : List Packet := []
deriving DecidableEq, Repr, Inhabited

/-- Port states (Table 12.12). -/
inductive PState where
  | disabled | equalize | align | ident | active | retrain | down
deriving DecidableEq, Repr, Inhabited

/-- A packet inside the device that arrived on a port and is not yet routed (R395). -/
structure Inbound where
  port : Nat := 0
  pkt : Packet := {}
deriving DecidableEq, Repr, Inhabited

/-- One Carry port (Tables 12.13 and 12.14). -/
structure Port where
  role : BitVec 4 := 0          -- CARRY_CFG.ROLE, R394 12; reset 0 (from the image at B4)
  hold : Bool := false          -- left ACTIVE less than LINK_HOLD_MS ago, R416 R417 12; reset 0
  enable : Bool := false        -- CARRY_CFG.ENABLE, R416 12; reset 0
  spareArm : Bool := false      -- CARRY_CFG.SPARE_ARM, R418 12; reset 0
  fullOnly : Bool := false      -- CARRY_CFG.FULL_ONLY, R416 12; reset 0
  state : PState := .disabled   -- CARRY_STATUS.STATE, R416 12; reset 0
  width16 : Bool := false       -- CARRY_STATUS.WIDTH16, R385 12; reset 0
  sparesUsed : BitVec 2 := 0    -- CARRY_STATUS.SPARES_USED, 12; reset 0
  peerRole : BitVec 4 := 0      -- CARRY_STATUS.PEER_ROLE, R394 12; reset 0
  peerDev : BitVec 12 := 0      -- CARRY_STATUS.PEER_DEV, R394 12; reset 0
  identFail : Bool := false     -- CARRY_STATUS.IDENT_FAIL, R394 12; reset 0
  lanes : BitVec 34 := 0        -- CARRY_LANES.ACTIVE, 12; reset 0
  lanesFailed : BitVec 34 := 0  -- CARRY_LANES_FAILED, R418 12; reset 0
  pingDone : Bool := false      -- CARRY_CTRL.PING_DONE, R415 12; reset 0
  pingOut : Bool := false       -- a PING is outstanding, R415 12; reset 0
  flitsTx : BitVec 64 := 0      -- CARRY_FLITS_TX, 12; reset 0
  flitsRx : BitVec 64 := 0      -- CARRY_FLITS_RX, 12; reset 0
  fecCorr : BitVec 64 := 0      -- CARRY_FEC_CORR, 12; reset 0
  fecUncorr : BitVec 64 := 0    -- CARRY_FEC_UNCORR, 12; reset 0
  checkFail : BitVec 64 := 0    -- CARRY_CHECK_FAIL, R388 12; reset 0
  replays : BitVec 64 := 0      -- CARRY_REPLAYS, R388 12; reset 0
  retrains : BitVec 64 := 0     -- CARRY_RETRAINS, R416 12; reset 0
  laneSwaps : BitVec 64 := 0    -- CARRY_LANE_SWAPS, R418 12; reset 0
  dropped : BitVec 64 := 0      -- CARRY_DROPPED, R391 R395 R402 12; reset 0
  times : Vector (BitVec 64) 4 := Vector.replicate 4 0 -- CARRY_TIME_T1 to T4, R415 12; reset 0
  rxSeq : BitVec 12 := 0        -- SEQ of the next flit expected, R388 12; no reset given, DESIGN CHOICE 0 (log 2)
  txSeq : BitVec 12 := 0        -- SEQ of the next flit sent, R388 12; no reset given, DESIGN CHOICE 0 (log 2)
  rxBuf : List Byte := []       -- bytes of a packet that spans flits, R390 12; reset empty
  replay : List FlitRec := []   -- replay buffer, R388 12; reset empty
  replayed : Nat := 0           -- times the oldest unaccepted flit was replayed, R388 12; reset 0
  txq : List Packet := []       -- packets queued for the port, R389 R417 12; reset empty
  credits : Vector Nat 6 := Vector.replicate 6 0 -- credits held per VC, R389 12; reset 0 (set when training ends)
  vcTurn : Vector Bool 3 := Vector.replicate 3 false -- per class, the second VC is served next, R389 12; DESIGN CHOICE first (log 2)
  owed : Vector Nat 6 := Vector.replicate 6 0 -- credits to return per VC once ACTIVE, R389 R417 12; reset 0
  uncorrAt : List Nat := []     -- times of the uncorrectable codewords of the last 1 ms, R416 12; reset none
deriving DecidableEq, Repr, Inhabited

/-- What a request a device sent was for. -/
inductive ReqOwner where
  | row (xfer : Nat) | flag (xfer : Nat) | atom (xfer : Nat) | agent
deriving DecidableEq, Repr, Inhabited

/-- A request this device sent and that is unanswered (R392, R401): its packet, with its TAG, and the Feeder that sent it. -/
structure Req where
  owner : ReqOwner := .agent
  feeder : Nat := 0
  pkt : Packet := {}
deriving DecidableEq, Repr, Inhabited

/-- The round of one line of a reduction set (R405 to R411). -/
structure RsLine where
  line : Nat := 0             -- line number in the window
  round : Nat := 0            -- the round open or next, R405 12; reset 0 at ARM
  locals : Nat := 0           -- local contributions of the round, R406 12
  reds : List Nat := []       -- roles of the children whose RED of the round has come, R406 12
  started : Bool := false     -- a contribution of the round has come, R405 12
  data : Bool := false        -- a contribution whose data counts has come, R405 R407 12
  sent : Bool := false        -- the round's RED has gone to the parent, R406 12
  done : Bool := false        -- the round has been delivered locally, R409 12
  mark : Option Code := none  -- the first recorded cause, R406 12
  vote : List Nat := []       -- combined vote words, R412 12
  held : List (List Byte × Option Code) := [] -- local contributions of the next round held, R405 12
deriving DecidableEq, Repr, Inhabited

/-- A reduction set of the device (R403, CARRY_RS_s). -/
structure RSet where
  vote : Bool := false          -- RS_CFG.KIND, R403 12; reset 0
  parent : BitVec 4 := 0        -- RS_CFG.PARENT, R403 12; reset 0
  children : BitVec 8 := 0      -- RS_CFG.CHILDREN, R403 12; reset 0
  locals : BitVec 7 := 0        -- RS_CFG.LOCAL, R403 12; reset 0
  doneFrame : BitVec 6 := 0     -- RS_CFG.DONE_FRAME, R409 12; reset 0
  doneFlag : BitVec 8 := 0      -- RS_CFG.DONE_FLAG, R409 12; reset 0
  doneEn : Bool := false        -- RS_CFG.DONE_EN, R409 12; reset 0
  shape : Shape := {}
  contrib : BitVec 37 := 0      -- RS_CONTRIB.BASE, R404 12; reset 0
  deliver : BitVec 37 := 0      -- RS_DELIVER.BASE, R404 12; reset 0
  area : BitVec 37 := 0         -- RS_STATE.BASE, R404 12; reset 0
  armed : Bool := false         -- RS_CTRL.STATE, R404 12; reset 0 IDLE
  result : BitVec 4 := 0        -- RS_CTRL.RESULT, R404 12; reset 0
  rounds : BitVec 64 := 0       -- RS_ROUNDS, R409 12; reset 0
  lines : List RsLine := []     -- rounds of its lines, kept in the state area, R404 12; empty at ARM
  votes : List (Nat × Option (List Nat)) := [] -- combined votes delivered and not yet taken by the MAS, with their rounds (none: poisoned), R412 12; reset none
  logged : List Nat := []       -- rounds whose PRIME_TABLE_HASH was logged, R407 12; reset none
deriving DecidableEq, Repr, Inhabited

/-- The CARRY blocks (chapter 12). -/
structure Carry where
  ports : Vector Port 8 := Vector.replicate 8 {}
  dxM1 : BitVec 4 := 0         -- CARRY_TOPO.DX_M1, R393 12; reset 0
  dyM1 : BitVec 4 := 0         -- CARRY_TOPO.DY_M1, R393 12; reset 0
  dzM1 : BitVec 4 := 0         -- CARRY_TOPO.DZ_M1, R393 12; reset 0
  closed : BitVec 3 := 0       -- CARRY_TOPO.CLOSED, R393 12; reset 0
  expDim : BitVec 2 := 0       -- CARRY_TOPO.EXP_DIM, R394 12; reset 0
  expStride : BitVec 4 := 0    -- CARRY_TOPO.EXP_STRIDE, R394 12; reset 0
  devnum : BitVec 12 := 0      -- CARRY_TOPO.DEVNUM, R393 12; reset 0
  bypass : Bool := false       -- CARRY_CTRL0.BYPASS, R399 12; reset 0
  ackTimeoutUs : BitVec 24 := 1000 -- CARRY_CTRL0.ACK_TIMEOUT_US, R401 12; reset 1,000
  linkHoldMs : BitVec 16 := 50     -- CARRY_TIMEOUTS.LINK_HOLD_MS, R416 12; reset 50
  redTimeoutUs : BitVec 16 := 1000 -- CARRY_TIMEOUTS.RED_TIMEOUT_US, R411 12; reset 1,000
  sets : Vector RSet 64 := Vector.replicate 64 {}
  inq : List Inbound := []     -- packets received and not yet routed, R395 12; reset none
  atHome : List Packet := []   -- requests that reached their DST here, not yet handled, R400 12; reset none
  resps : List Packet := []    -- responses that reached their sender, not yet handled, R392 12; reset none
  reds : List Inbound := []    -- RED and REDDOWN received, not yet handled, R406 12; reset none
  tokens : List Inbound := []  -- JUNCTION packets received, not yet handled, R414 12; reset none
  timesIn : List (Nat × Packet × BitVec 64) := [] -- TIME packets received, with their arrival time, R415 12
  reqs : List Req := []        -- requests sent and unanswered, R392 R401 12; reset none
  nextTag : BitVec 12 := 0     -- TAG of the next request, R391 12; DESIGN CHOICE 0 (log 2)
deriving DecidableEq, Repr, Inhabited

end Sys2Proof.Machine
end

