-- ==== Sys2Proof/Machine/StHost.lean ====
section
/-!
DEFINITION. The HOSTQ: queues, records, the stream table, launches, host copies, interrupts, and what
the part has sent outside (chapter 13). A field's default is its value at reset.
-/

namespace Sys2Proof.Machine

open Sys2Proof

/-- A submission queue (SQ_BASE, SQ_CFG, SQ_STATUS; R430, R431). -/
structure Sq where
  base : BitVec 52 := 0     -- SQ_BASE[63:12], R430 13; reset 0
  sizeM1 : BitVec 16 := 0   -- SQ_CFG.SIZE_M1, R430 13; reset 0
  cqid : BitVec 6 := 0      -- SQ_CFG.CQID, R435 13; reset 0
  enable : Bool := false    -- SQ_CFG.ENABLE, R430 13; reset 0
  head : BitVec 16 := 0     -- SQ_STATUS.HEAD, R432 13; reset 0
  tail : BitVec 16 := 0     -- tail set by SQ_TAIL, R431 13; reset 0
  error : Bool := false     -- SQ_STATUS.ERROR, R431 13; reset 0
  cause : BitVec 2 := 0     -- SQ_STATUS.CAUSE, R431 R432 13; reset 0
deriving DecidableEq, Repr, Inhabited

/-- A completion queue (CQ_BASE, CQ_CFG, CQ_COAL, CQ_STATUS; R430, R433, R445). -/
structure Cq where
  base : BitVec 52 := 0       -- CQ_BASE[63:12], R430 13; reset 0
  sizeM1 : BitVec 16 := 0     -- CQ_CFG.SIZE_M1, R430 13; reset 0
  enable : Bool := false      -- CQ_CFG.ENABLE, R430 13; reset 0
  ien : Bool := false         -- CQ_CFG.IEN, R445 13; reset 0
  vector : BitVec 11 := 0     -- CQ_CFG.VECTOR, R445 13; reset 0
  coalCount : BitVec 8 := 0   -- CQ_COAL.COAL_COUNT, R445 13; reset 0
  coalTimeUs : BitVec 16 := 0 -- CQ_COAL.COAL_TIME_US, R445 13; reset 0
  head : BitVec 16 := 0       -- head set by CQ_HEAD, R433 13; reset 0
  tail : BitVec 16 := 0       -- CQ_STATUS.TAIL, R433 13; reset 0
  phase : Bool := true        -- CQ_STATUS.PHASE, R430 13; reset 1
  unsignalled : Nat := 0      -- completions written since the last signal, R445 13; reset 0
deriving DecidableEq, Repr, Inhabited

/-- One MSI-X table entry: address, data and vector mask (R445; the PCIe layout). -/
structure Msix where
  addr : BitVec 64 := 0      -- message address, R445 13; no reset given, PRESUMED 0 (PCIe, log 2)
  data : Word := 0           -- message data, R445 13; no reset given, PRESUMED 0 (PCIe, log 2)
  mask : Bool := true        -- vector control mask, R445 13; no reset given, PRESUMED 1 (PCIe, log 2)
deriving DecidableEq, Repr, Inhabited

/-- The HOSTQ block of one function (HOSTQ registers, chapter 13). -/
structure HostFn where
  qerr : Bool := false          -- HOSTQ_FN_STATUS.QERR, R431 13; reset 0
  qerrSq : BitVec 6 := 0        -- HOSTQ_FN_STATUS.QERR_SQ, R431 13; reset 0
  sqs : Vector Sq 64 := Vector.replicate 64 {}
  cqs : Vector Cq 64 := Vector.replicate 64 {}
  records : BitVec 64 := 0      -- HOSTQ_FN_RECORDS, 13; reset 0
  completions : BitVec 64 := 0  -- HOSTQ_FN_COMPLETIONS, 13; reset 0
  launches : BitVec 64 := 0     -- HOSTQ_FN_LAUNCHES, 13; reset 0
  frameBeats : BitVec 64 := 0   -- HOSTQ_FN_FRAME_BEATS, 13; reset 0
  cqFull : BitVec 64 := 0       -- HOSTQ_FN_CQ_FULL, R433 13; reset 0
  msix : List (Nat × Msix) := [] -- MSI-X table, R445 13; entries not at reset, the rest at reset
  pba : List Nat := []          -- MSI-X pending bits, R445 13; reset none
  nextSq : BitVec 6 := 0        -- next SQ of the function's round robin, R432 13; DESIGN CHOICE 0 (log 2)
deriving DecidableEq, Repr, Inhabited

/-- A launch record as accepted (Table 13.6): its function, its SQ, its number and its 64 bytes. -/
structure Rec where
  id : Nat := 0
  func : Nat := 0
  sq : Nat := 0
  bits : BitVec 512 := 0
deriving DecidableEq, Repr, Inhabited

/-- Stream-entry states (Table 13.9). -/
inductive EState where
  | free | bound | queued | running | done
deriving DecidableEq, Repr, Inhabited

/-- A stream-table entry (Table 13.9). -/
structure Entry where
  state : EState := .free      -- STATE, R439 13; reset FREE (memory wiped, R370)
  func : Nat := 0              -- FUNC, R439 13; reset 0
  handle : Nat := 0            -- HANDLE, R439 13; reset 0
  cqid : Nat := 0              -- CQID, R439 13; reset 0
  keyTag : Nat := 0            -- KEY_TAG, R439 13; reset 0
  cookie : Nat := 0            -- COOKIE, R439 13; reset 0
  acceptSeq : Nat := 0         -- ACCEPT_SEQ, R441 13; reset 0
  startBeat : Nat := 0         -- START_BEAT, R440 13; reset 0
  launches : Nat := 0          -- LAUNCHES, R440 13; reset 0
deriving DecidableEq, Repr, Inhabited

/-- A QUEUED launch (R441, R442): `taken` is the mask of the frames it has taken. -/
structure Launch where
  seq : Nat := 0
  func : Nat := 0
  sq : Nat := 0
  recId : Nat := 0
  index : Nat := 0
  handle : Nat := 0
  frames : BitVec 64 := 0
  taken : BitVec 64 := 0
  window : Nat := 0
deriving DecidableEq, Repr, Inhabited

/-- A completion record not yet written (R433, Table 13.8), with the record it answers. -/
structure Comp where
  func : Nat := 0
  cqid : Nat := 0
  status : Code := 0
  origin : Code := 0
  faults : Nat := 0
  lflags : BitVec 3 := 0
  rkind : Nat := 0
  sq : Nat := 0
  index : Nat := 0
  cookie : Nat := 0
  beats : Nat := 0
  recId : Nat := 0
  waited : Bool := false
  launch : Bool := false      -- the completion of an accepted LAUNCH, which takes its entry from DONE to BOUND (R440)
  after : List Nat := []      -- transfers of the program that must have been answered first, R480
deriving DecidableEq, Repr, Inhabited

/-- A host copy accepted and not ended (R444). -/
structure HCopy where
  recId : Nat := 0
  func : Nat := 0
  sq : Nat := 0
  toHost : Bool := false
  host : Nat := 0
  dev : Nat := 0
  len : Nat := 0
  cookie : Nat := 0
deriving DecidableEq, Repr, Inhabited

/-- What the part sends outside: host TLPs (R428, R433, R445), flits (R386), pin events (R571, R492,
R464), management responses (R510, R513). The newest is last. -/
inductive OutEvt where
  | hostWrite (func : Nat) (addr : Nat) (bytes : List Byte) (ep : Bool)
  | msix (func : Nat) (vector : Nat) (addr : BitVec 64) (data : Word)
  | readData (tag : Nat) (bytes : List Byte) (ep : Bool)
  | regData (tag : Nat) (value : BitVec 64)
  | completerAbort (tag : Nat)
  | unsupported (tag : Nat)
  | flit (port : Nat) (lanes : List (Nat × List Byte))
  | ident (port : Nat) (role : BitVec 4) (dev : BitVec 12) (profile : BitVec 2)
  | laneSwap (port : Nat) (lane : Nat)
  | aerPoisoned (func : Nat)
  | syncOut
  | frs (func : Nat)
  | flr (func : Nat)
  | mailbox (channel : Nat) (result : Nat) (bytes : List Byte)
  | mctp (eid : Nat) (bytes : List Byte)
  | flash (op : Nat) (addr : Nat) (bytes : List Byte)
  | avs (rail : Nat) (mv : Nat)
  | avsRead (rail : Nat) (what : Nat)
  | xspiReset
  | orphanRecord (bytes : List Byte)
  | tdo (bit : Bool)
deriving DecidableEq, Repr, Inhabited

/-- The HOSTQ of the device (chapter 13). -/
structure HostQ where
  fns : Vector HostFn 64 := Vector.replicate 64 {}
  turn : Nat := 0                     -- next function of the round robin, R432 13; DESIGN CHOICE 0 (log 2)
  accepted : List Rec := []           -- records accepted and not yet acted on, R432 13; reset none
  open_ : List (Nat × Nat × Nat) := [] -- (function, SQ, record) accepted, completion not written, R432 13
  nextRec : Nat := 1                  -- number of the next record accepted; model bookkeeping
  entries : List (Nat × Entry) := []  -- the entries that the on-chip cache holds, R439 13; reset none
  cache : List Nat := []              -- stream entries cached on chip, most recent first, R439 13; reset none
  acceptSeq : Nat := 0                -- device-wide acceptance number, R441 13; DESIGN CHOICE 0 (log 2)
  launches : List Launch := []        -- QUEUED launches in ACCEPT_SEQ order, R442 13; reset none
  comps : List Comp := []             -- completions not yet written, R433 13; reset none
  hcopies : List HCopy := []          -- host copies accepted and not ended, R444 13; reset none
deriving DecidableEq, Repr, Inhabited

end Sys2Proof.Machine
end

