-- ==== Sys2Proof/Machine/StMgmt.lean ====
section
/-!
DEFINITION. The Reckoner, the event log, the mailbox, the management protocols, the Long-Number Engine,
the session slots, lifecycle, firmware, boot, flash, resets, supplies and JTAG (chapters 16, 17 and 18).
A field's default is its value at reset.
-/

namespace Sys2Proof.Machine

open Sys2Proof

/-- A log record (Table 16.3). -/
structure LogRec where
  seq : BitVec 32 := 0
  code : Code := 0
  source : Nat := 0
  index : Nat := 0
  func : Option Nat := none
  severity : Nat := 0
  persist : Bool := false
  count : BitVec 16 := 1
  tb : BitVec 64 := 0
  up : Nat := 0
  beat : BitVec 64 := 0
  detail : BitVec 64 := 0
deriving DecidableEq, Repr, Inhabited

/-- A sensor (R504, R505, MGMT_SENSOR_i). VALUE is held as the number the unit of Table 16.2 counts. -/
structure Sensor where
  value : Int := 0          -- MGMT_SENSOR_i.VALUE, R504 16; reset 0
  valid : Bool := false     -- MGMT_SENSOR_i.VALID, R504 16; reset 0
  warn : Bool := false      -- MGMT_SENSOR_i.WARN, R505 16; reset 0
  lo : Int := -32768        -- WARN_LO, R505 16; reset: the full range
  hi : Int := 65535         -- WARN_HI, R505 16; reset: the full range
  alertEn : Bool := false   -- ALERT_EN, R505 16; reset clear
deriving DecidableEq, Repr, Inhabited

/-- One mailbox channel (R510, R512). Channel 1 has no registers; its request comes in a Drenil message. -/
structure Mailbox where
  opcode : BitVec 8 := 0     -- MGMT_MB_CTRL.OPCODE, R512 16; reset 0
  len : BitVec 13 := 0       -- MGMT_MB_CTRL.LEN, R512 16; reset 0
  ien : Bool := false        -- MGMT_MB_CTRL.IEN, R512 16; reset 0
  busy : Bool := false       -- MGMT_MB_STATUS.BUSY, R510 16; reset 0
  done : Bool := false       -- MGMT_MB_STATUS.DONE, R510 16; reset 0
  result : BitVec 4 := 0     -- MGMT_MB_STATUS.RESULT, R511 16; reset 0
  rlen : BitVec 13 := 0      -- MGMT_MB_STATUS.RLEN, R510 16; reset 0
  data : List Byte := []     -- MGMT_MB_DATA, R510 16; reset 0 (bytes past the list's end are 0)
deriving DecidableEq, Repr, Inhabited

/-- An LNE operation accepted (R524). `pf` tells the bank; a Reckoner operation has `op` 0, and is `loose` once the command
it was for has been aborted (R502). -/
structure LneOp where
  pf : Bool := true
  loose : Bool := false
  op : Nat := 0
  lenW : Nat := 0
  msgLen : Nat := 0
deriving DecidableEq, Repr, Inhabited

/-- A session slot (R526, LNE_SESSION_s). -/
structure Session where
  valid : Bool := false        -- LNE_SESSION_s.VALID, R526 16; reset 0
  role : Bool := false         -- LNE_SESSION_s.ROLE, R186 16; reset 0
  owner : BitVec 6 := 0        -- LNE_SESSION_s.OWNER, R526 16; reset 0
  counter : BitVec 64 := 0     -- LNE_SESSION_s.COUNTER, R187 16; reset 0
  key : BitVec 256 := 0        -- the session key, R526 16; reset empty
deriving DecidableEq, Repr, Inhabited

/-- The Long-Number Engine (R521 to R525). -/
structure Lne where
  op : BitVec 8 := 0         -- LNE_CMD.OP, 16; reset 0
  lenW : BitVec 8 := 0       -- LNE_CMD.LEN_W, 16; reset 0
  msgLen : BitVec 9 := 0     -- LNE_CMD.MSGLEN, 16; reset 0
  busy : Bool := false       -- LNE_STATUS.BUSY, R524 16; reset 0
  pending : Bool := false    -- LNE_STATUS.PENDING, R524 16; reset 0
  done : Bool := false       -- LNE_STATUS.DONE, R523 16; reset 0
  result : BitVec 3 := 0     -- LNE_STATUS.RESULT, R525 16; reset 0
  valid : Bool := false      -- LNE_STATUS.VALID, R525 16; reset 0
  loaded : Bool := false     -- LNE_STATUS.LOADED, R520 16; reset 0
  tNs : BitVec 32 := 0       -- LNE_TIME.T_NS, R523 16; reset 0
  mcVersion : BitVec 16 := 0 -- LNE_INFO.MC_VERSION, R520 16; reset 0
  mcSvn : BitVec 8 := 0      -- LNE_INFO.MC_SVN, R520 16; reset 0
  bank : Vector (BitVec 8192) 8 := Vector.replicate 8 0 -- LNE_A0 to LNE_A7, R521 16; no reset given, DESIGN CHOICE 0 (log 2)
  running : Option LneOp := none  -- the operation that runs, R524 16; reset none
  waiting : List LneOp := []      -- operations accepted and not started, in GO order, R524 16; reset none
  sessions : Vector Session 64 := Vector.replicate 64 {}
deriving DecidableEq, Repr, Inhabited

/-- A CTR_DRBG instance (R518, R519): 0 and 1 the compute dies', 2 the security DRBG. -/
structure Drbg where
  instantiated : Bool := false  -- R519 16; uninstantiated at reset (die domains OFF at B0)
  error : Bool := false         -- error state, R519 16; reset clear
  requests : Nat := 0           -- generate requests since the last reseed, R518 16; reset 0
  seedUp : Nat := 0             -- time of the last reseed, R518 16; reset 0
  key : BitVec 256 := 0         -- Key of the CTR_DRBG, R518 16; PRESUMED 0 (SP 800-90A, log 2)
  v : BitVec 128 := 0           -- V of the CTR_DRBG, R518 16; PRESUMED 0 (SP 800-90A, log 2)
deriving DecidableEq, Repr, Inhabited

/-- A slot-state entry of one component (R540). -/
structure SlotState where
  committed : Nat := 0          -- COMMITTED, R540 17; slot 0 when no copy passes
  trial : Nat := 0              -- TRIAL, R540 17; none when no copy passes
  failed : BitVec 2 := 0        -- FAILED, R540 17; nothing failed when no copy passes
deriving DecidableEq, Repr, Inhabited

/-- A staging in progress (R528): component, slot, size and whether FW_VERIFY has passed. -/
structure Staging where
  comp : Nat := 0
  slot : Nat := 0
  size : Nat := 0
  verified : Bool := false
deriving DecidableEq, Repr, Inhabited

/-- The fuses (R515, R516, R530, R545). -/
structure Fuses where
  pairs : List (Nat × Bool × Bool) := [] -- state fuses: per transition made, its target and its pair of bits, R515 R516 16; none: BLANK, DESIGN CHOICE (log 2)
  fwCounter : Nat := 0            -- firmware counter of 64 fuses, R530 16; DESIGN CHOICE 0 (log 2)
  mcCounter : Nat := 0            -- microcode counter of 32 fuses, R530 16; DESIGN CHOICE 0 (log 2)
  owners : List (List Byte) := [] -- owner key digests fused, latest first, R516 16; none, DESIGN CHOICE (log 2)
  secret : Option (BitVec 256) := none -- device secret, R516 16; none in BLANK
  killed : Bool := false          -- kill fuse, R516 16; not burnt
  serial : BitVec 128 := 0        -- device serial, R541 17; DESIGN CHOICE 0 (log 2)
  defective : List Nat := []      -- defective physical frames, R23 01; none, DESIGN CHOICE (log 2)
deriving DecidableEq, Repr, Inhabited

/-- The lifecycle state that the state fuses show: a pair with either bit burnt counts as burnt (R515, R516). -/
def Fuses.lifecycle (f : Fuses) : Nat := (((f.pairs.filter fun p => p.2.1 || p.2.2).getLast?).map (·.1)).getD 0

/-- The fields of the applied configuration image that the part goes on using (Table 17.4). -/
structure Applied where
  applied : Bool := false      -- an image passed and was applied, R547 17; reset no
  version : BitVec 32 := 0     -- VERSION, R541 17; reset 0
  perstDevice : Bool := false  -- PERST_MODE, R533 17; reset 0 HOST
  profile : BitVec 2 := 0      -- PROFILE, R482 15; reset 0
  domainsOff : BitVec 16 := 0  -- DOMAINS_OFF, R545 17; reset 0
  sparePolicy : Bool := false  -- SPARE_POLICY, R489 15; reset 0
  maxVfs : BitVec 8 := 0       -- MAX_VFS, R541 17; reset 0
  smbus : Bool := false        -- MGMT bit 0, R513 16; reset 0
  mgmtAddr : BitVec 7 := 0     -- MGMT address, R513 16; reset 0
  iccMax : BitVec 16 := 0      -- ICC_MAX, R503 16; reset 0
  wdtMs : BitVec 16 := 100     -- WDT_MS, R494 15; reset 100 ms
  retrainMs : BitVec 16 := 0   -- RETRAIN_MS, R357 11; reset 0
  regions : List (Nat × Nat) := [] -- REGIONS FW_A FW_B MC_0 MC_1 CERT LOG, R541 17; reset none
  roles : List (BitVec 4) := []    -- ROLE_C0 to ROLE_C7, R394 12; reset none
  digest : List Byte := []         -- SHA-384 of the image, R514 16; reset none
deriving DecidableEq, Repr, Inhabited

/-- GLOBAL_BOOT_STATUS.STATE (chapter 17). -/
inductive BState where
  | booting | ready | recovery | memoryFailed
deriving DecidableEq, Repr, Inhabited

/-- Boot, reset and configuration (chapter 17). -/
structure Boot where
  stage : BitVec 4 := 0        -- GLOBAL_BOOT_STATUS.STAGE, R545 17; reset 0
  state : BState := .booting   -- GLOBAL_BOOT_STATUS.STATE, R545 17; reset 0 BOOTING
  cfgSlot : Bool := false      -- GLOBAL_BOOT_STATUS.CFG_SLOT, 17; reset 0
  fwSlot : Bool := false       -- GLOBAL_BOOT_STATUS.FW_SLOT, 17; reset 0
  cfgErr : Vector (BitVec 4) 2 := Vector.replicate 2 0 -- GLOBAL_BOOT_STATUS.CFG_ERR0 and CFG_ERR1, R547 17; reset 0
  cause : BitVec 3 := 0        -- GLOBAL_BOOT_STATUS.CAUSE, 17; reset 0
  memFail : BitVec 16 := 0     -- GLOBAL_BOOT_STATUS.MEM_FAIL, R553 17; reset 0
  bootMs : BitVec 28 := 0      -- GLOBAL_BOOT_STATUS.BOOT_MS, 17; reset 0
  bypass : Bool := false       -- in bypass for a reset or a boot, R535 R548 17; reset 0 (until B7)
  linkUp : Bool := false       -- the host link is trained, R549 17; reset down
  perst : Bool := false        -- PERST_N asserted, R549 17; no reset given, DESIGN CHOICE deasserted (log 2)
  resetWait : Option (BitVec 3) := none -- a device reset that waits for the LNE, and its cause, R524 R535 17; reset none
  keptPorts : List Nat := []   -- Carry ports kept ACTIVE through a device reset, R536 17; reset none
  image : Applied := {}
  slots : Vector SlotState 3 := Vector.replicate 3 {} -- the record in force, as B2 read it: firmware, microcode, configuration, R540 17; reset as with no copy
  slotSeq : BitVec 32 := 0     -- sequence number of the copy in force, R540 17; DESIGN CHOICE 0 (log 2)
  slotCopy : Bool := false     -- the copy in force, R540 17; DESIGN CHOICE copy 0 (log 2)
  slotTorn : Bool := false     -- the write of the copy in force is still in progress, R540 17; reset 0
  octal : Bool := false        -- the flash is in 8D-8D-8D mode, R538 17; reset 1S-1S-1S
  flash : List Host.Cell := [] -- the configuration flash, each byte held inverted, R539 17; unlisted bytes read 0xFF, DESIGN CHOICE (log 2)
  flashMiB : Nat := 64         -- capacity of the flash in MiB, R538 17; DESIGN CHOICE 64 (log 2)
  fencedLog : List Nat := []   -- physical frames whose fence the persistent log records, die × 34 + number, R489 15; DESIGN CHOICE none (log 2)
  fuses : Fuses := {}
  fwDigest : List Byte := []   -- SHA-384 of the running firmware image, R514 16; reset none
  mcSlot : Bool := false       -- the slot of the loaded microcode, R514 17; reset 0
  mcDigest : List Byte := []   -- SHA-384 of the loaded microcode, R514 16; reset none
  lost : List Nat := []        -- dies lost by a brown-out or unpowered (0, 1), the host port (2) and the SerDes (3) without their rail, R563 R566 18; reset none
deriving DecidableEq, Repr, Inhabited

/-- PLDM firmware-update states (DSP0267, cited by R513; PRESUMED from that specification). -/
inductive PldmState where
  | idle | learn | readyXfer | download | verify | apply | activate
deriving DecidableEq, Repr, Inhabited

/-- The management port (R513, R514). -/
structure MgmtPort where
  eid : BitVec 8 := 0             -- EID, R513 16; no reset given, PRESUMED 0 (DSP0236, log 2)
  pldm : PldmState := .idle       -- PLDM update state, R513 16; PRESUMED IDLE (DSP0267, log 2)
  table : List Nat := []          -- components of PassComponentTable, R513 16; reset none
  comp : Nat := 0                 -- component being updated, R513 16; reset none
  offset : Nat := 0               -- bytes of it received, R528 16; reset 0
  ready : List Nat := []          -- components verified and applied, not yet activated, R513 16; reset none
  events : List (BitVec 32 × Code) := [] -- platform events not yet polled, R513 16; reset none
  spdmVersion : Bool := false     -- GET_VERSION done, R513 16; PRESUMED 0 (DSP0274, log 2)
  spdmCaps : Bool := false        -- GET_CAPABILITIES done, R513 16; PRESUMED 0 (DSP0274, log 2)
  spdmAlgs : Bool := false        -- NEGOTIATE_ALGORITHMS done, R513 16; PRESUMED 0 (DSP0274, log 2)
deriving DecidableEq, Repr, Inhabited

/-- The Reckoner and its services (chapter 16). -/
structure Mgmt where
  alive : Bool := false           -- MGMT_RK_STATUS.ALIVE, R501 16; reset 0
  fwSlot : Bool := false          -- MGMT_RK_STATUS.FW_SLOT, R529 16; reset 0
  trial : Bool := false           -- MGMT_RK_STATUS.TRIAL, R529 16; reset 0
  noFw : Bool := false            -- the restart's firmware check found no image that passes, R534 16; reset 0
  activating : Bool := false      -- a restart by FW_ACTIVATE mode 1 is in progress, R529 16; reset 0
  aliveUp : Nat := 0              -- time when ALIVE was last set, R495 15; reset 0
  expiry : Option (Code × BitVec 64) := none -- cause and timebase of the expiry a second one would follow, R495 15; reset none
  minSeverity : BitVec 2 := 2     -- MGMT_LOG_CFG.MIN_SEVERITY, R509 16; reset 2
  logIen : Bool := false          -- MGMT_LOG_CFG.IEN, R509 16; reset 0
  logVector : BitVec 11 := 0      -- MGMT_LOG_CFG.VECTOR, R509 16; reset 0
  logSeq : BitVec 32 := 0         -- MGMT_LOG_SEQ.SEQ, R512 16; reset 0
  ring : List LogRec := []        -- log ring in always-on SRAM, newest last, R506 16; reset empty (power-on loses it)
  flashed : BitVec 32 := 0        -- sequence number up to which records were copied to flash, R508 16; reset 0
  flashLog : List (BitVec 32 × Nat) := [] -- records in the flash's log region: sequence number and place, oldest first, R508 16; DESIGN CHOICE none (log 2)
  flashNext : Nat := 0            -- place of the next record in that region, R508 16; DESIGN CHOICE 0 (log 2)
  mbVector : BitVec 11 := 0       -- MGMT_MB_CFG.VECTOR, R512 16; reset 0
  mb : Vector Mailbox 2 := Vector.replicate 2 {}
  goQueue : List Nat := []        -- channels whose GO waits, in GO order, R510 16; reset none
  lneSince : Option Nat := none   -- time when the command in front joined the LNE's queue, R511 16; reset none
  sensors : Vector Sensor 189 := Vector.replicate 189 {}
  iccMax : BitVec 16 := 0         -- ICC_MAX in force, R503 R510 16; reset 0 (from the image)
  floorReq : BitVec 8 := 0        -- BEAT_FLOOR request of SET_POWER, R510 16; reset 0
  railMin : BitVec 10 := 600      -- rail limit of SET_POWER, R510 16; reset ADMIT_VLIMIT's 600
  railMax : BitVec 10 := 850      -- rail limit of SET_POWER, R510 16; reset ADMIT_VLIMIT's 850
  nonce : Option (BitVec 256) := none -- LC_NONCE nonce in force, R516 16; reset none
  staging : Option Staging := none    -- staging in progress, R528 16; reset none
  drbgs : Vector Drbg 3 := Vector.replicate 3 {}
  entropyOk : Bool := true        -- the entropy source delivers, R519 16; reset: start-up tests passed, DESIGN CHOICE (log 2)
  port : MgmtPort := {}
  supplyLog : List (Nat × Nat) := [] -- time of the last SUPPLY_FAULT record per rail, R564 18; reset none
  oldMv : Vector (Option (BitVec 10 × Nat)) 2 := Vector.replicate 2 none -- set point before the last write and its time, R564 18
deriving DecidableEq, Repr, Inhabited

/-- JTAG instructions (R575). -/
inductive TapInstr where
  | bypass | samplePreload | extest | highz | clamp
deriving DecidableEq, Repr, Inhabited

/-- The TAP and the boundary register (R575). -/
structure Jtag where
  ir : TapInstr := .bypass        -- instruction in force, R575 18; BYPASS after a TAP reset
  resetState : Bool := true       -- the TAP is in Test-Logic-Reset, R575 18; PRESUMED in it at power-on (IEEE 1149.1, log 2)
  bypassBit : Bool := false       -- bypass register, R575 18; PRESUMED 0 (IEEE 1149.1, log 2)
  boundary : BitVec 2413 := 0     -- boundary register: 29 lands of 1.8 V and 16 × 149 of LPDDR5X (R567, R579), R575 18; no reset given, DESIGN CHOICE 0 (log 2)
  pinLow : Bool := false          -- SYS_RESET_N is asserted, as far as a command has shown it, R575 18; no reset given, DESIGN CHOICE deasserted (log 2)
deriving DecidableEq, Repr, Inhabited

/-- Outputs are driven from the boundary register: EXTEST or CLAMP, while SYS_RESET_N is asserted (R575). -/
def Jtag.driving (j : Jtag) : Bool := j.pinLow && (j.ir == .extest || j.ir == .clamp)

/-- Outputs are tri-stated: HIGHZ, while SYS_RESET_N is asserted (R575). -/
def Jtag.hiz (j : Jtag) : Bool := j.pinLow && j.ir == .highz

end Sys2Proof.Machine
end

