-- ==== Sys2Proof/Machine/State.lean ====
section
/-!
DEFINITION. The state of the YV-9 and its value right after a power-on, at boot stage B0 (R533, R545).
Every field is plain data and its default value is its value at reset.
-/

namespace Sys2Proof.Machine

open Sys2Proof

/-- Why a step can stop. -/
inductive Fault where
  /-- Raised by a command whose operands the spec's interface cannot carry (a flit that is not 256 bytes,
  an access that is no 32-bit or 64-bit access): no such event exists. Safe: the run stops. -/
  | illFormed (what : String)
deriving DecidableEq, Repr, Inhabited

/-- Why a command has no meaning. -/
inductive Refusal where
  /-- Answered by `exec` for a command whose meaning is not written. Safe: the run stops. -/
  | notModelled (mnemonic : String)
deriving DecidableEq, Repr, Inhabited

/-- The state of the part. -/
structure State where
  pending : List Instr := []              -- commands waiting, first in first out; the model's own
  frames : Vector Frame 64 := Vector.replicate 64 {}
  mem : List Host.Cell := []              -- device memory and scratchpads by device physical address, R296 R370; reset zero
  vis : List Host.Cell := []              -- scratchpads as committed by the last launch (R51, R298 09); reset zero
  upsets : List Upset := []               -- cells that do not hold what was written to them, R358 R359 R485; reset none
  poison : List (Nat × Mark) := []        -- poisoned lines and rows by address / 2,048, R105 R321; reset none
  visPoison : List (Nat × Mark) := []     -- scratchpad poison as of the last launch, R51 R298; reset none
  tally : Tally := {}
  adm : Admit := {}
  global : Global := {}
  memc : MemC := {}
  mas : Mas := {}
  carry : Carry := {}
  hostq : HostQ := {}
  mgmt : Mgmt := {}
  lne : Lne := {}
  boot : Boot := {}
  jtag : Jtag := {}
  programs : List Program := []           -- loaded programs, R437 13; reset none
  runs : List Run := []                   -- launches running, stopped or ended and not reported, R219 07; reset none
  xfers : List Xfer := []                 -- transfers accepted and not landed, R244 07; reset none
  outbox : List OutEvt := []              -- what the part has sent outside, newest last; the model's own
  nextXfer : Nat := 1                     -- number of the next transfer; the model's own
  nextRun : Nat := 1                      -- number of the next launch; the model's own
  freeCtr : Nat := 0                      -- index of the next free value; the model's own, DESIGN CHOICE 0 (log entries 10 and 12)
deriving DecidableEq, Repr, Inhabited

/-- The part right after a power-on, at B0 (R533, R534, R545): every field at its reset value. -/
def State.reset : State := {}

end Sys2Proof.Machine
end

