-- ==== Sys2Proof/Machine/Ops.lean ====
section
/-!
DEFINITION. The named operations over memory, poison, frames, runs, the event log, fault notices,
interrupts and the address map, which the meanings share.
-/

namespace Sys2Proof.Machine

open Sys2Proof

/-! ## Bytes and memory -/

/-- The number a little-endian byte list spells (R6). -/
def bytesToNat : List Byte → Nat
  | [] => 0
  | b :: bs => b.toNat + 256 * bytesToNat bs

/-- The `k` little-endian bytes of a number (R6). -/
def natToBytes : Nat → Nat → List Byte
  | 0, _ => []
  | k + 1, n => BitVec.ofNat 8 n :: natToBytes k (n / 256)

/-- The byte at an address; an unlisted address reads zero (R296, R370). -/
def memRead : List Host.Cell → Nat → Byte
  | [], _ => 0
  | c :: m, a => if c.1 = a then c.2 else memRead m a

/-- Memory with one byte written, in canonical form: addresses rise, and no entry is zero. -/
def memWrite : List Host.Cell → Nat → Byte → List Host.Cell
  | [], a, v => if v = 0 then [] else [(a, v)]
  | c :: m, a, v =>
    if a < c.1 then (if v = 0 then c :: m else (a, v) :: c :: m)
    else if a = c.1 then (if v = 0 then m else (a, v) :: m)
    else c :: memWrite m a v

/-- Every address of the list is above `lo`, addresses rise and no entry is zero. -/
def memWfFrom : Nat → List Host.Cell → Bool
  | _, [] => true
  | lo, c :: m => lo ≤ c.1 && c.2 != 0 && memWfFrom (c.1 + 1) m

/-- The canonical form of a memory. -/
def memWf (m : List Host.Cell) : Bool := memWfFrom 0 m

/-- `n` bytes from an address. -/
def memReadN (m : List Host.Cell) (a n : Nat) : List Byte :=
  (List.range n).map fun i => memRead m (a + i)

/-- The little-endian number of `n` bytes at an address. -/
def memReadNat (m : List Host.Cell) (a n : Nat) : Nat := bytesToNat (memReadN m a n)

/-- Memory with consecutive bytes written from an address. -/
def memWriteN : List Host.Cell → Nat → List Byte → List Host.Cell
  | m, _, [] => m
  | m, a, b :: bs => memWriteN (memWrite m a b) (a + 1) bs

/-- Memory with a list of cells written. -/
def memWriteCells : List Host.Cell → List Host.Cell → List Host.Cell
  | m, [] => m
  | m, c :: cs => memWriteCells (memWrite m c.1 c.2) cs

/-- Memory with `size` bytes from `base` zeroed. -/
def memZero (m : List Host.Cell) (base size : Nat) : List Host.Cell :=
  m.filter fun c => c.1 < base || base + size ≤ c.1

/-- The cells of `size` bytes from `base`. -/
def memSlice (m : List Host.Cell) (base size : Nat) : List Host.Cell :=
  m.filter fun c => base ≤ c.1 && c.1 < base + size

/-! ## Association lists by number, and poison -/

def alGet {α : Type} : List (Nat × α) → Nat → Option α
  | [], _ => none
  | p :: l, k => if p.1 = k then some p.2 else alGet l k

def alErase {α : Type} (l : List (Nat × α)) (k : Nat) : List (Nat × α) := l.filter fun p => p.1 != k

/-- The list with `k` given the value `v`, keys rising. -/
def alSet {α : Type} : List (Nat × α) → Nat → α → List (Nat × α)
  | [], k, v => [(k, v)]
  | p :: l, k, v =>
    if k < p.1 then (k, v) :: p :: l else if k = p.1 then (k, v) :: l else p :: alSet l k v

/-- The mark of the 2 KiB line or row an address lies in (R105). -/
def poisonAt (p : List (Nat × Mark)) (addr : Nat) : Option Mark := alGet p (addr / 2048)

/-! ## Frames -/

/-- A frame number below 64. -/
def frameNo? (n : Nat) : Option FrameNo := if h : n < 64 then some ⟨n, h⟩ else none

/-- Frame `f`. -/
def State.frame (s : State) (f : FrameNo) : Frame := s.frames[f]

/-- The state with frame `f` changed. -/
def State.updFrame (s : State) (f : FrameNo) (g : Frame → Frame) : State :=
  { s with frames := s.frames.set f (g s.frames[f]) }

/-- The state with every frame changed. -/
def State.mapFrames (s : State) (g : FrameNo → Frame → Frame) : State :=
  { s with frames := Vector.ofFn fun i => g i s.frames[i] }

/-- The frames a mask names, in ascending order. -/
def framesOf (m : BitVec 64) : List FrameNo := (List.finRange 64).filter fun f => m.getLsbD f

/-- Is `f` in the mask? -/
def hasFrame (m : BitVec 64) (f : FrameNo) : Bool := m.getLsbD f

/-- The die of a logical frame (R22). -/
def dieOf (f : FrameNo) : Nat := f.val / 32

/-- Domain `i`, as far as Table 1.7 goes. -/
def State.domain (s : State) (i : Nat) : Domain := if h : i < 36 then s.adm.domains[i] else {}

/-- The domain that holds logical frame `f` (FRM_MAP, R37). -/
def State.domainOf (s : State) (f : FrameNo) : Nat := (s.frame f).seq.domain.toNat

/-- A frame is fenced or unavailable (R24, R486). -/
def Frame.gone (fr : Frame) : Bool := fr.seq.state == .fenced || fr.seq.state == .unavailable

/-- The domain of the frame is ON. -/
def State.powered (s : State) (f : FrameNo) : Bool := (s.domain (s.domainOf f)).state == .on

/-- The FRM block of the frame can be used: R39. -/
def State.usableFrame (s : State) (f : FrameNo) : Bool := s.powered f && !(s.frame f).gone

/-! ## Runs and programs -/

def State.run? (s : State) (id : Nat) : Option Run := s.runs.find? (·.id == id)

def State.updRun (s : State) (id : Nat) (g : Run → Run) : State :=
  { s with runs := s.runs.map fun r => if r.id == id then g r else r }

def State.program? (s : State) (func handle : Nat) : Option Program :=
  s.programs.find? fun p => p.handle == handle && p.func == func

/-- The run that frame `f` is assigned to. -/
def State.runOf (s : State) (f : FrameNo) : Option Run := s.run? (s.frame f).rn.run

/-- The part of a program that frame `f` runs. -/
def Program.part? (p : Program) (f : FrameNo) : Option FramePart := p.parts.find? (·.frame == f.val)

/-- A loaded program names frame `f` (R470, R488). -/
def State.frameLoaded (s : State) (f : FrameNo) : Bool := s.programs.any fun p => hasFrame p.frames f

/-- The program beat in progress of a run (R216, R480). -/
def State.progBeat (s : State) (r : Run) : Nat := s.tally.count.toNat - r.startBeat

/-- Does the first fault record come before the second (R110)? -/
def FaultRec.before (a b : FaultRec) : Bool :=
  a.beat < b.beat || (a.beat == b.beat && (a.frame < b.frame ||
    (a.frame == b.frame && a.code.toNat < b.code.toNat)))

def keepFirst (old : Option FaultRec) (x : FaultRec) : Option FaultRec :=
  match old with
  | none => some x
  | some o => some (if x.before o then x else o)

/-- A data-class fault enters a run's fault record (R110). -/
def Run.addFault (r : Run) (code : Code) (beat frame : Nat) : Run :=
  { r with fault := keepFirst r.fault { code, beat, frame }, nFaults := min 65535 (r.nFaults + 1) }

/-- A drop enters a run's event record (R475). -/
def Run.addEvent (r : Run) (code : Code) (beat frame : Nat) : Run :=
  { r with event := keepFirst r.event { code, beat, frame }, nFaults := min 65535 (r.nFaults + 1) }

/-- A data-class fault of run `id`, dated by the beat in progress. -/
def State.fault (s : State) (id : Nat) (code : Code) (frame : Nat) : State :=
  s.updRun id fun r => if r.endBeat.isSome then r else r.addFault code (s.progBeat r) frame

/-- A drop reported to run `id`; one that ended is told nothing (R478). -/
def State.event (s : State) (id : Nat) (code : Code) (frame : Nat) : State :=
  s.updRun id fun r => if r.endBeat.isSome then r else r.addEvent code (s.progBeat r + 1) frame

/-- An abort is asked for on run `id` by frame `frame`; it takes effect at the next launch (R480). -/
def State.askAbort (s : State) (id : Nat) (frame : Nat) (code : Code) : State :=
  s.updRun id fun r => if r.aborted.isSome || r.endBeat.isSome then r
    else { r with aborts := r.aborts ++ [(frame, code)] }

/-- The cause that wins among those of one launch: the lowest frame, then the lowest code (R480). -/
def pickAbort : List (Nat × Code) → Option (Nat × Code)
  | [] => none
  | a :: as =>
    match pickAbort as with
    | none => some a
    | some b => some (if a.1 < b.1 || (a.1 == b.1 && a.2.toNat ≤ b.2.toNat) then a else b)

/-- The abort asked for takes effect: no further word of the run issues (R480). -/
def Run.takeAbort (r : Run) (count : Nat) : Run :=
  if r.aborted.isSome || r.endBeat.isSome then r else
  match pickAbort r.aborts with
  | none => r
  | some (_, c) => { r with aborted := some c, residue := true, starting := false,
                            endBeat := if r.started then some count else some r.startBeat }

/-- The mark poison takes once run `r` has met it, and the code it records, if any (R110, R180, R407):
poison this run recorded is silent; poison with a cause no program recorded gives that cause; any other
gives POISON_CONSUMED. -/
def Mark.consume (m : Mark) (run : Nat) : Option Code :=
  if m.run == run && run != 0 then none
  else if m.run == 0 && m.cause != 0 then some m.cause else some Codes.poisonConsumed

/-- The code with the lowest value of those the marks give (R110). -/
def consumeAll (ms : List Mark) (run : Nat) : Option Code :=
  ms.foldl (fun acc m =>
    match m.consume run, acc with
    | none, a => a
    | some c, none => some c
    | some c, some d => some (if c.toNat < d.toNat then c else d)) none

/-- The mark a destination takes from the poison that reached it. -/
def markFrom (ms : List Mark) (run : Nat) : Mark :=
  match consumeAll ms run with
  | some c => { cause := c, run }
  | none => { cause := (ms.head?.map (·.cause)).getD 0, run }

/-! ## Outbox, interrupts, log and notices -/

def State.emit (s : State) (e : OutEvt) : State := { s with outbox := s.outbox ++ [e] }

def State.updHostFn (s : State) (f : FuncNo) (g : HostFn → HostFn) : State :=
  { s with hostq := { s.hostq with fns := s.hostq.fns.set f (g s.hostq.fns[f]) } }

/-- A function signals an MSI-X vector; a masked vector sets its pending bit (R445). -/
def State.signal (s : State) (f : FuncNo) (vec : Nat) : State :=
  let e := (alGet s.hostq.fns[f].msix vec).getD {}
  if e.mask then s.updHostFn f fun h => { h with pba := if h.pba.contains vec then h.pba else h.pba ++ [vec] }
  else s.emit (.msix f.val vec e.addr e.data)

/-- The severity of a code's log record. The spec gives none for most codes (log entry 6). -/
def severityOf (c : Code) : Nat :=
  if c = Codes.reckonerWatchdog ∨ c = Codes.orphanMode ∨ c = Codes.lockstepMismatch ∨
     c = Codes.bootRecovery ∨ c = Codes.memoryTraining then 3
  else if c = Codes.beatSplit ∨ c = Codes.thermalThrottle ∨ c = Codes.sensorThreshold then 1
  else if c = 0 then 0 else 2

/-- Records written with PERSIST set: orphan, lifecycle, firmware and fence records (R508). -/
def persistOf (c : Code) : Bool :=
  c = Codes.orphanMode || c = Codes.lifecycleLock || c = Codes.firmwareRejected

/-- Sources of log records (Table 16.3). -/
inductive LogSrc where
  | tally | frame | memory | carry | hostq | mas | adm | lne | reckoner | boot
deriving DecidableEq, Repr

def LogSrc.num : LogSrc → Nat
  | .tally => 0 | .frame => 1 | .memory => 2 | .carry => 3 | .hostq => 4
  | .mas => 5 | .adm => 6 | .lne => 7 | .reckoner => 8 | .boot => 9

/-- What a log record or a fault notice says beside its code (Tables 15.4, 16.3). -/
structure LogArgs where
  index : Nat := 0
  func : Option Nat := none
  frame : Option Nat := none
  detail : Nat := 0
  persist : Bool := false
  severity : Option Nat := none

/-- Occurrences within 1 ms of one code, source and index fold into the first record (R507). -/
def foldLog (code : Code) (src idx : Nat) (up : Nat) : List LogRec → Option (List LogRec)
  | [] => none
  | r :: rs =>
    match foldLog code src idx up rs with
    | some rs' => some (r :: rs')
    | none =>
      if r.code = code ∧ r.source = src ∧ r.index = idx ∧ up < r.up + 1000000 then
        some ({ r with count := satInc r.count } :: rs)
      else none

/-- A class 0x08 code is the last one of the management class and, but for 0x0804, sets ALERT (R492). -/
def State.noteClass (s : State) (code : Code) : State :=
  if code.toNat / 256 = 8 then
    { s with global := { s.global with fault := { s.global.fault with
      lastMgmt := code, alert := s.global.fault.alert || code != Codes.sensorThreshold } } }
  else s

/-- A platform event of the management port names the record it is of (R513). -/
def State.noteEvent (s : State) (code : Code) (seq : BitVec 32) : State :=
  { s with mgmt := { s.mgmt with port := { s.mgmt.port with events := s.mgmt.port.events ++ [(seq, code)] } } }

/-- A new record at the end of the ring, which holds 8,192. -/
def State.newRecord (s : State) (code : Code) (src : LogSrc) (a : LogArgs) (sev : Nat) : State :=
  let r : LogRec := {
    seq := s.mgmt.logSeq + 1, code, source := src.num, index := a.index, func := a.func,
    severity := sev, persist := a.persist || persistOf code,
    tb := s.tally.tb, up := s.tally.up, beat := s.tally.count, detail := BitVec.ofNat 64 a.detail }
  let ring := s.mgmt.ring ++ [r]
  { s with mgmt := { s.mgmt with ring := ring.drop (ring.length - 8192), logSeq := s.mgmt.logSeq + 1 } }

/-- A new record signals its vector where the log's interrupt is enabled for its severity. -/
def State.signalLog (s : State) (sev : Nat) : State :=
  if s.mgmt.minSeverity.toNat ≤ sev ∧ s.mgmt.logIen then s.signal 0 s.mgmt.logVector.toNat else s

/-- An occurrence counted in a record that stands is an event where each SENSOR_THRESHOLD is one (R513). -/
def State.foldRecord (s : State) (code : Code) (src idx : Nat) (ring : List LogRec) : State :=
  let s := { s with mgmt := { s.mgmt with ring } }
  if code = Codes.sensorThreshold then
    match ring.reverse.find? fun r => r.code == code && r.source == src && r.index == idx with
    | some r => s.noteEvent code r.seq
    | none => s
  else s

/-- The event log takes a record (R506, R507, R509), or counts it in one of the same code and source. A new record
of severity ERROR or above, or of a sensor, is an event of the management port (R513). -/
def State.log (s : State) (code : Code) (src : LogSrc) (a : LogArgs := {}) : State :=
  let sev := a.severity.getD (severityOf code)
  let s := s.noteClass code
  match foldLog code src.num a.index s.tally.up s.mgmt.ring with
  | some ring => s.foldRecord code src.num a.index ring
  | none =>
    let s := s.newRecord code src a sev
    (if 2 ≤ sev ∨ code = Codes.sensorThreshold then s.noteEvent code s.mgmt.logSeq else s).signalLog sev

/-- A drop reported to a run and, where Table 15.3 says so, in the event log (R332, R490). -/
def State.report (s : State) (run : Nat) (code : Code) (frame : Nat) : State :=
  let s := s.event run code frame
  if code = Codes.sealViolation then s else s.log code .frame { index := frame, frame := some frame }

/-- A covered write of frame `f`'s program is dropped: the first release that covers it is suppressed (R332). -/
def State.noteDrop (s : State) (f : FrameNo) (d : Drop) : State :=
  s.updFrame f fun fr => { fr with rn := { fr.rn with drops := fr.rn.drops ++ [d] } }

/-- A flag update that has been sent is applied whatever becomes of its program (R333). -/
def Xfer.flying (x : Xfer) : Bool := x.kind == .rel && x.sent

/-- A drop of a transfer that its program is still there to be told of. -/
def State.dropOf (s : State) (x : Xfer) (device : Option Nat) (addr : Nat) : State :=
  match frameNo? x.frame with
  | some f =>
    if (s.frame f).rn.run = x.run then
      s.noteDrop f { id := x.id, feeder := some x.feeder, beat := x.due, device, addr }
    else s
  | none => s

/-- The PF error status takes a code (GLOBAL_PF_ERR). -/
def State.pfErr (s : State) (code : Code) (func : Nat) : State :=
  { s with global := { s.global with pfErrCode := code, pfErrFunc := BitVec.ofNat 6 func,
                                     pfErrCount := satInc s.global.pfErrCount } }

/-- The 32 bytes of a fault notice (Table 15.4). -/
def noticeBytes (s : State) (code : Code) (a : LogArgs) : List Byte :=
  natToBytes 2 code.toNat ++
  [BitVec.ofNat 8 (match a.func with | some f => f % 64 + 64 | none => 0)] ++
  [BitVec.ofNat 8 (match a.frame with | some f => f % 64 + 64 | none => 0)] ++
  [if s.global.fault.phase then 1 else 0] ++ natToBytes 3 0 ++
  natToBytes 8 s.tally.tb.toNat ++ natToBytes 8 s.tally.count.toNat ++ natToBytes 8 a.detail

/-- A notice is written at the fault ring's tail. -/
def State.postNotice (s : State) (code : Code) (src : LogSrc) (a : LogArgs) : State :=
  let fr := s.global.fault
  let next := (fr.tail.toNat + 1) % (fr.sizeM1.toNat + 1)
  let s := s.emit (.hostWrite 0 (fr.ringBase.toNat * 4096 + fr.tail.toNat * 32) (noticeBytes s code a) false)
  { s with global := { s.global with fault := { fr with
    tail := BitVec.ofNat 16 next
    phase := if next = 0 then !fr.phase else fr.phase
    lastNotice := (code, src.num, a.index, s.tally.up) ::
      fr.lastNotice.filter (fun n => !(n.1 == code && n.2.1 == src.num && n.2.2.1 == a.index)) } } }

/-- A fault notice goes to the fault ring, or is lost: the ring is full, or one of the same code and
source was posted within 1 ms (R491). -/
def State.notice (s : State) (code : Code) (src : LogSrc) (a : LogArgs) : State :=
  let fr := s.global.fault
  let recent := fr.lastNotice.any fun n => n.1 == code && n.2.1 == src.num && n.2.2.1 == a.index && s.tally.up < n.2.2.2 + 1000000
  if !fr.ringEn then s
  else if recent ∨ (fr.tail.toNat + 1) % (fr.sizeM1.toNat + 1) = fr.head.toNat then
    { s with global := { s.global with fault := { fr with lost := satInc fr.lost } } }
  else if fr.ien then (s.postNotice code src a).signal 0 fr.vector.toNat
  else s.postNotice code src a

/-- A code that goes to the event log and, as a fault notice, to the fault ring (Table 15.3). -/
def State.logNotice (s : State) (code : Code) (src : LogSrc) (a : LogArgs) : State := (s.log code src a).notice code src a

/-- ALERT is set (R492). -/
def State.alert (s : State) : State :=
  { s with global := { s.global with fault := { s.global.fault with alert := true } } }

/-- An access that finds its frame's domain not ON is logged (R39, R490). -/
def State.offLog (s : State) (f : FrameNo) (func : Option Nat := none) : State :=
  s.log Codes.domainOffAccess .frame { index := f.val, func, frame := some f.val }

/-- A PF access to the FRM block of a frame whose domain is not ON is dropped and reported (R39, R490). -/
def State.offAccess (s : State) (f : FrameNo) (func : Nat := 0) : State :=
  (s.offLog f (some func)).pfErr Codes.domainOffAccess func

/-- The host port serves more than status: not in orphan mode (R496), nor in recovery mode (R551), nor once a device
reset has begun (R535). -/
def State.hostOk (s : State) : Bool := !s.global.fault.orphan && s.boot.state != .recovery && s.boot.resetWait.isNone

/-- A write to the FRM block of frame `f` takes effect only while its domain is ON (R39). -/
def State.frmWrite (s : State) (f : FrameNo) (t : State) : Host.Outcome State Fault Refusal :=
  .next (if s.powered f then t else s.offAccess f)

/-! ## Free values -/

/-- The next open value (log entry 12). -/
def State.openVal (s : State) : BitVec 64 × State :=
  (Config.openValue s.freeCtr, { s with freeCtr := s.freeCtr + 1 })

/-! ## The address map (R29 to R31, R39, R174, R424) -/

/-- The lowest scratchpad-window address. -/
def spadBase : Nat := 0x010000000000

/-- Bytes of usable memory per density encoding (R29, Table 1.4). -/
def usableOf : Nat → Nat
  | 0 => 0x003E00000000
  | 1 => 0x007C00000000
  | _ => 0x00F800000000

/-- The usable limit in force. -/
def State.usable (s : State) : Nat := usableOf s.memc.ports[0].density.toNat

/-- Where a device physical address lies (Table 1.4). -/
inductive Place where
  | mem
  | spad (f : FrameNo) (off : Nat)
  | regs (off : Nat)
  | unmapped
deriving DecidableEq, Repr

def State.place (s : State) (a : Nat) : Place :=
  if a < s.usable then .mem
  else if spadBase ≤ a ∧ a < spadBase + 64 * 0x1000000 then
    let off := (a - spadBase) % 0x1000000
    match frameNo? ((a - spadBase) / 0x1000000) with
    | some f => if off < 0x800000 then .spad f off else .unmapped
    | none => .unmapped
  else if 0x020000000000 ≤ a ∧ a < 0x020008000000 then .regs (a - 0x020000000000)
  else .unmapped

/-- The address of a scratchpad offset (R285). -/
def spadAddr (f : FrameNo) (off : Nat) : Nat := spadBase + f.val * 0x1000000 + off

/-- The function that holds a frame (R425); the PF where no enabled function does. -/
def State.holder (s : State) (f : FrameNo) : Option FuncNo :=
  (List.finRange 64).find? fun n => s.global.funcs[n].enable && hasFrame s.global.funcs[n].frames f

/-- The partition of a function: base and size in bytes (Table 13.2). -/
def State.partition (s : State) (n : FuncNo) : Nat × Nat :=
  (s.global.funcs[n].memBase.toNat * 0x10000000, s.global.funcs[n].memSize.toNat * 0x10000000)

/-- The valid seal window an address lies in, as its owner (R171). -/
def State.sealWindow (s : State) (a : Nat) : Option Nat :=
  (s.global.seals.toList.find? fun w =>
    w.valid && w.base.toNat * 65536 ≤ a && a < w.base.toNat * 65536 + w.size.toNat * 65536).map (·.owner.toNat)

/-- The sealed scratchpad region a row lies in, as its owner (R294, sealed locations). -/
def State.sealRegion (s : State) (f : FrameNo) (off : Nat) : Option Nat :=
  ((s.frame f).regions.find? fun r =>
    r.isSealed && r.originRow * 2048 ≤ off && off < (r.originRow + r.sizeRows) * 2048).map (·.owner)

/-- The owner of the sealed location an address lies in, if it lies in one. -/
def State.sealOwner (s : State) (a : Nat) : Option Nat :=
  match s.place a with
  | .mem => s.sealWindow a
  | .spad f off => s.sealRegion f off
  | _ => none

/-- May a program of function `n` access the address (R424)? -/
def State.reach (s : State) (n : FuncNo) (a : Nat) : Bool :=
  match s.place a with
  | .mem =>
    match s.sealWindow a with
    | some o => o == n.val
    | none =>
      if n.val = 0 then true
      else (s.partition n).1 ≤ a && a < (s.partition n).1 + (s.partition n).2
  | .spad f _ => hasFrame s.global.funcs[n].frames f
  | .regs _ => n.val == 0
  | .unmapped => false

/-- A function number below 64. -/
def funcNo (n : Nat) : FuncNo := if h : n < 64 then ⟨n, h⟩ else 0

/-- How an access to a location is answered. -/
inductive Access where
  | ok | unmapped | sealViolation | domainOff
deriving DecidableEq, Repr

/-- R31, R39, R174 and R424 at the home of an address, for a program's access: `isSealed` is the
instruction's sealed attribute, `pub` marks a public output. A fenced frame is unreachable (R473), as one that is off. -/
def State.access (s : State) (n : FuncNo) (isSealed pub write : Bool) (a : Nat) : Access :=
  match s.place a with
  | .unmapped => .unmapped
  | pl =>
    match s.sealOwner a with
    | some o => if isSealed && o == n.val then
        (match pl with | .spad f _ => if s.usableFrame f then .ok else .domainOff | _ => .ok)
      else .sealViolation
    | none =>
      if !s.reach n a then .unmapped
      else if write && isSealed && !pub then .sealViolation
      else match pl with | .spad f _ => if s.usableFrame f then .ok else .domainOff | _ => .ok

/-! ## Lines, rows and wipes -/

/-- The state with the line or row of number `l` marked, in what home reads see. -/
def State.mark (s : State) (l : Nat) (m : Mark) : State := { s with poison := alSet s.poison l m }

def State.unmark (s : State) (l : Nat) : State := { s with poison := alErase s.poison l }

/-- The lines or rows `n` bytes from `a` touch. -/
def linesOf (a n : Nat) : List Nat :=
  if n = 0 then [] else (List.range ((a + n - 1) / 2048 + 1 - a / 2048)).map (· + a / 2048)

/-- The lines or rows `n` bytes from `a` cover wholly (R108). -/
def wholeLines (a n : Nat) : List Nat :=
  (linesOf a n).filter fun l => a ≤ l * 2048 && (l + 1) * 2048 ≤ a + n

/-- Zero and unpoison `n` bytes from `a`, whole lines (R294, R370). -/
def State.wipeBytes (s : State) (a n : Nat) : State :=
  { s with mem := memZero s.mem a n, vis := memZero s.vis a n
           poison := s.poison.filter fun p => p.1 * 2048 < a || a + n ≤ p.1 * 2048
           visPoison := s.visPoison.filter fun p => p.1 * 2048 < a || a + n ≤ p.1 * 2048 }

/-- A whole-frame wipe begins: rows zeroed, poison cleared, resident regions destroyed, the
remote-read cache emptied (R296, R340). A frame in RETAIN defers it (R468). -/
def State.wipeFrame (s : State) (f : FrameNo) : State :=
  let s := s.updFrame f fun fr => { fr with regions := [], rrc := [] }
  if (s.domain (s.domainOf f)).state == .retain then s.updFrame f fun fr => { fr with deferWipe := true }
  else (s.wipeBytes (spadAddr f 0) 0x800000).updFrame f fun fr =>
    { fr with reg := { fr.reg with wiping := true } }

/-- A wipe of device memory begins (R370): its lines read zero and unpoisoned from now on, and it runs
on until WIPE_COMPLETE. -/
def State.startWipe (s : State) (k : WipeKind) (base size : Nat) : State :=
  if size = 0 then s else
  let s := s.wipeBytes base size
  { s with
    memc := { s.memc with wipes := s.memc.wipes ++ [{ kind := k, base, size }], wipeDone := 0 }
    upsets := s.upsets.filter fun u =>
      match u with | .sector n _ => n * 64 < base || base + size ≤ n * 64 | _ => true }

/-- A line of a wipe in progress that the wipe has not reached (R371). -/
def State.unwiped (s : State) (line : Nat) : Bool :=
  s.memc.wipes.any fun w => w.base ≤ line * 2048 && line * 2048 < w.base + w.size && !w.wiped.contains line

/-! ## Outcomes -/

/-- A command whose event does not take place leaves the state as it is (log entry 1). -/
def guardStep (b : Bool) (s t : State) : Host.Outcome State Fault Refusal :=
  .next (if b then t else s)

/-- The code with which a write is dropped at its home (R31, R39, R174). -/
def dropCode : Access → Option Code
  | .ok => none
  | .sealViolation => some Codes.sealViolation
  | .domainOff => some Codes.domainOffAccess
  | .unmapped => some Codes.writeOob

end Sys2Proof.Machine
end

