-- ==== Sys2Proof/Machine/Operands.lean ====
section
/-!
DEFINITION. Beat-code words and descriptors: opcodes, fields, reserved bits and encodings (chapter 7), the
descriptor's encoding and checks (chapter 3), addressing (R95, R290), footprints and costs (Table 7.4).
-/

namespace Sys2Proof.Machine

open Sys2Proof

/-! ## Fields of words -/

/-- Bits [lo + n − 1 : lo] of a number. -/
def bitsAt (w lo n : Nat) : Nat := w / 2 ^ lo % 2 ^ n

/-- Bits [lo + n − 1 : lo] of a beat-code word. -/
def fld (w : BcWord) (lo n : Nat) : Nat := bitsAt w.toNat lo n

/-- A one-bit field. -/
def flag1 (w : BcWord) (lo : Nat) : Bool := fld w lo 1 == 1

def wCode (w : BcWord) : Nat := fld w 0 8
def wEngine (w : BcWord) : Nat := fld w 8 4
def wGap (w : BcWord) : Nat := fld w 12 8
def wCost (w : BcWord) : Nat := fld w 20 20
def wD (w : BcWord) : Nat := fld w 40 9
def wA (w : BcWord) : Nat := fld w 49 9
def wB (w : BcWord) : Nat := fld w 58 9
def wC (w : BcWord) : Nat := fld w 67 9

/-- The opcodes of Table 7.4. -/
inductive Op where
  | nop | endWord | br | loop | sop | flagSet | flagWait | flagAcq | ldrop | nttF | nttI | bconv | ksip
  | pmat | lchain | lexp | lred | smulOpen | smulClose | sreshare | nflood | encPk | sexport | simport
  | aut | trp | kregen | xfer | kstream | flagRel | atom | sld
deriving DecidableEq, Repr, Inhabited

/-- An opcode's row of Table 7.4 and its opcode fields of Tables 7.6 to 7.9: value, ENGINE, the slots
D, A, B and C it lists, its fields as (low bit, width), and those of them that are zero-reserved. -/
structure OpRow where
  op : Op
  code : Nat
  engine : Nat
  d : Bool
  a : Bool
  b : Bool
  c : Bool
  fields : List (Nat × Nat)
  zeroRes : List (Nat × Nat)

/-- Sequencer and transform opcodes. -/
def opRows1 : List OpRow := [
  ⟨.nop, 0x00, 0, false, false, false, false, [], []⟩,
  ⟨.endWord, 0x01, 0, false, false, false, false, [], []⟩,
  ⟨.br, 0x02, 0, false, false, false, false,
    [(76, 2), (78, 5), (83, 5), (88, 3), (91, 11), (102, 11), (113, 15)], []⟩,
  ⟨.loop, 0x03, 0, false, false, false, false, [(76, 1), (77, 20), (97, 11), (108, 16)], []⟩,
  ⟨.sop, 0x04, 0, false, false, false, false, [(76, 4), (80, 5), (85, 5), (90, 5), (95, 1), (96, 32)], []⟩,
  ⟨.flagSet, 0x05, 0, false, false, false, false, [(76, 8), (84, 1), (85, 32)], []⟩,
  ⟨.flagWait, 0x06, 0, false, false, false, false,
    [(76, 8), (84, 1), (85, 16), (101, 1), (102, 25)], [(102, 25)]⟩,
  ⟨.flagAcq, 0x07, 0, false, false, false, false,
    [(76, 8), (84, 1), (85, 16), (101, 1), (102, 25)], [(102, 25)]⟩,
  ⟨.ldrop, 0x08, 0, true, true, false, false, [(76, 7)], [(76, 7)]⟩,
  ⟨.nttF, 0x10, 1, true, true, false, false,
    [(76, 2), (78, 2), (80, 7), (87, 7), (94, 8), (102, 1), (103, 1)], []⟩,
  ⟨.nttI, 0x11, 1, true, true, false, false,
    [(76, 2), (78, 2), (80, 7), (87, 7), (94, 8), (103, 1)], []⟩,
  ⟨.bconv, 0x20, 2, true, true, false, false, [(76, 2), (78, 3), (81, 2), (83, 1)], []⟩,
  ⟨.ksip, 0x21, 2, true, true, true, false,
    [(76, 3), (79, 7), (86, 8), (94, 1), (95, 1), (96, 8), (104, 1), (105, 8)], []⟩,
  ⟨.pmat, 0x22, 2, true, true, true, false,
    [(76, 5), (81, 6), (87, 20), (107, 1), (108, 8)], []⟩]

/-- Lane Engine opcodes. -/
def opRows2 : List OpRow := [
  ⟨.lchain, 0x30, 3, true, true, true, true,
    [(76, 8), (84, 2), (86, 8), (94, 2), (96, 2), (98, 7), (105, 8), (113, 3), (116, 1), (117, 9), (126, 1)], []⟩,
  ⟨.lexp, 0x31, 3, true, true, false, false,
    [(76, 7), (83, 8), (91, 6), (97, 1), (98, 3), (101, 1)], []⟩,
  ⟨.lred, 0x32, 3, false, true, false, false, [(76, 2), (78, 5), (83, 2), (85, 7)], []⟩,
  ⟨.smulOpen, 0x33, 3, true, true, true, true, [(76, 9), (85, 7), (92, 8)], []⟩,
  ⟨.smulClose, 0x34, 3, true, true, true, true, [(76, 7), (83, 8)], []⟩,
  ⟨.sreshare, 0x35, 3, true, true, false, false, [(76, 9), (85, 4), (89, 1), (90, 7), (97, 8)], []⟩,
  ⟨.nflood, 0x36, 3, true, true, false, false,
    [(76, 2), (78, 7), (85, 8), (93, 6), (99, 4), (103, 1), (104, 8)], [(93, 6)]⟩,
  ⟨.encPk, 0x37, 3, true, true, true, true,
    [(76, 7), (83, 8), (91, 4), (95, 1), (96, 20), (116, 8)], []⟩,
  ⟨.sexport, 0x38, 3, true, true, false, false, [(76, 9), (85, 6), (91, 2), (93, 7), (100, 8)], []⟩,
  ⟨.simport, 0x39, 3, true, true, true, false, [(76, 6), (82, 2), (84, 7), (91, 8)], []⟩]

/-- Permute Unit, Key Synthesizer and Feeder opcodes. -/
def opRows3 : List OpRow := [
  ⟨.aut, 0x40, 4, true, true, false, false, [(76, 2), (78, 2), (80, 7), (87, 8), (95, 18)], [(95, 18)]⟩,
  ⟨.trp, 0x41, 4, true, true, false, false, [], []⟩,
  ⟨.kregen, 0x50, 5, false, false, false, false, [(76, 8), (84, 7)], []⟩,
  ⟨.xfer, 0x60, 8, true, true, true, false, [(76, 8), (84, 16), (100, 1), (101, 1)], []⟩,
  ⟨.kstream, 0x61, 8, false, true, false, false,
    [(76, 3), (79, 7), (86, 7), (93, 8), (101, 4), (105, 1), (106, 16)], [(106, 16)]⟩,
  ⟨.flagRel, 0x62, 8, false, false, false, false,
    [(76, 8), (84, 2), (86, 1), (87, 16), (103, 1), (104, 6), (110, 12), (122, 3)], []⟩,
  ⟨.atom, 0x63, 8, false, true, false, false, [(76, 3), (79, 5), (84, 5), (89, 5), (94, 8), (102, 16)], []⟩,
  ⟨.sld, 0x64, 8, false, true, false, false, [(76, 5), (81, 16)], [(81, 16)]⟩]

/-- Table 7.4. -/
def opRows : List OpRow := opRows1 ++ opRows2 ++ opRows3

/-- The row of the opcode a word holds, if Table 7.4 lists it. -/
def rowOf (w : BcWord) : Option OpRow := opRows.find? fun r => r.code == wCode w

def opOf (w : BcWord) : Option Op := (rowOf w).map (·.op)

/-- A Feeder word. -/
def OpRow.feeder (r : OpRow) : Bool := r.engine == 8

/-- The engines an opcode's operation occupies (Tables 7.4 and 5.10). -/
def Op.engines : Op → List Engine
  | .nttF | .nttI => [.te]
  | .bconv | .ksip | .pmat => [.be]
  | .lchain | .lexp | .lred | .smulOpen | .smulClose => [.le]
  | .sreshare | .nflood | .sexport | .simport => [.le, .ksy]
  | .encPk => [.le, .te, .ksy]
  | .aut | .trp => [.pu]
  | .kregen => [.ksy]
  | _ => []

/-- Words with a GAP field: all but BR, LOOP, FLAG.WAIT, FLAG.ACQ, NOP and END (Table 7.2). -/
def Op.hasGap : Op → Bool
  | .br | .loop | .flagWait | .flagAcq | .nop | .endWord => false
  | _ => true

/-- The bits of a word that its opcode uses. -/
def usedMask (r : OpRow) (w : BcWord) : Nat :=
  let m (lo n : Nat) : Nat := (2 ^ n - 1) * 2 ^ lo
  let b := r.b && (r.op != .xfer || flag1 w 101)
  m 0 12 + m 20 20 + (if r.op.hasGap then m 12 8 else 0) +
    (if r.d then m 40 9 else 0) + (if r.a then m 49 9 else 0) + (if b then m 58 9 else 0) +
    (if r.c then m 67 9 else 0) + (r.fields.map fun p => m p.1 p.2).sum

/-- Fields that Tables 7.6 to 7.9 reserve under another field's value, and that are not zero. -/
def condReserved (op : Op) (w : BcWord) : Bool :=
  match op with
  | .bconv => (fld w 76 2 != 0 && fld w 78 3 != 0) || (fld w 76 2 != 2 && flag1 w 83)
  | .ksip => !flag1 w 95 && (fld w 96 8 != 0 || flag1 w 104)
  | .lchain => !flag1 w 126 && fld w 117 9 != 0
  | .sop => (flag1 w 95 && fld w 90 5 != 0) || (fld w 76 4 == 12 && (fld w 85 5 != 0 || fld w 90 5 != 0))
  | .flagRel => !flag1 w 103 && fld w 110 12 != 0
  | .atom => (fld w 76 3 != 4 && fld w 89 5 != 0) || (fld w 76 3 != 1 && fld w 94 8 != 0)
  | _ => false

/-- Order 2 of Table 7.14 for a word: a zero in a zero-reserved field, COST under any opcode, or a reserved bit set. -/
def wordReservedBad (w : BcWord) : Bool :=
  match rowOf w with
  | none => wCost w == 0
  | some r =>
    wCost w == 0 || r.zeroRes.any (fun p => fld w p.1 p.2 == 0) ||
    (w.toNat &&& (2 ^ 128 - 1 - usedMask r w)) != 0 || condReserved r.op w

/-- Fields above their range and reserved encodings that the word alone shows (order 3). -/
def fieldBad (op : Op) (w : BcWord) : Bool :=
  match op with
  | .sop => decide (14 ≤ fld w 76 4) || (fld w 76 4 == 12 && !flag1 w 95) ||
      (fld w 76 4 == 13 && decide (3 < fld w 96 32))
  | .flagWait | .flagAcq => decide (2 ^ 24 < fld w 102 25)
  | .ldrop => decide (112 < fld w 76 7)
  | .nttF | .nttI => decide (128 < fld w 94 8)
  | .bconv => fld w 76 2 == 3
  | .ksip => decide (128 < fld w 86 8)
  | .pmat => decide (16 < fld w 76 5) || decide (32 < fld w 81 6)
  | .lchain => decide (128 < fld w 105 8)
  | .lexp => decide (128 < fld w 83 8) || decide (47 < fld w 91 6)
  | .lred => fld w 76 2 == 3
  | .smulOpen => decide (128 < fld w 92 8)
  | .smulClose => decide (128 < fld w 83 8)
  | .sreshare => decide (128 < fld w 97 8)
  | .nflood => decide (128 < fld w 85 8) || decide (60 < fld w 93 6)
  | .encPk => decide (128 < fld w 83 8)
  | .sexport => decide (128 < fld w 100 8)
  | .simport => decide (128 < fld w 91 8)
  | .aut => decide (128 < fld w 87 8) || fld w 95 18 % 2 == 0
  | .kregen => decide (64 < fld w 84 7)
  | .xfer => (flag1 w 100) != (fld w 84 16 == 0)
  | .kstream => decide (64 < fld w 86 7)
  | .flagRel => decide (1 < fld w 84 2) || decide (4 < fld w 122 3)
  | .atom => decide (4 < fld w 76 3)
  | _ => false

/-- Order 3 of Table 7.14 for a word by itself: an undefined opcode, a wrong ENGINE, a reserved encoding
or a field above its range. -/
def wordEncodingBad (w : BcWord) : Bool :=
  match rowOf w with
  | none => true
  | some r =>
    !(if r.feeder then 8 ≤ wEngine w && wEngine w ≤ 11 else wEngine w == r.engine) || fieldBad r.op w

/-- The nominal length of a word (Table 7.1). END ends the stream; it is given 1. -/
def nominal (w : BcWord) : Nat :=
  match opOf w with
  | some .nop => wCost w
  | some .br => 2 + fld w 113 15
  | some .loop => if flag1 w 76 then 1 + fld w 77 20 * fld w 108 16 else 1
  | some .flagWait | some .flagAcq | some .endWord => 1
  | some _ => wGap w
  | none => 1

/-! ## Descriptors -/

def kCipher : Nat := 1
def kPlain : Nat := 2
def kKey : Nat := 3
def kShare : Nat := 4
def kTensor : Nat := 5
def kTriple : Nat := 6

/-- The descriptor that 64 bytes spell (Table 3.7). A stored POISON bit marks poison of no recorded
cause. -/
def decodeDesc (b : Nat) : Desc := {
  kind := bitsAt b 0 4, scheme := bitsAt b 4 4, logN := bitsAt b 8 5, level := bitsAt b 13 7
  special := bitsAt b 20 5, domain := bitsAt b 25 1, form := bitsAt b 26 1, comps := bitsAt b 27 2
  mark := if bitsAt b 29 1 = 1 then some {} else none
  pset := bitsAt b 32 8, keyform := bitsAt b 40 2, keytype := bitsAt b 42 2, party := bitsAt b 44 1
  etype := bitsAt b 48 4, layout := bitsAt b 52 4, location := bitsAt b 56 2
  keyTag := bitsAt b 64 64, scale := bitsAt b 128 20, noise := bitsAt b 160 16
  galois := bitsAt b 192 18, region := bitsAt b 216 8, capacity := bitsAt b 224 8, ccap := bitsAt b 232 2
  base := bitsAt b 256 60
  dim0 := bitsAt b 320 16, dim1 := bitsAt b 336 16, dim2 := bitsAt b 352 16, dim3 := bitsAt b 368 16 }

/-- The 64 bytes of a descriptor, as the FRM_DTAB window returns them (Table 3.7). -/
def encodeDesc (d : Desc) : Nat :=
  d.kind + d.scheme * 2 ^ 4 + d.logN * 2 ^ 8 + d.level * 2 ^ 13 + d.special * 2 ^ 20 + d.domain * 2 ^ 25 +
  d.form * 2 ^ 26 + d.comps * 2 ^ 27 + (if d.mark.isSome then 2 ^ 29 else 0) + d.pset * 2 ^ 32 +
  d.keyform * 2 ^ 40 + d.keytype * 2 ^ 42 + d.party * 2 ^ 44 + d.etype * 2 ^ 48 + d.layout * 2 ^ 52 +
  d.location * 2 ^ 56 + d.keyTag * 2 ^ 64 + d.scale * 2 ^ 128 + d.noise * 2 ^ 160 + d.galois * 2 ^ 192 +
  d.region * 2 ^ 216 + d.capacity * 2 ^ 224 + d.ccap * 2 ^ 232 + d.base * 2 ^ 256 + d.dim0 * 2 ^ 320 +
  d.dim1 * 2 ^ 336 + d.dim2 * 2 ^ 352 + d.dim3 * 2 ^ 368

/-- The bits of a descriptor that Table 3.7 reserves. -/
def descReservedBits (b : Nat) : Bool :=
  bitsAt b 30 2 != 0 || bitsAt b 45 3 != 0 || bitsAt b 58 6 != 0 || bitsAt b 148 12 != 0 ||
  bitsAt b 176 16 != 0 || bitsAt b 210 6 != 0 || bitsAt b 234 22 != 0 || bitsAt b 316 4 != 0 ||
  bitsAt b 384 128 != 0 || (bitsAt b 56 2 == 0 && bitsAt b (256 + 48) 12 != 0)

/-- Bits of one element of an ETYPE (Table 9.3). -/
def etypeBits : Nat → Nat
  | 4 => 16
  | 5 => 8
  | 6 => 4
  | _ => 32

/-- An integer PLAINTEXT. -/
def Desc.intPlain (d : Desc) : Bool := d.kind == kPlain && (d.etype == 4 || d.etype == 5 || d.etype == 6)

/-- A ring object: RES32 limbs. -/
def Desc.ring (d : Desc) : Bool :=
  (d.kind == kCipher || d.kind == kKey || d.kind == kShare || d.kind == kTriple ||
    (d.kind == kPlain && d.etype == 1))

/-- A kind that carries a KEY_TAG (Table 3.11). -/
def Desc.tagged (d : Desc) : Bool :=
  d.kind == kCipher || d.kind == kKey || d.kind == kShare || d.kind == kTriple

/-- A kind of SCHEME 1 that carries SCALE (Table 3.11). -/
def Desc.scaled (d : Desc) : Bool := d.scheme == 1 && (d.kind == kCipher || d.kind == kPlain)

/-- A CIPHERTEXT of SCHEME 2 or 3, which carries NOISE. -/
def Desc.noisy (d : Desc) : Bool := d.kind == kCipher && (d.scheme == 2 || d.scheme == 3)

/-- N = 2^LOG_N. -/
def Desc.n (d : Desc) : Nat := 2 ^ d.logN

/-- The product of the four extents (R308). -/
def Desc.extent (d : Desc) : Nat := d.dim0 * d.dim1 * d.dim2 * d.dim3

/-- The element count of an object in a transfer (R308, R309). -/
def Desc.elems (d : Desc) : Nat :=
  if d.kind = kTensor then d.extent else if d.intPlain then d.n else d.ccap * d.capacity * d.n

/-- Bits of an element of an object in a transfer. -/
def Desc.ebits (d : Desc) : Nat := if d.kind = kTensor ∨ d.intPlain then etypeBits d.etype else 32

/-- The digits of a prime set: α primes each, ceil(NQ / α) of them (R129). -/
def PSet.alpha (p : PSet) : Nat := ceilDiv p.nq p.dnum

def PSet.ndig (p : PSet) : Nat := ceilDiv p.nq p.alpha

/-- DSTRIDE of a key in device memory (R192). -/
def Desc.dstride (d : Desc) : Nat :=
  2048 + (if d.keyform = 1 then 1 else 2) * d.capacity * d.n * 4

/-- The footprint of an object in bytes (R95, R192, R197, R308). -/
def Desc.bytes (d : Desc) (p : PSet) : Nat :=
  if d.kind = kTensor then (d.extent * etypeBits d.etype + 7) / 8
  else if d.intPlain then d.n * etypeBits d.etype / 8
  else if d.kind = kKey then
    (if d.location = 0 then p.ndig * d.dstride else p.ndig * 2 * d.capacity * d.n * 4)
  else d.ccap * d.capacity * d.n * 4

/-- Descriptor `i` of a table. -/
def slot (dt : List Desc) (i : Nat) : Desc := dt.getD i {}

/-! ## Primes and limbs -/

/-- The set position of extended limb `e` at a LEVEL: e for a Q limb, 112 + k for special limb k. -/
def limbPos (level e : Nat) : Nat := if e < level then e else 112 + (e - level)

/-- The prime-table index of a set position. -/
def PSet.index (p : PSet) (pos : Nat) : Option Nat :=
  if pos < 112 then p.qidx[pos]? else p.pidx[pos - 112]?

/-- The limb slot of extended limb `e` (R95). -/
def limbSlot (d : Desc) (np e : Nat) : Nat :=
  if e < d.level then e else d.capacity - np + (e - d.level)

/-- The set position of a limb slot of an object, where it holds a prime's limb (R95): an active Q limb,
an active special limb, or an inactive Q limb of the set. -/
def slotPos (d : Desc) (p : PSet) (i : Nat) : Option Nat :=
  if i < d.level then some i
  else if d.special ≠ 0 ∧ d.capacity - p.np ≤ i then some (112 + (i - (d.capacity - p.np)))
  else if i < p.nq then some i else none

/-- Byte offset of coefficient `j` of component `c` in limb slot `i` (R95): in a KEY of device memory, of its digit
block 0, after the key header (R192). -/
def coefOff (d : Desc) (c i j : Nat) : Nat :=
  (if d.kind = kKey ∧ d.location = 0 then 2048 else 0) +
    (if d.layout = 2 then ((i * d.ccap + c) * d.n + j) * 4 else ((c * d.capacity + i) * d.n + j) * 4)

def State.pset? (s : State) (n : Nat) : Option PSet := alGet s.global.psets n

def State.pset (s : State) (n : Nat) : PSet := (s.pset? n).getD {}

/-- A prime-table entry by number. -/
def State.prime (s : State) (i : Nat) : PrimeEntry := if h : i < 256 then s.global.primes[i] else {}

/-- The prime at a set position. -/
def State.primeAt (s : State) (p : PSet) (pos : Nat) : PrimeEntry :=
  match p.index pos with
  | some i => s.prime i
  | none => {}

/-- The prime modulus of extended limb `e` of an object. -/
def State.limbQ (s : State) (d : Desc) (e : Nat) : Nat :=
  (s.primeAt (s.pset d.pset) (limbPos d.level e)).q.toNat

/-- The sum of LOG2Q over the first `level` Q primes of a set. -/
def State.log2Sum (s : State) (p : PSet) (level : Nat) : Nat :=
  ((List.range level).map fun i => (s.primeAt p i).log2q.toNat).sum

/-! ## Addresses -/

/-- The region of a number that a frame holds. -/
def Frame.region? (fr : Frame) (n : Nat) : Option Region := fr.regions.find? (·.number == n)

/-- An address no home answers, for what names nothing. -/
def nowhere : Nat := 0x030000000000

/-- The device physical address of byte `b` of an object of frame `f` (R93, R290). -/
def State.objAddr (s : State) (f : FrameNo) (d : Desc) (b : Nat) : Nat :=
  if d.location = 0 then d.base + b
  else if d.location = 1 then
    match (s.frame f).region? d.region with
    | some r =>
      if r.sizeRows = 0 then nowhere
      else spadAddr f (r.originRow * 2048 + (d.base + b) % (r.sizeRows * 2048))
    | none => nowhere
  else nowhere

/-- The distinct elements of a list of numbers, in order of first appearance. -/
def dedup (l : List Nat) : List Nat :=
  l.foldl (fun acc x => if acc.contains x then acc else acc ++ [x]) []

/-- The rows and lines of a span of an object's footprint. -/
def State.objRows (s : State) (f : FrameNo) (d : Desc) (off len : Nat) : List Nat :=
  if len = 0 then [] else
  dedup ((List.range ((off + len - 1) / 2048 + 1 - off / 2048)).flatMap fun k =>
    let lo := max off ((off / 2048 + k) * 2048)
    let hi := min (off + len) ((off / 2048 + k + 1) * 2048)
    [s.objAddr f d lo / 2048, s.objAddr f d (hi - 1) / 2048])

/-- The rows and lines of an object's whole footprint. -/
def State.footRows (s : State) (f : FrameNo) (d : Desc) : List Nat :=
  s.objRows f d 0 (d.bytes (s.pset d.pset))

/-- Where an object's footprint lies, as spans of device physical addresses: two where it wraps in its region. -/
def State.footSpans (s : State) (f : FrameNo) (d : Desc) : List (Nat × Nat) :=
  let n := d.bytes (s.pset d.pset)
  if d.location = 0 then [(d.base, n)]
  else if d.location = 1 then
    match (s.frame f).region? d.region with
    | some r =>
      let size := r.sizeRows * 2048
      let off := if size = 0 then 0 else d.base % size
      let low := min n (size - off)
      [(spadAddr f (r.originRow * 2048 + off), low), (spadAddr f (r.originRow * 2048), min (n - low) off)]
    | none => []
  else []

/-- The sealed location of an object, as the owner of its first byte's (R173). -/
def State.objSealed (s : State) (f : FrameNo) (d : Desc) : Bool := (s.sealOwner (s.objAddr f d 0)).isSome

/-! ## Costs (Table 7.4) -/

/-- The descriptor whose N Table 7.4 takes: the destination's, and the source's where there is no ring destination
(R223). -/
def costDesc (d a : Desc) : Desc := if d.ring then d else a

/-- COST of an NTT limb: ceil(N · log2 N / 32,768). -/
def nttCost (d : Desc) : Nat := ceilDiv (d.n * d.logN) 32768

/-- m and C of a BCONV, as naturals that are 0 where the formula gives less (R129, R133). -/
def bconvRows (p : PSet) (mode digit pair level : Nat) : Nat :=
  match mode with
  | 0 => min p.alpha (level - digit * p.alpha)
  | 1 => p.np
  | _ => if pair = 1 then 2 else 1

def bconvCols (p : PSet) (mode digit pair level : Nat) : Nat :=
  match mode with
  | 0 => p.np + level - bconvRows p 0 digit pair level
  | 1 => level
  | _ => level - (if pair = 1 then 2 else 1)

/-- The cost of a BCONV: m of EXT at or past the source's level, and C of DROP at r ≥ ℓ, are 0. -/
def bconvCost (p : PSet) (w : BcWord) (a : Desc) (n : Nat) : Nat :=
  let mode := fld w 76 2
  let m := bconvRows p mode (fld w 78 3) (fld w 83 1) a.level
  let c := bconvCols p mode (fld w 78 3) (fld w 83 1) a.level
  ceilDiv m 16 * ceilDiv c 32 * (n / 64)

/-- The computed cost of a word (R225): `chains` is the program's chain table, `dt` the descriptors. -/
def costOf (s : State) (chains : List Chain) (dt : List Desc) (w : BcWord) : Nat :=
  let d := slot dt (wD w)
  let a := slot dt (wA w)
  let e := costDesc d a
  let n4 := ceilDiv e.n 4096
  let n2 := ceilDiv e.n 2048
  match opOf w with
  | some .nop => wCost w
  | some .br => 2
  | some .nttF | some .nttI => max 1 (fld w 94 8 * nttCost e)
  | some .bconv => max 1 (bconvCost (s.pset a.pset) w a e.n)
  | some .ksip => max 1 (fld w 86 8 * ceilDiv e.n 16384)
  | some .pmat =>
    if fld w 76 5 = 0 ∨ fld w 81 6 = 0 then 1 else max 1 (a.comps * a.level * (e.n / 64))
  | some .lchain =>
    if (chains.getD (fld w 76 8) {}).stages = [] then 1
    else if d.kind = kTensor then max 1 (ceilDiv d.extent 4096)
    else max 1 (fld w 96 2 * fld w 105 8 * n4)
  | some .lexp => max 1 (fld w 83 8 * n4)
  | some .lred =>
    ceilDiv (if a.kind = kTensor then a.extent else a.n) 4096 + 1
  | some .smulOpen => max 1 (2 * fld w 92 8 * n4)
  | some .smulClose => max 1 (fld w 83 8 * n4)
  | some .sreshare => max 1 (fld w 97 8 * n2)
  | some .nflood => max 1 (fld w 85 8 * n2)
  | some .encPk =>
    let t := if (slot dt (wB w)).domain = 1 then 3 else 4
    max 1 (fld w 83 8 * max (t * nttCost e) (3 * n2))
  | some .sexport => max 1 (fld w 100 8 * n2)
  | some .simport => max 1 (fld w 91 8 * n2)
  | some .aut => max 1 (fld w 78 2 * fld w 87 8 * max 1 (e.n / 16384))
  | some .trp => max 1 (ceilDiv d.extent 16384)
  | some .kregen => 0
  | _ => 1

/-- The cost of a KREGEN on a ring of DEPTH tiles: L × ceil(N / 2,048), N from the ring's size (R200, R201). -/
def kregenCost (l : Nat) (r : Region) : Nat :=
  match r.ring with
  | none => 1
  | some g => if g.depth = 0 then 1 else max 1 (l * ceilDiv (r.sizeRows * 2048 / (8 * g.depth)) 2048)

/-! ## Indices of a record (R312 to R314, R317) -/

def XRec.cnt (x : XRec) (d : Nat) : Nat := x.count.getD d 0

def XRec.isAcc (x : XRec) : Bool := x.mode.getLsbD 0

/-- An iteration that some dimension pads (R312). -/
def XRec.pads (x : XRec) (i : List Nat) : Bool :=
  (List.range 4).any fun d => i.getD d 0 < x.padlo.getD d 0 || x.cnt d ≤ i.getD d 0 + x.padhi.getD d 0

/-- The iteration whose source a padded one reads (R312). -/
def XRec.clampPad (x : XRec) (i : List Nat) : List Nat :=
  (List.range 4).map fun d => min (max (i.getD d 0) (x.padlo.getD d 0)) (x.cnt d - x.padhi.getD d 0 - 1)

/-- The iterations, i0 innermost. -/
def XRec.iters (x : XRec) : List (List Nat) :=
  (List.range (x.cnt 3)).flatMap fun i3 => (List.range (x.cnt 2)).flatMap fun i2 =>
    (List.range (x.cnt 1)).flatMap fun i1 => (List.range (x.cnt 0)).map fun i0 => [i0, i1, i2, i3]

def strided (off : Int) (str : List Int) (i : List Nat) : Int :=
  off + ((List.range 4).map fun d => (i.getD d 0 : Int) * str.getD d 0).sum

/-- The index element of an iteration (R314). -/
def XRec.indexOf (x : XRec) (i : List Nat) : Nat :=
  i.getD 1 0 + x.cnt 1 * (i.getD 2 0 + x.cnt 2 * i.getD 3 0)

/-- The number of index elements: none for a COPY. -/
def XRec.indices (x : XRec) : Nat := if x.kind = 1 then 0 else x.cnt 1 * x.cnt 2 * x.cnt 3

/-- The source element an iteration reads, before the clamp (R312, R314). -/
def XRec.srcIndex (x : XRec) (ix : List Int) (i : List Nat) : Int :=
  let c := if x.pads i then x.clampPad i else i
  if x.kind = 2 then x.soff + ix.getD (x.indexOf i) 0 * x.sstr.getD 1 0 + (c.getD 0 0 : Int) * x.sstr.getD 0 0
  else strided x.soff x.sstr c

/-- The destination element an iteration writes (R312, R314, R317). -/
def XRec.dstIndex (x : XRec) (ix : List Int) (i : List Nat) : Int :=
  if x.kind = 3 then x.doff + ix.getD (x.indexOf i) 0 * x.dstr.getD 1 0 + (i.getD 0 0 : Int) * x.dstr.getD 0 0
  else
    let t := if x.mode.getLsbD 1 then [x.dstr.getD 1 0, x.dstr.getD 0 0, x.dstr.getD 2 0, x.dstr.getD 3 0] else x.dstr
    strided x.doff t i

end Sys2Proof.Machine
end

