-- ==== Sys2Proof/Machine/Packet.lean ====
section
/-!
DEFINITION. Carry packets and flits as bytes (Tables 12.2, 12.3, 12.5 and 12.6) and their checks (R386).
-/

namespace Sys2Proof.Machine

open Sys2Proof

/-! ## Packets -/

def tWrite : Nat := 1
def tFlag : Nat := 2
def tAtom : Nat := 3
def tRed : Nat := 4
def tReddown : Nat := 5
def tAck : Nat := 8
def tAtomr : Nat := 9
def tJunction : Nat := 12
def tTime : Nat := 13

/-- The classes of Table 12.4, in the order of their virtual channels. -/
inductive PClass where
  | req | rsp | sys
deriving DecidableEq, Repr

def packetClass (t : Nat) : Option PClass :=
  if t = 1 ∨ t = 2 ∨ t = 3 ∨ t = 4 ∨ t = 5 then some .req
  else if t = 8 ∨ t = 9 then some .rsp
  else if t = 12 ∨ t = 13 then some .sys
  else none

/-- The virtual channel of a packet (R389): the second of its class past the dateline. -/
def Packet.vc (p : Packet) : Nat :=
  (match packetClass p.ptype with | some .rsp => 2 | some .sys => 4 | _ => 0) + (if p.dl then 1 else 0)

/-- Bytes of extension (Table 12.6). -/
def extLen (t : Nat) : Nat :=
  if t = 3 ∨ t = 9 ∨ t = 12 then 8 else if t = 4 ∨ t = 5 then 16 else if t = 13 then 24 else 0

def boolBit (b : Bool) : Nat := if b then 1 else 0

/-- The header of a packet as a number of 160 bits (Table 12.5). -/
def Packet.header (p : Packet) : Nat :=
  p.ptype % 2 ^ 4 + boolBit p.dl * 2 ^ 4 + boolBit p.poison * 2 ^ 5 + boolBit p.acc * 2 ^ 6 +
  boolBit p.det * 2 ^ 7 + p.dst % 2 ^ 12 * 2 ^ 8 + p.src % 2 ^ 12 * 2 ^ 20 + p.sframe % 2 ^ 6 * 2 ^ 32 +
  boolBit p.siod * 2 ^ 38 + boolBit p.adv * 2 ^ 39 + p.addr % 2 ^ 48 * 2 ^ 40 + p.len % 2 ^ 12 * 2 ^ 88 +
  p.tag % 2 ^ 12 * 2 ^ 100 + p.func % 2 ^ 6 * 2 ^ 112 + p.arg % 2 ^ 32 * 2 ^ 128

/-- The packet whose header is a number, without extension and data. -/
def headerPacket (h : Nat) : Packet := {
  ptype := bitsAt h 0 4, dl := bitsAt h 4 1 == 1, poison := bitsAt h 5 1 == 1, acc := bitsAt h 6 1 == 1
  det := bitsAt h 7 1 == 1, dst := bitsAt h 8 12, src := bitsAt h 20 12, sframe := bitsAt h 32 6
  siod := bitsAt h 38 1 == 1, adv := bitsAt h 39 1 == 1, addr := bitsAt h 40 48, len := bitsAt h 88 12
  tag := bitsAt h 100 12, func := bitsAt h 112 6, arg := bitsAt h 128 32 }

/-- The bytes of a packet (R391). -/
def Packet.bytes (p : Packet) : List Byte := natToBytes 20 p.header ++ p.ext ++ p.data

/-- Bytes of data after the extension. A RED or REDDOWN carries a line, or 72 bytes for a vote: `vote`
tells which of the reduction sets are VOTE sets. -/
def dataLen (vote : Nat → Bool) (p : Packet) : Nat :=
  if p.ptype = tWrite then p.len
  else if p.ptype = tRed ∨ p.ptype = tReddown then (if vote (p.arg % 64) then 72 else 2048)
  else 0

/-- The first packet of a byte list and the bytes after it, if the list holds the whole packet. -/
def takePacket (vote : Nat → Bool) (bs : List Byte) : Option (Packet × List Byte) :=
  if bs.length < 20 then none
  else
    let p := headerPacket (bytesToNat (bs.take 20))
    let e := extLen p.ptype
    let d := dataLen vote p
    let rest := bs.drop 20
    if rest.length < e + d then none
    else some ({ p with ext := rest.take e, data := (rest.drop e).take d }, rest.drop (e + d))

/-- The packets that a byte list begins with, and what is left: a part of a packet, or nothing where only zeros
follow, which fill the unused end of a flit (log entry 20). A header of TYPE 0 with any other bit set is a packet of
a reserved type (R391). -/
def takePackets (vote : Nat → Bool) : Nat → List Byte → List Packet × List Byte
  | 0, bs => ([], bs)
  | n + 1, bs =>
    if bs.all (· == 0) then ([], [])
    else
      match takePacket vote bs with
      | none => ([], bs)
      | some (p, rest) =>
        let r := takePackets vote n rest
        (p :: r.1, r.2)

/-! ## Flits -/

/-- The header of a flit (Table 12.3). -/
structure FlitHdr where
  seq : Nat := 0
  ack : Nat := 0
  nak : Bool := false
  idle : Bool := false
  first : Nat := 255
  crvc : Nat := 0
  crcnt : Nat := 0
deriving DecidableEq, Repr

def FlitHdr.word (h : FlitHdr) : Nat :=
  h.seq % 2 ^ 12 + h.ack % 2 ^ 12 * 2 ^ 12 + boolBit h.nak * 2 ^ 24 + boolBit h.idle * 2 ^ 25 +
  h.first % 2 ^ 8 * 2 ^ 32 + h.crvc % 2 ^ 3 * 2 ^ 40 + h.crcnt % 2 ^ 8 * 2 ^ 48

def flitHdr (w : Nat) : FlitHdr := {
  seq := bitsAt w 0 12, ack := bitsAt w 12 12, nak := bitsAt w 24 1 == 1, idle := bitsAt w 25 1 == 1
  first := bitsAt w 32 8, crvc := bitsAt w 40 3, crcnt := bitsAt w 48 8 }

/-- One byte into a CRC of `w` bits, most significant bit first (R386; bit order: log entry 20). -/
def crcStep (w poly : Nat) (crc : Nat) (b : Byte) : Nat :=
  (List.range 8).foldl (fun c i =>
    let top := bitsAt c (w - 1) 1
    let bit := b.toNat / 2 ^ (7 - i) % 2
    let s := c * 2 % 2 ^ w
    if top == bit then s else s ^^^ poly) crc

/-- CRC of a byte list, initial value all ones. -/
def crc (w poly : Nat) (bs : List Byte) : Nat := bs.foldl (crcStep w poly) (2 ^ w - 1)

/-- Payload bytes of a flit: 240 in profile L, 244 otherwise (Table 12.2). -/
def payloadLen (profL : Bool) : Nat := if profL then 240 else 244

/-- The check bytes over a flit's header and payload (Table 12.2). -/
def flitCheck (profL : Bool) (bs : List Byte) : List Byte :=
  if profL then natToBytes 8 (crc 64 0x42F0E1EBA9EA3693 bs) else natToBytes 4 (crc 32 0x04C11DB7 bs)

/-- The 256 bytes of a flit, its payload filled with zeros. -/
def flitBytes (profL : Bool) (h : FlitHdr) (payload : List Byte) : List Byte :=
  let n := payloadLen profL
  let b := natToBytes 8 h.word ++ (payload ++ List.replicate (n - payload.length) 0).take n
  b ++ flitCheck profL b

/-- Does a flit pass its check? -/
def flitGood (profL : Bool) (bs : List Byte) : Bool :=
  let n := 8 + payloadLen profL
  bs.length == 256 && bs.drop n == flitCheck profL (bs.take n)

/-- The slices of a flit on the lanes that carry it, in order of lane identity: 8 bytes a lane at width 32, 16 at
width 16 (R385). -/
def stripe (lanes : List Nat) (bytes : List Byte) : List (Nat × List Byte) :=
  let n := if lanes.length = 0 then 0 else bytes.length / lanes.length
  lanes.zipIdx.map fun l => (l.1, (bytes.drop (l.2 * n)).take n)

/-- Where packets lie when they are packed end to end (R390): first byte, end, packet. -/
def packSpans : Nat → List Packet → List (Nat × Nat × Packet)
  | _, [] => []
  | a, k :: ks =>
    let b := a + k.bytes.length
    (a, b, k) :: packSpans b ks

/-- A list cut into pieces of `n`. -/
def chunksOf (n : Nat) : Nat → List Byte → List (List Byte)
  | 0, _ => []
  | k + 1, bs => if bs.isEmpty then [] else bs.take n :: chunksOf n k (bs.drop n)

end Sys2Proof.Machine
end

