-- ==== Sys2Proof/Machine/Carry.lean ====
section
/-!
DEFINITION. The Carry ports (chapter 12): sending, routing and receiving packets, requests and their
responses at the sender, training, and time messages.
-/

namespace Sys2Proof.Machine

open Sys2Proof

/-! ## Ports and the topology -/

def State.updPort (s : State) (p : Fin 8) (g : Port → Port) : State :=
  { s with carry := { s.carry with ports := s.carry.ports.set p (g s.carry.ports[p]) } }

/-- Profile L is in force (R482). -/
def State.profL (s : State) : Bool := s.global.profile == 2

/-- In bypass for any cause (R399, R495, R535, R548). -/
def State.inBypass (s : State) : Bool := s.carry.bypass || s.global.fault.orphan || s.boot.bypass

/-- The extent of a dimension, 0 X, 1 Y, 2 Z (R393). -/
def Carry.extent (c : Carry) (dim : Nat) : Nat :=
  (match dim with | 0 => c.dxM1.toNat | 1 => c.dyM1.toNat | _ => c.dzM1.toNat) + 1

def Carry.isClosed (c : Carry) (dim : Nat) : Bool := c.closed.getLsbD dim

/-- The coordinate of a device (R393). -/
def Carry.coord (c : Carry) (dev dim : Nat) : Nat :=
  match dim with
  | 0 => dev % c.extent 0
  | 1 => dev / c.extent 0 % c.extent 1
  | _ => dev / (c.extent 0 * c.extent 1)

def Carry.self (c : Carry) : Nat := c.devnum.toNat

def Carry.devices (c : Carry) : Nat := c.extent 0 * c.extent 1 * c.extent 2

/-- The device at coordinates. -/
def Carry.devAt (c : Carry) (x y z : Nat) : Nat := x + c.extent 0 * (y + c.extent 1 * z)

/-- The dimension of a role, and whether it points up (Table 12.7). -/
def Carry.roleDim (c : Carry) (role : Nat) : Nat × Bool :=
  if role = 7 ∨ role = 8 then (c.expDim.toNat - 1, role == 7) else ((role - 1) / 2, role % 2 == 1)

/-- The role of the other end of a link. -/
def oppositeRole (role : Nat) : Nat := if role = 0 then 0 else if role % 2 = 1 then role + 1 else role - 1

/-- One coordinate moved by a stride, if the dimension has a place there. -/
def Carry.moved (c : Carry) (x dim : Nat) (up : Bool) (stride : Nat) : Option Nat :=
  let d := c.extent dim
  if up then (if x + stride < d then some (x + stride) else if c.isClosed dim then some ((x + stride) % d) else none)
  else (if stride ≤ x then some (x - stride) else if c.isClosed dim then some ((x + d - stride % d) % d) else none)

/-- The device a role's neighbour is (Table 12.7). -/
def Carry.neighbour (c : Carry) (role : Nat) : Option Nat :=
  if role = 0 ∨ 8 < role then none
  else
    let rd := c.roleDim role
    let stride := if 7 ≤ role then c.expStride.toNat else 1
    if 7 ≤ role ∧ (c.expDim = 0 ∨ !c.isClosed rd.1) then none
    else (c.moved (c.coord c.self rd.1) rd.1 rd.2 stride).map fun n =>
      c.devAt (if rd.1 = 0 then n else c.coord c.self 0) (if rd.1 = 1 then n else c.coord c.self 1)
        (if rd.1 = 2 then n else c.coord c.self 2)

/-- The ports of a role that are ACTIVE; where none is, those that left ACTIVE within their hold time keep
what is sent to them (R395, R417). -/
def Carry.bundle (c : Carry) (role : Nat) : List (Fin 8) :=
  let own := (List.finRange 8).filter fun p => c.ports[p].role.toNat == role && role != 0
  let act := own.filter fun p => c.ports[p].state == .active
  if act.isEmpty then own.filter fun p => c.ports[p].hold else act

/-- The port of a bundle that takes a packet: a hash of SRC, SFRAME and DST over its ports (R396; the hash
is the model's, log entry 20). -/
def Carry.pickPort (c : Carry) (role : Nat) (p : Packet) : Option (Fin 8) :=
  let b := c.bundle role
  b[(p.src + p.sframe + p.dst) % b.length]?

/-! ## Routing -/

/-- What R395 decides for a packet. -/
inductive Hop where
  | deliver
  | drop
  | out (role : Nat) (det dl : Bool)
deriving DecidableEq, Repr

/-- R395 over the dimensions left, for a packet that arrived on a port of role `arr` (0: sent from here). -/
def Carry.routeDims (c : Carry) (p : Packet) (arr : Nat) : List Nat → Hop
  | [] => .deliver
  | dim :: rest =>
    let a := c.coord c.self dim
    let b := c.coord p.dst dim
    let d := c.extent dim
    if a = b then c.routeDims p arr rest
    else
      let cur := arr != 0 && (c.roleDim arr).1 == dim
      let det := cur && p.det
      let dl := cur && p.dl
      let up := if d ≤ b ∨ d ≤ a then decide (a < b)
        else if det then !(c.roleDim arr).2
        else if c.isClosed dim then decide ((b + d - a) % d ≤ d - (b + d - a) % d)
        else decide (a < b)
      let hops (up : Bool) : Nat :=
        if c.isClosed dim then (if up then (b + d - a) % d else (a + d - b) % d) else (if a < b then b - a else a - b)
      let wraps (up : Bool) (n : Nat) : Bool := if up then d ≤ a + n else a < n
      let role (up : Bool) : Nat := 1 + 2 * dim + (if up then 0 else 1)
      let exp := if up then 7 else 8
      let stride := c.expStride.toNat
      if c.expDim.toNat = dim + 1 ∧ stride ≤ hops up ∧ !(c.bundle exp).isEmpty then
        .out exp det (dl || wraps up stride)
      else if !(c.bundle (role up)).isEmpty then .out (role up) det (dl || wraps up 1)
      else if c.isClosed dim ∧ !det ∧ !(c.bundle (role (!up))).isEmpty then
        .out (role (!up)) true (dl || wraps (!up) 1)
      else .drop

/-- The route of a packet (R395). A device number past the extents does not exist (R393). -/
def Carry.route (c : Carry) (p : Packet) (arr : Nat) : Hop :=
  if c.devices ≤ p.dst then .drop else c.routeDims p arr [0, 1, 2]

/-! ## Sending -/

/-- The lanes that carry a port's flits, in order of lane identity (R385). -/
def Port.laneList (q : Port) : List Nat := (List.range 34).filter fun i => q.lanes.getLsbD i

/-- A flit on the wire (R385, R386). -/
def State.emitFlit (s : State) (p : Fin 8) (h : FlitHdr) (payload : List Byte) : State :=
  s.emit (.flit p.val (stripe s.carry.ports[p].laneList (flitBytes s.profL h payload)))

/-- A flit leaves a port with its header's ACK filled in; it is held for replay (R386, R388). -/
def State.sendFlit (s : State) (p : Fin 8) (h : FlitHdr) (payload : List Byte) (pkts : List Packet) : State :=
  let q := s.carry.ports[p]
  let h := { h with seq := q.txSeq.toNat, ack := (q.rxSeq - 1).toNat }
  let s := s.emitFlit p h payload
  s.updPort p fun q => { q with
    txSeq := q.txSeq + 1
    flitsTx := satInc q.flitsTx
    replay :=
      let r := q.replay ++ [{
        seq := h.seq, nak := h.nak, idle := h.idle, first := h.first, crvc := h.crvc, crcnt := h.crcnt, payload, packets := pkts }]
      r.drop (r.length - 2048) }

/-- An IDLE flit: credits returned, a NAK (R388, R389). -/
def State.idleFlit (s : State) (p : Fin 8) (nak : Bool) (vc n : Nat) : State :=
  s.sendFlit p { nak, idle := true, crvc := vc, crcnt := n } [] []

/-- Credits a packet needs (R389). -/
def Packet.units (p : Packet) : Nat := (20 + p.ext.length + p.data.length + 63) / 64

/-- A TIME packet carries its own departure time: t1 of a PING, t3 of an ECHO (R415). -/
def Packet.stamp (k : Packet) (tb : BitVec 64) : Packet :=
  if k.ptype ≠ tTime then k
  else { k with ext := if k.arg % 2 = 1 then k.ext.take 16 ++ natToBytes 8 tb.toNat else natToBytes 8 tb.toNat ++ k.ext.drop 8 }

/-- Packets leave a port packed end to end through the payloads of its flits; FIRST tells where the first header
that begins in a flit stands (R390, Table 12.3). -/
def State.transmit (s : State) (p : Fin 8) (ks : List Packet) : State :=
  let n := payloadLen s.profL
  let spans := packSpans 0 (ks.map fun k => k.stamp s.tally.tb)
  let bytes := spans.flatMap fun x => x.2.2.bytes
  ((chunksOf n (bytes.length / n + 1) bytes).zipIdx).foldl (fun s c =>
    let begins := spans.find? fun x => c.2 * n ≤ x.1 && x.1 < (c.2 + 1) * n
    let ends := spans.filter fun x => c.2 * n < x.2.1 && x.2.1 ≤ (c.2 + 1) * n
    s.sendFlit p { first := (begins.map fun x => x.1 - c.2 * n).getD 255 } c.1 (ends.map fun x => x.2.2)) s

def Port.canSend (q : Port) (k : Packet) : Bool := k.units ≤ q.credits[k.vc % 6]'(Nat.mod_lt _ (by decide))

/-- The packet at the front of a virtual channel, if the port holds its credits (R389). -/
def Port.ready (q : Port) (v : Nat) : Option Packet := (q.txq.find? fun k => k.vc == v).filter q.canSend

/-- The packet of a class that is sent next: its two virtual channels alternate (R389). -/
def Port.classNext (q : Port) (c : Fin 3) : Option Packet :=
  let t := boolBit q.vcTurn[c]
  (q.ready (2 * c.val + t)).orElse fun _ => q.ready (2 * c.val + (1 - t))

/-- The packet a port sends next: SYS before RSP before REQ (R389). -/
def Port.nextPacket (q : Port) : Option Packet :=
  (q.classNext 2).orElse fun _ => (q.classNext 1).orElse fun _ => q.classNext 0

/-- A packet leaves the queue and takes its credits; the other channel of its class is served next. -/
def Port.take (q : Port) (k : Packet) : Port :=
  let v : Fin 6 := ⟨k.vc % 6, Nat.mod_lt _ (by decide)⟩
  { q with
    txq := q.txq.erase k
    credits := q.credits.set v (q.credits[v] - k.units)
    vcTurn := q.vcTurn.set (v.val / 2) (v.val % 2 == 0) (by omega) }

/-- The packets a port can send, in the order its arbiter serves them (R389), and the port without them. -/
def Port.gather : Nat → Port → List Packet × Port
  | 0, q => ([], q)
  | n + 1, q =>
    match q.nextPacket with
    | some k => let r := Port.gather n (q.take k); (k :: r.1, r.2)
    | none => ([], q)

/-- A port sends what it can. -/
def State.pump (s : State) (p : Fin 8) : State :=
  let q := s.carry.ports[p]
  if q.state = .active then
    let r := q.gather q.txq.length
    (s.updPort p fun _ => r.2).transmit p r.1
  else s

/-- Every port sends what it can. -/
def State.pumpAll (s : State) : State := (List.finRange 8).foldl State.pump s

/-- A packet waits at a port. -/
def State.queueAt (s : State) (p : Fin 8) (k : Packet) : State := s.updPort p fun q => { q with txq := q.txq ++ [k] }

/-- A packet is queued for a port. -/
def State.enqueue (s : State) (p : Fin 8) (k : Packet) : State := (s.queueAt p k).pump p

/-- The response to a request (R392): `old` is an ATOM's old value and `poison` its poison. -/
def response (self : Nat) (k : Packet) (status : Code) (old : Nat) (poison : Bool) : Packet :=
  if k.ptype = tAtom then
    { ptype := tAtomr, dst := k.src, src := self, siod := true, tag := k.tag, func := k.func, poison
      ext := natToBytes 4 old ++ natToBytes 2 status.toNat ++ natToBytes 2 0 }
  else { ptype := tAck, dst := k.src, src := self, siod := true, tag := k.tag, func := k.func, arg := status.toNat }

def isRequest (k : Packet) : Bool := k.ptype == tWrite || k.ptype == tFlag || k.ptype == tAtom

/-- A dropped packet: an own request comes back with the status (R401, R402), and the event is logged. -/
def State.dropPacket (s : State) (k : Packet) (status : Code) (port : Nat) : State :=
  let s := s.log status .carry { index := port }
  if isRequest k ∧ k.src = s.carry.self then
    { s with carry := { s.carry with resps := s.carry.resps ++ [response s.carry.self k status 0 false] } }
  else s

/-- A packet goes where R395 sends it, and waits at the port that takes it; `arr` is the port it arrived on. -/
def State.place1 (s : State) (k : Packet) (arr : Option (Fin 8)) : State :=
  let role := (arr.map fun p => s.carry.ports[p].role.toNat).getD 0
  match s.carry.route k role with
  | .deliver =>
    if packetClass k.ptype = some .rsp then { s with carry := { s.carry with resps := s.carry.resps ++ [k] } }
    else { s with carry := { s.carry with atHome := s.carry.atHome ++ [k] } }
  | .drop =>
    let s := match arr with
      | some p => s.updPort p fun q => { q with dropped := satInc q.dropped }
      | none => s
    s.dropPacket k Codes.routeUnreachable ((arr.map (·.val)).getD 0)
  | .out role det dl =>
    match s.carry.pickPort role k with
    | some p => s.queueAt p { k with det, dl }
    | none => s

/-- A packet goes where R395 sends it. -/
def State.route (s : State) (k : Packet) (arr : Option (Fin 8)) : State := (s.place1 k arr).pumpAll

/-- The TAG of the next request: the first free one from the counter on. -/
def Carry.freeTag (c : Carry) : Nat :=
  ((List.range 4096).map fun i => (c.nextTag.toNat + i) % 4096).find? (fun t => !c.reqs.any (·.pkt.tag == t))
    |>.getD c.nextTag.toNat

/-- A request of this device waits at its port, and then for its response (R392). -/
def State.sendReq (s : State) (owner : ReqOwner) (feeder : Nat) (k : Packet) : State :=
  let t := s.carry.freeTag
  let k := { k with tag := t, src := s.carry.self }
  let s := { s with carry := { s.carry with nextTag := BitVec.ofNat 12 (t + 1), reqs := s.carry.reqs ++ [Req.mk owner feeder k] } }
  s.place1 k none

/-- A packet waits at a port of the bundle of a role, unrouted (R406). -/
def State.sendRole (s : State) (role : Nat) (k : Packet) : State :=
  match s.carry.pickPort role k with
  | some p => s.queueAt p k
  | none => s

/-! ## Requests at their sender -/

def State.updXfer (s : State) (id : Nat) (g : Xfer → Xfer) : State :=
  { s with xfers := s.xfers.map fun x => if x.id == id then g x else x }

def State.xfer? (s : State) (id : Nat) : Option Xfer := s.xfers.find? (·.id == id)

def State.dropXfer (s : State) (id : Nat) : State := { s with xfers := s.xfers.filter (·.id != id) }

/-- The WRITE packet of a row (R391, R392). ARG holds the rows of an ADV, and how an ACC adds (log entry 20). -/
def rowPacket (x : Xfer) (r : RRow) (dev : Nat) : Packet :=
  let adv := match x.remTail with | some t => if t.1 == r.addr then some t.2 else none | none => none
  { ptype := tWrite, poison := r.mark.isSome, acc := r.acc, dst := dev, sframe := x.frame, addr := r.addr
    adv := adv.isSome, arg := adv.getD 0 + r.how * 2 ^ 16
    len := r.bytes.length, func := x.func, data := r.bytes }

/-- The ATOM packet of a transfer (R391). -/
def atomPacket (x : Xfer) (dev : Nat) : Packet := {
  ptype := tAtom, dst := dev, sframe := x.frame, addr := x.addr, func := x.func, arg := x.aop + x.prime * 2 ^ 8
  ext := natToBytes 4 x.opa ++ natToBytes 4 x.opc }

/-- The FLAG packet of a release (R391). -/
def flagPacket (x : Xfer) (dev : Nat) : Packet := {
  ptype := tFlag, dst := dev, sframe := x.frame, func := x.func
  addr := x.tframe + x.flag * 2 ^ 8 + x.fop % 2 * 2 ^ 16, arg := x.value }

/-- A request of a Feeder is unanswered (R397). -/
def State.asked (s : State) (x : Xfer) (dev : Nat) (p : Packet → Bool) : Bool :=
  s.carry.reqs.any fun q => q.owner != .agent && q.feeder == x.feeder && q.pkt.sframe == x.frame && q.pkt.dst == dev && p q.pkt

/-- A line of another device is in use by an unanswered packet of this Feeder (R397). -/
def State.lineBusy (s : State) (x : Xfer) (dev line : Nat) : Bool :=
  s.asked x dev fun k => k.ptype != tFlag && k.addr / 2048 == line

/-- An earlier transfer of the same Feeder has still to read what it writes to a device (R345). -/
def State.unreadAhead (s : State) (x : Xfer) (dev : Nat) : Bool :=
  s.xfers.any fun y => decide (y.id < x.id) && y.run == x.run && y.frame == x.frame && y.feeder == x.feeder &&
    y.move.isSome && y.dests.any (·.1 == some dev)

/-- The transfer's program has been aborted, which cancels what has not landed or been sent (R306, R333, R352). -/
def State.relCancelled (s : State) (x : Xfer) : Bool := (s.run? x.run).any fun r => r.aborted.isSome

/-- The rows of a transfer for other devices that may be sent now are sent (R397). Those of a sealed transfer are
refused: no location that another device names is sealed for it (R174). -/
def State.sendRows (s : State) (id : Nat) : State :=
  match s.xfer? id with
  | none => s
  | some x =>
    x.rows.foldl (fun (s : State) r =>
      match r.dev with
      | some dev =>
        if r.sent || s.relCancelled x then s
        else if x.isSealed then
          (s.updXfer id fun x => { x with rows := x.rows.erase r }).report x.run Codes.sealViolation x.frame
            |>.dropOf x (some dev) r.addr
        else if s.lineBusy x dev (r.addr / 2048) || s.unreadAhead x dev then s
        else
          let s := s.updXfer id fun x => { x with rows := x.rows.map fun (r' : RRow) => if r' == r then { r' with sent := true } else r' }
          s.sendReq (.row id) x.feeder (rowPacket x r dev)
      | none => s) s

/-- A cross-device ATOM that may be sent now is sent (R231, R397). -/
def State.sendAtom (s : State) (id : Nat) : State :=
  match s.xfer? id with
  | none => s
  | some x =>
    match x.device with
    | some dev =>
      if x.kind != .atom || x.sent || x.result.isSome || s.relCancelled x || s.lineBusy x dev (x.addr / 2048) || s.unreadAhead x dev then s
      else (s.updXfer id fun x => { x with sent := true }).sendReq (.atom id) x.feeder (atomPacket x dev)
    | none => s

/-- Everything that Feeders may send now, in the order of acceptance. -/
def State.sendAll (s : State) : State :=
  (s.xfers.foldl (fun (s : State) x => (s.sendRows x.id).sendAtom x.id) s).pumpAll

/-- An abandoned transfer (R58) of which nothing is left to be answered, and whose result no launch waits for, is gone. -/
def State.forgetXfer (s : State) (id : Nat) : State :=
  match s.xfer? id with
  | some x =>
    let waits := x.result.isSome && (match x.due with | some d => decide (s.tally.count.toNat < d) | none => true)
    if x.abandoned && !x.sent && x.rows.isEmpty && !waits then s.dropXfer id else s
  | none => s

/-- A request of this device is answered, or taken as dropped (R392, R401). A late write poisons its row, and is
no drop (R332, R463). -/
def State.answer (s : State) (tag : Nat) (status : Code) (old : Nat) (poison : Bool) : State :=
  match s.carry.reqs.find? (·.pkt.tag == tag) with
  | none => s
  | some q =>
    let s := { s with carry := { s.carry with reqs := s.carry.reqs.filter (·.pkt.tag != tag) } }
    let told (id : Nat) (s : State) : State :=
      match s.xfer? id with
      | some x => if status = 0 then s
        else if q.pkt.ptype = tAtom ∧ status = Codes.sealViolation then s.fault x.run status x.frame
        else s.event x.run status x.frame
      | none => s
    let lost (id : Nat) (s : State) : State :=
      match s.xfer? id with
      | some x => if status = 0 ∨ status = Codes.lostWrite then s else s.dropOf x (some q.pkt.dst) q.pkt.addr
      | none => s
    let s := match q.owner with
      | .row id => ((lost id (told id s)).updXfer id fun x =>
          { x with rows := x.rows.filter fun r => !(r.sent && r.dev == some q.pkt.dst && r.addr == q.pkt.addr) }).forgetXfer id
      | .flag id => (told id s).dropXfer id
      | .atom id =>
        let run := ((s.xfer? id).map Xfer.run).getD 0
        let r : Scalar := if status = 0 then { value := BitVec.ofNat 32 old, poison := if poison then some {} else none }
          else { poison := some (if status = Codes.sealViolation then { cause := status, run } else {}) }
        ((lost id (told id s)).updXfer id fun x =>
          if x.abandoned then { x with sent := false } else { x with result := some r }).forgetXfer id
      | .agent => s
    s.sendAll

/-- RESPONSE_ARRIVAL: the first response that reached this device answers its request; one whose request
was given up is discarded (R392, R401). -/
def execResponseArrival (s : State) : Host.Outcome State Fault Refusal :=
  match s.carry.resps with
  | [] => .next s
  | k :: rest =>
    let s := { s with carry := { s.carry with resps := rest } }
    if k.ptype = tAtomr then
      .next (s.answer k.tag (BitVec.ofNat 16 (bytesToNat ((k.ext.drop 4).take 2))) (bytesToNat (k.ext.take 4)) k.poison)
    else .next (s.answer k.tag (BitVec.ofNat 16 k.arg) 0 false)

/-- ACK_TIMEOUT: a request unanswered for ACK_TIMEOUT_US is taken as dropped (R401). -/
def execAckTimeout (tag : BitVec 12) (s : State) : Host.Outcome State Fault Refusal :=
  let own := s.carry.reqs.any (·.pkt.tag == tag.toNat)
  guardStep own s ((s.log Codes.routeUnreachable .carry {}).answer tag.toNat Codes.routeUnreachable 0 false)

/-! ## Receiving -/

/-- No lane of a port carries data (CARRY_LANES, WIDTH16, SPARES_USED). -/
def Port.noData (q : Port) : Port := { q with lanes := 0, width16 := false, sparesUsed := 0 }

/-- A port leaves ACTIVE to retrain; it keeps its queues, replay buffer and credits (R416, R417). -/
def State.retrainPort (s : State) (p : Fin 8) : State :=
  if s.carry.ports[p].state = .active then
    s.updPort p fun q => { q.noData with state := .retrain, hold := true, retrains := satInc q.retrains }
  else s

/-- Replay from ACK + 1 (R388): every held flit again; the eighth replay of one flit retrains the port. -/
def State.replay (s : State) (p : Fin 8) : State :=
  let q := s.carry.ports[p]
  if q.replay.isEmpty then s else
  let s := q.replay.foldl (fun s r => s.emitFlit p {
    seq := r.seq, ack := (q.rxSeq - 1).toNat, nak := r.nak, idle := r.idle, first := r.first, crvc := r.crvc, crcnt := r.crcnt }
    r.payload) s
  let n := BitVec.ofNat 64 q.replay.length
  let s := s.updPort p fun q => { q with
    replays := q.replays + n, flitsTx := q.flitsTx + n, replayed := q.replayed + 1 }
  if 8 ≤ q.replayed + 1 then (s.updPort p fun q => { q with replayed := 0 }).retrainPort p else s

/-- Flits up to ACK leave the replay buffer (R388). -/
def Port.acked (q : Port) (ack : Nat) : Port :=
  match q.replay.findIdx? (·.seq == ack) with
  | some i => { q with replay := q.replay.drop (i + 1), replayed := 0 }
  | none => q

/-- Credits of a virtual channel go back, at most 255 in a flit (R389, Table 12.3). -/
def State.returnCredits (s : State) (p : Fin 8) (vc : Nat) : Nat → Nat → State
  | 0, _ => s
  | k + 1, n => if n = 0 then s else (s.idleFlit p false vc (min n 255)).returnCredits p vc k (n - 255)

/-- The bytes of a received packet leave the buffer, and its credits go back (R389), or are owed until the port is
ACTIVE (R417). -/
def State.giveBack (s : State) (p : Fin 8) (k : Packet) : State :=
  if s.carry.ports[p].state = .active then s.returnCredits p k.vc 1 k.units
  else
    let v : Fin 6 := ⟨k.vc % 6, Nat.mod_lt _ (by decide)⟩
    s.updPort p fun q => { q with owed := q.owed.set v (q.owed[v] + k.units) }

/-- A port that is ACTIVE again returns the credits it owes (R417). -/
def State.payOwed (s : State) (p : Fin 8) : State :=
  (List.finRange 6).foldl (fun (s : State) (v : Fin 6) =>
    let n := s.carry.ports[p].owed[v]
    (s.returnCredits p v.val (n / 255 + 1) n).updPort p fun q => { q with owed := q.owed.set v 0 }) s

/-- A whole packet has arrived on a port (R391). -/
def State.receivePacket (s : State) (p : Fin 8) (k : Packet) : State :=
  if k.ptype = tRed ∨ k.ptype = tReddown then
    ({ s with carry := { s.carry with reds := s.carry.reds ++ [Inbound.mk p.val k] } }).giveBack p k
  else if k.ptype = tJunction then
    ({ s with carry := { s.carry with tokens := s.carry.tokens ++ [Inbound.mk p.val k] } }).giveBack p k
  else if k.ptype = tTime then
    ({ s with carry := { s.carry with timesIn := s.carry.timesIn ++ [(p.val, k, s.tally.tb)] } }).giveBack p k
  else if (packetClass k.ptype).isSome then
    { s with carry := { s.carry with inq := s.carry.inq ++ [Inbound.mk p.val k] } }
  else (s.updPort p fun q => { q with dropped := satInc q.dropped }).giveBack p k

/-- The sets of this device that are VOTE sets. -/
def State.voteSet (s : State) (i : Nat) : Bool := if h : i < 64 then s.carry.sets[i].vote else false

/-- A flit that cannot be accepted is answered with NAK (R388). -/
def State.refuseFlit (s : State) (p : Fin 8) : State := s.idleFlit p true 0 0

/-- An accepted flit's header and payload take effect. -/
def State.acceptFlit (s : State) (p : Fin 8) (h : FlitHdr) (payload : List Byte) : State :=
  let s := s.updPort p fun q =>
    { (q.acked h.ack) with
      rxSeq := q.rxSeq + 1, flitsRx := satInc q.flitsRx
      credits := q.credits.set (h.crvc % 6) (q.credits[h.crvc % 6]'(Nat.mod_lt _ (by decide)) + h.crcnt) (Nat.mod_lt _ (by decide)) }
  let s := if h.nak then s.replay p else s
  let s := s.pump p
  if h.idle then s
  else
    let buf := s.carry.ports[p].rxBuf
    let bytes := if buf.isEmpty then (if h.first = 255 then [] else payload.drop h.first) else buf ++ payload
    let r := takePackets s.voteSet 16 bytes
    let s := s.updPort p fun q => { q with rxBuf := r.2 }
    r.1.foldl (fun s k => s.receivePacket p k) s

/-- FLIT_RECEIVE: a flit arrives; it is accepted only if its codewords decode (`lost` is none), its check passes and its
SEQ is the next one (R388). Otherwise `lost` is how many of the codewords that do not decode carry no flit before it,
and more than 16 of them in 1 ms retrain the port (R416). -/
def execFlitReceive (port : Fin 8) (lost : Option Nat) (flit : List Byte) (s : State) :
    Host.Outcome State Fault Refusal :=
  if flit.length ≠ 256 then .fault (.illFormed "flit length")
  else if s.carry.ports[port].state ≠ .active then .next s
  else
  match lost with
  | some n =>
    let near := List.replicate (min n 34) s.tally.up ++ s.carry.ports[port].uncorrAt.filter fun t => s.tally.up < t + 1000000
    let s := s.updPort port fun q => { q with fecUncorr := satAdd q.fecUncorr (min n 34), uncorrAt := near }
    let s := s.refuseFlit port
    .next (if 16 < near.length then s.retrainPort port else s)
  | none =>
    -- the codewords of the flit that were corrected: a free count (CARRY_FEC_CORR, log entry 12)
    let s := s.openVal.2.updPort port fun q => { q with fecCorr := satAdd q.fecCorr s.openVal.1.toNat }
    if !flitGood s.profL flit then
      .next ((s.updPort port fun q => { q with checkFail := satInc q.checkFail }).refuseFlit port)
    else
    let h := flitHdr (bytesToNat (flit.take 8))
    if h.seq = s.carry.ports[port].rxSeq.toNat then
      .next (s.acceptFlit port h ((flit.drop 8).take (payloadLen s.profL)))
    else .next (s.refuseFlit port)

/-- PACKET_ROUTE: the first packet received is routed on, or delivered here (R395, R398). -/
def execPacketRoute (s : State) : Host.Outcome State Fault Refusal :=
  match s.carry.inq with
  | [] => .next s
  | i :: rest =>
    let s := { s with carry := { s.carry with inq := rest } }
    match (List.finRange 8).find? (·.val == i.port) with
    | some p => .next ((s.giveBack p i.pkt).route i.pkt (some p))
    | none => .next s

/-! ## Training -/

/-- A function's access to the block of a Carry port whose domain is off is dropped and reported (R39, R490). -/
def State.portOffAccess (s : State) (p : Fin 8) (func : Nat) : State :=
  (s.log Codes.domainOffAccess .carry { index := p.val, func := some func }).pfErr Codes.domainOffAccess func

/-- The domain of a Carry port is ON (Table 1.7). -/
def State.portPowered (s : State) (p : Fin 8) : Bool := (s.domain (20 + p.val)).state == .on

/-- A Carry port can train: its domain is ON, and the rail of the SerDes is there (R563). -/
def State.portTrains (s : State) (p : Fin 8) : Bool := s.portPowered p && !s.boot.lost.contains 3

/-- PORT_ENABLE: CARRY_CFG.ENABLE is written (Table 12.12). -/
def execPortEnable (port : Fin 8) (enable : Bool) (s : State) : Host.Outcome State Fault Refusal :=
  if !s.hostOk then .next s else
  .next (if s.portPowered port then s.updPort port fun q =>
      if enable then
        { q with enable := true, state := if q.state = .disabled ∧ q.role ≠ 0 ∧ s.portTrains port then .equalize else q.state }
      else { q.noData with enable := false, state := .disabled, hold := false, identFail := false }
    else s.portOffAccess port 0)

/-- A port in RETRAIN enters EQUALIZE, which nothing holds up: at the next step on an empty queue, or with the command
that ends EQUALIZE (Table 12.12; log entry 64). -/
def Port.settle (q : Port) : Port := if q.state = .retrain then { q with state := .equalize } else q

/-- EQUALIZE_DONE: EQUALIZE ends, for a port that retrains too (Table 12.12). -/
def execEqualizeDone (port : Fin 8) (s : State) : Host.Outcome State Fault Refusal :=
  let q := s.carry.ports[port].settle
  guardStep (q.state == .equalize) s (s.updPort port fun q => { q with state := .align })

/-- The first `n` set bits of a lane mask. -/
def firstLanes (m : BitVec 34) (n : Nat) : BitVec 34 :=
  ((List.range 34).filter fun i => m.getLsbD i).take n |>.foldl (fun a i => a ||| (1 <<< i)) 0

/-- The spare lanes that carry data: 32 and 33 (CARRY_STATUS.SPARES_USED). -/
def spareCount (m : BitVec 34) : BitVec 2 :=
  BitVec.ofNat 2 ((if m.getLsbD 32 then 1 else 0) + (if m.getLsbD 33 then 1 else 0))

def laneCount (m : BitVec 34) : Nat := ((List.range 34).filter fun i => m.getLsbD i).length

/-- ALIGN_DONE: the lanes with codeword lock are known (Table 12.12, R385): 32 of them, or 16 unless
FULL_ONLY, take the port to IDENT, where it announces itself. -/
def execAlignDone (port : Fin 8) (good : BitVec 34) (s : State) : Host.Outcome State Fault Refusal :=
  let q := s.carry.ports[port]
  if q.state ≠ .align then .next s
  else
    let n := laneCount good
    let s := s.updPort port fun q => { q with lanesFailed := q.lanesFailed ||| ~~~good }
    if n < 16 ∨ (n < 32 ∧ q.fullOnly) then .next s
    else
      let w16 := decide (n < 32)
      let lanes := firstLanes good (if w16 then 16 else 32)
      let s := s.updPort port fun q => { q with
        state := .ident, width16 := w16, lanes, sparesUsed := spareCount lanes }
      .next (s.emit (.ident port.val q.role s.carry.devnum s.global.profile))

/-- A link that comes up new starts both sequences at zero with full credits (R389). -/
def Port.fresh (q : Port) : Port :=
  { q with rxSeq := 0, txSeq := 0, rxBuf := [], replay := [], replayed := 0, uncorrAt := []
           owed := Vector.replicate 6 0
           credits := #v[4096, 4096, 256, 256, 64, 64] }

/-- RETRAIN: software retrains an ACTIVE port (R416). -/
def execRetrain (port : Fin 8) (s : State) : Host.Outcome State Fault Refusal := .next (s.retrainPort port)

/-- What a port drops on the way to DOWN (R402): each request whose sender can be reached is answered
LINK_DOWN. Tokens wait on for the port (R414). -/
def State.linkDown (s : State) (p : Fin 8) : State :=
  let q := s.carry.ports[p]
  let (keep, lost) := q.txq.partition (·.ptype == tJunction)
  let lost := q.replay.flatMap (·.packets) ++ lost
  let s := s.updPort p fun q => { q.noData with
    state := .down, hold := false, txq := keep, replay := [], rxBuf := []
    dropped := satAdd q.dropped lost.length }
  let s := s.logNotice Codes.linkDown .carry { index := p.val, detail := p.val }
  lost.foldl (fun s k =>
    if isRequest k then
      let a := response s.carry.self k Codes.linkDown 0 false
      if k.src = s.carry.self then { s with carry := { s.carry with resps := s.carry.resps ++ [a] } }
      else s.route a none
    else s) s

/-- IDENT: the peer announces its role, device number and profile (R394). A port that retrained resumes from
ACK + 1 (R417), or, where it fails, passes to DOWN with what it queued dropped (R402). -/
def execIdent (port : Fin 8) (peerRole : BitVec 4) (peerDev : BitVec 12) (peerProfile : BitVec 2) (s : State) :
    Host.Outcome State Fault Refusal :=
  let q := s.carry.ports[port]
  if q.state ≠ .ident then .next s
  else
    let ok := peerRole.toNat == oppositeRole q.role.toNat &&
      s.carry.neighbour q.role.toNat == some peerDev.toNat && peerProfile == s.global.profile
    let s := s.updPort port fun q => { q with peerRole, peerDev }
    if ok then
      let s := s.updPort port fun q => { (if q.hold then q else q.fresh) with state := .active, hold := false }
      let s := if q.hold then (s.replay port).payOwed port else s
      .next (s.pump port)
    else
      let s := s.updPort port fun q => { q.noData with state := .down, identFail := true }
      .next (if q.hold then s.linkDown port else s)

/-- LINK_HOLD_EXPIRY: a port not ACTIVE again within LINK_HOLD_MS goes DOWN (R402, R416). -/
def execLinkHoldExpiry (port : Fin 8) (s : State) : Host.Outcome State Fault Refusal :=
  guardStep (s.carry.ports[port].hold && s.carry.ports[port].state != .active) s (s.linkDown port)

/-- DOWN_RETRY: a port that is DOWN tries EQUALIZE again while ENABLE is 1 (Table 12.12). -/
def execDownRetry (port : Fin 8) (s : State) : Host.Outcome State Fault Refusal :=
  let q := s.carry.ports[port]
  guardStep (q.state == .down && q.enable && s.portTrains port) s
    (s.updPort port fun q => { q with state := .equalize, identFail := false })

/-- A lane is replaced by a spare (R418). -/
def State.swapLane (s : State) (p : Fin 8) (lane spare : Fin 34) : State :=
  let s := s.updPort p fun q =>
    let lanes := (q.lanes &&& ~~~((1 : BitVec 34) <<< lane.val)) ||| ((1 : BitVec 34) <<< spare.val)
    { q with
      lanes, sparesUsed := spareCount lanes
      lanesFailed := q.lanesFailed ||| ((1 : BitVec 34) <<< lane.val)
      laneSwaps := satInc q.laneSwaps }
  s.emit (.laneSwap p.val lane.val)

/-- SPARE_ARM, held at 1 in profile L (R418). -/
def State.spareArmed (s : State) (p : Fin 8) : Bool := s.carry.ports[p].spareArm || s.profL

/-- A lane can take another's place: a spare, 32 or 33, neither in use nor failed. -/
def Port.spareFree (q : Port) (l : Fin 34) : Bool := 32 ≤ l.val && !q.lanes.getLsbD l && !q.lanesFailed.getLsbD l

/-- The first spare lane that can take another's place. -/
def Port.freeLane (q : Port) : Option (Fin 34) := (List.finRange 34).find? q.spareFree

/-- LANE_LOCK_LOSS: an active lane loses codeword lock; a trained, armed spare replaces it, or the port
retrains (R416, R418). -/
def execLaneLockLoss (port : Fin 8) (lane : Fin 34) (spareTrained : Bool) (s : State) :
    Host.Outcome State Fault Refusal :=
  let q := s.carry.ports[port]
  if q.state ≠ .active ∨ !q.lanes.getLsbD lane then .next s
  else if s.spareArmed port && spareTrained then
    match q.freeLane with
    | some sp => .next (s.swapLane port lane sp)
    | none => .next (s.retrainPort port)
  else .next (s.retrainPort port)

/-- LANE_SWAP: a lane with too many corrected symbols is replaced by a trained spare (R418). -/
def execLaneSwap (port : Fin 8) (lane spare : Fin 34) (s : State) : Host.Outcome State Fault Refusal :=
  let q := s.carry.ports[port]
  guardStep (q.state == .active && s.spareArmed port && q.lanes.getLsbD lane && q.spareFree spare) s
    (s.swapLane port lane spare)

/-! ## Time messages -/

/-- A TIME packet (R415). -/
def timePacket (self peer : Nat) (echo : Bool) (t1 t2 t3 : Nat) : Packet := {
  ptype := tTime, dst := peer, src := self, siod := true, arg := boolBit echo
  ext := natToBytes 8 t1 ++ natToBytes 8 t2 ++ natToBytes 8 t3 }

/-- PING: a TIME PING leaves the port, unless one is outstanding (R415). -/
def execPing (port : Fin 8) (s : State) : Host.Outcome State Fault Refusal :=
  if !s.hostOk then .next s else
  let q := s.carry.ports[port]
  guardStep (q.state == .active && !(q.pingOut && !q.pingDone)) s
    ((s.updPort port fun q => { q with pingOut := true }).enqueue port
      (timePacket s.carry.self q.peerDev.toNat false s.tally.tb.toNat 0 0))

/-- The first TIME message of a kind received: its port, its stamps and when it arrived. -/
def State.takeTime (s : State) (echo : Bool) : Option (Fin 8 × Packet × BitVec 64 × State) :=
  let is (t : Nat × Packet × BitVec 64) : Bool := (t.2.1.arg % 2 == 1) == echo
  match s.carry.timesIn.find? is with
  | none => none
  | some t =>
    ((List.finRange 8).find? (·.val == t.1)).map fun p =>
      (p, t.2.1, t.2.2, { s with carry := { s.carry with timesIn := s.carry.timesIn.eraseP is } })

/-- TIME_PING_RECEIVE: a PING is answered with an ECHO (R415). -/
def execTimePingReceive (s : State) : Host.Outcome State Fault Refusal :=
  match s.takeTime false with
  | some (p, k, t2, s) =>
    .next (s.enqueue p (timePacket s.carry.self k.src true (bytesToNat (k.ext.take 8)) t2.toNat s.tally.tb.toNat))
  | none => .next s

/-- TIME_ECHO_RECEIVE: the ECHO of a PING latches t1 to t4 (R415). -/
def execTimeEchoReceive (s : State) : Host.Outcome State Fault Refusal :=
  match s.takeTime true with
  | some (p, k, t4, s) =>
    let t (i : Nat) : BitVec 64 := BitVec.ofNat 64 (bytesToNat ((k.ext.drop (8 * i)).take 8))
    .next (s.updPort p fun q => { q with times := #v[t 0, t 1, t 2, t4], pingDone := true, pingOut := false })
  | none => .next s

end Sys2Proof.Machine
end

