-- ==== Sys2Proof/Machine/Hash.lean ====
section
/-!
DEFINITION. The hash functions the spec cites by standard: SHA3-256, SHA3-384 and SHAKE128 (FIPS 202: R86, R182,
R186, R198, R517), SHA-256, SHA-384 and SHA-512 (FIPS 180: R514, R522, R541).
-/

namespace Sys2Proof.Machine

open Sys2Proof

/-! ## Keccak -/

/-- The output bits of the LFSR that FIPS 202 takes the round constants from, `n` of them. -/
def lfsrBits : Nat → Nat → List Bool
  | 0, _ => []
  | n + 1, r => (r % 2 == 1) :: lfsrBits n (if r < 128 then 2 * r else (2 * r) % 256 ^^^ 0x71)

/-- A round constant: seven bits of the LFSR at positions 2^j − 1. -/
def rcOf (bits : List Bool) : BitVec 64 :=
  (bits.zip [0, 1, 3, 7, 15, 31, 63]).foldl (fun v b => if b.1 then v ||| (1 <<< b.2) else v) 0

/-- The constants of `n` rounds from the LFSR's bits. -/
def rcList : Nat → List Bool → List (BitVec 64)
  | 0, _ => []
  | n + 1, bits => rcOf (bits.take 7) :: rcList n (bits.drop 7)

/-- Round constants of Keccak-f[1600]. -/
def keccakRc : List (BitVec 64) := rcList 24 (lfsrBits 168 1)

/-- The lanes that ρ turns, in its order from lane (1, 0), with the triangular number each is turned by. -/
def rhoWalk : Nat → Nat → Nat → Nat → List (Nat × Nat)
  | 0, _, _, _ => []
  | n + 1, t, x, y => (x + 5 * y, (t + 1) * (t + 2) / 2 % 64) :: rhoWalk n (t + 1) y ((2 * x + 3 * y) % 5)

/-- Rotation of lane x + 5y. -/
def keccakRot : List Nat := (rhoWalk 24 0 1 0).foldl (fun l r => l.set r.1 r.2) (List.replicate 25 0)

/-- Lane `i` of a state of 25. -/
def lane (a : List (BitVec 64)) (i : Nat) : BitVec 64 := a.getD i 0

/-- One round of Keccak-f[1600] on lanes x + 5y: θ, ρ, π, χ and ι. -/
def keccakRound (a : List (BitVec 64)) (rc : BitVec 64) : List (BitVec 64) :=
  let c := (List.range 5).map fun x =>
    lane a x ^^^ lane a (x + 5) ^^^ lane a (x + 10) ^^^ lane a (x + 15) ^^^ lane a (x + 20)
  let d := (List.range 5).map fun x => lane c ((x + 4) % 5) ^^^ (lane c ((x + 1) % 5)).rotateLeft 1
  let t := (List.range 25).map fun i => lane a i ^^^ lane d (i % 5)
  -- lane (x, y) after π comes from (x + 3y mod 5, x)
  let b := (List.range 25).map fun i =>
    let x := i % 5
    let y := i / 5
    let j := (x + 3 * y) % 5 + 5 * x
    (lane t j).rotateLeft (keccakRot.getD j 0)
  let e := (List.range 25).map fun i =>
    let x := i % 5
    let y := i / 5
    lane b i ^^^ ((~~~ lane b ((x + 1) % 5 + 5 * y)) &&& lane b ((x + 2) % 5 + 5 * y))
  e.set 0 (lane e 0 ^^^ rc)

def keccakF (a : List (BitVec 64)) : List (BitVec 64) := keccakRc.foldl keccakRound a

def lanesOf : Nat → List Byte → List (BitVec 64)
  | 0, _ => []
  | n + 1, bs =>
    BitVec.ofNat 64 ((bs.take 8).foldr (fun b acc => b.toNat + 256 * acc) 0) :: lanesOf n (bs.drop 8)

def laneBytes (v : BitVec 64) : List Byte := (List.range 8).map fun k => BitVec.ofNat 8 (v.toNat / 256 ^ k)

/-- Absorb `n` blocks of `rate` bytes. -/
def absorb (rate : Nat) : Nat → List Byte → List (BitVec 64) → List (BitVec 64)
  | 0, _, st => st
  | n + 1, bs, st =>
    let blk := lanesOf 25 ((bs.take rate) ++ List.replicate (200 - rate) 0)
    absorb rate n (bs.drop rate) (keccakF ((st.zip blk).map fun p => p.1 ^^^ p.2))

/-- Squeeze `n` blocks. -/
def squeeze (rate : Nat) : Nat → List (BitVec 64) → List Byte
  | 0, _ => []
  | n + 1, st => (st.flatMap laneBytes).take rate ++ squeeze rate n (keccakF st)

/-- A sponge with a domain suffix byte, to `out` bytes. -/
def sponge (rate : Nat) (suffix : Byte) (msg : List Byte) (out : Nat) : List Byte :=
  let pad := rate - msg.length % rate
  let tail : List Byte :=
    if pad = 1 then [suffix ||| 0x80] else suffix :: List.replicate (pad - 2) 0 ++ [0x80]
  let st := absorb rate ((msg.length + pad) / rate) (msg ++ tail) (List.replicate 25 0)
  (squeeze rate (ceilDiv out rate) st).take out

def sha3_256 (msg : List Byte) : List Byte := sponge 136 0x06 msg 32

def sha3_384 (msg : List Byte) : List Byte := sponge 104 0x06 msg 48

def shake128 (msg : List Byte) (out : Nat) : List Byte := sponge 168 0x1F msg out

/-- Word `n` of a SHAKE128 stream: output bytes 8n to 8n + 7, little-endian (R182, R186, R198), for the
first `count` words. -/
def shakeWords (msg : List Byte) (count : Nat) : List Nat :=
  (lanesOf count (shake128 msg (8 * count))).map (·.toNat)

/-! ## SHA-2 -/

/-- The largest `r` with r^k at most n, from its bits below 2^b. -/
def rootFrom (k n : Nat) : Nat → Nat → Nat
  | 0, r => r
  | b + 1, r => rootFrom k n b (if (r + 2 ^ b) ^ k ≤ n then r + 2 ^ b else r)

/-- The primes below 410, which are the first eighty. -/
def smallPrimes : List Nat :=
  (List.range 410).filter fun p => decide (2 ≤ p) && (List.range 21).all fun d => decide (d < 2) || decide (p < d * d) || p % d != 0

/-- The first 64 bits of the fraction of the k-th root of a prime, which FIPS 180 takes its constants from. -/
def rootBits (k p : Nat) : BitVec 64 := BitVec.ofNat 64 (rootFrom k (p * 2 ^ (64 * k)) 70 0)

/-- The round constants of SHA-512: cube roots. -/
def shaK : List (BitVec 64) := smallPrimes.map (rootBits 3)

/-- Initial value of SHA-512: the square roots of the first eight primes. -/
def sha512Init : List (BitVec 64) := (smallPrimes.take 8).map (rootBits 2)

/-- Initial value of SHA-384: those of the next eight. -/
def sha384Init : List (BitVec 64) := ((smallPrimes.drop 8).take 8).map (rootBits 2)

/-- A hash of the SHA-2 family on words of `w` bits (FIPS 180): the constants its rounds take, the value it starts from,
the right rotations of its two mixes of a round, and those and the shift of the two of its schedule. -/
structure Sha2 (w : Nat) where
  consts : List (BitVec w)
  start : List (BitVec w)
  mixA : List Nat
  mixE : List Nat
  old : List Nat × Nat
  new : List Nat × Nat

def sha512Of (start : List (BitVec 64)) : Sha2 64 :=
  { consts := shaK, start, mixA := [28, 34, 39], mixE := [14, 18, 41], old := ([1, 8], 7), new := ([19, 61], 6) }

/-- SHA-256 takes the first half of the words that SHA-512 starts from and of its first 64 constants. -/
def sha256Of : Sha2 32 :=
  { consts := (shaK.take 64).map (·.extractLsb' 32 32), start := sha512Init.map (·.extractLsb' 32 32)
    mixA := [2, 13, 22], mixE := [6, 11, 25], old := ([7, 18], 3), new := ([17, 19], 10) }

section Sha2

variable {w : Nat}

/-- The exclusive or of a word's right rotations. -/
def xorRots (v : BitVec w) : List Nat → BitVec w
  | [] => 0
  | n :: ns => v.rotateRight n ^^^ xorRots v ns

/-- Word `i` of a list. -/
def shaWord (a : List (BitVec w)) (i : Nat) : BitVec w := a.getD i 0

/-- The message schedule, newest word first, extended `n` times. -/
def Sha2.extend (h : Sha2 w) : Nat → List (BitVec w) → List (BitVec w)
  | 0, ws => ws
  | n + 1, ws =>
    let mixed (r : List Nat × Nat) (v : BitVec w) : BitVec w := xorRots v r.1 ^^^ v >>> r.2
    h.extend n ((mixed h.old (shaWord ws 14) + mixed h.new (shaWord ws 1) + shaWord ws 6 + shaWord ws 15) :: ws)

/-- The bits of `x` chosen by `sel`, and those of `y` elsewhere. -/
def chooseBits (sel x y : BitVec w) : BitVec w := y ^^^ (sel &&& (x ^^^ y))

/-- One round on the eight working words a to h: two of them are new, and the others move on by one place. -/
def Sha2.round (h : Sha2 w) (v : List (BitVec w)) (kw : BitVec w × BitVec w) : List (BitVec w) :=
  let x := shaWord v
  let mixE := x 7 + xorRots (x 4) h.mixE + chooseBits (x 4) (x 5) (x 6) + (kw.1 + kw.2)
  let majority := chooseBits (x 0 ^^^ x 1) (x 2) (x 0)
  let head := mixE + (majority + xorRots (x 0) h.mixA)
  (head :: v.take 7).set 4 (x 3 + mixE)

/-- Big-endian words of `n` groups of bytes. -/
def beWords : Nat → List Byte → List (BitVec w)
  | 0, _ => []
  | n + 1, bs => BitVec.ofNat w ((bs.take (w / 8)).foldl (fun acc b => acc * 256 + b.toNat) 0) :: beWords n (bs.drop (w / 8))

def Sha2.blocks (h : Sha2 w) : Nat → List Byte → List (BitVec w) → List (BitVec w)
  | 0, _, v => v
  | n + 1, bs, v =>
    let ws := (h.extend (h.consts.length - 16) (beWords 16 bs).reverse).reverse
    h.blocks n (bs.drop (2 * w)) ((v.zip ((h.consts.zip ws).foldl h.round v)).map fun p => p.1 + p.2)

end Sha2

/-- The big-endian bytes of a number, `k` of them. -/
def natToBytesBE (k n : Nat) : List Byte := (List.range k).map fun i => BitVec.ofNat 8 (n / 256 ^ (k - 1 - i))

/-- The number that big-endian bytes spell. -/
def bytesToNatBE (bs : List Byte) : Nat := bs.foldl (fun acc b => acc * 256 + b.toNat) 0

/-- The message with its padding: a block is sixteen words, and the last two hold the length in bits. -/
def shaPad (w : Nat) (msg : List Byte) : List Byte :=
  let z := (2 * w - (msg.length + 1 + w / 4) % (2 * w)) % (2 * w)
  msg ++ [0x80] ++ List.replicate z 0 ++ natToBytesBE (w / 4) (8 * msg.length)

def Sha2.run {w : Nat} (h : Sha2 w) (msg : List Byte) : List Byte :=
  let p := shaPad w msg
  (h.blocks (p.length / (2 * w)) p h.start).flatMap fun v => natToBytesBE (w / 8) v.toNat

def sha256 (msg : List Byte) : List Byte := sha256Of.run msg

def sha512 (msg : List Byte) : List Byte := (sha512Of sha512Init).run msg

def sha384 (msg : List Byte) : List Byte := ((sha512Of sha384Init).run msg).take 48

end Sys2Proof.Machine
end

