-- ==== Sys2Proof/Machine/Ports.lean ====
section
/-!
DEFINITION. The memory ports (chapter 11): the interleave (R361), what each class has moved (R362), the check of a sector
read and of the cells on chip (R358 to R360, R485), and lines that a wipe takes ahead of their order (R371).
-/

namespace Sys2Proof.Machine

open Sys2Proof

/-! ## The interleave (R361) -/

/-- The port of a device physical address, for a granule of 2^g bytes. -/
def memPortOf (g a : Nat) : Nat :=
  let u := a / 2 ^ g
  let v := u / 16
  (u % 16) ^^^ (v % 16) ^^^ (v / 16 % 16)

/-- The channel within the port. -/
def memChannelOf (g a : Nat) : Nat :=
  let v := a / 2 ^ g / 16
  (v % 4) ^^^ (v / 256 % 4)

/-- The port-local address. -/
def memLocalOf (g a : Nat) : Nat := a / 2 ^ g / 16 * 2 ^ g + a % 2 ^ g

/-- The device physical address of a port-local address (R361), the inverse of the interleave. -/
def portAddr (g port loc : Nat) : Nat :=
  let v := loc / 2 ^ g
  let low := port ^^^ (v % 16) ^^^ (v / 16 % 16)
  (v * 16 + low) * 2 ^ g + loc % 2 ^ g

/-- log2 of the interleave granule of the part. -/
def State.granule (s : State) : Nat := s.memc.ports[0].granule.toNat + 11

/-- The port that serves an address. -/
def State.portAt (s : State) (a : Nat) : Fin 16 := Fin.ofNat 16 (memPortOf s.granule a)

/-- The port `p` changed. -/
def State.updMem (s : State) (p : Fin 16) (g : MemPort → MemPort) : State :=
  { s with memc := { s.memc with ports := s.memc.ports.set p (g s.memc.ports[p]) } }

/-! ## What the classes move (R362, MEMC_BYTES_c) -/

/-- The data bytes that an access moves count at its port in its class of Table 11.2 (log entry 62). -/
def State.moved (s : State) (c : Fin 4) (a n : Nat) : State :=
  s.updMem (s.portAt a) fun p => { p with bytes := p.bytes.set c (p.bytes[c] + BitVec.ofNat 64 n) }

/-- The bytes of a span that lie at a port: its whole turns of the interleave, and the granules at its ends. -/
def spanAt (g : Nat) (p base size : Nat) : Nat :=
  let turn := 16 * 2 ^ g
  let end_ := base + size
  let lo := min end_ ((base + turn - 1) / turn * turn)
  let hi := max lo (end_ / turn * turn)
  let part (a b : Nat) : Nat := ((List.range 17).map fun k =>
    let x := max a ((a / 2 ^ g + k) * 2 ^ g)
    let y := min b ((a / 2 ^ g + k + 1) * 2 ^ g)
    if x < y ∧ memPortOf g x = p then y - x else 0).sum
  part base lo + (hi - lo) / 16 + part hi end_

/-- A long span moved in a class, at every port. -/
def State.movedSpan (s : State) (c : Fin 4) (base size : Nat) : State :=
  { s with memc := { s.memc with ports := Vector.ofFn fun i =>
      let p := s.memc.ports[i]
      { p with bytes := p.bytes.set c (p.bytes[c] + BitVec.ofNat 64 (spanAt s.granule i.val base size)) } } }

/-! ## Errors in cells (R358, R359, R485) -/

/-- The cells of the part come to hold what the surroundings say (log entry 84). -/
def State.upset (s : State) (us : List Upset) : State := { s with upsets := s.upsets ++ us }

/-- A cell holds again what was written to it. -/
def State.mend (s : State) (u : Upset) : State := { s with upsets := s.upsets.filter (· != u) }

/-- An uncorrectable error in a line: the line is poisoned with no recorded cause, counted, logged and
noticed (R359, Table 15.3). -/
def State.eccUe (s : State) (port : Fin 16) (a : Nat) : State :=
  let s := s.mark (a / 2048) {}
  let s := s.updMem port fun p => { p with ue := satInc p.ue, eccLine := BitVec.ofNat 37 (a / 2048) }
  let x : LogArgs := { index := port.val, detail := a }
  s.logNotice Codes.eccUncorrectable .memory x

/-- The sectors of a span that the check finds wrong. -/
def State.badSectors (s : State) (a n : Nat) : List (Nat × SectorErr) :=
  if n = 0 then [] else s.upsets.filterMap fun u =>
    match u with
    | .sector k e => if a / 64 ≤ k ∧ k ≤ (a + n - 1) / 64 then some (k, e) else none
    | _ => none

/-- A sector read whose check found an error (R359): corrected, counted and written back, or its line is poisoned. -/
def State.foundSector (s : State) (x : Nat × SectorErr) : State :=
  let p := s.portAt (x.1 * 64)
  match x.2 with
  | .single => ((s.mend (.sector x.1 .single)).updMem p fun q => { q with ce := satInc q.ce }).moved 3 (x.1 * 64) 64
  | _ => s.eccUe p (x.1 * 64)

/-- The sectors of a span are read and checked (R359). -/
def State.checkRead (s : State) (a n : Nat) : State := (s.badSectors a n).foldl State.foundSector s

/-- A span is written (R360): a sector it covers wholly holds what was written, unless the access also reads it (R365);
any other is read, merged and written. -/
def State.checkWrite (s : State) (a n : Nat) (reads : Bool) : State :=
  (s.badSectors a n).foldl (fun (s : State) x =>
    let whole := a ≤ x.1 * 64 && x.1 * 64 + 64 ≤ a + n
    let s := if reads || !whole then s.foundSector x else s
    s.mend (.sector x.1 x.2)) s

/-- 64 bits of scratchpad whose check found an error on a read (R485): corrected and counted, or its row is poisoned and
the error logged. It is found once (log entry 84). -/
def State.foundSpad (s : State) (x : Nat × Bool) : State :=
  let s := s.mend (.spad x.1 x.2)
  match s.place (x.1 * 8) with
  | .spad g _ =>
    if x.2 then
      let s := s.mark (x.1 / 256) {}
      let a : LogArgs := { index := g.val, frame := some g.val, detail := x.1 * 8 }
      ({ s with visPoison := alSet s.visPoison (x.1 / 256) {} } : State).logNotice Codes.eccUncorrectable .frame a
    else s.updFrame g fun fr => { fr with reg := { fr.reg with spadCe := satInc fr.reg.spadCe } }
  | _ => s

/-- A span of scratchpad is read and checked. -/
def State.checkSpad (s : State) (a n : Nat) : State :=
  if n = 0 then s else
  (s.upsets.filterMap fun u =>
    match u with
    | .spad w m => if a / 8 ≤ w ∧ w ≤ (a + n - 1) / 8 then some (w, m) else none
    | _ => none).foldl State.foundSpad s

/-- A line of a frame's remote-read cache is read: a single-bit error is corrected and counted, and a line with another
error leaves the cache, to be fetched again (R485). -/
def State.checkCache (s : State) (f : FrameNo) (l : Nat) : State :=
  let s := if s.upsets.contains (.cache f l false) then
      (s.mend (.cache f l false)).updFrame f fun fr => { fr with reg := { fr.reg with spadCe := satInc fr.reg.spadCe } }
    else s
  if s.upsets.contains (.cache f l true) then
    let a : LogArgs := { index := f.val, frame := some f.val, detail := l * 2048 }
    ((s.mend (.cache f l true)).updFrame f fun fr => { fr with rrc := fr.rrc.filter (·.line != l) }).logNotice
      Codes.eccUncorrectable .frame a
  else s

/-! ## Lines wiped ahead of their order (R371) -/

/-- Accesses reach lines: a line of a span that is being wiped, which the wipe has not reached, is wiped ahead of its
order, and reads zero. A write does so where the wipe is no span wipe of R372: that overwrites it. -/
def State.reachLines (s : State) (lines : List Nat) (write : Bool) : State :=
  if s.memc.wipes.isEmpty then s else
  let new (w : Wipe) : List Nat :=
    if write && w.kind == .span then [] else
    lines.filter fun l => w.base ≤ l * 2048 && l * 2048 < w.base + w.size && !w.wiped.contains l
  let zero := s.memc.wipes.flatMap new
  { s with
    mem := s.mem.filter fun c => !zero.contains (c.1 / 2048)
    poison := s.poison.filter fun p => !zero.contains p.1
    memc := { s.memc with wipes := s.memc.wipes.map fun (w : Wipe) => { w with wiped := w.wiped ++ new w } } }

/-- A read of device memory at its port: its lines reached, its sectors checked, its bytes counted. -/
def State.lineRead (s : State) (c : Fin 4) (a n : Nat) : State :=
  ((s.reachLines (linesOf a n) false).checkRead a n).moved c a n

/-- A write of device memory at its port; `sums` for an access that reads and writes the same bytes (R365). -/
def State.lineWrite (s : State) (c : Fin 4) (a n : Nat) (sums : Bool) : State :=
  ((s.reachLines (linesOf a n) true).checkWrite a n sums).moved c a (if sums then 2 * n else n)

/-- The sectors of a span that a test selects by their offsets hold what was written to them (R360). -/
def State.mendSpan (s : State) (base size : Nat) (p : Nat → Bool := fun _ => true) : State :=
  { s with upsets := s.upsets.filter fun u =>
      match u with
      | .sector n _ => n * 64 < base || base + size ≤ n * 64 || !p (n * 64 - base)
      | _ => true }

/-- A long span is written whole: its sectors hold what was written, and its bytes count (R360, R362). -/
def State.wroteSpan (s : State) (c : Fin 4) (base size : Nat) : State :=
  if size = 0 then s else (s.mendSpan base size).movedSpan c base size

/-- Spans of device memory are read at their ports, those that lie in usable memory (R359, R362). -/
def State.readSpans (s : State) (c : Fin 4) (spans : List (Nat × Nat)) : State :=
  spans.foldl (fun (s : State) x => if x.2 = 0 ∨ s.usable < x.1 + x.2 then s else s.lineRead c x.1 x.2) s

/-- An access that reads and writes the same bytes at their home, as one action (R315, R343, R365). -/
def State.sumAt (s : State) (a n : Nat) : State :=
  match s.place a with
  | .mem => s.lineWrite 2 a n true
  | .spad _ _ => s.checkSpad a n
  | _ => s

end Sys2Proof.Machine
end

