-- ==== Sys2Proof/Machine/Home.lean ====
section
/-!
DEFINITION. Writes at the homes of device memory: plain lines (R108), contributions to reduction sets (R405
to R411) and ingest adds into MAS layers (R375, R376); flags and atomics at their homes (R241, R343).
-/

namespace Sys2Proof.Machine

open Sys2Proof

/-! ## Prime-table hash -/

/-- The 2,048 bytes that R86 hashes. -/
def State.primeBytes (s : State) : List Byte :=
  s.global.primes.toList.flatMap fun e => natToBytes 4 e.q.toNat ++ natToBytes 4 e.root.toNat

/-- GLOBAL_PRIME_HASH (R86). -/
def State.primeHash (s : State) : Nat := bytesToNat ((sha3_256 s.primeBytes).take 8)

/-! ## Shapes, layers and sets -/

/-- Bytes of a limb of a shape. -/
def Shape.limb (h : Shape) : Nat := 2 ^ h.logN.toNat * 4

/-- Bytes of a buffer of a shape (R373, R404). -/
def Shape.size (h : Shape) : Nat := h.objects.toNat * h.comps.toNat * h.capacity.toNat * h.limb

/-- The limb slot a byte of a CLN buffer lies in. -/
def Shape.slotOf (h : Shape) (off : Nat) : Nat := if h.capacity = 0 ∨ h.limb = 0 then 0 else off / h.limb % h.capacity.toNat

/-- The modulus a word of a buffer adds under, 0 where it wraps at 32 bits (R375, R405). -/
def State.shapeMod (s : State) (h : Shape) (off : Nat) : Nat :=
  let i := h.slotOf off
  if i < h.level.toNat then (s.primeAt (s.pset h.pset.toNat) i).q.toNat else 0

/-- Words added under a modulus, or wrapping at 32 bits (R315). -/
def addMod (q a b : Nat) : Nat := if q = 0 then (a + b) % 2 ^ 32 else (a % q + b % q) % q

/-- Two byte strings added word by word. -/
def addWords (q : Nat) : Nat → List Byte → List Byte → List Byte
  | 0, _, _ => []
  | n + 1, a, b => natToBytes 4 (addMod q (bytesToNat (a.take 4)) (bytesToNat (b.take 4))) ++
      addWords q n (a.drop 4) (b.drop 4)

def lineBase (b : BitVec 37) : Nat := b.toNat * 2048

def State.set? (s : State) (i : Nat) : RSet := if h : i < 64 then s.carry.sets[i] else {}

def State.updSet (s : State) (i : Nat) (g : RSet → RSet) : State :=
  if h : i < 64 then { s with carry := { s.carry with sets := s.carry.sets.set i (g s.carry.sets[i]) } } else s

def RSet.line (r : RSet) (l : Nat) : RsLine := (r.lines.find? (·.line == l)).getD { line := l }

def RSet.setLine (r : RSet) (x : RsLine) : RSet := { r with lines := x :: r.lines.filter (·.line != x.line) }

/-- Lines of a set's window: one for a vote. -/
def RSet.count (r : RSet) : Nat := if r.vote then 1 else r.shape.size / 2048

/-- The roles toward a set's children. -/
def RSet.childRoles (r : RSet) : List Nat := (List.range 8).filterMap fun i => if r.children.getLsbD i then some (i + 1) else none

/-- The armed RES set whose contribution window an address lies in. -/
def State.contribAt (s : State) (a : Nat) : Option Nat :=
  (List.range 64).find? fun i =>
    let r := s.set? i
    r.armed && !r.vote && lineBase r.contrib ≤ a && a < lineBase r.contrib + r.shape.size

/-- The defined layer whose M buffer an address lies in. -/
def State.layerAt (s : State) (a : Nat) : Option (Fin 64) :=
  (List.finRange 64).find? fun i =>
    let l := s.mas.layers[i]
    l.state != .idle && lineBase l.mBase ≤ a && a < lineBase l.mBase + l.shape.size

def State.updLayer (s : State) (i : Fin 64) (g : Layer → Layer) : State :=
  { s with mas := { s.mas with layers := s.mas.layers.set i (g s.mas.layers[i]) } }

/-- The code with which device memory drops a write of `n` bytes at `a`: part of a line into an armed
contribution window (R405), or an M buffer that is not open (R376). -/
def State.memDrop (s : State) (a n : Nat) : Option Code :=
  match s.contribAt a with
  | some _ => if a % 2048 = 0 ∧ n = 2048 then none else some Codes.reducePartial
  | none =>
    match s.layerAt a with
    | some i =>
      match s.mas.layers[i].state with
      | .opened | .closing => none
      | _ => some Codes.ingestClosed
    | none => none

/-- A local contribution that must wait for its line's round before it (R405). -/
def State.lineHeld (s : State) (a : Nat) : Bool :=
  match s.contribAt a with
  | some i =>
    let r := s.set? i
    let x := r.line ((a - lineBase r.contrib) / 2048)
    r.locals.toNat ≤ x.locals || !x.held.isEmpty
  | none => false

/-! ## Work at the homes -/

/-- What is left to do at the homes for one write: the write itself, a contribution, the check that a
line's round is complete, a delivery, and the check that a set's round is complete. -/
inductive Job where
  | write (addr : Nat) (bytes : List Byte) (mark : Option Mark) (cls : Fin 4 := 2)
  | contribute (set line : Nat) (bytes : List Byte) (mark : Option Mark)
  | complete (set line : Nat)
  | deliver (set line : Nat) (bytes : List Byte) (cause : Option Code)
  | round (set : Nat)

/-- A write into an M buffer that is open adds word by word (R375). -/
def State.ingest (s : State) (i : Fin 64) (a : Nat) (bytes : List Byte) (mark : Option Mark) : State :=
  let l := s.mas.layers[i]
  let lo := a / 4 * 4
  let hi := (a + bytes.length + 3) / 4 * 4
  let pad := List.replicate (a - lo) (0 : Byte) ++ bytes ++ List.replicate (hi - (a + bytes.length)) 0
  let q := s.shapeMod l.shape (lo - lineBase l.mBase)
  let s := s.lineWrite 2 a bytes.length true
  let sum := addWords q (pad.length / 4) (memReadN s.mem lo pad.length) pad
  let s := { s with mem := memWriteN s.mem lo sum }
  let ls := linesOf a bytes.length
  let s := match mark with
    | some m => ls.foldl (fun (t : State) k => t.mark k m) s
    | none => s
  s.updLayer i fun l => { l with linesIn := satAdd l.linesIn ls.length }

/-- An ordinary write of bytes within one line (R108, R360). -/
def State.store (s : State) (a : Nat) (bytes : List Byte) (mark : Option Mark) : State :=
  let s := { s with mem := memWriteN s.mem a bytes }
  match mark with
  | some m => (linesOf a bytes.length).foldl (fun (t : State) k => t.mark k m) s
  | none => (wholeLines a bytes.length).foldl State.unmark s

/-- A flag takes an update at its home (R241): SET or ADD modulo 2^32. -/
def State.putFlag (s : State) (f : FrameNo) (flag : Nat) (add : Bool) (v : Word) : State :=
  s.updFrame f fun fr =>
    if h : flag < 256 then { fr with flags := fr.flags.set flag (if add then fr.flags[flag] + v else v) } else fr

/-- A flag update is refused at its home: counted and logged (R349). -/
def State.refuseFlag (s : State) (f : FrameNo) : State :=
  (s.updFrame f fun fr => { fr with reg := { fr.reg with flagRefused := satInc fr.reg.flagRefused } }).log
    Codes.flagRefused .frame { index := f.val, frame := some f.val }

/-- A packet of a reduction set for a neighbour (R406, R408). -/
def State.redPacket (s : State) (down : Bool) (i line : Nat) (data : List Byte) (cause : Option Code) (role : Nat) : Packet :=
  let r := s.set? i
  let off := line * 2048
  let slotI := r.shape.slotOf off
  let wrap := r.vote || decide (r.shape.level.toNat ≤ slotI)
  let pidx := if wrap then 0 else ((s.pset r.shape.pset.toNat).index slotI).getD 0
  { ptype := if down then tReddown else tRed
    poison := cause.isSome, dst := (s.carry.neighbour role).getD 0, src := s.carry.self, siod := true
    addr := if r.vote then 0 else off
    arg := i + pidx * 2 ^ 8 + boolBit wrap * 2 ^ 16 + (r.line line).round % 256 * 2 ^ 24
    ext := natToBytes 8 s.primeHash ++ natToBytes 2 ((cause.getD 0).toNat) ++ natToBytes 6 0
    data }

/-- The 72 bytes of a vote's nine words (Table 12.11). -/
def voteBytes (ws : List Nat) : List Byte := (List.range 9).flatMap fun i => natToBytes 8 (ws.getD i 0)

def voteWords (bs : List Byte) : List Nat := (List.range 9).map fun i => bytesToNat ((bs.drop (8 * i)).take 8)

/-- Two votes combined: minima, maxima and the sum of the counts (R412). -/
def combineVotes (a b : List Nat) : List Nat :=
  if a.isEmpty then b else
  (List.range 9).map fun i =>
    let x := a.getD i 0
    let y := b.getD i 0
    if i = 8 then (x + y) % 2 ^ 64 else if i % 2 = 0 then min x y else max x y

/-- A line's round is read to be sent or delivered (R406): its data, and the first cause if it is poisoned, an
uncorrectable error met by this read included (R359). -/
def State.lineData (s : State) (i line : Nat) : State × List Byte × Option Code :=
  let r := s.set? i
  let x := r.line line
  if r.vote then (s, voteBytes x.vote, x.mark)
  else
    let a := lineBase r.contrib + line * 2048
    let s := s.lineRead 2 a 2048
    (s, memReadN s.mem a 2048, x.mark.orElse fun _ => (poisonAt s.poison a).map (·.cause))

/-- A contribution is combined into a line's round (R405, R412): the first replaces, the rest add. Poison that the line
itself has taken meanwhile, or that reading it finds, counts as the sum's (R321, R359). -/
def State.combine (s : State) (i line : Nat) (bytes : List Byte) (mark : Option Code) : State :=
  let r := s.set? i
  let x := r.line line
  let a := lineBase r.contrib + line * 2048
  let s :=
    if r.vote then s
    else
      let s := s.lineWrite 2 a 2048 x.data
      let met := if x.data then (poisonAt s.poison a).map (·.cause) else none
      let v := if x.data then addWords (s.shapeMod r.shape (line * 2048)) 512 (memReadN s.mem a 2048) bytes else bytes
      let s := { s with mem := memWriteN s.mem a v }
      match (x.mark.orElse fun _ => met).orElse fun _ => mark with
      | some c => s.mark (a / 2048) { cause := c }
      | none => if x.started then s else s.unmark (a / 2048)
  let met := if r.vote then none else (poisonAt s.poison a).map (·.cause)
  s.updSet i fun r =>
    let x := r.line line
    r.setLine { x with
      started := true, data := true
      mark := (x.mark.orElse fun _ => met).orElse fun _ => mark
      vote := if r.vote then combineVotes (if x.data then x.vote else []) (voteWords bytes) else [] }

/-- A contribution whose data is discarded counts as a poisoned one (R407, R408). -/
def State.spoil (s : State) (i line : Nat) (c : Code) : State :=
  let r := s.set? i
  let s := if r.vote then s
    else s.mark (lineBase r.contrib / 2048 + line) { cause := ((r.line line).mark.filter fun _ => (r.line line).started).getD c }
  s.updSet i fun r =>
    let x := r.line line
    r.setLine { x with started := true, mark := if x.started then x.mark.orElse fun _ => some c else some c }

/-- A line's round ends here (R409): REDDOWN goes to each child, and the next round opens. -/
def State.closeLine (s : State) (i line : Nat) (bytes : List Byte) (cause : Option Code) : State :=
  let s := (s.set? i).childRoles.foldl (fun s role => s.sendRole role (s.redPacket true i line bytes cause role)) s
  s.updSet i fun r =>
    let x := r.line line
    r.setLine { line, round := x.round + 1, held := x.held.drop r.locals.toNat }

/-- One piece of work at the homes, and what it leaves to do. -/
def State.job (s : State) : Job → State × List Job
  | .write a bytes mark cls =>
    match s.memDrop a bytes.length with
    | some c =>
      let s := match s.layerAt a with
        | some i => s.updLayer i fun l => { l with dropped := satInc l.dropped }
        | none => s
      (s.log c (if c = Codes.ingestClosed then .mas else .carry)
        { index := if c = Codes.ingestClosed then ((s.layerAt a).map (·.val)).getD 0 else (s.contribAt a).getD 0, detail := a }, [])
    | none =>
      match s.contribAt a with
      | some i => (s, [.contribute i ((a - lineBase (s.set? i).contrib) / 2048) bytes mark])
      | none =>
        match s.layerAt a with
        | some i => (s.ingest i a bytes mark, [])
        | none => ((s.lineWrite cls a bytes.length false).store a bytes mark, [])
  | .contribute i line bytes mark =>
    let r := s.set? i
    let x := r.line line
    if r.locals.toNat ≤ x.locals then
      (s.updSet i fun r => r.setLine { x with held := x.held ++ [(bytes, mark.map (·.cause))] }, [])
    else
      let s := s.combine i line bytes (mark.map (·.cause))
      (s.updSet i fun r => r.setLine { r.line line with locals := (r.line line).locals + 1 }, [.complete i line])
  | .complete i line =>
    let r := s.set? i
    let x := r.line line
    if x.started && x.locals == r.locals.toNat && r.childRoles.all (x.reds.contains ·) && !x.sent then
      let (s, data, cause) := s.lineData i line
      if r.parent = 0 then (s, [.deliver i line data cause])
      else
        let role := r.parent.toNat
        let s := s.sendRole role (s.redPacket false i line data cause role)
        (s.updSet i fun r => r.setLine { r.line line with sent := true }, [])
    else (s, [])
  | .deliver i line bytes cause =>
    let r := s.set? i
    let round := (r.line line).round
    let held := (r.line line).held.take r.locals.toNat
    let s := s.closeLine i line bytes cause
    let out : List Job :=
      if r.vote then [] else [.write (lineBase r.deliver + line * 2048) bytes (cause.map fun c => { cause := c })]
    let s := if r.vote && r.locals != 0 then
        s.updSet i fun r => { r with votes := r.votes ++ [(round, if cause.isSome then none else some (voteWords bytes))] }
      else s
    (s, out ++ [.round i] ++ held.map fun h => .contribute i line h.1 (h.2.map fun c => { cause := c }))
  | .round i =>
    let r := s.set? i
    let n := r.rounds.toNat
    if r.lines.length = r.count && r.lines.all (fun x => n < x.round) then
      let s := s.updSet i fun r => { r with rounds := r.rounds + 1 }
      match frameNo? r.doneFrame.toNat with
      | some f => (if !r.doneEn then s else if (s.frame f).gone then s.refuseFlag f else if !s.powered f then s.offLog f
        else s.putFlag f r.doneFlag.toNat true 1, [])
      | none => (s, [])
    else (s, [])

/-- The work at the homes, in order. -/
def State.work : Nat → State → List Job → State
  | 0, s, _ => s
  | _, s, [] => s.pumpAll
  | n + 1, s, j :: js =>
    let r := s.job j
    State.work n r.1 (js ++ r.2)

/-- Bytes arrive at device memory, within one line, in a class of Table 11.2 (R344, R362). -/
def State.memArrive (s : State) (a : Nat) (bytes : List Byte) (mark : Option Mark) (cls : Fin 4 := 2) : State :=
  s.work 4096 [.write a bytes mark cls]

/-- Bytes cut at line boundaries. -/
def splitLines : Nat → Nat → List Byte → List (Nat × List Byte)
  | 0, _, _ => []
  | n + 1, a, bs =>
    if bs.isEmpty then []
    else
      let k := 2048 - a % 2048
      (a, bs.take k) :: splitLines n (a + k) (bs.drop k)

/-- Writes of one nibble each (R307). -/
def writeNibs (m : List Host.Cell) (ns : List PWrite) : List Host.Cell :=
  ns.foldl (fun m n =>
    let b := (memRead m n.addr).toNat
    memWrite m n.addr (BitVec.ofNat 8 (if n.hi then b % 16 + 16 * (n.value % 16) else b / 16 * 16 + n.value % 16))) m

/-- Poison with the given rows and lines marked. -/
def setMarks (p : List (Nat × Mark)) : List (Nat × Mark) → List (Nat × Mark)
  | [] => p
  | m :: ms => setMarks (alSet p m.1 m.2) ms

/-- Cells in address order, a later one replacing an earlier. -/
def sortCells (cs : List Host.Cell) : List Host.Cell := cs.foldl (fun l c => alSet l c.1 c.2) []

/-- Ordered cells as runs of consecutive bytes, none across a row or line boundary. -/
def runsOf : List Host.Cell → List (Nat × List Byte)
  | [] => []
  | c :: cs =>
    match runsOf cs with
    | (a, bs) :: rest => if a = c.1 + 1 ∧ a % 2048 ≠ 0 then (c.1, c.2 :: bs) :: rest else (c.1, [c.2]) :: (a, bs) :: rest
    | [] => [(c.1, [c.2])]

/-- Bytes arrive at device memory, or are dropped with a code. -/
def State.tryArrive (s : State) (a : Nat) (bytes : List Byte) (mark : Option Mark) : State × List Code :=
  (s.memArrive a bytes mark, (s.memDrop a bytes.length).toList)

/-- A nibble arrives at device memory: merged into its byte (R300), or as any write where a layer or a
contribution window takes it. -/
def State.nibArrive (s : State) (w : PWrite) (mark : Option Mark) : State × List Code :=
  if (s.layerAt w.addr).isSome || (s.contribAt w.addr).isSome then
    s.tryArrive w.addr [BitVec.ofNat 8 (w.value % 16 * (if w.hi then 16 else 1))] mark
  else
    let s := s.lineWrite 2 w.addr 1 false
    let s := { s with mem := writeNibs s.mem [w] }
    ((match mark with | some m => s.mark (w.addr / 2048) m | none => s), [])

/-- What one operation or transfer adds to a line of an M buffer, or writes to it in vain, counts once since state
`was` (R375, R376). -/
def State.oneLine (s was : State) (a : Nat) : State :=
  match was.layerAt a with
  | some i =>
    let l := was.mas.layers[i]
    s.updLayer i fun k => { k with
      linesIn := if k.linesIn = l.linesIn then k.linesIn else satInc l.linesIn
      dropped := if k.dropped = l.dropped then k.dropped else satInc l.dropped }
  | none => s

/-- The writes of one operation or transfer to one line of device memory, and the codes of those dropped. -/
def State.lineArrive (s : State) (cells : List Host.Cell) (nibs : List PWrite) (mark : Option Mark) : State × List Code :=
  let r := (runsOf (sortCells cells)).foldl (fun (r : State × List Code) x =>
    let t := r.1.tryArrive x.1 x.2 mark
    (t.1, r.2 ++ t.2)) (s, [])
  let r := nibs.foldl (fun (r : State × List Code) w =>
    let t := r.1.nibArrive w mark
    (t.1, r.2 ++ t.2)) r
  (r.1.oneLine s ((cells.head?.map (·.1)).getD ((nibs.head?.map (·.addr)).getD 0)), r.2)

/-! ## Atomics -/

/-- The word an ATOM leaves (R343). -/
def atomValue (aop old a c q : Nat) : Nat :=
  match aop with
  | 0 => (old + a) % 2 ^ 32
  | 1 => if q = 0 then old else (old % q + a % q) % q
  | 2 => max old a
  | 3 => a
  | _ => if old = c then a else old

/-- An ATOM at a word whose home may be changed: the old value, and whether its line or row is poisoned, in
which case nothing changes (R347). -/
def State.atomAt (s : State) (addr aop a c q : Nat) : State × Nat × Option Mark :=
  let s := s.sumAt addr 4
  let old := memReadNat s.mem addr 4
  match poisonAt s.poison addr with
  | some m => (s, old, some m)
  | none => ({ s with mem := memWriteN s.mem addr (natToBytes 4 (atomValue aop old a c q)) }, old, none)

/-! ## Credits (R302 to R305) -/

/-- The REMOTE region of a frame that an offset lies in. -/
def Frame.remoteAt (fr : Frame) (off : Nat) : Option Region :=
  fr.regions.find? fun r => r.remote && r.originRow * 2048 ≤ off && off < (r.originRow + r.sizeRows) * 2048

/-- The entry of a source holds at least one row (R304). -/
def Region.hasCredit (r : Region) (dev frame : Nat) : Bool :=
  r.credits.any fun c => c.dev == dev && c.frame == frame && c.rows != 0

/-- The entry of a source loses one row (R304). -/
def Region.spend (r : Region) (dev frame : Nat) : Region :=
  { r with credits := r.credits.map fun (c : Credit) => if c.dev == dev && c.frame == frame then { c with rows := c.rows - 1 } else c }

/-- A GRANT's rows are added to its source's entry, or a new entry, up to the region's rows (R303). -/
def Region.addCredit (r : Region) (c : Credit) : Region :=
  if r.credits.any fun e => e.dev == c.dev && e.frame == c.frame then
    { r with credits := r.credits.map fun (e : Credit) =>
        if e.dev == c.dev && e.frame == c.frame then { e with rows := min r.sizeRows (e.rows + c.rows) } else e }
  else if r.credits.length < 4 then { r with credits := r.credits ++ [{ c with rows := min r.sizeRows c.rows }] }
  else r

/-- A program is running on frame `g`. -/
def State.hosts (s : State) (g : FrameNo) : Bool :=
  match s.runOf g with
  | some r => r.started && r.aborted.isNone && r.endBeat.isNone
  | none => false

/-- The REMOTE region that an offset of frame `g` lies in, of those that the program running on it declares (R304,
R346); a resident one it does not declare takes nothing. -/
def State.openRemote (s : State) (g : FrameNo) (off : Nat) : Option Region :=
  let declared : List Nat :=
    match (s.runOf g).bind fun r => (s.program? r.func r.handle).bind fun p => p.part? g with
    | some p => p.rtab.map (·.number)
    | none => []
  if s.hosts g then ((s.frame g).remoteAt off).filter fun r => declared.contains r.number else none

/-- Would a transfer write this row or line (R174, R304, R306, R376, R405)? -/
def State.wouldWrite (s : State) (x : Xfer) (row : Nat) : Bool :=
  let n := (((x.writes ++ x.accs).filter fun w => w.addr / 2048 == row).map (·.size)).sum
  (dropCode (s.access (funcNo x.func) x.isSealed false true (row * 2048))).isNone &&
  match s.place (row * 2048) with
  | .mem => (s.memDrop (row * 2048) n).isNone
  | .spad g off => g.val == x.frame || x.kind == .kstream ||
      ((s.openRemote g off).map fun r => r.hasCredit s.carry.self x.frame).getD false
  | _ => false

end Sys2Proof.Machine
end

