-- ==== Sys2Proof/Machine/Flags.lean ====
section
/-!
DEFINITION. Scalar operations (Table 7.10), branch conditions (Table 7.11), lane stages (Table 5.4), lane
flags (Table 5.7) and the forms and scales that the sequencer tracks through a chain (R159, R161).
-/

namespace Sys2Proof.Machine

open Sys2Proof

/-! ## Scalars -/

/-- X0 reads zero, unpoisoned (R227). -/
def Frame.x (fr : Frame) (i : Nat) : Scalar :=
  if h : i < 32 then (if i = 0 then {} else fr.scalars[i]) else {}

/-- A scalar as R107's uses read it: zero if poisoned. -/
def Frame.xUse (fr : Frame) (i : Nat) : Word := if (fr.x i).poison.isSome then 0 else (fr.x i).value

/-- A write of X0 is discarded (R227). -/
def Frame.setX (fr : Frame) (i : Nat) (v : Scalar) : Frame :=
  if h : i < 32 then (if i = 0 then fr else { fr with scalars := fr.scalars.set i v }) else fr

/-- The result of SOPC on A and B (Table 7.10); `imm` is IMM and `lidx` the iteration index it names. -/
def sopResult (sopc : Nat) (a b imm lidx : Word) : Word :=
  match sopc with
  | 0 => a + b
  | 1 => a - b
  | 2 => a &&& b
  | 3 => a ||| b
  | 4 => a ^^^ b
  | 5 => a <<< (b.toNat % 32)
  | 6 => a.sshiftRight (b.toNat % 32)
  | 7 => if a.sle b then a else b
  | 8 => if a.sle b then b else a
  | 9 => if a.slt b then 1 else 0
  | 10 => if a = b then 1 else 0
  | 11 => a * b
  | 12 => imm
  | _ => lidx

/-- The scalars whose poison a SOP passes on: XA, and XB without BIMM, whatever the operation (R228). -/
def sopReads (w : BcWord) : List Nat := if flag1 w 95 then [fld w 85 5] else [fld w 85 5, fld w 90 5]

/-- A BR's condition (Table 7.11), poisoned scalars used as zero (R107). -/
def brCond (fr : Frame) (w : BcWord) : Bool :=
  let a := fr.xUse (fld w 78 5)
  let b := fr.xUse (fld w 83 5)
  match fld w 76 2 with
  | 0 => a != 0
  | 1 => a.slt b
  | 2 => a == b
  | _ => (fr.reg.laneLast &&& BitVec.ofNat 3 (fld w 88 3)) != 0

/-- The scalars a BR uses. -/
def brReads (w : BcWord) : List Nat :=
  match fld w 76 2 with
  | 0 => [fld w 78 5]
  | 1 | 2 => [fld w 78 5, fld w 83 5]
  | _ => []

/-! ## Lane stages -/

/-- The classes of values (R158). -/
inductive Cls where
  | r | i
deriving DecidableEq, Repr, Inhabited

/-- Class of a select: of the running value, of a source, or a constant's (none). -/
def selCls (v : Cls) (srcs : Nat → Cls) (sel : Nat) : Option Cls :=
  if sel = 0 then some v
  else if sel ≤ 4 then some (srcs (sel - 1))
  else if sel = 5 then some .r
  else none

/-- The class a stage fixes for its operand A: modular and LIFT take R, PASS and SEL leave or fix it
otherwise, integer stages take I. -/
def stageCls (v : Cls) (srcs : Nat → Cls) (dflt : Cls) (st : Stage) : Cls :=
  match st.op with
  | 0 => (selCls v srcs st.asel).getD dflt
  | 1 | 2 | 3 | 20 => .r
  | 18 =>
    match selCls v srcs st.bsel, selCls v srcs st.csel with
    | some c, _ => c
    | none, some c => c
    | none, none => dflt
  | _ => .i

/-- The class that the first later position of fixed class gives the running value (R158): `dst` where no
later position fixes it. -/
def laterCls (srcs : Nat → Cls) (dst : Cls) : List Stage → Cls
  | [] => dst
  | st :: rest =>
    let usesV := st.asel == 0 || st.bsel == 0 || st.csel == 0
    match st.op with
    | 0 => if st.asel = 0 then laterCls srcs dst rest else dst
    | 1 | 2 | 3 | 19 => if usesV then .r else dst
    | 18 =>
      if st.asel = 0 then .i
      else if st.bsel = 0 then
        (if 1 ≤ st.csel ∧ st.csel ≤ 4 then srcs (st.csel - 1) else laterCls srcs dst rest)
      else if st.csel = 0 then
        (if 1 ≤ st.bsel ∧ st.bsel ≤ 4 then srcs (st.bsel - 1) else laterCls srcs dst rest)
      else dst
    | _ => if usesV then .i else dst

/-- Wrapping into signed 32 bits, and whether the value did not fit (Table 5.7, WRAP). -/
def wrap32 (x : Int) : Int × Bool :=
  let y := signed 32 (unsignedOf 32 x)
  (y, y != x)

/-- One stage on exact values: residues in 0 .. q − 1 for class R, integers for class I (Table 5.4).
Gives the result and WRAP. -/
def stageVal (st : Stage) (q : Nat) (a b c : Int) : Int × Bool :=
  let m : Int := (mont a.toNat b.toNat q : Nat)
  match st.op with
  | 0 => (a, false)
  | 1 => ((intMod (m + c) q : Nat), false)
  | 2 => ((intMod (m - c) q : Nat), false)
  | 3 => ((intMod (c - m) q : Nat), false)
  | 8 => wrap32 (a + c)
  | 9 => wrap32 (a - c)
  | 10 => wrap32 (a * b)
  | 11 => wrap32 (a * (2 ^ st.shift : Nat))
  | 12 => (a / (2 ^ st.shift : Nat), false)
  | 13 => (signed 32 (unsignedOf 32 a &&& unsignedOf 32 c), false)
  | 14 => (min a c, false)
  | 15 => (max a c, false)
  | 16 => (if a < c then 1 else 0, false)
  | 17 => (if a = c then 1 else 0, false)
  | 18 => (if a ≠ 0 then b else c, false)
  | 19 => (if a ≤ ((q - 1) / 2 : Nat) then a else a - q, false)
  | _ => ((intMod a q : Nat), false)

/-- What the selects of a chain read for one element. -/
structure LaneIn where
  srcs : List Int := []
  k : Nat := 0
  q : Nat := 0
  rModQ : Nat := 0
  imms : List Word := []

/-- The value of a select (Table 5.3) for a running value and a class. -/
def selVal (l : LaneIn) (v : Int) (c : Cls) (sel : Nat) : Int :=
  if sel = 0 then v
  else if sel ≤ 4 then l.srcs.getD (sel - 1) 0
  else if sel = 5 then (l.k : Nat)
  else if sel = 6 then (match c with | .r => (l.rModQ : Nat) | .i => 1)
  else if sel = 7 then 0
  else
    let x := signed 32 (l.imms.getD (sel - 8) 0).toNat
    match c with | .r => (intMod x l.q : Nat) | .i => x

/-- The chain on one element (R157): the final value and WRAP. `v`'s class is carried to read constants. -/
def chainVal (l : LaneIn) (srcCls : Nat → Cls) (dst : Cls) : List Stage → Int → Cls → Int × Bool
  | [], v, _ => (v, false)
  | st :: rest, v, vc =>
    let dflt := laterCls srcCls dst rest
    let c := stageCls vc srcCls dflt st
    let ac : Cls := if st.op = 19 then .r else if st.op = 20 then .i else if st.op = 18 then .i else c
    let x := stageVal st l.q (selVal l v ac st.asel) (selVal l v c st.bsel) (selVal l v c st.csel)
    let c' : Cls := if st.op = 19 then .i else c
    let y := chainVal l srcCls dst rest x.1 c'
    (y.1, x.2 || y.2)

/-! ## Forms and scales through a chain -/

/-- A form: P, M, or one that matches either, as ZERO does. -/
inductive Form where
  | p | m | any
deriving DecidableEq, Repr, Inhabited

def formOf (d : Desc) : Form := if d.intPlain then .p else if d.form = 1 then .m else .p

/-- Table 3.1 for a multiply; a product with ZERO matches either. -/
def mulForm : Form → Form → Option Form
  | .any, _ => some .any
  | _, .any => some .any
  | .m, .m => some .m
  | .m, .p => some .p
  | .p, .m => some .p
  | .p, .p => none

/-- Two forms that must agree. -/
def sameForm : Form → Form → Option Form
  | .any, f => some f
  | f, .any => some f
  | f, g => if f = g then some f else none

def selForm (v : Form) (srcs : Nat → Form) (sel : Nat) : Form :=
  if sel = 0 then v else if sel ≤ 4 then srcs (sel - 1)
  else if sel = 5 ∨ sel = 6 then .m else if sel = 7 then .any else .p

/-- The form after one stage of class R, or none where Table 3.1 is broken (R159). Integer values carry
no form, written P. -/
def stageForm (v : Form) (srcs : Nat → Form) (isR : Bool) (st : Stage) : Option Form :=
  let a := selForm v srcs st.asel
  let b := selForm v srcs st.bsel
  let c := selForm v srcs st.csel
  match st.op with
  | 0 => some a
  | 1 | 2 | 3 => (mulForm a b).bind fun p => sameForm p c
  | 18 => if isR then sameForm b c else some .p
  | 19 => if a = .m then none else some .p
  | _ => some .p

def chainForm (srcs : Nat → Form) (srcCls : Nat → Cls) (dst : Cls) : List Stage → Form → Cls → Option Form
  | [], f, _ => some f
  | st :: rest, f, vc =>
    let c := stageCls vc srcCls (laterCls srcCls dst rest) st
    (stageForm f srcs (c == .r) st).bind fun g =>
      chainForm srcs srcCls dst rest g (if st.op = 19 then .i else c)

def selScale (v : Int) (srcs : Nat → Int) (iscale : Int) (sel : Nat) : Int :=
  if sel = 0 then v else if sel ≤ 4 then srcs (sel - 1) else if sel ≤ 7 then 0 else iscale

def within (tol : Nat) (x y : Int) : Bool := (x - y).natAbs ≤ tol

/-- The scale after a PLAIN-mode chain and whether every tolerance held (R161). -/
def chainScale (srcs : Nat → Int) (iscale : Int) (tol : Nat) : List Stage → Int → Int × Bool
  | [], v => (v, true)
  | st :: rest, v =>
    let a := selScale v srcs iscale st.asel
    let b := selScale v srcs iscale st.bsel
    let c := selScale v srcs iscale st.csel
    let (r, ok) := match st.op with
      | 1 | 2 | 3 => (a + b, st.csel == 7 || within tol c (a + b))
      | 18 => (b, st.csel == 7 || within tol c b)
      | _ => (a, true)
    let y := chainScale srcs iscale tol rest r
    (y.1, ok && y.2)

/-! ## Lane flags -/

/-- RANGE, WRAP and SCALE as the three bits of Table 5.7. -/
def laneBits (range wrap scale : Bool) : BitVec 3 :=
  (if range then 1 else 0) ||| (if wrap then 2 else 0) ||| (if scale then 4 else 0)

/-- A value stored into an ETYPE: its low bits, and WRAP for I16, I8 and I4 (Table 5.7). -/
def narrow (etype : Nat) (x : Int) : Nat × Bool :=
  let b := etypeBits etype
  (unsignedOf b x, decide (b < 32) && signed b (unsignedOf b x) != x)

/-- A TENSOR or integer PLAINTEXT element as class I reads it: signed types sign-extended, U32 and RES32
as raw bits (R158), which a 32-bit integer lane holds as a signed word. -/
def elemInt (etype raw : Nat) : Int :=
  match etype with
  | 3 | 4 | 5 | 6 => signed (etypeBits etype) raw
  | _ => signed 32 raw

end Sys2Proof.Machine
end

