-- ==== Sys2Proof/Machine/Issue.lean ====
section
/-!
DEFINITION. The issue of beat-code words (chapter 7): the issue position and its loops and arms, the
words a beat will issue, when a word may issue, and what every engine word shares: reading sources as the
launch left them (R298, R339), poison (R106, R110), seals (R174), issue checks (R97 to R103) and the
operation it starts (R299).
-/

namespace Sys2Proof.Machine

open Sys2Proof

/-! ## The issue position -/

/-- The word of the frame's stream with index `i`, if the queue window holds it. -/
def Frame.wordAt (fr : Frame) (i : Nat) : Option BcWord :=
  if i < fr.rn.winBase then none else fr.rn.window[i - fr.rn.winBase]?

/-- The position after word index `pc` is reached inside contexts `ctx` (R233, R235): a loop whose body is
done starts its next iteration or ends, and an arm that is done goes on at its join. The Bool is set where
an arm that makes its join floating is left (R242). -/
def normalize : List Ctx → Nat → List Ctx × Nat × Bool
  | [], pc => ([], pc, false)
  | .loop c :: rest, pc =>
    if pc = c.bodyPc + c.bodyW then
      if c.left = 0 then normalize rest pc
      else (.loop { c with left := c.left - 1, index := c.index + 1 } :: rest, c.bodyPc, false)
    else (.loop c :: rest, pc, false)
  | .arm c :: rest, pc =>
    if pc = c.endPc then
      let r := normalize rest c.joinPc
      (r.1, r.2.1, r.2.2 || c.floats)
    else (.arm c :: rest, pc, false)

/-- The places in the stream of the words from the issue position on, up to and including the first with a nonzero
nominal length (R216, R220), or the first that the window does not hold. -/
def upcoming : Nat → Frame → List Ctx → Nat → List Nat
  | 0, _, _, _ => []
  | n + 1, fr, ctx, pc =>
    match fr.wordAt pc with
    | none => [pc]
    | some w =>
      if nominal w = 0 then
        let p := normalize ctx (pc + 1)
        pc :: upcoming n fr p.1 p.2.1
      else [pc]

/-- The places of the words that the frame will issue in one beat. -/
def Frame.nextPlaces (fr : Frame) : List Nat := upcoming 17 fr fr.rn.ctx fr.rn.word

/-- The words that the frame's issue position will issue in one beat; `none` where the window does not hold one. -/
def Frame.nextWords (fr : Frame) : List (Option BcWord) := fr.nextPlaces.map fr.wordAt

/-- The iteration index of the enclosing loop at a depth (LIDX). -/
def lidxOf : List Ctx → Nat → Nat
  | [], _ => 0
  | .loop c :: rest, d => if d = 0 then c.index else lidxOf rest (d - 1)
  | .arm _ :: rest, d => lidxOf rest d

/-- A word that makes what follows it floating (R242): a wait, or a loop with a register count. -/
def floats (w : BcWord) : Bool :=
  match opOf w with
  | some .flagWait | some .flagAcq => true
  | some .loop => !flag1 w 76
  | _ => false

/-- Do any of `n` words from index `i` make what follows floating, by the load's list of those that do? -/
def floatsIn (waits : List Nat) (i n : Nat) : Bool := waits.any fun k => i ≤ k && k < i + n

/-- The words of frame `f`'s stream that make what follows them floating, as its load found them (R242). -/
def Program.waitsOf (p : Program) (f : FrameNo) : List Nat := ((p.part? f).map (·.waits)).getD []

/-! ## When a word issues -/

/-- What a word issues under: its launch, its program and itself. -/
structure Iss where
  r : Run
  p : Program
  w : BcWord

/-- The chain table of a program, empty where the header marks it absent. -/
def Program.chainTab (p : Program) : List Chain := p.chains.getD []

/-- COST as Table 7.4 gives it for a word of frame `f` now. -/
def State.wordCost (s : State) (f : FrameNo) (p : Program) (w : BcWord) : Nat :=
  match opOf w with
  | some .kregen =>
    match (s.frame f).region? (fld w 76 8) with
    | some r => if fld w 84 7 = 0 then 1 else kregenCost (fld w 84 7) r
    | none => 1
  | _ => costOf s p.chainTab (s.frame f).rn.dtab w

/-- The engines of a frame that an operation still occupies. -/
def Frame.busy (fr : Frame) : List Engine := fr.rn.ops.flatMap (·.engines)

/-- A wait of the run's frames has run out at this launch: the program aborts there, and no word of it issues (R240,
R480). -/
def State.waitsExpired (s : State) (r : Run) : Bool :=
  (framesOf r.frames).any fun g => (s.frame g).rn.run == r.id && (s.frame g).rn.wait.any (·.expired)

/-- The word at the issue position of frame `f`, where it issues in the beat in progress: the frame runs a
program that has started and is neither aborted nor stopped, it is in a phase group that has started
(R455), it does not wait, and the word's beat is this one (R216). -/
def State.iss? (s : State) (f : FrameNo) (op : Op) : Option Iss :=
  let fr := s.frame f
  match s.runOf f with
  | none => none
  | some r =>
    match s.program? r.func r.handle, fr.wordAt fr.rn.word with
    | some p, some w =>
      if opOf w = some op ∧ r.started ∧ r.aborted = none ∧ r.starting = false ∧ r.endBeat = none ∧
          r.stopped = false ∧ fr.seq.state = .running ∧ fr.rn.wait = none ∧ fr.rn.issued = false ∧
          fr.rn.ended = false ∧ fr.rn.endIssued = false ∧ fr.rn.nextBeat = s.tally.count.toNat ∧
          f.val % s.adm.cur.phases ≤ s.adm.group ∧ s.waitsExpired r = false ∧
          ((op.engines.any fun e => fr.busy.contains e) = false) then
        some { r, p, w }
      else none
    | _, _ => none

/-- The frame goes on to a position: the word after `pc` in contexts `ctx`, `len` beats later. -/
def Frame.goTo (fr : Frame) (ctx : List Ctx) (pc len : Nat) (flt : Bool) (count : Nat) : Frame :=
  let p := normalize ctx pc
  { fr with
    rn := { fr.rn with word := p.2.1, ctx := p.1, nextBeat := count + len, held := false
                       issued := fr.rn.issued || len != 0 }
    seq := { fr.seq with floating := fr.seq.floating || flt || p.2.2 } }

/-- After an ordinary word, the next one in stream order, its nominal length later. -/
def State.next (s : State) (f : FrameNo) (w : BcWord) : State :=
  s.updFrame f fun fr => fr.goTo fr.rn.ctx (fr.rn.word + 1) (nominal w) (floats w) s.tally.count.toNat

/-- Effects for the next launch (R218). -/
def State.pend (s : State) (f : FrameNo) (ps : List Pend) : State :=
  s.updFrame f fun fr => { fr with rn := { fr.rn with pend := fr.rn.pend ++ ps } }

/-- The meaning of a beat-code row: the frame's word of that opcode issues. -/
def issueStep (s : State) (f : FrameNo) (op : Op) (g : Iss → State) : Host.Outcome State Fault Refusal :=
  match s.iss? f op with
  | some i => .next ((g i).next f i.w)
  | none => .next s

/-! ## Consuming poison -/

/-- A use of poison by run `r` at frame `f` (R110): the code it records, if any. -/
def State.consume (s : State) (r : Nat) (f : FrameNo) (ms : List Mark) : State :=
  match consumeAll ms r with
  | some c => s.fault r c f.val
  | none => s

/-- The scalars a word uses under R107, as poison marks. -/
def Frame.xMarks (fr : Frame) (xs : List Nat) : List Mark := xs.filterMap fun i => (fr.x i).poison

/-- A poisoned scalar that R107 uses as zero has been consumed: its mark is this run's from now on. -/
def State.useX (s : State) (f : FrameNo) (r : Nat) (xs : List Nat) : State :=
  let s' := s.consume r f ((s.frame f).xMarks xs)
  s'.updFrame f fun fr => xs.foldl (fun g i =>
    match (g.x i).poison with
    | some m => g.setX i { g.x i with poison := some { m with run := r } }
    | none => g) fr

/-! ## Reading sources as the launch left them -/

/-- A line as its memory port serves it now. -/
def State.memLine (s : State) (l : Nat) : RrcLine :=
  { line := l, cells := memSlice s.mem (l * 2048) 2048, mark := alGet s.poison l }

/-- A line is read at its port and filled into the cache of frame `f` (R339); the least recently used of 128 goes. -/
def State.fillLine (s : State) (f : FrameNo) (l : Nat) (fresh : Bool) : State :=
  let s := s.lineRead 1 (l * 2048) 2048
  s.updFrame f fun fr => { fr with
    rrc := ({ s.memLine l with fresh } :: fr.rrc).take 128
    reg := { fr.reg with rrcMisses := fr.reg.rrcMisses + 1 } }

/-- Lines of device memory read by an engine of frame `f` through its remote-read cache (R339): what it
holds is a hit, the rest are filled from their ports; the least recently used line goes. -/
def State.fetchLines (s : State) (f : FrameNo) : List Nat → State × List RrcLine
  | [] => (s, [])
  | l :: rest =>
    let s := s.checkCache f l
    match (s.frame f).rrc.find? (·.line == l) with
    | some c =>
      let c' := { c with fresh := false }
      let s := s.updFrame f fun fr => { fr with
        rrc := c' :: fr.rrc.filter (·.line != l)
        reg := { fr.reg with rrcHits := if c.fresh then fr.reg.rrcHits else fr.reg.rrcHits + 1 } }
      let r := s.fetchLines f rest
      (r.1, c' :: r.2)
    | none =>
      let s := s.fillLine f l false
      let r := s.fetchLines f rest
      (r.1, s.memLine l :: r.2)

/-- What an engine word reads through: its function, its run, whether it is sealed, and the lines of device
memory it has fetched. -/
structure Reader where
  func : FuncNo := 0
  run : Nat := 0
  isSealed : Bool := false
  lines : List RrcLine := []
  consts : List RrcLine := []

/-- The poison of a row or line as an engine meets it: its own, SEAL_VIOLATION for a refused read (R174),
or poison of no recorded cause for an address it may not reach (R31). -/
def State.engMark (s : State) (rd : Reader) (row : Nat) : Option Mark :=
  match rd.consts.find? (·.line == row) with
  | some c => c.mark
  | none =>
  match s.access rd.func rd.isSealed false false (row * 2048) with
  | .ok =>
    if row * 2048 < s.usable then (rd.lines.find? (·.line == row)).bind (·.mark)
    else alGet s.visPoison row
  | .sealViolation => some { cause := Codes.sealViolation, run := rd.run }
  | _ => some {}

/-- A byte as an engine reads it: zero where the read is refused. -/
def State.engByte (s : State) (rd : Reader) (a : Nat) : Byte :=
  match s.access rd.func rd.isSealed false false a with
  | .ok =>
    if a < s.usable then
      match rd.lines.find? (·.line == a / 2048) with
      | some c => memRead c.cells a
      | none => 0
    else memRead s.vis a
  | _ => 0

/-- A little-endian number of `k` bytes as an engine reads it. -/
def State.engNat (s : State) (rd : Reader) (a k : Nat) : Nat :=
  bytesToNat ((List.range k).map fun i => s.engByte rd (a + i))

/-- Word `j` of limb slot `i` of component `c` of an object. -/
def State.coef (s : State) (f : FrameNo) (rd : Reader) (d : Desc) (c i j : Nat) : Nat :=
  s.engNat rd (s.objAddr f d (coefOff d c i j)) 4

/-- A whole limb, reduced mod q (R79). -/
def State.limb (s : State) (f : FrameNo) (rd : Reader) (d : Desc) (c i q : Nat) : List Nat :=
  (List.range d.n).map fun j => s.coef f rd d c i j % q

/-- The rows of one limb. -/
def State.limbRows (s : State) (f : FrameNo) (d : Desc) (c i : Nat) : List Nat :=
  s.objRows f d (coefOff d c i 0) (d.n * 4)

/-- The component of a source that serves component `c` (R153, R584). -/
def srcComp (d : Desc) (c : Nat) : Nat := if d.comps ≤ 1 then 0 else c

/-- Element `k` of a TENSOR or integer PLAINTEXT as raw bits. -/
def State.elem (s : State) (f : FrameNo) (rd : Reader) (d : Desc) (k : Nat) : Nat :=
  match etypeBits d.etype with
  | 4 => (s.engByte rd (s.objAddr f d (k / 2))).toNat / (if k % 2 = 0 then 1 else 16) % 16
  | 8 => s.engNat rd (s.objAddr f d k) 1
  | 16 => s.engNat rd (s.objAddr f d (2 * k)) 2
  | _ => s.engNat rd (s.objAddr f d (4 * k)) 4

/-- The byte offset of element `k`. -/
def elemOff (bits k : Nat) : Nat := k * bits / 8

/-- The reader of an engine word over its source rows, with the device lines among them fetched, and the
fault of R174 where a read is refused. -/
def State.reader (s : State) (f : FrameNo) (r : Run) (isSealed : Bool) (rows : List Nat) : State × Reader :=
  let ok := rows.filter fun l => s.access (funcNo r.func) isSealed false false (l * 2048) == .ok
  let s := (ok.filter fun l => s.usable ≤ l * 2048).foldl (fun (s : State) l => s.checkSpad (l * 2048) 2048) s
  let x := s.fetchLines f (ok.filter fun l => l * 2048 < s.usable)
  let refused := rows.any fun l => s.access (funcNo r.func) isSealed false false (l * 2048) == .sealViolation
  let s1 := if refused then x.1.fault r.id Codes.sealViolation f.val else x.1
  (s1, { func := funcNo r.func, run := r.id, isSealed, lines := x.2 })

/-- The poison marks of rows. -/
def State.rowMarks (s : State) (rd : Reader) (rows : List Nat) : List Mark := rows.filterMap (s.engMark rd)

/-! ## What an operation writes -/

/-- Part of a destination: consecutive bytes, or one nibble of a byte, with the source rows that feed it,
and whether it is a public output (R173). -/
structure Chunk where
  addr : Nat := 0
  bytes : List Byte := []
  nib : Option (Nat × Bool) := none
  rows : List Nat := []
  pub : Bool := false

def chunkLen (c : Chunk) : Nat := if c.nib.isSome then 1 else c.bytes.length

/-- The nibbles that a chunk writes: a row is covered wholly by 4,096 of them (R108). -/
def chunkNibs (c : Chunk) : Nat := if c.nib.isSome then 1 else 2 * c.bytes.length

def cellsFrom : Nat → List Byte → List Host.Cell
  | _, [] => []
  | a, b :: bs => (a, b) :: cellsFrom (a + 1) bs

/-- The effects of an operation on memory; `dropped` lists the rows it may not write, with their codes. -/
structure Writes where
  cells : List Host.Cell := []
  nibs : List PWrite := []
  clears : List Nat := []
  marks : List (Nat × Mark) := []
  foot : List Nat := []
  dropped : List (Code × Nat) := []

/-- How an engine's write to a row is answered (R31, R174). -/
def State.writeOk (s : State) (rd : Reader) (pub : Bool) (row : Nat) : Access :=
  s.access rd.func rd.isSealed pub true (row * 2048)

/-- One destination row of an operation, from the chunks in it: poison that reached it, or its values. A
poisoned row's values are unspecified (R106): open bytes. -/
def State.rowWrites (s : State) (rd : Reader) (ctr : Nat) (row : Nat) (cs : List Chunk) : Writes :=
  match dropCode (s.writeOk rd (cs.any (·.pub)) row) with
  | some c => { foot := [], dropped := [(c, row)] }
  | none =>
    let ms := s.rowMarks rd (dedup (cs.flatMap (·.rows)))
    let n := (cs.map chunkNibs).sum
    if ms.isEmpty then
      { cells := cs.flatMap fun c => if c.nib.isSome then [] else cellsFrom c.addr c.bytes
        nibs := cs.filterMap fun c => c.nib.map fun p => { addr := c.addr, value := p.1, size := 0, hi := p.2 }
        clears := if n = 4096 then [row] else []
        foot := [row] }
    else
      { cells := cs.flatMap fun c => cellsFrom c.addr
          ((List.range (chunkLen c)).map fun i => Config.openByte ctr (c.addr + i))
        marks := [(row, markFrom ms rd.run)]
        foot := [row] }

def Writes.add (a b : Writes) : Writes := {
  cells := a.cells ++ b.cells, nibs := a.nibs ++ b.nibs, clears := a.clears ++ b.clears
  marks := a.marks ++ b.marks, foot := a.foot ++ b.foot, dropped := a.dropped ++ b.dropped }

/-- The effects of an operation whose destination rows each follow the rows that feed them (Lane Engine,
R106). -/
def State.laneWrites (s : State) (rd : Reader) (ctr : Nat) (cs : List Chunk) : Writes :=
  let rows := dedup (cs.map fun c => c.addr / 2048)
  rows.foldl (fun w row => w.add (s.rowWrites rd ctr row (cs.filter fun c => c.addr / 2048 == row))) {}

/-- The bytes of a row or line that lie within spans, with open values: what a poisoned row holds, confined to the
destination's footprint (R106). -/
def openRow (ctr : Nat) (spans : List (Nat × Nat)) (row : Nat) : List Host.Cell :=
  spans.flatMap fun p =>
    let lo := max p.1 (row * 2048)
    let hi := min (p.1 + p.2) ((row + 1) * 2048)
    cellsFrom lo ((List.range (hi - lo)).map fun i => Config.openByte ctr (lo + i))

/-- Rows poisoned wholly: a mark each, and open bytes. -/
def State.poisonRows (s : State) (rd : Reader) (pub : Bool) (ctr : Nat) (m : Mark) (spans : List (Nat × Nat))
    (rows : List Nat) : Writes :=
  rows.foldl (fun w row =>
    match dropCode (s.writeOk rd pub row) with
    | some c => w.add { dropped := [(c, row)] }
    | none => w.add { cells := openRow ctr spans row, marks := [(row, m)], foot := [row] }) {}

/-- The chunks of one limb, a row at a time: N words of the destination, each row of 512 fed by the source
rows that `src` names. -/
def State.limbChunks (s : State) (f : FrameNo) (d : Desc) (c i : Nat) (vals : List Nat)
    (src : Nat → List Nat) (pub : Bool := false) : List Chunk :=
  (List.range (ceilDiv d.n 512)).map fun k => {
    addr := s.objAddr f d (coefOff d c i (512 * k))
    bytes := ((vals.drop (512 * k)).take 512).flatMap (natToBytes 4)
    rows := src k, pub }

/-! ## Issue checks -/

/-- The destination descriptor with POISON set and nothing else changed but LEVEL, which a level that is
exhausted leaves at the source's (R97, R232, Table 3.15). -/
def failDesc (code : Code) (d src : Desc) (run : Nat) : Desc :=
  { d with mark := some { cause := code, run }, level := if code = Codes.levelExhausted then src.level else d.level }

/-- KEY_TAG_MISMATCH of R99 over the operands that carry a tag. -/
def tagBad (ds : List Desc) (bound : Nat) : Bool := ds.any fun d => d.tagged && d.keyTag != bound

/-- R98's first item over operands. -/
def ringDiff (a b : Desc) : Bool := a.logN != b.logN || a.pset != b.pset || a.scheme != b.scheme

/-- A scale out of range for a descriptor (R102). -/
def State.scaleBad (s : State) (d : Desc) (scale : Int) : Bool :=
  scale < 0 || 1048575 < scale || (s.log2Sum (s.pset d.pset) d.level : Int) - 256 < scale

/-- The budget of R103 for a class of the noise-cost table. -/
def noiseOf (p : Program) (cls : Nat) (srcs : List Desc) : Int :=
  let e := (p.noise.getD []).getD cls (0, 65535)
  let b := (srcs.filter (·.noisy)).foldl (fun (b : Nat) d => min b d.noise) 65535
  (min b e.2 : Nat) - (e.1 : Nat)

/-- The last two checks of R97 on a destination as derived, whose scale is given as an integer and whose
noise class, where the word carries one, is `cls` (R102, R103; `tolBad` is a breach of R161): the descriptor to write, and the code of
the check that failed. A destination that carries no SCALE has none to check (log entry 75). A scale no field can hold is written 0 below the range and is an open value above. -/
def State.closeDesc (s : State) (p : Program) (d : Desc) (scale : Int) (srcs : List Desc)
    (cls : Option Nat) (tolBad : Bool := false) : Desc × Option Code :=
  let bad := d.scaled && (tolBad || s.scaleBad d scale)
  let sc := if scale < 0 then 0 else if 1048575 < scale then (Config.openValue s.freeCtr).toNat % 2 ^ 20
    else scale.toNat
  let d := if d.scaled then { d with scale := sc } else d
  if bad then (d, some Codes.scaleRange)
  else
    match cls with
    | some k =>
      if d.noisy then
        let b := noiseOf p k srcs
        if b < 0 then ({ d with noise := 0 }, some Codes.noiseExhausted) else ({ d with noise := b.toNat }, none)
      else (d, none)
    | none => (d, none)

/-- A word's limbs within an object's active ones (R584). -/
def limbsBad (first l : Nat) (d : Desc) : Bool := l != 0 && d.level + d.special < first + l

/-- Components a word names against a source (R584). -/
def compsBad (first n : Nat) (d : Desc) : Bool := n != 0 && d.comps > 1 && d.comps < first + n

/-! ## Starting an operation -/

/-- An engine word that does nothing but occupy its engines (R16). -/
def State.startNothing (s : State) (f : FrameNo) (i : Iss) (op : Op) (pend : List Pend := []) : State :=
  let o : EngOp := {
    op := wCode i.w, engines := op.engines, lastBeat := s.tally.count.toNat + max 1 (wCost i.w) - 1
    run := i.r.id, pend }
  s.updFrame f fun fr => { fr with rn := { fr.rn with ops := fr.rn.ops ++ [o] } }

/-- An operation starts: it occupies its engines for COST beats and has its effects at its last. -/
def State.startOp (s : State) (f : FrameNo) (i : Iss) (op : Op) (wr : Writes) (dslots : List Nat)
    (pend : List Pend := []) (checked : Bool := false) (execFault : Option Code := none) (badLimb : Option Nat := none) :
    State :=
  let o : EngOp := {
    op := wCode i.w, engines := op.engines, lastBeat := s.tally.count.toNat + max 1 (wCost i.w) - 1
    run := i.r.id, cells := wr.cells, nibs := wr.nibs, clears := wr.clears, marks := wr.marks
    foot := dedup wr.foot, dslots, pend, checked, execFault, badLimb
    spans := dslots.flatMap fun k => s.footSpans f (slot (s.frame f).rn.dtab k) }
  let s := { s with freeCtr := s.freeCtr + 1 }
  let s := wr.dropped.foldl (fun (s : State) d =>
    (s.report i.r.id d.1 f.val).noteDrop f { beat := some o.lastBeat, addr := d.2 * 2048 }) s
  s.updFrame f fun fr => { fr with rn := { fr.rn with ops := fr.rn.ops ++ [o] } }

/-- One destination of an instruction: its slot, the descriptor as given and as derived. -/
structure Dest where
  slot : Nat := 0
  d : Desc := {}
  derived : Desc := {}
  pub : Bool := false

/-- What an instruction makes of its operands at issue: its destinations, the source whose LEVEL a failed
level check leaves, the source descriptors (R97), the first check that failed, the rows it reads and the
constant-area lines it reads. -/
structure Ops where
  dests : List Dest
  src : Desc
  descs : List Desc
  code : Option Code
  rows : List Nat
  consts : List Nat := []

/-- Lines of a prime set's constant area, read through the cache whatever the program's reach (R339). -/
def State.constLines (s : State) (f : FrameNo) (rd : Reader) (ls : List Nat) : State × Reader :=
  let x := s.fetchLines f ls
  (x.1, { rd with consts := x.2 })

/-- Poison that reached an instruction poisons these rows of its destinations, and leaves their
descriptors as `nd` makes them. `extra` is what the word writes in any case. -/
def State.startPoisoned (s : State) (f : FrameNo) (i : Iss) (op : Op) (x : Ops) (rd : Reader)
    (rows : Dest → List Nat) (pend : List Pend) (nd : Dest → Pend) (m : Mark) (extra : Writes := {}) : State :=
  let wr := x.dests.foldl (fun w d => w.add (s.poisonRows rd d.pub s.freeCtr m (s.footSpans f d.d) (rows d))) extra
  (s.startOp f i op wr (x.dests.map (·.slot)) pend).pend f (x.dests.map nd)

/-- What every engine word does with its operands (R97, R106): poisoned descriptors poison the destination
and no check runs; the first failed check poisons it and is recorded, a draw that the DRBG starved in the event log too
(R181, Table 15.3); otherwise `run` has the effects.
`rows` are the rows of a destination that the poison covers: those the word covers for a Lane Engine word,
the whole footprint for any other. `extra` is what the word writes in any case. -/
def State.startChecked (s : State) (f : FrameNo) (i : Iss) (op : Op) (x : Ops) (isSealed : Bool)
    (rows : Dest → List Nat) (pend : List Pend) (run : State → Reader → State) (extra : Writes := {}) : State :=
  let rd0 : Reader := { func := funcNo i.r.func, run := i.r.id, isSealed }
  let dms := x.descs.filterMap (·.mark)
  if !dms.isEmpty then
    let m := markFrom dms i.r.id
    (s.consume i.r.id f dms).startPoisoned f i op x rd0 rows pend (fun d => .descPoison d.slot m) m extra
  else
    match x.code with
    | some c =>
      let m : Mark := { cause := c, run := i.r.id }
      let nd (d : Dest) : Pend :=
        if c = Codes.scaleRange ∨ c = Codes.noiseExhausted then .desc d.slot { d.derived with mark := some m }
        else .desc d.slot (failDesc c d.d x.src i.r.id)
      let s := if c = Codes.entropyUnavailable then s.log c .frame { index := f.val, frame := some f.val, func := some i.r.func }
        else s
      (s.fault i.r.id c f.val).startPoisoned f i op x rd0 rows pend nd m extra
    | none =>
      let sr := s.reader f i.r isSealed x.rows
      let sc := sr.1.constLines f sr.2 x.consts
      run sc.1 sc.2

/-- A word of whose two counts one is zero does nothing, but what the other names is checked (R584; log entry 72):
`bad` is a breach, which poisons the destination, and these rows of it. -/
def State.startNamed (s : State) (f : FrameNo) (i : Iss) (op : Op) (bad : Bool) (d : Desc) (rows : List Nat)
    (pend : List Pend := []) : State :=
  if bad then
    let rd : Reader := { func := funcNo i.r.func, run := i.r.id }
    let x : Ops := { dests := [{ slot := wD i.w, d, derived := d }], src := d, descs := [], code := none, rows := [] }
    (s.fault i.r.id Codes.operandMismatch f.val).startPoisoned f i op x rd (fun _ => rows) pend
      (fun e => .desc e.slot (failDesc Codes.operandMismatch e.d d i.r.id)) { cause := Codes.operandMismatch, run := i.r.id }
  else s.startNothing f i op

/-- The issue of a whole-footprint instruction (R106): poison in any source row poisons every destination
wholly, its fields derived; else the chunks are written. `badLimb` is a checked limb that fails (R123). -/
def State.startWhole (s : State) (f : FrameNo) (i : Iss) (op : Op) (x : Ops)
    (chunks : State → Reader → List Chunk) (pend : List Pend := []) (checked : Bool := false)
    (badLimb : State → Reader → Option Nat := fun _ _ => none) : State :=
  let rows (d : Dest) : List Nat := s.footRows f d.d
  s.startChecked f i op x (x.descs.any (s.objSealed f)) rows pend fun s rd =>
    let ms := s.rowMarks rd x.rows ++ rd.consts.filterMap (·.mark)
    if !ms.isEmpty then
      let m := markFrom ms i.r.id
      (s.consume i.r.id f ms).startPoisoned f i op x rd rows pend
        (fun d => .desc d.slot { d.derived with mark := some m }) m
    else
      let wr := s.laneWrites rd s.freeCtr (chunks s rd)
      (s.startOp f i op wr (x.dests.map (·.slot)) pend checked (badLimb := badLimb s rd)).pend f
        (x.dests.map fun d => .desc d.slot { d.derived with mark := none })

/-- The derived fields copied from a source (R100). -/
def deriveFrom (d a : Desc) : Desc :=
  { d with level := a.level, special := a.special, comps := a.comps, domain := a.domain, form := a.form
           keyTag := a.keyTag, scale := a.scale, noise := a.noise }

/-- The first code of a list of checks in R97's order that fails. -/
def firstBad : List (Bool × Code) → Option Code
  | [] => none
  | (b, c) :: rest => if b then some c else firstBad rest

/-- The checks of R97 in order, the last two on the derived descriptor: the descriptor and the code. -/
def State.checkAll (s : State) (p : Program) (pre : List (Bool × Code)) (d : Desc) (scale : Int)
    (srcs : List Desc) (cls : Option Nat) (tolBad : Bool := false) : Desc × Option Code :=
  match firstBad pre with
  | some c => (d, some c)
  | none => s.closeDesc p d scale srcs cls tolBad

/-! ## Tensors -/

/-- Elements of `bits` bits packed from the lowest byte (R307). -/
def packElems (bits : Nat) (vs : List Nat) : List Byte :=
  match bits with
  | 4 => (List.range ((vs.length + 1) / 2)).map fun k =>
      BitVec.ofNat 8 (vs.getD (2 * k) 0 % 16 + 16 * (vs.getD (2 * k + 1) 0 % 16))
  | 8 => vs.map fun v => BitVec.ofNat 8 v
  | 16 => vs.flatMap (natToBytes 2)
  | _ => vs.flatMap (natToBytes 4)

/-- The chunks of a TENSOR's elements: a byte or more each, I4 two to a byte and an odd last one alone. -/
def State.tensorChunks (s : State) (f : FrameNo) (d : Desc) (vs : List Nat) (src : Nat → List Nat)
    (pub : Bool := false) : List Chunk :=
  let bits := etypeBits d.etype
  if bits = 4 then
    (List.range ((vs.length + 1) / 2)).map fun k =>
      if 2 * k + 1 < vs.length then
        { addr := s.objAddr f d k, bytes := packElems 4 [vs.getD (2 * k) 0, vs.getD (2 * k + 1) 0]
          rows := src (2 * k) ++ src (2 * k + 1), pub }
      else { addr := s.objAddr f d k, nib := some (vs.getD (2 * k) 0, false), rows := src (2 * k), pub }
  else
    (List.range vs.length).map fun k =>
      { addr := s.objAddr f d (elemOff bits k), bytes := natToBytes (bits / 8) (vs.getD k 0), rows := src k, pub }

/-- The row that holds element `k` of a TENSOR or integer PLAINTEXT. -/
def State.elemRow (s : State) (f : FrameNo) (d : Desc) (k : Nat) : Nat :=
  s.objAddr f d (elemOff (etypeBits d.etype) k) / 2048

end Sys2Proof.Machine
end

