-- ==== Sys2Proof/Machine/WordCheck.lean ====
section
/-!
DEFINITION. The checks of a word against its operands that the load makes (R249, orders 2 and 3) and the sequencer
makes again at issue (R252).
-/

namespace Sys2Proof.Machine

open Sys2Proof

/-- The devices of the beat group: the members that lie before and after this one along the ring of PORT_UP
(R68). -/
def State.groupHolds (s : State) (dev : Nat) : Bool :=
  let c := s.carry
  let t := s.tally
  let role := (c.ports[(⟨t.portUp.toNat, t.portUp.isLt⟩ : Fin 8)]).role.toNat
  if role = 0 then dev == c.self else
  let rd := c.roleDim role
  let stride := if 7 ≤ role then c.expStride.toNat else 1
  let at? (up : Bool) (k : Nat) : Option Nat := c.moved (c.coord c.self rd.1) rd.1 up (k * stride)
  let same := [0, 1, 2].all fun k => k == rd.1 || c.coord dev k == c.coord c.self k
  let x := c.coord dev rd.1
  dev == c.self || (same &&
    ((List.range (t.membersM1.toNat - t.memberIndex.toNat)).any (fun k => at? rd.2 (k + 1) == some x) ||
     (List.range t.memberIndex.toNat).any fun k => at? (!rd.2) (k + 1) == some x))

/-- The device a SYSTEM address names (R93). -/
def sysDev (d : Desc) : Nat := d.base / 2 ^ 48 % 4096

/-- R328 on a FLAG.REL of frame `f`. -/
def State.relBad (s : State) (p : Program) (f : FrameNo) (w : BcWord) : Bool :=
  let scope := fld w 122 3
  let remote := flag1 w 103
  let g := fld w 104 6
  (scope == 0 && (remote || g != f.val)) || (scope == 1 && (remote || g / 32 != f.val / 32)) ||
  (scope == 2 && remote) || (scope == 3 && !p.group) ||
  (scope == 3 && remote && !s.groupHolds (fld w 110 12))

/-- ACC into a RES32 TENSOR names a prime (R315). -/
def xferPrimed (x : XRec) (d : Desc) : Bool := x.kind != 4 && x.isAcc && d.kind == kTensor && d.etype == 1

/-- Order 2 checks that need the operands: LRED's COMP and LIMB on a flat source, an XFER's PRIME where no
RES32 TENSOR takes it, a zero multicast set (Tables 7.7, 9.4 and 6.3). -/
def Program.operandZeroBad (p : Program) (xtab : List XRec) (dt : List Desc) (w : BcWord) : Bool :=
  let a := slot dt (wA w)
  match opOf w with
  | some .lred => (a.kind == kTensor || a.intPlain) && (fld w 83 2 != 0 || fld w 85 7 != 0)
  | some .xfer =>
    match xtab[fld w 76 8]? with
    | some x => x.kind != 4 && x.prime != 0 && !xferPrimed x (slot dt (wD w))
    | none => false
  | some .kstream => (match p.msets with | some m => m.getD (fld w 101 4) 0 == 0 | none => false)
  | _ => false

/-- Order 3 checks that need the operands: an AUT's g of 2N or more, an ATOM's DUE, a FLAG.REL outside its
scope, an XFER's REC, a KSTREAM's ranges (R146, R328, Tables 6.3 and 7.9). A KSTREAM of COUNT 0 names no limb, and its
ranges are not checked (log entry 80). -/
def State.operandEncodingBad (s : State) (p : Program) (f : FrameNo) (xtab : List XRec) (dt : List Desc)
    (w : BcWord) : Bool :=
  let a := slot dt (wA w)
  match opOf w with
  | some .aut => decide (2 * a.n ≤ fld w 95 18)
  | some .atom => (a.location == 2) != (fld w 102 16 == 0)
  | some .flagRel => s.relBad p f w
  | some .xfer => decide (xtab.length ≤ fld w 76 8)
  | some .kstream =>
    let ps := s.pset a.pset
    fld w 86 7 != 0 && (ceilDiv a.level ps.alpha ≤ fld w 76 3 || a.level + a.special < fld w 79 7 + fld w 86 7)
  | _ => false

/-! ## The re-check at issue (R252) -/

/-- The descriptor slots that a word names. -/
def wordSlots (w : BcWord) : List Nat :=
  match rowOf w with
  | none => []
  | some r => (if r.d then [wD w] else []) ++ (if r.a then [wA w] else []) ++ (if r.b then [wB w] else []) ++
      if r.c then [wC w] else []

/-- Does a word read a descriptor that is poisoned? Then what its derived fields decide is not compared (R225). -/
def readsPoisoned (dt : List Desc) (w : BcWord) : Bool := (wordSlots w).any fun k => (slot dt k).mark.isSome

/-- The re-check of R252 on a word: its encoding and its COST. -/
def State.recheckBad (s : State) (f : FrameNo) (p : Program) (w : BcWord) : Bool :=
  let fr := s.frame f
  let poisoned := readsPoisoned fr.rn.dtab w
  wordReservedBad w || wordEncodingBad w || p.operandZeroBad fr.rn.xtab fr.rn.dtab w ||
    (!(poisoned && opOf w == some .kstream) && s.operandEncodingBad p f fr.rn.xtab fr.rn.dtab w) ||
    (!poisoned && wCost w != s.wordCost f p w)

/-- R252 on the words of one beat: each by itself, and their engines against those occupied and against
each other. -/
def State.wordsBad (s : State) (f : FrameNo) (p : Program) : List (Option BcWord) → List Engine → Bool
  | [], _ => false
  | none :: _, _ => false
  | some w :: rest, busy =>
    let e := ((opOf w).map Op.engines).getD []
    s.recheckBad f p w || e.any (busy.contains ·) || s.wordsBad f p rest (busy ++ e)

/-- A word that the frame issues, or a descriptor that it names, fails its parity (R485). -/
def State.parityBad (s : State) (f : FrameNo) : Bool :=
  let fr := s.frame f
  fr.nextPlaces.any fun i =>
    match fr.wordAt i with
    | some w => s.upsets.contains (.word f i) || (wordSlots w).any fun k => s.upsets.contains (.desc f k)
    | none => false

/-- What the sequencer finds wrong with the words of one beat as they issue (R252, R485). -/
def State.issueBad (s : State) (f : FrameNo) (p : Program) (busy : List Engine) : Bool :=
  s.wordsBad f p (s.frame f).nextWords busy || s.parityBad f

end Sys2Proof.Machine
end

