-- ==== Sys2Proof/Machine/Sequencer.lean ====
section
/-!
DEFINITION. Sequencer words (NOP, END, BR, LOOP, SOP, FLAG.SET, FLAG.WAIT, FLAG.ACQ, LDROP), the supply of
words (R251) and the ends of operations and of a frame's beat (R44, R111, R299).
-/

namespace Sys2Proof.Machine

open Sys2Proof

/-! ## Leaving a group, and an abort taken (R75, R480, R481) -/

/-- Condition 1: every active frame has signalled completion. -/
def State.completed (s : State) : Bool := s.frames.toList.all fun fr => !fr.active || fr.done

/-- The group left: STATE is NONE, and nothing of a formation or a junction is kept but tokens held early. -/
def Tally.left (t : Tally) : Tally :=
  { t with gstate := .none, leavePend := false, formSend := false, formReady := false, tokens := 0, tokenSent := false }

/-- A LEAVE takes effect once the beat in progress has completed (R75). -/
def State.settleLeave (s : State) : State :=
  if s.tally.leavePend && s.completed then { s with tally := s.tally.left } else s

/-- The descriptors of a frame after an abort: the destinations of its operations that still occupy their engines have
POISON set (R306). -/
def Frame.cutDescs (fr : Frame) : List Desc :=
  (fr.rn.ops.flatMap (·.dslots)).foldl (fun (dt : List Desc) i => dt.set i { slot dt i with mark := some {} }) fr.rn.dtab

/-- The abort taken: the frames of the run issue nothing more and hold no launch. -/
def State.quietAborted (s : State) : State :=
  s.mapFrames fun f fr =>
    match s.runOf f with
    | some r => if r.aborted.isSome then
        { fr with done := fr.active, rn := { fr.rn with issued := true, held := false, dtab := fr.cutDescs, wait :=
            match fr.rn.wait with | some w => if w.expired then none else some w | none => none } }
      else fr
    | none => fr

/-- A run leaves the group when it is aborted for another cause than 0x0304 (R481). -/
def State.leaveOnAbort (s : State) : State :=
  let left := s.runs.any fun r => r.group && r.residue && (match r.aborted with | some c => c != Codes.junctionExpired | none => false)
  if left && s.tally.gstate == .running then ({ s with tally := { s.tally with leavePend := true } } : State).settleLeave else s

/-! ## Words -/

/-- NOP: COST beats pass (Table 7.1). -/
def execNop (f : FrameNo) (s : State) : Host.Outcome State Fault Refusal :=
  issueStep s f .nop fun _ => s

/-- END: the last word of a stream (R246). -/
def execEndWord (f : FrameNo) (s : State) : Host.Outcome State Fault Refusal :=
  issueStep s f .endWord fun _ => s.updFrame f fun fr => { fr with rn := { fr.rn with endIssued := true } }

/-- Where a frame goes after a BR at its issue position: the chosen arm two beats later, or, where that arm
is empty, the join (R233, R234). -/
def Frame.branch (fr : Frame) (waits : List Nat) (w : BcWord) (count : Nat) : Frame :=
  let w0 := fld w 91 11
  let w1 := fld w 102 11
  let pc := fr.rn.word + 1
  let join := pc + w0 + w1
  let arm := brCond fr w
  let start := if arm then pc + w0 else pc
  let n := if arm then w1 else w0
  let either := floatsIn waits pc (w0 + w1)
  if n = 0 then fr.goTo fr.rn.ctx join (2 + fld w 113 15) either count
  else fr.goTo (.arm { endPc := start + n, joinPc := join, floats := either } :: fr.rn.ctx) start 2
    (floatsIn waits start n) count

/-- BR: the condition is tested as at the launch, a poisoned scalar as zero (R107, R233). -/
def execBr (f : FrameNo) (s : State) : Host.Outcome State Fault Refusal :=
  match s.iss? f .br with
  | some i =>
    .next ((s.useX f i.r.id (brReads i.w)).updFrame f fun fr => (s.frame f).branch (i.p.waitsOf f) i.w s.tally.count.toNat
      |> fun g => { g with scalars := fr.scalars })
  | none => .next s

/-- The iteration count of a LOOP: its immediate, or its scalar, 2^20 and above taken as 1,048,575, and
poison as zero (R235, R236, R107). -/
def Frame.loopCount (fr : Frame) (w : BcWord) : Nat :=
  if flag1 w 76 then fld w 77 20 else min (fr.xUse (fld w 77 5)).toNat 1048575

/-- Where a frame goes after a LOOP at its issue position (R235, R236). A body that is skipped lets nothing float (R242). -/
def Frame.enterLoop (fr : Frame) (waits : List Nat) (w : BcWord) (count : Nat) : Frame :=
  let c := fr.loopCount w
  let n := fld w 97 11
  let pc := fr.rn.word + 1
  if c = 0 ∨ n = 0 then fr.goTo fr.rn.ctx (pc + n) 1 (floats w) count
  else fr.goTo (.loop { bodyPc := pc, bodyW := n, left := c - 1, index := 0 } :: fr.rn.ctx) pc 1
    (floats w || floatsIn waits pc n) count

/-- LOOP: the count is latched at its issue (R236). -/
def execLoop (f : FrameNo) (s : State) : Host.Outcome State Fault Refusal :=
  match s.iss? f .loop with
  | some i =>
    .next ((s.useX f i.r.id (if flag1 i.w 76 then [] else [fld i.w 77 5])).updFrame f fun fr =>
      (s.frame f).enterLoop (i.p.waitsOf f) i.w s.tally.count.toNat |> fun g => { g with scalars := fr.scalars })
  | none => .next s

/-- The scalar a SOP writes: the result on the operands as they stand, and their poison, which is passed
on and not consumed (R228). -/
def Frame.sop (fr : Frame) (w : BcWord) : Scalar :=
  let imm := BitVec.ofNat 32 (fld w 96 32)
  let a := fr.x (fld w 85 5)
  let b := if flag1 w 95 then { value := imm } else fr.x (fld w 90 5)
  { value := sopResult (fld w 76 4) a.value b.value imm (BitVec.ofNat 32 (lidxOf fr.rn.ctx (fld w 96 32)))
    poison := (fr.xMarks (sopReads w)).head? }

/-- SOP: XD is written at the next launch (R228). -/
def execSop (f : FrameNo) (s : State) : Host.Outcome State Fault Refusal :=
  issueStep s f .sop fun i => s.pend f [.scalar (fld i.w 80 5) ((s.frame f).sop i.w)]

/-- The value a flag word names: an immediate, or a scalar with VREG set, zero where poisoned (R107). -/
def Frame.flagValue (fr : Frame) (vreg : Bool) (v : Nat) : Word :=
  if vreg then fr.xUse (v % 32) else BitVec.ofNat 32 v

/-- The scalar a flag word uses. -/
def flagReads (vreg : Bool) (v : Nat) : List Nat := if vreg then [v % 32] else []

/-- FLAG.SET: the flag is written at the next launch (R238). -/
def execFlagSet (f : FrameNo) (s : State) : Host.Outcome State Fault Refusal :=
  issueStep s f .flagSet fun i =>
    (s.useX f i.r.id (flagReads (flag1 i.w 84) (fld i.w 85 32))).pend f
      [.flag (fld i.w 76 8) ((s.frame f).flagValue (flag1 i.w 84) (fld i.w 85 32))]

/-- A wait begins (R239): the frame is WAITING until a launch satisfies it or T launches have passed. -/
def State.startWait (s : State) (f : FrameNo) (i : Iss) (acq : Bool) : State :=
  let v := (s.frame f).flagValue (flag1 i.w 84) (fld i.w 85 16)
  let wt : Wait := {
    flag := fld i.w 76 8, target := v.toNat, dec := flag1 i.w 101, acq
    issue := s.tally.count.toNat, timeout := fld i.w 102 25 }
  (s.useX f i.r.id (flagReads (flag1 i.w 84) (fld i.w 85 16))).updFrame f fun fr => { fr with
    rn := { fr.rn with wait := some wt }
    seq := { fr.seq with state := .waiting, waitFlag := BitVec.ofNat 8 wt.flag } }

/-- FLAG.WAIT (R239). -/
def execFlagWait (f : FrameNo) (s : State) : Host.Outcome State Fault Refusal :=
  issueStep s f .flagWait fun i => s.startWait f i false

/-- FLAG.ACQ: a wait that empties the remote-read cache when it succeeds (R239, R335). -/
def execFlagAcq (f : FrameNo) (s : State) : Host.Outcome State Fault Refusal :=
  issueStep s f .flagAcq fun i => s.startWait f i true

/-- WAIT_EXPIRED: at the launch of beat b + T the wait has not been satisfied, and the program is aborted
on all its frames (R239, R240). -/
def execWaitExpired (f : FrameNo) (s : State) : Host.Outcome State Fault Refusal :=
  match (s.frame f).rn.wait, s.runOf f with
  | some wt, some r =>
    if wt.expired then
      let expired (g : FrameNo) : Bool :=
        (s.frame g).rn.run == r.id && (match (s.frame g).rn.wait with | some x => x.expired | none => false)
      let s := (framesOf r.frames).foldl (fun s g =>
        if expired g then s.askAbort r.id g.val Codes.waitExpired else s) s
      let s := s.mapFrames fun g fr => if expired g then { fr with rn := { fr.rn with wait := none } } else fr
      .next ((s.updRun r.id fun r => r.takeAbort s.tally.count.toNat).quietAborted.leaveOnAbort)
    else .next s
  | _, _ => .next s

/-- LDROP: the destination takes the source's derived fields at a lower level, at the next launch (R232). -/
def State.ldropDesc (s : State) (p : Program) (bound : Nat) (d a : Desc) (target : Nat) : Desc × Option Code :=
  let e := { deriveFrom d a with level := target }
  s.checkAll p [(tagBad [a] bound, Codes.keyTagMismatch), (a.level < target, Codes.levelExhausted)]
    e a.scale [a] none

/-- LDROP (R232). -/
def execLdrop (f : FrameNo) (s : State) : Host.Outcome State Fault Refusal :=
  issueStep s f .ldrop fun i =>
    let dt := (s.frame f).rn.dtab
    let d := slot dt (wD i.w)
    let a := slot dt (wA i.w)
    match a.mark with
    | some m => (s.consume i.r.id f [m]).pend f [.descPoison (wD i.w) (markFrom [m] i.r.id)]
    | none =>
      match s.ldropDesc i.p i.r.keyTag d a (fld i.w 76 7) with
      | (e, none) => s.pend f [.desc (wD i.w) { e with mark := none }]
      | (e, some c) =>
        let nd := if c = Codes.scaleRange then { e with mark := some { cause := c, run := i.r.id } }
          else failDesc c d a i.r.id
        (s.fault i.r.id c f.val).pend f [.desc (wD i.w) nd]

/-! ## The supply of words -/

/-- The first word index that the window must keep: the issue position, or the first body word of the
outermost loop in progress (R251). -/
def keepFrom : List Ctx → Nat → Nat
  | [], pc => pc
  | .loop c :: rest, pc => keepFrom rest (min pc c.bodyPc)
  | .arm _ :: rest, pc => keepFrom rest pc

/-- Where the words of a queue ring's line from stream index `i` stand, to the end of the line or of the stream, and how
many they are. -/
def Frame.ringSpan (fr : Frame) (i : Nat) : Nat × Nat :=
  let ringLen := fr.seq.qringSize.toNat * 4096
  let off := if ringLen = 0 then 0 else (fr.rn.qoffset + i) % ringLen
  (fr.seq.qringBase.toNat * 65536 + off * 16, min (128 - off % 128) (fr.rn.words - i))

/-- Those words. -/
def State.ringWords (s : State) (fr : Frame) (i : Nat) : List BcWord :=
  let p := fr.ringSpan i
  (List.range p.2).map fun k => BitVec.ofNat 128 (memReadNat s.mem (p.1 + k * 16) 16)

/-- WORD_FETCH: the sequencer fetches its next line of words into its window of 4,096 (R251), with the first one the
tables that its program's start waits for (R219; log entry 83). The check of R252 as a word enters the window finds
nothing that the check at its issue does not: the window holds the word itself, and a word that fails either is told
of at the launch of the beat in which it would issue. -/
def execWordFetch (f : Met FrameNo) (s : State) : Host.Outcome State Fault Refusal :=
  let upsets := f.upsets
  let f := f.place
  let fr := s.frame f
  let keep := keepFrom fr.rn.ctx fr.rn.word
  let drop := keep - fr.rn.winBase
  let window := fr.rn.window.drop drop
  let base := max keep fr.rn.winBase
  let span := fr.ringSpan (base + window.length)
  let t := (s.upset upsets).lineRead 0 span.1 (span.2 * 16)
  let more := t.ringWords fr (base + window.length)
  guardStep (fr.rn.run != 0 && !fr.rn.ended && (!fr.rn.tables || !more.isEmpty) && window.length + more.length ≤ 4096) s
    (t.updFrame f fun fr => { fr with rn := { fr.rn with window := window ++ more, winBase := base, tables := true } })

/-! ## The end of an operation -/

/-- A line that the issuing frame itself wrote leaves its remote-read cache (R340). -/
def State.forget (s : State) (frame line : Nat) : State :=
  match frameNo? frame with
  | some f => s.updFrame f fun fr => { fr with rrc := fr.rrc.filter (·.line != line) }
  | none => s

/-- The part of an operation's writes that goes to device memory, at their homes (R344, R375, R405). A line that takes
them leaves the issuing frame's remote-read cache (R340). -/
def State.commitLines (s : State) (f : FrameNo) (o : EngOp) (lines : List Nat) : State :=
  lines.foldl (fun (s : State) l =>
    let r := s.lineArrive (o.cells.filter fun c => c.1 / 2048 == l) (o.nibs.filter fun w => w.addr / 2048 == l) (alGet o.marks l)
    let t := r.2.foldl (fun (s : State) c =>
      (s.event o.run c f.val).noteDrop f { beat := some o.lastBeat, addr := l * 2048 }) r.1
    if r.2.isEmpty then t.forget f.val l else t) s

/-- The memory effects of a finished operation: its bytes, the rows it clears (R108) and those it marks, the lines of
device memory that hold a spent TRIPLE among them (R180). -/
def State.commitOp (s : State) (f : FrameNo) (o : EngOp) : State :=
  let isMem (l : Nat) : Bool := l * 2048 < s.usable
  let t := { s with
    mem := writeNibs (memWriteCells s.mem (o.cells.filter fun c => !isMem (c.1 / 2048))) (o.nibs.filter fun w => !isMem (w.addr / 2048))
    poison := setMarks ((o.clears.filter fun l => !isMem l).foldl alErase s.poison) (o.marks.filter fun m => !isMem m.1 || !o.foot.contains m.1) }
  t.commitLines f o (o.foot.filter isMem)

/-- What a failed execution check leaves (R111, R123): the destination rows poisoned with open values, the
destination descriptors poisoned at the next launch. -/
def State.failOp (s : State) (f : FrameNo) (o : EngOp) (c : Code) : State :=
  let m : Mark := { cause := c, run := o.run }
  let s := { s with
    mem := memWriteCells s.mem (o.foot.flatMap (openRow s.freeCtr o.spans))
    freeCtr := s.freeCtr + 1
    poison := o.foot.foldl (fun p row => alSet p row m) s.poison }
  (s.fault o.run c f.val).pend f (o.dslots.map fun d => .descPoison d m)

/-- A count of check failures has reached CHECK_LIMIT, where that is not 0 (R483). -/
def State.atLimit (s : State) (n : BitVec 4) : Bool :=
  s.global.fault.checkLimit != 0 && s.global.fault.checkLimit.toNat ≤ n.toNat

/-- A transform check failure counts in FRM_HEALTH, is logged and notified, and at CHECK_LIMIT the frame is
to be fenced when its program ends (R123, R483, Table 15.3). -/
def State.countCheckFail (s : State) (f : FrameNo) (limb : Option Nat) : State :=
  let s := s.updFrame f fun fr =>
    let n := satInc fr.reg.checkFails
    { fr with
      reg := { fr.reg with checkFails := n }
      fencePend := fr.fencePend || s.atLimit n }
  let a : LogArgs := {
    index := f.val, frame := some f.val, func := (s.holder f).map (·.val)
    detail := limb.getD ((Config.openValue s.freeCtr).toNat % 128) }
  let s := { s with freeCtr := s.freeCtr + 1 }
  s.logNotice Codes.transformCheckFail .frame a

/-- An operation of frame `f` passes its last beat: its writes, then what its checks found (R111, R299). -/
def State.endOp (s : State) (f : FrameNo) (o : EngOp) (fail : Bool) : State :=
  let s := (s.commitOp f o).pend f o.pend
  if o.checked && (fail || o.badLimb.isSome) then (s.failOp f o Codes.transformCheckFail).countCheckFail f o.badLimb
  else match o.execFault with
    | some c => s.failOp f o c
    | none => s

/-- ENGINE_OPERATION_END: the first operation of frame `f` past its last beat, on the TE if `te`, on other
engines if not, ends, its frame's phase group having started (R455); one of an aborted program has stopped (R306). `fail`
is a mismatch of a checked limb's sums that comes from the engine itself; one that its words show is found besides (R123;
log entries 63 and 89). -/
def execEngineOperationEnd (f : FrameNo) (te fail : Bool) (s : State) : Host.Outcome State Fault Refusal :=
  let ops := (s.frame f).rn.ops
  let due (o : EngOp) : Bool := (o.engines == [.te]) == te &&
    (o.lastBeat < s.tally.count.toNat || (o.lastBeat == s.tally.count.toNat && f.val % s.adm.cur.phases ≤ s.adm.group))
  let stopped : Bool := match s.runOf f with
    | some r => r.aborted.isSome
    | none => false
  match (if s.powered f && !stopped then ops.find? due else none) with
  | some o =>
    let s := s.updFrame f fun fr => { fr with rn := { fr.rn with ops := fr.rn.ops.eraseP due } }
    .next (s.endOp f o fail)
  | none => .next s

/-- Frame `f` has done all its work of the beat in progress (R44): its words issued, its operations' steps
of the beat done, and its phase group started (R455). -/
def State.beatDone (s : State) (f : FrameNo) : Bool :=
  let fr := s.frame f
  fr.active && !fr.done && f.val % s.adm.cur.phases ≤ s.adm.group &&
    (fr.rn.issued || fr.rn.wait.isSome || fr.rn.endIssued || fr.rn.stopped) && !fr.rn.held &&
    fr.rn.ops.all fun o => s.tally.count.toNat < o.lastBeat

/-- FRAME_BEAT_COMPLETE: the frame signals completion of the beat to its die's tree (R44, R46). -/
def execFrameBeatComplete (f : FrameNo) (s : State) : Host.Outcome State Fault Refusal :=
  guardStep (s.beatDone f) s
    ({ s.updFrame f (fun fr => { fr with done := true }) with
       tally := { s.tally with lastDoneHeld := (s.frame f).rn.lastHeld } } : State).settleLeave

/-! ## BEAT_STOP -/

/-- The frames of a mask but one: their arms are replaced (R253). -/
def State.dropArms (s : State) (frames : BitVec 64) (keep : FrameNo) : State :=
  s.mapFrames fun g fr => if hasFrame frames g && g != keep then { fr with seq := { fr.seq with stopArm := false } } else fr

/-- The newest arm's place among the frames' arms. -/
def State.lastArm (s : State) : Nat := s.frames.toList.foldl (fun m fr => max m fr.seq.stopOrd) 0

/-- BEAT_STOP_ARM: a stop is armed at a program beat; one already passed sets MISSED and does nothing
else (R253). A new arm replaces a pending one, on whichever frame of the program that stands. -/
def execBeatStopArm (f : FrameNo) (beat : BitVec 48) (s : State) : Host.Outcome State Fault Refusal :=
  if !s.hostOk then .next s else
  let passed : Bool := match s.runOf f with
    | some r => r.started && r.endBeat.isNone && beat.toNat < s.progBeat r
    | none => false
  let t := s.updFrame f fun fr => { fr with
    seq := { fr.seq with stopBeat := beat, stopArm := true, stopOrd := s.lastArm + 1 } }
  let t := match s.runOf f with
    | some r => (t.dropArms r.frames f).updRun r.id fun r => { r with stopBeat := some beat.toNat }
    | none => t
  s.frmWrite f (if passed then s.updFrame f fun fr => { fr with seq := { fr.seq with stopMissed := true } } else t)

end Sys2Proof.Machine
end

