-- ==== Sys2Proof/Machine/Beat.lean ====
section
/-!
DEFINITION. The beat (chapter 2): the launch condition and what a launch does, admission (chapter 14), the
watchdog, the timebase and the mark, and beat groups with their junctions.
-/

namespace Sys2Proof.Machine

open Sys2Proof

/-! ## The launch condition (R48, R49) -/

/-- A run whose words issue: started, neither aborted, stopped nor ended. -/
def Run.live (r : Run) : Bool := r.started && r.aborted.isNone && r.endBeat.isNone && !r.stopped

/-- The next beat's number. -/
def State.nextCount (s : State) : Nat := s.tally.count.toNat + 1

/-- A transfer that condition 2 still waits for. -/
def Xfer.owes (x : Xfer) (next : Nat) : Bool :=
  match x.due with
  | some d => d ≤ next && !x.abandoned && x.result.isNone
  | none => false

/-- The window that the beat in progress ends, if it ends one (R70). -/
def State.closing (s : State) : Option Nat :=
  let g := s.tally.gbeat.toNat + 1
  let j := s.tally.j.toNat
  if s.tally.gstate = .running ∧ !s.tally.leavePend ∧ !s.tally.formReady ∧ j ≠ 0 ∧ g % j = 0 then some (g / j - 1) else none

/-- The other members, as a mask. -/
def Tally.others (t : Tally) : BitVec 16 :=
  (List.range 16).foldl (fun m i => if i ≤ t.membersM1.toNat ∧ i ≠ t.memberIndex.toNat then m ||| (1 <<< i) else m) 0

def Tally.tokensIn (t : Tally) : Bool := t.tokens &&& t.others == t.others

/-- Condition 2: due transfers landed, and at a window's end every token held and the own one sent (R49). -/
def State.landed (s : State) : Bool := s.xfers.all fun x => !x.owes s.nextCount

def State.junctionMet (s : State) : Bool :=
  match s.closing with
  | some _ => s.tally.tokensIn && s.tally.tokenSent
  | none => true

/-- A launch that a group-scoped run must start at (R72, R219). -/
def State.groupDue (s : State) (r : Run) : Bool :=
  r.group && !r.started && r.aborted.isNone && s.tally.gstate == .running && !s.tally.leavePend &&
    (if s.tally.formReady then r.startWindow == 0 else s.tally.gbeat.toNat + 1 == r.startWindow * s.tally.j.toNat)

/-- The watchdog has aborted the run, which releases it from the launch condition (R58). -/
def Run.released (r : Run) : Bool := r.aborts.any fun a => a.2 == Codes.beatWatchdog

/-- A frame holds what R219 asks for at the start of its program: its tables and its beat-0 words. -/
def Frame.startHeld (fr : Frame) : Bool := fr.rn.tables && (fr.rn.words == 0 || fr.nextWords.all (·.isSome))

/-- Condition 3 for one frame: the words it will issue, or would issue after its wait, are held (R220). -/
def State.supplied (s : State) (f : FrameNo) : Bool :=
  let fr := s.frame f
  match s.runOf f with
  | none => true
  | some r =>
    if r.released then true
    else if r.live then
      if fr.rn.ended || fr.rn.endIssued then true
      else if fr.rn.wait.isSome || fr.rn.nextBeat ≤ s.nextCount then fr.nextWords.all (·.isSome)
      else true
    else if s.groupDue r then !fr.reg.wiping && !fr.rn.zeroing && fr.startHeld
    else true

def State.suppliedAll (s : State) : Bool := (List.finRange 64).all s.supplied

/-- Effects of the last launch that are not made yet: starts, ends, expiries and residues. -/
def State.launchWork (s : State) : Bool :=
  (s.runs.any fun r => r.starting || r.residue) ||
  s.frames.toList.any fun fr => fr.rn.endMark || (match fr.rn.wait with | some w => w.expired | none => false)

/-- The launch condition, `ns` after the last launch, while nothing holds the Tally. -/
def State.canLaunch (s : State) (ns : Nat) : Bool :=
  s.tally.run && !s.adm.thermtrip && !s.global.fault.orphan && !s.launchWork &&
  s.completed && s.landed && s.junctionMet && s.suppliedAll && s.adm.grant.isSome &&
  s.tally.floorNow.toNat ≤ ns

/-! ## Charging (R53 to R55) -/

/-- The cause a beat is charged to: `last` is the set of conditions recorded as met last. -/
def State.chargeTo (s : State) (last : BitVec 8) : Nat :=
  if s.tally.heldInBeat then 7
  else
    let c := ((List.range 7).filter fun i => last.getLsbD i).foldl max 0
    if c = 1 ∨ c = 2 then
      (if s.tally.lastDoneHeld then 5 else if 1 < s.adm.cur.phases then 2 else 1)
    else c

/-- The index of a phase count among 1, 2, 4 and 8. -/
def phaseLog (p : Nat) : Nat := if p = 1 then 0 else if p = 2 then 1 else if p = 4 then 2 else 3

def bump (v : Vector (BitVec 64) 8) (i n : Nat) : Vector (BitVec 64) 8 :=
  if h : i < 8 then v.set i (v[i] + BitVec.ofNat 64 n) else v

def bump4 (v : Vector (BitVec 64) 4) (i : Nat) : Vector (BitVec 64) 4 := if h : i < 4 then v.set i (v[i] + 1) else v

/-- Formation tokens sent and every other member's held: RUNNING, and the next launch is group beat 0 (R69). -/
def Tally.formed (t : Tally) : Tally :=
  if t.gstate = .forming ∧ !t.formSend ∧ t.tokensIn then
    { t with gstate := .running, formReady := true, tokens := 0, tokenSent := false }
  else t

/-- The Tally's own registers at a launch. -/
def State.launchTally (s : State) (ns : Nat) (last : BitVec 8) : Tally :=
  let t := s.tally
  let c := s.chargeTo last
  let beats := if t.strClear then Vector.replicate 8 0 else t.strBeats
  let nss := if t.strClear then Vector.replicate 8 0 else t.strNs
  let newWindow := s.closing.isSome || t.formReady
  let w : Int := match s.closing with | some w => (w : Int) + 1 | none => 0
  let g := if t.gstate = .running then (if t.formReady then 0 else t.gbeat + 1) else t.gbeat
  let held := (t.early.filter fun e => e.2 == w).foldl (fun (m : BitVec 16) e => m ||| (1 <<< e.1)) 0
  let mark := t.markArmed && t.markBeat == t.count + 1
  let t' : Tally := { t with
    count := t.count + 1, strClear := false, heldInBeat := !t.run
    wdActed := false, lastDoneHeld := false, lastCause := BitVec.ofNat 3 c, floorNow := t.beatFloor
    strBeats := bump beats c 1, strNs := bump nss c (ns - t.floorNow.toNat)
    gbeat := g, formSend := false, formReady := false
    tokens := if t.formReady then t.tokens ||| held else if newWindow then held else t.tokens
    early := if newWindow then t.early.filter fun e => w < e.2 else t.early
    tokenSent := if newWindow then false else t.tokenSent
    markTs := if mark then t.tb else t.markTs
    markDone := t.markDone || mark
    markArmed := t.markArmed && !mark }
  if t.leavePend then t'.left else t'.formed

/-- The admission controller's registers at a launch: the grant comes into force (R453, R455, R457), and counts among those
of the last 100 µs (R503). -/
def State.launchAdmit (s : State) : Admit :=
  let a := s.adm
  let g := a.grant.getD {}
  let pb := if a.cntClear then Vector.replicate 4 0 else a.phaseBeats
  let tb := if a.cntClear then 0 else a.throttleBeats
  { a with
    cntClear := false, grant := none, cur := g, budgetNow := a.budget
    phaseBeats := bump4 pb (phaseLog g.phases)
    throttleBeats := if a.throttled then tb + 1 else tb
    aPrev := g.sums.foldl max 0
    grants := (s.tally.up, g.sums.sum) :: a.grants.filter fun p => s.tally.up < p.1 + 100000
    group := (g.sums.findIdx? (· != 0)).getD 0 }

/-- A split beat is logged at most once per 1 ms of timebase, with the count since (R457). -/
def State.logSplit (s : State) : State :=
  if s.adm.cur.phases ≤ 1 then s else
  let n := s.adm.splitSince + 1
  let due : Bool := match s.adm.splitLogUp with
    | none => true
    | some t => decide (t + 1000000 ≤ s.tally.up)
  if due then
    { s.log Codes.beatSplit .adm { detail := n } with
      adm := { s.adm with splitSince := 0, splitLogUp := some s.tally.up } }
  else { s with adm := { s.adm with splitSince := n } }

/-! ## What becomes visible (R51, R52, R218, R298) -/

def Frame.updRegion (fr : Frame) (n : Nat) (g : Region → Region) : Frame :=
  { fr with regions := fr.regions.map fun r => if r.number == n then g r else r }

/-- Tiles enter the slots from position `at_` on, and the tail advances by their number (R203). -/
def Ring.put (g : Ring) (at_ : Nat) (ts : List TileSlot) : Ring :=
  let slots := if g.slots.length < g.depth then g.slots ++ List.replicate (g.depth - g.slots.length) ({ } : TileSlot) else g.slots
  { g with
    slots := (ts.zipIdx).foldl (fun l t => l.set (if g.depth = 0 then 0 else (at_ + t.2) % g.depth) t.1) slots
    tail := g.tail + ts.length }

/-- A pending effect reaches the sequencer state it names (R218). -/
def Frame.applyPend (fr : Frame) : Pend → Frame
  | .scalar x v => fr.setX x v
  | .desc i d => { fr with rn := { fr.rn with dtab := fr.rn.dtab.set i d } }
  | .descPoison i m => { fr with rn := { fr.rn with dtab := fr.rn.dtab.set i { slot fr.rn.dtab i with mark := some m } } }
  | .descClean i => { fr with rn := { fr.rn with dtab := fr.rn.dtab.set i { slot fr.rn.dtab i with mark := none } } }
  | .flag i v => if h : i < 256 then { fr with flags := fr.flags.set i v } else fr
  | .lane fl => { fr with reg := { fr.reg with laneLast := fl, laneSticky := fr.reg.laneSticky ||| fl } }
  | .head n b => fr.updRegion n fun r => { r with head := r.head + BitVec.ofNat 32 b }
  | .tail n b => fr.updRegion n fun r => { r with tail := r.tail + BitVec.ofNat 32 b }
  | .freeTiles n k => fr.updRegion n fun r => { r with ring := r.ring.map fun g => { g with head := g.head + k } }
  | .tiles n k ts => fr.updRegion n fun r => { r with ring := r.ring.map fun g => g.put k ts }
  | .regenTiles n k => fr.updRegion n fun r => { r with ring := r.ring.map fun g =>
      { g with regen := max g.regen g.head + k } }

/-- The lane flags a pending list brings, for the completion (R436). -/
def pendLanes (ps : List Pend) : BitVec 3 :=
  ps.foldl (fun a p => match p with | .lane fl => a ||| fl | _ => a) 0

/-- Takes part in the completion tree from a launch on (R45). -/
def State.activeAt (s : State) (f : FrameNo) : Bool :=
  s.usableFrame f && !((s.frame f).reg.wiping && (s.frame f).rn.run == 0)

/-- ATOM and SLD results whose due beat a launch begins (R230, R231): the window's results at its first
beat. -/
def Xfer.resultAt (x : Xfer) (count : Nat) (window : Option Nat) : Option Scalar :=
  match x.result with
  | none => none
  | some v =>
    match x.due, x.window with
    | some d, _ => if d = count then some v else none
    | none, some w => (match window with | some c => if w ≤ c then some v else none | none => none)
    | none, none => none

/-- The wait of a frame is tested at a launch (R239, R336): satisfied, not yet, or expired. -/
def Frame.testWait (fr : Frame) (count : Nat) : Frame :=
  match fr.rn.wait with
  | none => fr
  | some w =>
    if h : w.flag < 256 then
      let v := fr.flags[w.flag]
      if w.target ≤ v.toNat then
        { fr with
          flags := if w.dec then fr.flags.set w.flag (v - BitVec.ofNat 32 w.target) else fr.flags
          rrc := if w.acq then [] else fr.rrc
          rn := { fr.rn with wait := none, nextBeat := count, issued := false }
          seq := { fr.seq with state := .running } }
      else if w.issue + w.timeout ≤ count then
        { fr with rn := { fr.rn with wait := some { w with expired := true } } }
      else fr
    else fr

/-- A frame at a launch: its pending effects, its due results, then its wait. -/
def State.launchFrame (s : State) (window : Option Nat) (f : FrameNo) : Frame :=
  let fr := s.frame f
  let count := s.tally.count.toNat
  let fr := fr.rn.pend.foldl Frame.applyPend fr
  let fr := s.xfers.foldl (fun (g : Frame) x =>
    if x.frame == f.val && x.run == fr.rn.run then (match x.resultAt count window with | some v => g.setX x.xd v | none => g) else g) fr
  let live := match s.runOf f with | some r => r.live | none => false
  let fr := { fr with
    active := s.activeAt f, done := false
    rn := { fr.rn with
      pend := [], feeds := fr.rn.feeds.filter fun p => count < p.2, lastHeld := false, issued := !(live && fr.rn.nextBeat == count && fr.rn.wait.isNone && !fr.rn.endIssued) } }
  if live then fr.testWait count else fr

/-! ## Aborts and stops at a launch (R252, R254, R480) -/

/-- The bytes a transfer's local writes put at its homes (ACC adds apart). -/
def Xfer.cells (x : Xfer) : List Host.Cell := x.writes.flatMap fun w => cellsFrom w.addr (natToBytes w.size w.value)

/-- What poisoned rows hold where they would have been written: open values (R106). -/
def openCells (ctr : Nat) (cs : List Host.Cell) : List Host.Cell := cs.map fun c => (c.1, Config.openByte ctr c.1)

/-- Expired waits count among the causes of an abort taken at the same launch (R240, R480). -/
def State.expiredCauses (s : State) (r : Run) : List (Nat × Code) :=
  (framesOf r.frames).filterMap fun f =>
    match (s.frame f).rn.wait with
    | some w => if w.expired && (s.frame f).rn.run == r.id then some (f.val, Codes.waitExpired) else none
    | none => none

/-- The next launch aborts every program with a frame in a domain that a forced gate has still to take to RETAIN (R463). -/
def State.gateRuns (s : State) : State :=
  (List.finRange 64).foldl (fun (s : State) f =>
    match s.runOf f with
    | some r => if s.adm.forcedPend.contains (s.domainOf f) && r.aborted.isNone then s.askAbort r.id f.val Codes.forcedGate else s
    | none => s) s

/-- The causes asked for take effect (R480). -/
def State.takeAborts (s : State) : State :=
  let count := s.tally.count.toNat
  let s := { s with runs := s.runs.map fun (r : Run) =>
    if r.aborts.isEmpty then r else ({ r with aborts := r.aborts ++ s.expiredCauses r }).takeAbort count }
  s.quietAborted.leaveOnAbort

/-- R252 and R485 on the words that the frames issue in the beat just begun. -/
def State.recheck (s : State) : State :=
  (List.finRange 64).foldl (fun (s : State) f =>
    let fr := s.frame f
    match s.runOf f with
    | some r =>
      if r.live && !fr.rn.issued && fr.seq.state == .running then
        (match s.program? r.func r.handle with
        | some p => if s.issueBad f p fr.busy then s.askAbort r.id f.val Codes.issueCheckFail else s
        | none => s)
      else s
    | none => s) s

/-- The parts of programs that end at the launch (R246). -/
def State.markEnds (s : State) : State :=
  s.mapFrames fun f fr =>
    match s.runOf f with
    | some r =>
      if r.live && fr.rn.endIssued && !fr.rn.ended && fr.rn.ops.isEmpty &&
          !(s.xfers.any fun x => x.frame == f.val && x.run == r.id && x.result.isNone && !x.abandoned) then
        { fr with rn := { fr.rn with endMark := true } }
      else fr
    | none => fr

/-- Every frame of a run holds what R219 asks for, and no wipe or zeroing holds its start (R294, R295). -/
def State.startReady (s : State) (r : Run) : Bool :=
  (framesOf r.frames).all fun f =>
    let fr := s.frame f
    fr.rn.run == r.id && !fr.reg.wiping && !fr.rn.zeroing && fr.startHeld

/-- The runs that start at the launch (R72, R219). -/
def State.markStarts (s : State) (groupRuns : List Nat) : State :=
  let starts (r : Run) : Bool :=
    !r.started && r.aborted.isNone && r.endBeat.isNone &&
      (if r.group then groupRuns.contains r.id else s.startReady r)
  let ids := (s.runs.filter starts).map (·.id)
  let count := s.tally.count.toNat
  let s := { s with runs := s.runs.map fun (r : Run) => if ids.contains r.id then { r with starting := true, startBeat := count } else r }
  s.mapFrames fun f fr =>
    if ids.contains fr.rn.run && fr.rn.run != 0 && hasFrame (((s.run? fr.rn.run).map (·.frames)).getD 0) f then
      { fr with rn := { fr.rn with issued := false, nextBeat := count } }
    else fr

/-- An active frame that runs no program completes the beat at once (R45), and the program beat counts. -/
def State.markIdle (s : State) : State :=
  s.mapFrames fun f fr =>
    let busy := match s.runOf f with
      | some r => (r.live && !fr.rn.ended) || r.starting
      | none => false
    { fr with
      done := if fr.active then !busy || fr.done else false
      seq := match s.runOf f with
        | some r => if r.live && !fr.rn.ended then { fr.seq with pbeat := BitVec.ofNat 64 (s.progBeat r) } else fr.seq
        | none => fr.seq }

/-- A junction or formation token (R414). -/
def tokenPacket (t : Tally) (self dst origin hops : Nat) (window : Int) : Packet := {
  ptype := tJunction, dst, src := self, siod := true
  addr := t.groupId.toNat + t.j.toNat * 2 ^ 8 + origin * 2 ^ 24 + hops * 2 ^ 28
  ext := natToBytes 8 (unsignedOf 64 window) }

/-- Hops of an own token toward index + 1, and toward index − 1 (R414). -/
def Tally.hopsUp (t : Tally) : Nat :=
  if t.closed then (t.membersM1.toNat + 1) / 2 else t.membersM1.toNat - t.memberIndex.toNat

def Tally.hopsDown (t : Tally) : Nat :=
  if t.closed then t.membersM1.toNat - (t.membersM1.toNat + 1) / 2 else t.memberIndex.toNat

def portOf (p : BitVec 3) : Fin 8 := ⟨p.toNat, p.isLt⟩

/-- Own tokens for a window go both ways (R69, R70). -/
def State.sendTokens (s : State) (window : Int) : State :=
  let t := s.tally
  let go (s : State) (p : BitVec 3) (hops : Nat) : State :=
    if hops = 0 then s
    else s.enqueue (portOf p) (tokenPacket t s.carry.self s.carry.ports[portOf p].peerDev.toNat t.memberIndex.toNat hops window)
  go (go s t.portUp t.hopsUp) t.portDown t.hopsDown

/-- The lane flags that the launch makes visible enter their runs (R436). -/
def State.gatherLanes (s : State) : State :=
  { s with runs := s.runs.map fun r =>
    { r with lflags := (framesOf r.frames).foldl (fun a f =>
        if (s.frame f).rn.run == r.id then a ||| pendLanes (s.frame f).rn.pend else a) r.lflags } }

/-! ## Admission (R451 to R455) -/

/-- The weight of an engine (Table 14.1). -/
def engineAu : Engine → Nat
  | .te => 16 | .be => 20 | .le => 8 | .pu => 6 | .ksy => 6

/-- A transfer holds up the end of its frame's part no longer at launch `next`: it has landed but for a result that waits,
is due by then, or is abandoned (R58, R246). -/
def Xfer.ends (x : Xfer) (next : Nat) : Bool :=
  x.result.isSome || x.abandoned || (match x.due with | some d => decide (d ≤ next) | none => false)

/-- The declaration of a frame for the next beat (R451, R452): nothing where its part ends at that launch (R246), and a
Feeder for as long as the schedule has a transfer on it, landed early or not. -/
def State.declOf (s : State) (f : FrameNo) : Nat :=
  let fr := s.frame f
  let next := s.nextCount
  match s.runOf f with
  | none => 0
  | some r =>
    let starting := !r.started && r.aborted.isNone && (if r.group then s.groupDue r else s.startReady r)
    let ending := fr.rn.endIssued && (fr.rn.ops.all fun o => o.lastBeat < next) &&
      s.xfers.all fun x => x.frame != f.val || x.run != r.id || x.ends next
    if !fr.active || fr.rn.ended || !(r.live || starting) || ending || (starting && fr.rn.words == 0) then 0
    else
      let words : List BcWord :=
        if starting || fr.rn.wait.isSome || (fr.rn.nextBeat == next && !fr.rn.endIssued) then fr.nextWords.filterMap id else []
      let engines := (fr.rn.ops.filter fun o => next ≤ o.lastBeat).flatMap (·.engines) ++
        words.flatMap fun w => ((opOf w).map Op.engines).getD []
      let feeders := (words.filter fun w => 8 ≤ wEngine w).map (fun w => wEngine w - 8) ++
        (fr.rn.feeds.filter fun p => next < p.2).map (·.1)
      2 + ((([.te, .be, .le, .pu, .ksy] : List Engine).filter fun e => engines.contains e).map engineAu).sum +
        2 * ((List.range 4).filter fun i => feeders.contains i).length

/-- The effective budget (R453). -/
def Admit.effective (a : Admit) : Nat :=
  let inForce := if a.stale then a.fallback.toNat else a.budgetNow.toNat
  let base := if a.fixed then a.cap.toNat else min inForce a.cap.toNat
  let base := if a.throttled then base * a.throttleNum.toNat / 16 else base
  if a.rampEn then min base (max (2 * a.aPrev) a.rampFloor.toNat) else base

/-- Phase sums of declarations for P groups (R454). -/
def phaseSums (decls : List Nat) (p : Nat) : List Nat :=
  (List.range p).map fun j => (decls.zipIdx.filter fun d => d.2 % p = j).map (·.1) |>.sum

/-- The grant for declarations and a budget (R454, R59). -/
def grantFor (decls : List Nat) (e : Nat) : Grant :=
  let fits (p : Nat) : Bool := (phaseSums decls p).all (· ≤ e)
  let p := if fits 1 then 1 else if fits 2 then 2 else if fits 4 then 4 else 8
  { phases := p, e, sums := phaseSums decls p }

/-- A sequencer can declare: its words of the beat have issued and its next ones are held (R452). -/
def State.canDeclare (s : State) (f : FrameNo) : Bool :=
  let fr := s.frame f
  !fr.active || (match s.runOf f with | some r => !r.live | none => true) || fr.rn.ended || fr.rn.endIssued ||
    fr.rn.wait.isSome || fr.rn.issued

/-- ADMISSION_GRANT: the controller grants the next beat in the smallest split that fits (R454). -/
def execAdmissionGrant (s : State) : Host.Outcome State Fault Refusal :=
  let decls := (List.finRange 64).map s.declOf
  let g := grantFor decls s.adm.effective
  guardStep (s.adm.grant.isNone && !s.launchWork && s.suppliedAll && (List.finRange 64).all s.canDeclare) s
    { (s.mapFrames fun f fr => { fr with decl := s.declOf f }) with
      adm := { s.adm with
        grant := some g, lastE := BitVec.ofNat 16 g.e, lastP := BitVec.ofNat 2 (phaseLog g.phases)
        declPeak := BitVec.ofNat 16 (max s.adm.declPeak.toNat decls.sum) } }

/-- The next phase group with a nonzero sum after a group. -/
def nextGroup (sums : List Nat) (j : Nat) : Option Nat :=
  (List.range sums.length).find? fun k => j < k && sums.getD k 0 != 0

/-- PHASE_GROUP_START: the groups so far have completed, and the next group that has work begins (R455). -/
def execPhaseGroupStart (s : State) : Host.Outcome State Fault Refusal :=
  let a := s.adm
  let prevDone := (List.finRange 64).all fun f =>
    let fr := s.frame f
    !fr.active || fr.done || decide (a.group < f.val % a.cur.phases)
  match nextGroup a.cur.sums a.group with
  | some k => guardStep prevDone s { s with adm := { a with group := k } }
  | none => guardStep (prevDone && a.group + 1 < a.cur.phases) s { s with adm := { a with group := a.cur.phases - 1 } }

/-! ## Watchdog (R57, R58) -/

/-- A frame is fenced (R486): it leaves the completion tree, the fence is logged, and its physical frame takes no other's
place (R489). -/
def State.fence (s : State) (f : FrameNo) (cause : BitVec 2) (code : Code) : State :=
  let s := s.updFrame f fun fr => { fr with
    seq := { fr.seq with state := .fenced }
    reg := { fr.reg with fenceCause := cause }
    active := false, done := false, decl := 0, fencePend := false }
  let phys := dieOf f * 34 + (s.frame f).seq.phys.toNat
  let s := { s with
    xfers := s.xfers.filter fun x => x.frame != f.val || x.flying
    global := { s.global with fault := { s.global.fault with fencedPhys := s.global.fault.fencedPhys ++ [phys] } }
    boot := { s.boot with fencedLog := s.boot.fencedLog ++ [phys] } }
  s.log code .frame { index := f.val, frame := some f.val, func := (s.holder f).map (·.val), persist := true }

/-- CHECK_LIMIT is written: a frame whose count has reached it is fenced at the end of its program, or at once without one
(R483). -/
def State.checkFences (s : State) : State :=
  (List.finRange 64).foldl (fun (s : State) f =>
    let fr := s.frame f
    if !s.atLimit fr.reg.checkFails || fr.gone then s
    else if fr.rn.run = 0 then s.fence f 2 Codes.transformCheckFail
    else s.updFrame f fun fr => { fr with fencePend := true }) s

/-- Tiles that a frame's ring will still take: landed and not yet visible, or under way. -/
def State.tilesAhead (s : State) (g : FrameNo) (ring : Nat) : Nat :=
  let n (p : Pend) : Nat := match p with | .tiles r _ ts => if r = ring then ts.length else 0 | _ => 0
  ((s.frame g).rn.pend.map n).sum +
    (s.xfers.map fun x => (x.pends.map fun p => if p.1 = g.val then n p.2 else 0).sum).sum

/-- The rings that take the tiles of a KSTREAM, each with its region and the tail position its first tile takes
(R203). -/
def State.keyRings (s : State) (mask : BitVec 64) (ring : Nat) : List (FrameNo × Region × Ring × Nat) :=
  (framesOf mask).filterMap fun g =>
    ((s.frame g).region? ring).bind fun r => r.ring.map fun rg => (g, r, rg, rg.tail + s.tilesAhead g ring)

/-- The slot state that the tiles of a KSTREAM leave (R201). -/
def State.keyTiles (s : State) (key : Nat) (d : Desc) (digit first count : Nat) (seed : List Byte) : List TileSlot :=
  (List.range count).map fun k =>
    let e := first + k
    { digit, limb := e, key, seed, pos := limbPos d.level e, q := (s.primeAt (s.pset d.pset) (limbPos d.level e)).q.toNat }

/-- The tiles of a KSTREAM as they stand in every receiving ring, by frame. -/
def keyPends (rings : List (FrameNo × Region × Ring × Nat)) (ring : Nat) (ts : List TileSlot) : List (Nat × Pend) :=
  rings.map fun q => (q.1.val, Pend.tiles ring q.2.2.2 ts)

/-- The first byte of tile `k` in a ring. -/
def ringTile (d : Desc) (q : FrameNo × Region × Ring × Nat) (k : Nat) : Nat :=
  spadAddr q.1 (q.2.1.originRow * 2048 + (if q.2.2.1.depth = 0 then 0 else (q.2.2.2 + k) % q.2.2.1.depth) * (8 * d.n))

/-- A KSTREAM that has not read its key, as if it had: the rows and slots its tiles take. -/
def State.unreadKeys (s : State) (x : Xfer) : Xfer :=
  match x.move with
  | some (.keys k d g e n r _) =>
    let rings := s.keyRings x.mask r
    { x with
      move := none
      pends := keyPends rings r (s.keyTiles k d g e n [])
      foot := rings.flatMap fun q => (List.range n).flatMap fun k =>
        linesOf (ringTile d q k) ((if d.keyform = 1 then 4 else 8) * d.n) }
  | _ => x

/-- The rows and lines of a transfer that is cancelled or abandoned are poisoned (R58, R306), those of a KSTREAM that has
not read its key too. -/
def State.poisonXfer (s : State) (x : Xfer) : State :=
  let x := s.unreadKeys x
  let rows := x.foot.filter (s.wouldWrite x)
  { s with
    mem := memWriteCells s.mem (openCells s.freeCtr (x.cells.filter fun c => rows.contains (c.1 / 2048)))
    freeCtr := s.freeCtr + 1
    poison := setMarks s.poison (rows.map fun r => (r, ({} : Mark))) }

/-- Transfers are cancelled: the tiles of each KSTREAM among them take their places after those before it, and everything
the transfers would write is poisoned (R306). -/
def State.cancel (s : State) (p : Xfer → Bool) : State :=
  let s := (s.xfers.filter p).foldl (fun (s : State) x => s.updXfer x.id fun y => s.unreadKeys y) s
  let s := (s.xfers.filter p).foldl (fun (s : State) x => s.poisonXfer x) s
  { s with xfers := s.xfers.filter fun x => !p x }

/-- What an abandoned transfer would have written, where no poison stands in its place, is dropped (R332): writes that
their homes refuse, and rows for other devices that have not been sent; one that has been sent waits for its answer. -/
def State.abandonDrops (s : State) (x : Xfer) : State :=
  let away (d : Option Nat) : Bool := match d with | some v => v != s.carry.self | none => false
  let far : List (Option Nat × Nat) :=
    if x.kind = .atom then [(x.device, x.addr)]
    else if x.move.isSome then x.dests.filter fun d => away d.1
    else (x.rows.filter fun r => away r.dev && !r.sent).map fun r => (r.dev, r.addr)
  let here := (x.foot.filter fun l => !s.wouldWrite x l).map fun l => ((none : Option Nat), l * 2048)
  (here ++ far).foldl (fun (s : State) d => s.dropOf x d.1 d.2) s

/-- A due transfer that has not landed is abandoned (R58, R230). The positions of a key ring follow the schedule all the
same: the tiles of an abandoned KSTREAM take their slots, poisoned (R208, R214). What its neighbours have still to answer
keeps its place until then. -/
def State.abandon (s : State) (x : Xfer) : State :=
  let s := s.report x.run Codes.lostWrite x.frame
  if x.kind = .atom ∨ x.kind = .sld then
    (if x.kind = .atom ∧ !x.sent then s.abandonDrops x else s).updXfer x.id fun x =>
      { x with abandoned := true, result := some { poison := some {} } }
  else
    let x := s.unreadKeys x
    let s := s.abandonDrops x
    let waits := x.rows.filter (·.sent)
    let t := s.poisonXfer x
    let t := if waits.isEmpty then t.dropXfer x.id else t.updXfer x.id fun x => { x with
      abandoned := true, move := none, reads := [], writes := [], accs := [], pends := [], remTail := none, foot := []
      rows := waits }
    x.pends.foldl (fun (s : State) p =>
      match frameNo? p.1, p.2 with
      | some g, .tiles r k ts => s.pend g [.tiles r k ts]
      | _, _ => s) t

/-- A run that the watchdog aborts is released at once from the launch condition (R58). -/
def State.watchdogAbort (s : State) (id frame cond : Nat) : State :=
  let s := s.askAbort id frame Codes.beatWatchdog
  let a : LogArgs := { index := frame, frame := some frame, func := (s.run? id).map (·.func), detail := cond }
  let s := s.logNotice Codes.beatWatchdog .tally a
  let lost (x : Xfer) : Bool := x.run == id && !x.flying && x.result.isNone
  let s := s.cancel lost
  let late (fr : Frame) : Bool := fr.rn.run == id && fr.active && !fr.done
  let s := { s with
    tally := { s.tally with lastDoneHeld :=
      if s.frames.toList.any late then s.frames.toList.any fun fr => late fr && (fr.rn.held || fr.rn.lastHeld)
      else s.tally.lastDoneHeld } }
  s.mapFrames fun _ fr =>
    if fr.rn.run == id then { fr with done := fr.active, rn := { fr.rn with held := false, issued := true } } else fr

/-- The watchdog acts on one frame's conditions as they stood unmet in state `was` (Table 2.5). -/
def State.watchFrame (was s : State) (f : FrameNo) : State :=
  let fr := was.frame f
  let run := fr.rn.run
  if fr.active && !fr.done then
    if fr.rn.held then s.watchdogAbort run f.val 1
    else (s.watchdogAbort run f.val 1).fence f 1 Codes.beatWatchdog
  else if !was.supplied f then s.watchdogAbort run f.val 3
  else s

/-- BEAT_WATCHDOG: a period has passed since the launch, and the Tally acts once on conditions 1 to 3 that
are still unmet (R58). -/
def execBeatWatchdog (s : State) : Host.Outcome State Fault Refusal :=
  let unmet := !s.completed || !s.landed || !s.suppliedAll
  if s.tally.run && !s.tally.wdActed && unmet then
    let late := s.xfers.filter fun x => x.owes s.nextCount
    let s := { s with tally := { s.tally with watchdogFired := true, wdActed := true } }
    let s := late.foldl (fun (s : State) x => s.abandon x) s
    .next ((List.finRange 64).foldl s.watchFrame s).settleLeave
  else .next s

/-! ## The Tally's controls -/

/-- TALLY_RUN: RUN is written; a hold lets the beat in progress complete (R60). -/
def execTallyRun (run : Bool) (s : State) : Host.Outcome State Fault Refusal :=
  if !s.hostOk then .next s else
  .next { s with tally := { s.tally with run, heldInBeat := s.tally.heldInBeat || !run } }

/-- TALLY_STATUS.HELD: RUN is 0 and the beat in progress has completed; before the first launch no beat is in
progress, and it reads its reset value 0. -/
def State.tallyHeld (s : State) : Bool := !s.tally.run && s.tally.count != 0 && s.completed

/-- TALLY_STATUS.RUNNING: beats are launching. -/
def State.tallyRunning (s : State) : Bool := s.tally.run && !s.adm.thermtrip && !s.global.fault.orphan

/-- STR_CLEAR: the stretch counters clear at the next launch (R55). -/
def execStrClear (s : State) : Host.Outcome State Fault Refusal :=
  if !s.hostOk then .next s else
  .next { s with tally := { s.tally with strClear := true } }

/-- MARK_ARM: the high word of TALLY_MARK_BEAT is written, which arms the mark (R67). -/
def execMarkArm (high : Word) (s : State) : Host.Outcome State Fault Refusal :=
  if !s.hostOk then .next s else
  let b : BitVec 64 := BitVec.ofNat 64 (high.toNat * 2 ^ 32 + s.tally.markBeat.toNat % 2 ^ 32)
  .next { s with tally :=
    if b.toNat ≤ s.tally.count.toNat then { s.tally with markBeat := b, markMissed := true, markArmed := false }
    else { s.tally with markBeat := b, markArmed := true } }

/-! ## Timebase and SYNC (R64 to R66, R571) -/

/-- The token rate is measured again where the timebase passes a multiple of 1 µs: its value is a free value
(TALLY_TOKEN_RATE, log entry 12). -/
def State.setTb (s : State) (t : Tally) : State :=
  if t.tb.toNat / 1000 = s.tally.tb.toNat / 1000 then { s with tally := t }
  else { s.openVal.2 with tally := { t with tokenRate := BitVec.setWidth 16 s.openVal.1 } }

/-- What goes on while no command waits: one nanosecond of the interpolation between two edges, or of the internal
oscillator in holdover (R64, R65), and a port in RETRAIN enters EQUALIZE (Table 12.12; log entry 64). -/
def State.tick (s : State) : State :=
  let s := { s with carry := { s.carry with ports := s.carry.ports.map Port.settle } }
  let t := s.tally
  if t.tbHoldover then s.setTb { t with tb := t.tb + 1, up := t.up + 1, holdNs := t.holdNs + 1 }
  else if t.tbFine < 39 then s.setTb { t with tb := t.tb + 1, up := t.up + 1, tbFine := t.tbFine + 1 }
  else s

/-- TB_LOCKED: within 2 ns of the reference (R65). -/
def tbNear (off : Int) : Bool := decide (-2 ≤ off) && decide (off ≤ 2)

/-- The slew that a reference edge makes: 1 ns in 25 edges, which is 1,000 ppm (R65). -/
def Tally.slew (t : Tally) : Int :=
  if tbNear t.tbOff ∨ t.slewEdges < 24 then 0 else if t.tbOff < 0 then 1 else -1

/-- The offset of the timebase from the reference after a holdover of `ns`: a free value within 200 ppm (R65). -/
def holdoverOff (ns : Nat) (v : BitVec 64) : Int :=
  let b := ns / 5000
  ((v.toNat % (2 * b + 1) : Nat) : Int) - b

/-- TIMEBASE_EDGE: a rising edge of TIMEBASE_IN: 40 ns after the last, less what has been interpolated (R64). The
first edge after a holdover steps nothing; from it on the timebase slews to the reference (R65). -/
def execTimebaseEdge (s : State) : Host.Outcome State Fault Refusal :=
  let t := s.tally
  if t.tbHoldover then
    let off := t.tbOff + holdoverOff t.holdNs s.openVal.1
    .next { s.openVal.2 with tally := { t with
      tbHoldover := false, tbFine := 0, tbOff := off, slewEdges := 0, holdNs := 0, tbLocked := tbNear off } }
  else
    let c := t.slew
    .next (s.setTb { t with
      tb := t.tb + BitVec.ofInt 64 (40 - t.tbFine + c), up := t.up + (40 - t.tbFine), tbFine := 0, tbOff := t.tbOff + c
      slewEdges := if tbNear t.tbOff ∨ 24 ≤ t.slewEdges then 0 else t.slewEdges + 1
      tbLocked := tbNear (t.tbOff + c) })

/-- TB_HOLDOVER: 160 ns without an edge (R65): the timebase runs on from the internal oscillator. -/
def execTbHoldover (s : State) : Host.Outcome State Fault Refusal :=
  let t := s.tally
  .next (if t.tbHoldover then s else
    s.setTb { t with
      tb := t.tb + BitVec.ofNat 64 (160 - t.tbFine), up := t.up + (160 - t.tbFine), tbFine := 0, holdNs := 0, tbLocked := false, tbHoldover := true })

/-- A load of the timebase (R66). -/
def Tally.loadTb (t : Tally) : Tally :=
  { t with
    tb := t.tbSet, tbOff := 0, slewEdges := 0, lastPulse := t.tbSet }

/-- SYNC_IN_EDGE: a rising edge of SYNC_IN; one within 1 µs after a counted edge is ignored (R66, R571). -/
def execSyncInEdge (s : State) : Host.Outcome State Fault Refusal :=
  let t := s.tally
  let ignored : Bool := match t.lastSync with
    | some e => decide (t.up < e + 1000)
    | none => false
  if ignored then .next s
  else
    let s := if t.syncOutMode = 1 then s.emit .syncOut else s
    let t := { t with
      syncCount := t.syncCount + 1
      capture := if t.syncMode = 1 then t.tb else t.capture
      lastSync := some t.up }
    .next (if t.loadArm then s.setTb { t.loadTb with loadArm := false } else { s with tally := t })

/-- LOAD_NOW: TB_SET is loaded at once (R66). -/
def execLoadNow (s : State) : Host.Outcome State Fault Refusal :=
  if !s.hostOk then .next s else
  .next (s.setTb s.tally.loadTb)

/-- LOAD_ARM: a load at the next counted edge (R66). -/
def execLoadArm (s : State) : Host.Outcome State Fault Refusal :=
  if !s.hostOk then .next s else
  .next { s with tally := { s.tally with loadArm := true } }

/-- SYNC_OUT_PERIODIC: the timebase crosses a multiple of the period (R571). -/
def execSyncOutPeriodic (s : State) : Host.Outcome State Fault Refusal :=
  let t := s.tally
  let p := t.period.toNat * 1000
  guardStep (t.syncOutMode == 2 && p != 0 && t.lastPulse.toNat / p < t.tb.toNat / p) s
    { s.emit .syncOut with tally := { t with lastPulse := t.tb } }

/-! ## Beat groups (R68 to R75, R414) -/

/-- FORM: formation begins: its tokens go out at the next launch, and tokens for window −1 that came before
count (R69). A token held early for a later window stays held through LEAVE and FORM (log entry 68). -/
def execForm (s : State) : Host.Outcome State Fault Refusal :=
  if !s.hostOk then .next s else
  let t := s.tally
  guardStep (t.gstate == .none) s { s with tally := { t with
    gstate := .forming, formSend := true, formReady := false, tokenSent := false
    tokens := (t.early.filter fun e => e.2 == -1).foldl (fun m e => m ||| (1 <<< e.1)) 0
    early := t.early.filter fun e => e.2 != -1 } }

/-- Every group-scoped program of the device is asked to abort with 0x0304 (R73, R75). -/
def State.abortGroup (s : State) : State :=
  s.runs.foldl (fun (s : State) r => if r.group then s.askAbort r.id (((framesOf r.frames).head?.map (·.val)).getD 0) Codes.junctionExpired else s) s

/-- LEAVE: STATE returns to NONE when the beat in progress completes (R75). -/
def execLeave (s : State) : Host.Outcome State Fault Refusal :=
  if !s.hostOk then .next s else
  guardStep (s.tally.gstate != .none) s
    ((if s.runs.any (·.group) then s.abortGroup.log Codes.junctionExpired .tally {} else s.abortGroup)
      |> fun s => ({ s with tally := { s.tally with leavePend := true } } : State).settleLeave)

/-- A line with local contributions that has not been delivered (R413). -/
def State.openLines (s : State) : Bool :=
  s.carry.sets.toList.any fun r => r.armed && r.lines.any fun x => x.locals != 0 || !x.held.isEmpty

/-- JUNCTION_TOKEN_SEND: the window's last beat is complete and all it sent is acknowledged (R70, R413). -/
def execJunctionTokenSend (s : State) : Host.Outcome State Fault Refusal :=
  match s.closing with
  | some w =>
    let unlanded := s.xfers.any fun x => match x.window with | some v => v ≤ w && x.result.isNone | none => false
    guardStep (s.completed && !unlanded && !s.openLines && !s.tally.tokenSent && !s.inBypass) s
      (let s := s.sendTokens w
       { s with tally := { s.tally with tokenSent := true } })
  | none => .next s

/-- The window whose tokens a member collects: −1 before and during formation (R69, R70). -/
def Tally.window (t : Tally) : Int :=
  if t.gstate = .running ∧ !t.formReady ∧ t.j ≠ 0 then ((t.gbeat.toNat / t.j.toNat : Nat) : Int)
  else if t.gstate = .running then 0 else -1

/-- A received token is recorded: for this window, or kept for the next; any other is discarded (R68). -/
def Tally.takeToken (t : Tally) (k : Packet) : Tally :=
  let origin := k.addr / 2 ^ 24 % 16
  let w := signed 64 (bytesToNat k.ext)
  if k.addr % 2 ^ 8 ≠ t.groupId.toNat ∨ k.addr / 2 ^ 8 % 2 ^ 13 ≠ t.j.toNat then t
  else if w = t.window ∧ t.gstate = .forming then { t with tokens := t.tokens ||| (1 <<< origin) }.formed
  else if w = t.window ∧ t.gstate = .running then { t with tokens := t.tokens ||| (1 <<< origin) }
  else if (w = t.window + 1 ∧ t.gstate = .running) ∨ w = t.window ∨ (w = 0 ∧ t.gstate = .forming) then
    { t with early := (origin, w) :: t.early.filter (· != (origin, w)) }
  else t

/-- JUNCTION_TOKEN_RECEIVE: the first token received is recorded and sent on (R414). -/
def execJunctionTokenReceive (s : State) : Host.Outcome State Fault Refusal :=
  match s.carry.tokens with
  | [] => .next s
  | i :: rest =>
    let s := { s with carry := { s.carry with tokens := rest } }
    let t := s.tally
    let hops := i.pkt.addr / 2 ^ 28 % 16
    let out := if i.port = t.portDown.toNat then t.portUp else t.portDown
    let s := if 1 < hops then
        s.enqueue (portOf out) { i.pkt with addr := i.pkt.addr - 2 ^ 28, dst := s.carry.ports[portOf out].peerDev.toNat }
      else s
    .next (if s.inBypass then s else { s with tally := s.tally.takeToken i.pkt })

/-- JUNCTION_EXPIRED: TIMEOUT_US has passed without every token (R73). -/
def execJunctionExpired (s : State) : Host.Outcome State Fault Refusal :=
  let t := s.tally
  let waiting := (s.closing.isSome && s.completed) || t.gstate == .forming
  if waiting && !t.tokensIn then
    let s := (s.abortGroup).log Codes.junctionExpired .tally { detail := (t.others &&& ~~~t.tokens).toNat }
    .next { s with tally := { s.tally with
      junctionExpired := true, missing := t.others &&& ~~~t.tokens, gstate := .broken, formSend := false } }
  else .next s

end Sys2Proof.Machine
end

