-- ==== Sys2Proof/Machine/Curve.lean ====
section
/-!
DEFINITION. The arithmetic of the Long-Number Engine (R522): HMAC (FIPS 198-1),
ECDSA on P-256 and P-384 with deterministic nonces (FIPS 186-5, RFC 6979), X25519 (RFC 7748) and Ed25519
(RFC 8032).
-/

namespace Sys2Proof.Machine

open Sys2Proof

/-! ## HMAC and the nonces of RFC 6979 -/

/-- A hash with its block length in bytes. -/
structure HashFn where
  run : List Byte → List Byte
  block : Nat

def hmac (h : HashFn) (key msg : List Byte) : List Byte :=
  let k := if h.block < key.length then h.run key else key
  let k := k ++ List.replicate (h.block - k.length) 0
  h.run (k.map (· ^^^ 0x5C) ++ h.run (k.map (· ^^^ 0x36) ++ msg))

/-- RFC 6979 3.2 h: candidates until one lies in 1 .. n − 1. `len` is the length of n in bytes, which is that
of the hash's output for both curves. -/
def rfc6979Loop (h : HashFn) (n len : Nat) : Nat → List Byte → List Byte → Nat
  | 0, _, _ => 0
  | fuel + 1, k, v =>
    let v := hmac h k v
    let t := bytesToNatBE (v.take len)
    if 1 ≤ t ∧ t < n then t
    else
      let k := hmac h k (v ++ [0])
      rfc6979Loop h n len fuel k (hmac h k v)

/-- The nonce of RFC 6979 for a private key and a digest. -/
def rfc6979 (h : HashFn) (n len d : Nat) (digest : List Byte) : Nat :=
  let x := natToBytesBE len d
  let e := natToBytesBE len (bytesToNatBE (digest.take len) % n)
  let v := List.replicate len (0x01 : Byte)
  let k := List.replicate len (0x00 : Byte)
  let k := hmac h k (v ++ [0] ++ x ++ e)
  let v := hmac h k v
  let k := hmac h k (v ++ [1] ++ x ++ e)
  rfc6979Loop h n len 64 k (hmac h k v)

/-! ## Short Weierstrass curves -/

/-- A curve y² = x³ − 3x + b over the field of p elements, its base point and order, and the bytes of a
field element (FIPS 186-5, SP 800-186). -/
structure Curve where
  p : Nat
  b : Nat
  gx : Nat
  gy : Nat
  n : Nat
  len : Nat
  hash : HashFn

def p256 : Curve := {
  p := 0xffffffff00000001000000000000000000000000ffffffffffffffffffffffff
  b := 0x5ac635d8aa3a93e7b3ebbd55769886bc651d06b0cc53b0f63bce3c3e27d2604b
  gx := 0x6b17d1f2e12c4247f8bce6e563a440f277037d812deb33a0f4a13945d898c296
  gy := 0x4fe342e2fe1a7f9b8ee7eb4a7c0f9e162bce33576b315ececbb6406837bf51f5
  n := 0xffffffff00000000ffffffffffffffffbce6faada7179e84f3b9cac2fc632551
  len := 32, hash := { run := sha256, block := 64 } }

def p384 : Curve := {
  p := 0xfffffffffffffffffffffffffffffffffffffffffffffffffffffffffffffffeffffffff0000000000000000ffffffff
  b := 0xb3312fa7e23ee7e4988e056be3f82d19181d9c6efe8141120314088f5013875ac656398d8a2ed19d2a85c8edd3ec2aef
  gx := 0xaa87ca22be8b05378eb1c71ef320ad746e1d3b628ba79b9859f741e082542a385502f25dbf55296c3a545e3872760ab7
  gy := 0x3617de4a96262c6f5d9e98bf9292dc29f8f41dbd289a147ce9da3113b5f0b8c00a60b1ce1d7e819d7a431d7c90ea0e5f
  n := 0xffffffffffffffffffffffffffffffffffffffffffffffffc7634d81f4372ddf581a0db248b0a77aecec196accc52973
  len := 48, hash := { run := sha384, block := 128 } }

/-- A point: `none` is the point at infinity. -/
abbrev Point := Option (Nat × Nat)

def subMod (a b p : Nat) : Nat := (a % p + p - b % p) % p

def Curve.has (c : Curve) (x y : Nat) : Bool :=
  x < c.p && y < c.p && y * y % c.p == subMod (x * x * x + c.b) (3 * x) c.p

def Curve.add (c : Curve) (u v : Point) : Point :=
  match u, v with
  | none, _ => v
  | _, none => u
  | some (x1, y1), some (x2, y2) =>
    if x1 = x2 ∧ (y1 + y2) % c.p = 0 then none
    else
      let num := if x1 = x2 then subMod (3 * x1 * x1) 3 c.p else subMod y2 y1 c.p
      let den := if x1 = x2 then 2 * y1 % c.p else subMod x2 x1 c.p
      let l := num * ((invMod? den c.p).getD 0) % c.p
      let x3 := subMod (l * l) (x1 + x2) c.p
      some (x3, subMod (l * subMod x1 x3 c.p) y1 c.p)

/-- k times a point, over `fuel` bits of k. -/
def Curve.mulFuel (c : Curve) : Nat → Nat → Point → Point
  | 0, _, _ => none
  | f + 1, k, u =>
    let r := c.mulFuel f (k / 2) (c.add u u)
    if k % 2 = 1 then c.add u r else r

def Curve.mul (c : Curve) (k : Nat) (u : Point) : Point := c.mulFuel (k.log2 + 1) k u

def Curve.base (c : Curve) : Point := some (c.gx, c.gy)

/-- SEC 1 uncompressed x ‖ y (R522). -/
def Curve.encode (c : Curve) (u : Point) : List Byte :=
  match u with
  | some (x, y) => natToBytesBE c.len x ++ natToBytesBE c.len y
  | none => []

def Curve.decode (c : Curve) (bs : List Byte) : Option (Nat × Nat) :=
  let x := bytesToNatBE (bs.take c.len)
  let y := bytesToNatBE ((bs.drop c.len).take c.len)
  if c.has x y then some (x, y) else none

/-- A digest as a number, its leftmost bits where it is longer than n (FIPS 186-5). -/
def Curve.digestNat (c : Curve) (digest : List Byte) : Nat := bytesToNatBE (digest.take c.len)

/-- ECDSA: r and s, either of which may come out 0 (Table 16.11). -/
def Curve.sign (c : Curve) (d : Nat) (digest : List Byte) : Nat × Nat :=
  let k := rfc6979 c.hash c.n c.len d digest
  let r := (match c.mul k c.base with | some (x, _) => x | none => 0) % c.n
  (r, ((invMod? k c.n).getD 0) * (c.digestNat digest + r * d) % c.n)

/-- ECDSA verification of r and s in range, by a point on the curve. -/
def Curve.verify (c : Curve) (q : Nat × Nat) (digest : List Byte) (r s : Nat) : Bool :=
  let w := (invMod? s c.n).getD 0
  match c.add (c.mul (c.digestNat digest * w % c.n) c.base) (c.mul (r * w % c.n) (some q)) with
  | some (x, _) => x % c.n == r
  | none => false

/-- Does a signature r ‖ s over a digest verify by a public key x ‖ y (FIPS 186-5)? -/
def Curve.verifyBytes (c : Curve) (key digest sig : List Byte) : Bool :=
  let r := bytesToNatBE (sig.take c.len)
  let s := bytesToNatBE ((sig.drop c.len).take c.len)
  match c.decode key with
  | some q => 1 ≤ r && r < c.n && 1 ≤ s && s < c.n && c.verify q digest r s
  | none => false

/-- A signature as r ‖ s. -/
def Curve.signBytes (c : Curve) (d : Nat) (digest : List Byte) : List Byte :=
  natToBytesBE c.len (c.sign d digest).1 ++ natToBytesBE c.len (c.sign d digest).2

/-! ## Curve25519 -/

def p25519 : Nat := 2 ^ 255 - 19

/-- RFC 7748 clamping of a scalar. -/
def clamp25519 (k : Nat) : Nat := (k % 2 ^ 255 - k % 8) % 2 ^ 254 + 2 ^ 254

/-- The Montgomery ladder of RFC 7748, over bits `n` − 1 to 0 of the scalar. -/
def ladder (k x1 : Nat) : Nat → (Nat × Nat) × (Nat × Nat) → (Nat × Nat) × (Nat × Nat)
  | 0, s => s
  | n + 1, s =>
    let p := p25519
    let bit := k / 2 ^ n % 2
    let s := if bit = 1 then (s.2, s.1) else s
    let x2 := s.1.1; let z2 := s.1.2; let x3 := s.2.1; let z3 := s.2.2
    let a := (x2 + z2) % p
    let aa := a * a % p
    let b := subMod x2 z2 p
    let bb := b * b % p
    let e := subMod aa bb p
    let c := (x3 + z3) % p
    let d := subMod x3 z3 p
    let da := d * a % p
    let cb := c * b % p
    let u3 := (da + cb) * (da + cb) % p
    let w3 := x1 * (subMod da cb p * subMod da cb p % p) % p
    let u2 := aa * bb % p
    let w2 := e * ((aa + 121665 * e) % p) % p
    let t := ((u2, w2), (u3, w3))
    ladder k x1 n (if bit = 1 then (t.2, t.1) else t)

/-- X25519 of a scalar and a u coordinate, as little-endian numbers (RFC 7748). -/
def x25519 (scalar u : Nat) : Nat :=
  let x1 := u % 2 ^ 255 % p25519
  let r := (ladder (clamp25519 (scalar % 2 ^ 256)) x1 255 ((1, 0), (x1, 1))).1
  r.1 * invPrime r.2 p25519 % p25519

/-! ## Ed25519 -/

/-- The order L of the base point. -/
def edL : Nat := 2 ^ 252 + 27742317777372353535851937790883648493

/-- The constant d of the curve −x² + y² = 1 + d·x²·y². -/
def edD : Nat := (p25519 - 121665) * invPrime 121666 p25519 % p25519

/-- A point in extended coordinates X, Y, Z, T. -/
structure EdPoint where
  x : Nat
  y : Nat
  z : Nat
  t : Nat

def edAdd (u v : EdPoint) : EdPoint :=
  let p := p25519
  let a := subMod u.y u.x p * subMod v.y v.x p % p
  let b := (u.y + u.x) * (v.y + v.x) % p
  let c := 2 * (u.t * v.t % p) * edD % p
  let d := 2 * u.z * v.z % p
  let e := subMod b a p
  let f := subMod d c p
  let g := (d + c) % p
  let h := (b + a) % p
  { x := e * f % p, y := g * h % p, z := f * g % p, t := e * h % p }

def edZero : EdPoint := { x := 0, y := 1, z := 1, t := 0 }

def edMulFuel : Nat → Nat → EdPoint → EdPoint
  | 0, _, _ => edZero
  | f + 1, k, u =>
    let r := edMulFuel f (k / 2) (edAdd u u)
    if k % 2 = 1 then edAdd u r else r

def edMul (k : Nat) (u : EdPoint) : EdPoint := edMulFuel (k.log2 + 1) k u

/-- The x coordinate of a y and a sign bit, if there is one (RFC 8032 5.1.3). -/
def edRecoverX (y sign : Nat) : Option Nat :=
  let p := p25519
  let u := subMod (y * y) 1 p
  let v := (edD * (y * y % p) + 1) % p
  let x := u * powMod v 3 p % p * powMod (u * powMod v 7 p % p) ((p - 5) / 8) p % p
  let vxx := v * (x * x % p) % p
  let x := if vxx = u then some x
    else if vxx = subMod 0 u p then some (x * powMod 2 ((p - 1) / 4) p % p) else none
  match x with
  | none => none
  | some x => if x = 0 ∧ sign = 1 then none else some (if x % 2 = sign then x else subMod 0 x p)

/-- A point decoded from 32 bytes (RFC 8032 5.1.3). -/
def edDecode (bs : List Byte) : Option EdPoint :=
  let n := bs.foldr (fun b a => b.toNat + 256 * a) 0
  let y := n % 2 ^ 255
  if p25519 ≤ y then none
  else (edRecoverX y (n / 2 ^ 255 % 2)).map fun x => { x, y, z := 1, t := x * y % p25519 }

/-- The little-endian bytes of a number. -/
def leBytes (k n : Nat) : List Byte := (natToBytesBE k n).reverse

def leNat (bs : List Byte) : Nat := bytesToNatBE bs.reverse

def edEncode (u : EdPoint) : List Byte :=
  let i := invPrime u.z p25519
  let x := u.x * i % p25519
  let y := u.y * i % p25519
  leBytes 32 (y + (x % 2) * 2 ^ 255)

def edBase : EdPoint :=
  let y := 4 * invPrime 5 p25519 % p25519
  match edRecoverX y 0 with
  | some x => { x, y, z := 1, t := x * y % p25519 }
  | none => edZero

/-- Are two points the same? -/
def edEq (u v : EdPoint) : Bool :=
  u.x * v.z % p25519 == v.x * u.z % p25519 && u.y * v.z % p25519 == v.y * u.z % p25519

/-- The scalar and the prefix of a secret key (RFC 8032 5.1.5). -/
def edExpand (sk : List Byte) : Nat × List Byte :=
  let h := sha512 (sk.take 32)
  (clamp25519 (leNat (h.take 32)), h.drop 32)

def edPub (sk : List Byte) : List Byte := edEncode (edMul (edExpand sk).1 edBase)

def edSign (sk msg : List Byte) : List Byte :=
  let e := edExpand sk
  let a := edPub sk
  let r := leNat (sha512 (e.2 ++ msg)) % edL
  let rb := edEncode (edMul r edBase)
  let k := leNat (sha512 (rb ++ a ++ msg)) % edL
  rb ++ leBytes 32 ((r + k * e.1) % edL)

/-- The group equation of RFC 8032 5.1.7, with the cofactor 8. -/
def edVerify (key msg sig : List Byte) (a r : EdPoint) : Bool :=
  let s := leNat ((sig.drop 32).take 32)
  let k := leNat (sha512 (sig.take 32 ++ key.take 32 ++ msg)) % edL
  edEq (edMul (8 * s) edBase) (edAdd (edMul 8 r) (edMul (8 * k) a))

end Sys2Proof.Machine
end

