-- ==== Sys2Proof/Machine/FlashImage.lean ====
section
/-!
DEFINITION. Flash and what is in it (R539 to R544): the two copies of the slot-state record (R540), the checks of a configuration
image (R541, R542, R547) and of a firmware or microcode image (R543).
-/

namespace Sys2Proof.Machine

open Sys2Proof

/-! ## Flash -/

/-- A byte of the flash. -/
def State.flashByte (s : State) (a : Nat) : Byte := ~~~(memRead s.boot.flash a)

def State.flashRead (s : State) (a n : Nat) : List Byte := (List.range n).map fun i => s.flashByte (a + i)

def State.flashNat (s : State) (a n : Nat) : Nat := bytesToNat (s.flashRead a n)

def State.flashWrite (s : State) (a : Nat) (bytes : List Byte) : State :=
  { s with boot := { s.boot with flash := memWriteN s.boot.flash a (bytes.map (~~~ ·)) } }

/-- Bytes of the flash are erased. -/
def State.flashErase (s : State) (a n : Nat) : State :=
  { s with boot := { s.boot with flash := memZero s.boot.flash a n } }

/-- Base and size of a component's slot: 1 firmware, 2 microcode, 3 configuration (Tables 16.4 and 17.3). -/
def State.slotSpan (s : State) (comp slot : Nat) : Nat × Nat :=
  if comp = 3 then (slot * 0x100000, 0x100000)
  else (s.boot.image.regions[2 * (comp - 1) + slot]?).getD (0, 0)

/-- The digest of a slot's image, as stored (R514). -/
def State.slotDigest (s : State) (comp slot : Nat) : List Byte :=
  let base := (s.slotSpan comp slot).1
  sha384 (s.flashRead base (128 + s.flashNat (base + 16) 4 + 96))

/-! ## The slot-state record (R540) -/

/-- Where a copy of the record lies (Table 17.3). -/
def copyBase (second : Bool) : Nat := if second then 0x210000 else 0x200000

/-- A component's entry: COMMITTED, TRIAL and FAILED, a byte each, and a byte of zero (log entry 96). -/
def SlotState.bytes (c : SlotState) : List Byte :=
  [BitVec.ofNat 8 c.committed, BitVec.ofNat 8 c.trial, c.failed.zeroExtend 8, 0]

/-- The bytes of a copy: its sequence number, the three entries and the CRC-32 over them. -/
def recordBytes (seq : BitVec 32) (slots : Vector SlotState 3) : List Byte :=
  let body := natToBytes 4 seq.toNat ++ slots.toList.flatMap SlotState.bytes
  body ++ natToBytes 4 (crc 32 0x04C11DB7 body)

/-- The write of the record goes to the copy not in force, with the next sequence number; until time has passed it is
still being written. -/
def State.commitSlot (s : State) (k : Fin 3) (g : SlotState → SlotState) : State :=
  let b := s.boot
  let slots := b.slots.set k (g b.slots[k])
  let s := { s with boot := { b with slots, slotSeq := b.slotSeq + 1, slotCopy := !b.slotCopy, slotTorn := true } }
  (s.flashErase (copyBase !b.slotCopy) 0x10000).flashWrite (copyBase !b.slotCopy) (recordBytes (b.slotSeq + 1) slots)

/-- A reset or a power loss tears the write in progress: nothing of that copy stands (log entry 96). -/
def State.tearRecord (s : State) : State :=
  if s.boot.slotTorn then
    let s := s.flashErase (copyBase s.boot.slotCopy) 0x10000
    { s with boot := { s.boot with slotTorn := false } }
  else s

/-- The sequence number of a copy, if its CRC passes. -/
def State.copySeq (s : State) (second : Bool) : Option Nat :=
  let body := s.flashRead (copyBase second) 16
  if crc 32 0x04C11DB7 body = s.flashNat (copyBase second + 16) 4 then some (s.flashNat (copyBase second) 4) else none

/-- A component's entry in a copy. -/
def State.copySlot (s : State) (second : Bool) (k : Nat) : SlotState :=
  let a := copyBase second + 4 + 4 * k
  { committed := s.flashNat a 1, trial := s.flashNat (a + 1) 1, failed := BitVec.ofNat 2 (s.flashNat (a + 2) 1) }

/-- A copy comes into force. -/
def State.takeCopy (s : State) (second : Bool) (seq : Nat) : State :=
  { s with boot := { s.boot with
    slots := Vector.ofFn fun k => s.copySlot second k.val, slotSeq := BitVec.ofNat 32 seq, slotCopy := second } }

/-- B2 reads the record: the copy that passes with the higher sequence number, or slot 0 committed for everything. -/
def State.readSlots (s : State) : State :=
  match s.copySeq false, s.copySeq true with
  | some a, some b => if a < b then s.takeCopy true b else s.takeCopy false a
  | some a, none => s.takeCopy false a
  | none, some b => s.takeCopy true b
  | none, none => { s with boot := { s.boot with slots := Vector.replicate 3 {}, slotSeq := 0, slotCopy := false } }

def State.slots (s : State) (comp : Nat) : SlotState :=
  if h : 1 ≤ comp ∧ comp ≤ 3 then s.boot.slots[comp - 1] else {}

/-- The component of an index 1 to 3. -/
def compIndex (comp : Nat) : Fin 3 := if comp = 1 then 0 else if comp = 2 then 1 else 2

/-- A slot is marked failed. -/
def State.markFailed (s : State) (comp slot : Nat) : State :=
  s.commitSlot (compIndex comp) fun c => { c with
    failed := c.failed ||| (1 <<< slot), trial := if c.trial = slot + 1 then 0 else c.trial }

/-- The slots in the order boot tries them: TRIAL if any, COMMITTED, the other (R546). -/
def SlotState.order (c : SlotState) : List Nat :=
  let base := [c.committed, 1 - c.committed]
  if c.trial = 0 then base else (c.trial - 1) :: base.filter (· != c.trial - 1)

/-! ## Configuration images -/

/-- SHA-384 of an owner key has been fused (R516, R542). -/
def Fuses.ownerIs (f : Fuses) (key : List Byte) : Bool := f.owners.head? == some (sha384 key)

/-- A Drenil public key x ‖ y; the boot ROM holds its digest. -/
def drenilKeyBytes (k : Nat) : List Byte := natToBytesBE 96 (Config.drenilKey k).toNat

/-- The number of ports with a role. -/
def roleCount (roles : List Nat) (r : Nat) : Nat := (roles.filter (· == r)).length

/-- The roles fit Table 12.8; a device on its own has none. A 3D torus without express ports leaves C6 and C7 unused. -/
def rolesFit (dx dy dz : Nat) (roles : List Nat) : Bool :=
  let n := roleCount roles
  let one (lo hi r : Nat) : Bool := lo ≤ n r && n r ≤ hi
  let none_ (rs : List Nat) : Bool := rs.all fun r => n r == 0
  if dx = 1 ∧ dy = 1 ∧ dz = 1 then roles.all (· == 0)
  else if dy = 1 ∧ dz = 1 then one 1 4 1 && one 1 4 2 && none_ [3, 4, 5, 6, 7, 8]
  else if dx = 1 ∨ dy = 1 then false
  else if dz = 1 then ([1, 2, 3, 4].all (one 1 2)) && none_ [5, 6, 7, 8]
  else ([1, 2, 3, 4, 5, 6].all (one 1 1)) && ((none_ [7, 8] && (roles.drop 6).all (· == 0)) || (n 7 == 1 && n 8 == 1))

/-- The bytes of an image at an address, as a reader of fields. -/
structure Img where
  at_ : Nat → Nat → Nat

def State.img (s : State) (base : Nat) : Img := { at_ := fun o n => s.flashNat (base + o) n }

/-- A value of some bytes outside what Table 17.4 allows (FIELD). -/
def Img.fieldBad (i : Img) : Bool :=
  let expr := i.at_ 40 1
  i.at_ 6 2 != 0 || 32 ≤ i.at_ 33 1 || i.at_ 33 1 == 0 || 2 < i.at_ 34 1 || 1 < i.at_ 35 1 || 4096 ≤ i.at_ 36 2 ||
  128 ≤ i.at_ 39 1 || 64 ≤ expr || (expr % 4 == 0 && expr / 4 != 0) ||
  (expr % 4 != 0 && (expr / 4 < 2 || 8 < expr / 4)) || i.at_ 41 7 != 0 ||
  ((List.range 8).any fun k => 8 < i.at_ (48 + k) 1) || i.at_ 56 8 != 0 ||
  4 < i.at_ 64 1 || 2 < i.at_ 65 1 || 1 < i.at_ 66 1 || 3 < i.at_ 67 1 ||
  i.at_ 68 2 == 0 || 1000 < i.at_ 68 2 || i.at_ 70 2 != 0 || 1 < i.at_ 74 1 || i.at_ 75 1 != 0 || 63 < i.at_ 76 1 ||
  i.at_ 78 2 != 0 || i.at_ 80 2 == 0 || i.at_ 82 2 < 10 || 1000 < i.at_ 82 2 || i.at_ 84 12 != 0 ||
  ((List.range 12).any fun k => i.at_ (96 + 4 * k) 4 == 0) || i.at_ 144 112 != 0 ||
  (i.at_ 32 1 == 0 && i.at_ 256 96 != 0) || i.at_ 352 3744 != 0 ||
  ((List.range 64).any fun k =>
    let r := 4096 + 64 * k
    1 < i.at_ r 1 || 4096 ≤ i.at_ (r + 9) 2 || i.at_ (r + 45) 19 != 0)

/-- The regions an image names. -/
def Img.regions (i : Img) : List (Nat × Nat) := (List.range 6).map fun k => (i.at_ (96 + 8 * k) 4, i.at_ (100 + 8 * k) 4)

/-- A region breaks R541 or lies beyond the flash (REGION). -/
def Img.regionBad (i : Img) (mib : Nat) : Bool :=
  let rs := i.regions
  let limits := [0x1000000, 0x1000000, 0x100000, 0x100000, 0x10000, 0x400000]
  ((rs.zip limits).any fun x => x.1.1 % 0x10000 != 0 || x.1.1 < 0x300000 || x.2 < x.1.2 || mib * 0x100000 < x.1.1 + x.1.2) ||
  ((rs[5]?).map (·.2)) != some 0x400000 ||
  ((List.range 6).any fun a => (List.range a).any fun b =>
    let x := rs.getD a (0, 0)
    let y := rs.getD b (0, 0)
    x.1 < y.1 + y.2 && y.1 < x.1 + x.2)

def Img.extent (i : Img) (d : Nat) : Nat :=
  (if d = 0 then i.at_ 38 1 % 16 else if d = 1 then i.at_ 38 1 / 16 else i.at_ 39 1 % 16) + 1

def Img.isClosed (i : Img) (d : Nat) : Bool := i.at_ 39 1 / 2 ^ (4 + d) % 2 == 1

def Img.roles (i : Img) : List Nat := (List.range 8).map fun k => i.at_ (48 + k) 1

/-- TOPOLOGY fails. Express ports need a dimension (Table 12.7). -/
def Img.topologyBad (i : Img) : Bool :=
  let dim := i.at_ 40 1 % 4
  let stride := i.at_ 40 1 / 4
  i.extent 0 * i.extent 1 * i.extent 2 ≤ i.at_ 36 2 || !rolesFit (i.extent 0) (i.extent 1) (i.extent 2) i.roles ||
  ([0, 1, 2].any fun d => !i.isClosed d && i.extent d == 16) ||
  (dim == 0 && i.roles.any fun r => r == 7 || r == 8) || (dim != 0 && (!i.isClosed (dim - 1) || stride < 2 || i.extent (dim - 1) / 2 < stride))

/-- R542: the image is signed by the signer the lifecycle state accepts. -/
def State.imageSigned (s : State) (base : Nat) (i : Img) : Bool :=
  let owner := s.boot.fuses.lifecycle == 2
  let key := s.flashRead (base + 256) 96
  let digest := sha384 (s.flashRead base 8192)
  let sig := s.flashRead (base + 8192) 96
  if owner then i.at_ 32 1 == 1 && s.boot.fuses.ownerIs key && p384.verifyBytes key digest sig
  else i.at_ 32 1 == 0 && p384.verifyBytes (drenilKeyBytes 1) digest sig

/-- The first failure of Table 17.8 for the image at a flash address; `staged` leaves TOPOLOGY out (R552). -/
def State.imageError (s : State) (base : Nat) (readOk staged : Bool) : Nat :=
  let i := s.img base
  if !readOk ∨ i.at_ 0 4 ≠ 0x46435659 ∨ i.at_ 4 2 ≠ 1 then 1
  else if !s.imageSigned base i then 2
  else if i.at_ 16 16 ≠ 0 ∧ i.at_ 16 16 ≠ s.boot.fuses.serial.toNat then 3
  else if i.at_ 33 1 / 2 ^ s.boot.fuses.lifecycle % 2 = 0 then 4
  else if i.at_ 8 4 < s.boot.fuses.fwCounter then 5
  else if i.fieldBad then 6
  else if i.regionBad s.boot.flashMiB then 7
  else if !staged ∧ i.topologyBad then 8
  else 0

/-- The fields of an image that passes. -/
def State.applied (s : State) (base : Nat) : Applied :=
  let i := s.img base
  { applied := true, version := BitVec.ofNat 32 (i.at_ 12 4), perstDevice := i.at_ 35 1 == 1
    profile := BitVec.ofNat 2 (i.at_ 34 1), domainsOff := BitVec.ofNat 16 (i.at_ 72 2), sparePolicy := i.at_ 74 1 == 1
    maxVfs := BitVec.ofNat 8 (i.at_ 76 1), smbus := i.at_ 77 1 % 2 == 1, mgmtAddr := BitVec.ofNat 7 (i.at_ 77 1 / 2)
    iccMax := BitVec.ofNat 16 (i.at_ 80 2), wdtMs := BitVec.ofNat 16 (i.at_ 82 2), retrainMs := BitVec.ofNat 16 (i.at_ 68 2)
    regions := i.regions, roles := i.roles.map (BitVec.ofNat 4), digest := sha384 (s.flashRead base 8288) }

/-! ## Firmware and microcode images -/

/-- A firmware or microcode image as R543 checks it: 0 passes, 3 SIGNATURE, 4 ROLLBACK (R511). A header that
breaks Table 17.6 fails as its signature does. -/
def State.codeError (s : State) (comp slot : Nat) : Nat :=
  let base := (s.slotSpan comp slot).1
  let size := (s.slotSpan comp slot).2
  let i := s.img base
  let len := i.at_ 16 4
  let counter := if comp = 1 then s.boot.fuses.fwCounter else s.boot.fuses.mcCounter
  let headerBad := i.at_ 0 4 != (if comp = 1 then 0x57465659 else 0x434D5659) || i.at_ 4 1 != comp || i.at_ 5 3 != 0 ||
    len == 0 || size < 224 + len || i.at_ 24 104 != 0 || (comp == 1 && len ≤ i.at_ 20 4) || (comp == 2 && i.at_ 20 4 != 0)
  let signed_ := p384.verifyBytes (drenilKeyBytes (comp + 1)) (sha384 (s.flashRead base (128 + len)))
    (s.flashRead (base + 128 + len) 96)
  if headerBad || !signed_ then 3 else if i.at_ 12 4 < counter then 4 else 0

/-- VERSION and SVN of a slot's image. -/
def State.slotVersion (s : State) (comp slot : Nat) : Nat × Nat :=
  let i := s.img (s.slotSpan comp slot).1
  if comp = 3 then (i.at_ 12 4, i.at_ 8 4) else (i.at_ 8 4, i.at_ 12 4)

/-- The first slot of a component that passes R543, in the order boot tries them. -/
def State.goodSlot (s : State) (comp : Nat) : Option Nat :=
  (s.slots comp).order.find? fun k => s.codeError comp k == 0

end Sys2Proof.Machine
end

