-- ==== Sys2Proof/Machine/Drbg.lean ====
section
/-!
DEFINITION. The entropy source, its health tests and its conditioner (R517), the AES-256 and the CTR_DRBG that the
device draws from (R518), and the instances' requests, reseeds and error state (R518, R519). SP 800-90A, SP 800-90B,
FIPS 197 and FIPS 202 are cited by the spec.
-/

namespace Sys2Proof.Machine

open Sys2Proof

/-! ## The entropy source (R517) -/

/-- A raw sample as its bits, first bit first. -/
def rawList (raw : BitVec 1024) : List Bool := (List.range 1024).map raw.getLsbD

/-- The longest run of one value, after a run of `n` bits `last`. -/
def longestRun : Bool → Nat → List Bool → Nat
  | _, n, [] => n
  | last, n, b :: bs => if b == last then longestRun last (n + 1) bs else max n (longestRun b 1 bs)

/-- The Repetition Count Test fails: a run of 61, which is 1 + ⌈30 / 0.5⌉ at 0.5 bit per sample and 2^-30 (R517). -/
def repetitionFails (bits : List Bool) : Bool := 61 ≤ longestRun false 0 bits

/-- The Adaptive Proportion Test fails on a window of 1,024: its first value stands there 810 times or more, the cutoff
at 0.5 bit per sample and 2^-30 (R517). -/
def adaptiveFails (bits : List Bool) : Bool := 810 ≤ bits.count (bits.headD false)

/-- Both tests pass on 1,024 samples: the continuous tests, and the start-up tests (R517). -/
def healthy (raw : BitVec 1024) : Bool := !repetitionFails (rawList raw) && !adaptiveFails (rawList raw)

/-- The conditioner's 384 bits of 1,024 raw ones (R517). -/
def condition (raw : BitVec 1024) : List Byte := sha3_384 (natToBytes 128 raw.toNat)

/-! ## AES-256 -/

/-- A product in the field of AES, whose modulus is x^8 + x^4 + x^3 + x + 1. -/
def aesMul : Nat → Byte → Byte → Byte
  | 0, _, _ => 0
  | n + 1, a, b => (if b.getLsbD 0 then a else 0) ^^^ aesMul n ((a <<< 1) ^^^ (if a.msb then 0x1B else 0)) (b >>> 1)

/-- The `n`-th power of a field element. -/
def aesPow (a : Byte) : Nat → Byte
  | 0 => 1
  | n + 1 => aesMul 8 a (aesPow a n)

/-- The substitution of a byte: its inverse, which is its 254th power, and the affine map. -/
def aesSub (a : Byte) : Byte :=
  let i := aesPow a 254
  ([0, 1, 2, 3, 4] : List Nat).foldl (fun v k => v ^^^ i.rotateLeft k) 0x63

def xorBytes (a b : List Byte) : List Byte := (a.zip b).map fun p => p.1 ^^^ p.2

/-- Word `i` of an expanded key from the words before it, newest first. -/
def keyWord (i : Nat) (ws : List (List Byte)) : List Byte :=
  let last := ws.headD []
  let mixed :=
    if i % 8 = 0 then xorBytes ((last.drop 1 ++ last.take 1).map aesSub) [aesPow 2 (i / 8 - 1), 0, 0, 0]
    else if i % 8 = 4 then last.map aesSub else last
  xorBytes (ws.getD 7 []) mixed

/-- The key words from word `i` on, `n` of them, newest first. -/
def expandKey : Nat → Nat → List (List Byte) → List (List Byte)
  | 0, _, ws => ws
  | n + 1, i, ws => expandKey n (i + 1) (keyWord i ws :: ws)

/-- The fifteen round keys of a 256-bit key. -/
def roundKeys (key : List Byte) : List (List Byte) :=
  let first := (List.range 8).map fun i => (key.drop (4 * i)).take 4
  let ws := (expandKey 52 8 first.reverse).reverse
  (List.range 15).map fun r => ((ws.drop (4 * r)).take 4).flatten

/-- Row r of the state goes left by r columns; bytes stand by columns. -/
def shiftRows (a : List Byte) : List Byte := (List.range 16).map fun i => a.getD ((i + 4 * (i % 4)) % 16) 0

/-- Each column is multiplied by the circulant matrix of 2, 3, 1, 1. -/
def mixColumns (a : List Byte) : List Byte :=
  (List.range 16).map fun i =>
    let at_ (k : Nat) : Byte := a.getD (i / 4 * 4 + (i + k) % 4) 0
    aesMul 8 (at_ 0) 2 ^^^ aesMul 8 (at_ 1) 3 ^^^ at_ 2 ^^^ at_ 3

/-- AES-256 of one block. -/
def aes256 (key block : List Byte) : List Byte :=
  let ks := roundKeys key
  let body := ((ks.drop 1).take 13).foldl (fun a k => xorBytes (mixColumns (shiftRows (a.map aesSub))) k)
    (xorBytes block (ks.headD []))
  xorBytes (shiftRows (body.map aesSub)) (ks.getD 14 [])

/-! ## CTR_DRBG without a derivation function -/

/-- The 48 bytes of the next three counter blocks. -/
def Drbg.blocks (d : Drbg) : List Byte :=
  (List.range 3).flatMap fun i => aes256 (natToBytesBE 32 d.key.toNat) (natToBytesBE 16 ((d.v.toNat + i + 1) % 2 ^ 128))

/-- The update of Key and V with 48 provided bytes. -/
def Drbg.update (d : Drbg) (provided : List Byte) : Drbg :=
  let x := xorBytes d.blocks provided
  { d with key := BitVec.ofNat 256 (bytesToNatBE (x.take 32)), v := BitVec.ofNat 128 (bytesToNatBE (x.drop 32)) }

/-- A reseed at a time with a seed from the conditioner. -/
def Drbg.reseed (d : Drbg) (seed : List Byte) (up : Nat) : Drbg :=
  { d.update seed with error := false, requests := 0, seedUp := up }

/-- An instance instantiated at a time: Key and V from zero. -/
def Drbg.fresh (seed : List Byte) (up : Nat) : Drbg := ({ instantiated := true } : Drbg).reseed seed up

/-- A request for 384 bits: three blocks, and the update that follows it. -/
def Drbg.generate (d : Drbg) : BitVec 384 × Drbg :=
  let e := ({ d with v := d.v + 3 } : Drbg).update (List.replicate 48 0)
  (BitVec.ofNat 384 (bytesToNat d.blocks), { e with requests := d.requests + 1 })

/-! ## Instances (R518, R519) -/

def State.drbg (s : State) (k : Nat) : Drbg := if h : k < 3 then s.mgmt.drbgs[k] else {}

def State.setDrbg (s : State) (k : Nat) (d : Drbg) : State :=
  if h : k < 3 then { s with mgmt := { s.mgmt with drbgs := s.mgmt.drbgs.set k d } } else s

/-- The next 1,024 raw bits: a free value, log entry 10. -/
def State.raw (s : State) : BitVec 1024 × State := (Config.rawBits s.freeCtr, { s with freeCtr := s.freeCtr + 1 })

/-- An instance is instantiated at power-on, its start-up tests passed (R517 to R519; log entry 31). -/
def State.startDrbg (s : State) (k : Nat) : State :=
  s.raw.2.setDrbg k { Drbg.fresh (condition s.raw.1) s.tally.up with error := !s.mgmt.entropyOk }

/-- An instance needs a reseed: 2^16 requests, or 1 s (R518). -/
def State.drbgDue (s : State) (d : Drbg) : Bool := decide (65536 ≤ d.requests) || decide (d.seedUp + 1000000000 ≤ s.tally.up)

/-- A health test has failed (R519): the source stops, and every instance that needs a reseed enters its error state. -/
def State.entropyFail (s : State) : State :=
  let s := s.log Codes.entropyHealth .lne {}
  { s with mgmt := { s.mgmt with
    entropyOk := false
    drbgs := s.mgmt.drbgs.mapIdx fun _ (d : Drbg) => if d.instantiated && s.drbgDue d then { d with error := true } else d } }

/-- Instance `k` reseeds, where the source delivers and its bits pass the health tests; otherwise it is in its error
state (R517 to R519). -/
def State.reseedDrbg (s : State) (k : Nat) : State :=
  let d := s.drbg k
  if !s.mgmt.entropyOk then s.setDrbg k { d with error := true }
  else if healthy s.raw.1 then s.raw.2.setDrbg k (d.reseed (condition s.raw.1) s.tally.up)
  else s.raw.2.entropyFail.setDrbg k { d with error := true }

/-- A request to instance `k`: 0 and 1 the compute dies', 2 the security DRBG. One that needs a reseed makes it first. -/
def State.drbgDraw (s : State) (k : Nat) : Option (BitVec 384) × State :=
  let s := if (s.drbg k).instantiated && !(s.drbg k).error && s.drbgDue (s.drbg k) then s.reseedDrbg k else s
  let d := s.drbg k
  if !d.instantiated || d.error then (none, s) else (some d.generate.1, s.setDrbg k d.generate.2)

end Sys2Proof.Machine
end

