-- ==== Sys2Proof/Machine/Image.lean ====
section
/-!
DEFINITION. The program image (R247, R248) and what the load scan checks of its tables before any word
(R249, orders 1 to 4): the header, prime-set blocks (R87 to R91) and their constant areas (R142 to R144),
the chain table (R155, R156), the region table (R289), descriptors (R96) and transfer records (R322).
-/

namespace Sys2Proof.Machine

open Sys2Proof

/-! ## Reading the image -/

/-- Little-endian numbers of device memory. -/
def State.rd (s : State) (a n : Nat) : Nat := memReadNat s.mem a n

def zeroBits (w lo n : Nat) : Bool := bitsAt w lo n == 0

/-- A stage word (Table 5.2). -/
def decodeStage (w : Nat) : Stage := {
  op := bitsAt w 0 5, asel := bitsAt w 5 4, bsel := bitsAt w 9 4, csel := bitsAt w 13 4, shift := bitsAt w 17 5 }

/-- A chain entry of 64 bytes (Table 5.1). -/
def decodeChain (e : Nat) : Chain := {
  stages := (List.range (min 8 (bitsAt e 256 8))).map fun i => decodeStage (bitsAt e (32 * i) 32)
  ksrc := bitsAt e 264 3, iscale := bitsAt e 272 20
  imms := (List.range 4).map fun i => BitVec.ofNat 32 (bitsAt e (384 + 32 * i) 32) }

/-- A region-table entry of 32 bytes (Table 9.1). -/
def decodeRegion (e : Nat) : RegEntry := {
  number := bitsAt e 0 8, attr := bitsAt e 8 8, depth := bitsAt e 16 8
  origin := bitsAt e 32 32, size := bitsAt e 64 32
  srcs := [
    { dev := bitsAt e 128 12, frame := bitsAt e 144 6, rows := bitsAt e 160 32 },
    { dev := bitsAt e 192 12, frame := bitsAt e 208 6, rows := bitsAt e 224 32 }] }

/-- A transfer record of 64 bytes (Tables 9.4 and 9.5). -/
def decodeXRec (e : Nat) : XRec := {
  kind := bitsAt e 0 8, mode := BitVec.ofNat 8 (bitsAt e 8 8), prime := bitsAt e 16 8
  fill := BitVec.ofNat 32 (bitsAt e 32 32)
  count := (List.range 4).map fun d => bitsAt e (64 + 16 * d) 16
  soff := signed 32 (bitsAt e 128 32)
  sstr := (List.range 4).map fun d => signed 32 (bitsAt e (160 + 32 * d) 32)
  doff := signed 32 (bitsAt e 288 32)
  dstr := (List.range 4).map fun d => signed 32 (bitsAt e (320 + 32 * d) 32)
  padlo := (List.range 4).map fun d => bitsAt e (448 + 4 * d) 4
  padhi := (List.range 4).map fun d => bitsAt e (464 + 4 * d) 4
  advrows := bitsAt e 480 16
  gRegion := bitsAt e 16 8, gDev := bitsAt e 32 12, gFrame := bitsAt e 48 6, gRows := bitsAt e 64 32 }

/-- Entries of `n` bytes of a table. -/
def State.table (s : State) (a count n : Nat) : List Nat := (List.range count).map fun i => s.rd (a + i * n) n

/-- A frame record (Table 7.13) and its tables. -/
def State.framePart (s : State) (a : Nat) : FramePart := {
  frame := s.rd a 1, words := s.rd (a + 4) 4, qoffset := s.rd (a + 8) 8
  dtab := (s.table (s.rd (a + 16) 8) (min 512 (s.rd (a + 24) 2)) 64).map decodeDesc
  flagClear := BitVec.ofNat 256 (s.rd (a + 32) 32)
  rtab := (s.table (s.rd (a + 64) 8) (s.rd (a + 72) 1) 32).map decodeRegion
  xtab := (s.table (s.rd (a + 80) 8) (min 256 (s.rd (a + 88) 2)) 64).map decodeXRec }

/-- The program whose header lies at an address (Table 7.12). -/
def State.program (s : State) (func hdr : Nat) : Program :=
  let frames := BitVec.ofNat 64 (s.rd (hdr + 8) 8)
  let ft := s.rd (hdr + 24) 8
  let ct := s.rd (hdr + 32) 8
  let nt := s.rd (hdr + 40) 8
  let mt := s.rd (hdr + 48) 8
  { func, hdr, frames
    scaleTol := s.rd (hdr + 16) 1
    group := s.rd (hdr + 17) 1 % 2 = 1
    chains := if ct = 0 then none else some ((s.table ct 256 64).map decodeChain)
    noise := if nt = 0 then none else some ((s.table nt 256 4).map fun e => (bitsAt e 0 16, bitsAt e 16 16))
    msets := if mt = 0 then none else some ((s.table mt 16 8).map (BitVec.ofNat 64))
    psets := BitVec.ofNat 64 (s.rd (hdr + 56) 8)
    parts := (List.range (framesOf frames).length).map fun k => s.framePart (ft + 128 * k) }

/-- Where the header and the tables of a program lie that its start reads (R247). -/
def State.tableSpans (s : State) (hdr : Nat) : List (Nat × Nat) :=
  let named (o n : Nat) : List (Nat × Nat) := if s.rd (hdr + o) 8 = 0 then [] else [(s.rd (hdr + o) 8, n)]
  let ft := s.rd (hdr + 24) 8
  let nf := (framesOf (BitVec.ofNat 64 (s.rd (hdr + 8) 8))).length
  [(hdr, 256), (ft, 128 * nf)] ++ named 32 16384 ++ named 40 1024 ++ named 48 128 ++
  (List.range nf).flatMap fun k =>
    let a := ft + 128 * k
    [(s.rd (a + 16) 8, 64 * min 512 (s.rd (a + 24) 2)), (s.rd (a + 64) 8, 32 * s.rd (a + 72) 1),
      (s.rd (a + 80) 8, 64 * min 256 (s.rd (a + 88) 2))]

/-- Where the words of a part's stream lie (R251). -/
def State.ringSpans (s : State) (p : FramePart) : List (Nat × Nat) :=
  match frameNo? p.frame with
  | none => []
  | some f =>
    let sq := (s.frame f).seq
    let len := sq.qringSize.toNat * 4096
    let first := if len = 0 then 0 else p.qoffset % len
    let a := min p.words (len - first)
    let base := sq.qringBase.toNat * 65536
    [(base + 16 * first, 16 * a), (base, 16 * min (p.words - a) len)]

/-- What a LOAD reads of a program besides: the prime sets it names and the streams it scans (R88, R249). -/
def State.loadSpans (s : State) (p : Program) : List (Nat × Nat) :=
  let pl := s.rd (p.hdr + 64) 8
  let n := if pl = 0 then 0 else s.rd (p.hdr + 72) 1
  s.tableSpans p.hdr ++ (pl, 16 * n) :: (List.range n).map (fun i => (s.rd (pl + 16 * i + 8) 8, 256)) ++
  p.parts.flatMap s.ringSpans

/-- The words of a ring from an offset: word i lies at ring word (QOFFSET + i) mod the ring's words (R251). -/
def State.streamWords (s : State) (f : FrameNo) (qoffset n : Nat) : List BcWord :=
  let sq := (s.frame f).seq
  let len := sq.qringSize.toNat * 4096
  (List.range n).map fun i =>
    BitVec.ofNat 128 (s.rd (sq.qringBase.toNat * 65536 + (if len = 0 then 0 else (qoffset + i) % len) * 16) 16)

/-! ## Failures -/

/-- A failure of the load scan: frame (0 for items tied to none), item, scan order and code (R249). -/
structure LoadErr where
  frame : Nat := 0
  item : Nat := 0
  order : Nat := 0
  code : Code := 0

def LoadErr.before (a b : LoadErr) : Bool :=
  a.frame < b.frame || (a.frame == b.frame && (a.item < b.item || (a.item == b.item && a.order < b.order)))

/-- The failure the device meets first (R249). -/
def firstErr (es : List LoadErr) : Option Code :=
  (es.foldl (fun (m : Option LoadErr) e =>
    match m with
    | none => some e
    | some x => some (if e.before x then e else x)) none).map (·.code)

/-- The failures of one item, where a condition holds. -/
def errsAt (frame item : Nat) (cs : List (Bool × Nat × Code)) : List LoadErr :=
  cs.filterMap fun c => if c.1 then some { frame, item, order := c.2.1, code := c.2.2 } else none

/-! ## Reach (R247, R424) -/

/-- A span of device memory that the function may access; empty spans are. Seal windows and partitions have
64 KiB grain. -/
def State.spanOk (s : State) (n : FuncNo) (a len : Nat) : Bool :=
  len == 0 || (a + len ≤ s.usable && (List.range ((a + len - 1) / 65536 + 1 - a / 65536)).all fun k =>
    s.reach n (max a ((a / 65536 + k) * 65536)))

/-! ## The header (Table 7.12) -/

/-- The failures of the header, in the sequence of R249. A load through a VF names installed slots only (R88; log entry
82). -/
def State.headerErrs (s : State) (n : FuncNo) (h : Nat) : List LoadErr :=
  let b := s.rd h 256
  let f (byte len : Nat) : Nat := bitsAt b (8 * byte) (8 * len)
  let pc := if f 64 8 = 0 then 0 else f 72 1
  let nf := (framesOf (BitVec.ofNat 64 (f 8 8))).length
  errsAt 0 0 [
    (f 0 4 != 0x43425659 || f 4 1 != 0 || f 5 1 != 1 || f 6 2 != 1, 1, Codes.loadVersion),
    (f 8 8 == 0 || f 24 8 == 0 || 2 ≤ f 17 1 || f 18 6 != 0 || f 73 183 != 0 || f 56 8 % 2 == 1 ||
      [24, 32, 40, 48, 64].any (fun x => f (x + 6) 2 != 0), 2, Codes.loadReservedZero),
    (decide (63 < f 72 1), 3, Codes.loadEncoding),
    ([32, 40, 48, 64].any (fun x => f x 8 % 64 != 0) || f 24 8 % 128 != 0, 4, Codes.loadDescriptorInvalid),
    (!(s.spanOk n (f 24 8) (128 * nf) &&
       (f 32 8 == 0 || s.spanOk n (f 32 8) 16384) && (f 40 8 == 0 || s.spanOk n (f 40 8) 1024) &&
       (f 48 8 == 0 || s.spanOk n (f 48 8) 128) && (f 64 8 == 0 || s.spanOk n (f 64 8) (16 * pc))),
      4, Codes.loadFootprint),
    (n.val != 0 && (List.range 64).any (fun k => (f 56 8).testBit k && (s.pset? k).isNone), 4, Codes.loadPrimeInvalid)]

/-! ## Prime-set blocks (R87 to R90) -/

/-- The prime set that a block's 256 bytes spell (Table 3.4). -/
def decodePset (b : Nat) : PSet :=
  let nq := bitsAt b 0 8
  let np := bitsAt b 8 8
  { nq, np, logNMax := bitsAt b 16 8, dnum := bitsAt b 24 8, t := bitsAt b 32 32, constBase := bitsAt b 64 64
    qidx := (List.range (min 112 nq)).map fun i => bitsAt b (128 + 8 * i) 8
    pidx := (List.range (min 16 np)).map fun k => bitsAt b (1024 + 8 * k) 8 }

/-- Reserved bytes of a block that are not zero, or a zero-reserved field that is. -/
def psetReservedBad (b : Nat) : Bool :=
  bitsAt b 0 8 == 0 || bitsAt b 16 8 == 0 || bitsAt b 24 8 == 0 || bitsAt b 64 64 == 0 ||
    bitsAt b 112 16 != 0 || bitsAt b 1152 896 != 0 ||
    (List.range 112).any (fun i => bitsAt b 0 8 ≤ i && bitsAt b (128 + 8 * i) 8 != 0) ||
    (List.range 16).any (fun k => bitsAt b 8 8 ≤ k && bitsAt b (1024 + 8 * k) 8 != 0)

/-- Two of a list are equal. -/
def hasDup : List Nat → Bool
  | [] => false
  | x :: xs => xs.contains x || hasDup xs

/-- The checks of Table 3.5 on a block. -/
def State.psetCheck (s : State) (b : Nat) : Option Code :=
  let p := decodePset b
  let es := (p.qidx ++ p.pidx).map s.prime
  firstBad [
    (psetReservedBad b, Codes.loadReservedZero),
    (112 < p.nq || 16 < p.np || p.logNMax < 10 || 17 < p.logNMax || 8 < p.dnum || p.nq < p.dnum ||
      p.t == 1 || 2 ^ 31 ≤ p.t || p.constBase % 65536 != 0 || s.usable < p.constBase + 0x200000,
      Codes.loadPrimeInvalid),
    (es.any fun e => !e.valid || e.rootLog.toNat - 1 < p.logNMax, Codes.loadPrimeInvalid),
    (hasDup (es.map (·.q.toNat)), Codes.loadBasisSingular),
    (p.t != 0 && es.any (fun e => e.q.toNat != 0 && p.t % e.q.toNat == 0), Codes.loadBasisSingular)]

/-- A slot whose set a loaded program references, or a defined layer or an armed set holds (R88, R373, R404). -/
def State.psetUsed (s : State) (slot : Nat) : Bool :=
  (s.carry.sets.toList.any fun r => r.armed && !r.vote && r.shape.pset.toNat == slot) ||
  (s.mas.layers.toList.any fun l => l.state != .idle && l.shape.pset.toNat == slot) ||
  s.programs.any fun p => p.psets.getLsbD slot || p.parts.any fun t => t.dtab.any fun d => d.kind != kTensor && d.pset == slot

/-- The outcome of a block for a slot (R88): accepted as installed, rejected, or to be installed. -/
def State.resolveBlock (s : State) (slot b : Nat) : Option Code × Bool :=
  if s.pset? slot = some (decodePset b) ∧ !psetReservedBad b then (none, false)
  else if (s.pset? slot).isSome ∧ s.psetUsed slot then (some Codes.loadPrimeSetConflict, false)
  else match s.psetCheck b with
    | some c => (some c, false)
    | none => (none, true)

/-- The sets of PSET_LIST in order: the first failure, and the sets to install (R88). A block is read where its entry says,
aligned or not (log entry 81). -/
def State.resolveList (s : State) (n : FuncNo) : List Nat → Nat → List (Nat × Nat) → List (Nat × Nat) →
    List LoadErr × List (Nat × Nat)
  | [], _, _, new => ([], new)
  | e :: rest, i, seen, new =>
    let slot := bitsAt e 0 8
    let a := bitsAt e 64 64
    let b := s.rd a 256
    let item := 1 + i
    if bitsAt e 8 56 ≠ 0 ∨ bitsAt e 112 16 ≠ 0 then (errsAt 0 item [(true, 2, Codes.loadReservedZero)], new)
    else if slot = 0 ∨ 63 < slot then (errsAt 0 item [(true, 4, Codes.loadPrimeInvalid)], new)
    else if n.val ≠ 0 then (errsAt 0 item [(true, 4, Codes.loadPrimeSetConflict)], new)
    else if !s.spanOk n a 256 then (errsAt 0 item [(true, 4, Codes.loadFootprint)], new)
    else
      match alGet seen slot with
      | some b' =>
        if b' = b then s.resolveList n rest (i + 1) seen new
        else (errsAt 0 item [(true, 4, Codes.loadPrimeSetConflict)], new)
      | none =>
        match s.resolveBlock slot b with
        | (some c, _) => (errsAt 0 item [(true, if c = Codes.loadReservedZero then 2 else 4, c)], new)
        | (none, inst) => s.resolveList n rest (i + 1) ((slot, b) :: seen) (if inst then new ++ [(slot, b)] else new)

/-! ## The constant area (R142 to R144) -/

/-- M-form of an inverse. -/
def invM (a q : Nat) : Nat := toM (invPrime (a % q) q) q

/-- A basis matrix in words (R128): rows and columns as primes. Row r has the prescale of the product of
the other rows, and that product at each column. -/
def basisRow (rows cols : List Nat) (r : Nat) : List Nat :=
  let others := prodOf (rows.zipIdx.filterMap fun x => if x.2 = r then none else some x.1)
  let q := rows.getD r 1
  invM others q :: cols.map fun p => toM others p

/-- Words at consecutive offsets. -/
def wordsAt (off : Nat) (ws : List Nat) : List (Nat × Nat) := ws.zipIdx.map fun x => (off + 4 * x.2, x.1)

/-- The digit matrix that ends at Q limb e: its rows' primes, its columns' primes and its row stride. -/
def digitMatrix (p : PSet) (qs ps : List Nat) (e : Nat) : List Nat × List Nat × Nat :=
  let d := e / p.alpha
  let lo := d * p.alpha
  let size := min p.alpha (p.nq - lo)
  let cols := ps ++ qs.take lo ++ qs.drop (lo + size)
  ((qs.drop lo).take (e - lo + 1), cols, ceilDiv (cols.length + 1) 16 * 64)

/-- The digit matrices from an offset on, with DIR (R144). -/
def digitArea (p : PSet) (qs ps : List Nat) : List Nat → Nat → List (Nat × Nat)
  | [], _ => []
  | e :: rest, off =>
    let m := digitMatrix p qs ps e
    (0x100 + 4 * e, off) ::
      ((List.range m.1.length).flatMap fun r => wordsAt (off + r * m.2.2) (basisRow m.1 m.2.1 r)) ++
      digitArea p qs ps rest (off + m.1.length * m.2.2)

/-- The position record of a prime (Table 4.3). -/
def posRecord (p : PSet) (special : Bool) (ps : List Nat) (e : PrimeEntry) : List Nat :=
  let q := e.q.toNat
  [q, e.qneg.toNat, e.rModQ.toNat, e.rrModQ.toNat] ++
  ((List.range 8).map fun k => if p.logNMax < 10 + k then 0 else invM (2 ^ (10 + k)) q) ++
  [if special then 0 else invM (prodOf ps) q,
   if p.t = 0 then 0 else invM p.t q,
   if p.t = 0 then 0 else toM (q - invPrime (p.t % q) q) q]

/-- A position's twiddle block (R143). -/
def twiddles (p : PSet) (e : PrimeEntry) : List Nat :=
  let q := e.q.toNat
  let psi := powMod e.root.toNat (2 ^ (e.rootLog.toNat - p.logNMax - 1)) q
  ((List.range 512).map fun i => toM (powMod psi i q) q) ++
  (List.range (2 ^ (p.logNMax + 1) / 512)).map fun i => toM (powMod psi (512 * i) q) q

/-- The words that Table 4.2 assigns, as offsets from CONST_BASE. -/
def State.areaWords (s : State) (p : PSet) : List (Nat × Nat) :=
  let qe := p.qidx.map s.prime
  let pe := p.pidx.map s.prime
  let qs := qe.map (·.q.toNat)
  let ps := pe.map (·.q.toNat)
  let pos : List (Nat × PrimeEntry) := qe.zipIdx.map (fun x => (x.2, x.1)) ++ pe.zipIdx.map (fun x => (112 + x.2, x.1))
  let recs := pos.flatMap fun x => wordsAt (0x1000 + x.1 * 64) (posRecord p (112 ≤ x.1) ps x.2)
  let tw := pos.flatMap fun x => wordsAt (0x3000 + x.1 * 0x1000) (twiddles p x.2)
  let inv := pos.flatMap fun i => pos.filterMap fun j =>
    if i.1 = j.1 then none
    else some (0x83000 + (128 * i.1 + j.1) * 4, invM j.2.q.toNat i.2.q.toNat)
  let pair := (List.range p.nq).flatMap fun i => (List.range (p.nq - 1)).filterMap fun j =>
    if i = j ∨ i = j + 1 then none
    else some (0x93000 + (128 * i + j) * 4, invM (qs.getD j 1 * qs.getD (j + 1) 1) (qs.getD i 1))
  let down := (List.range p.np).flatMap fun k => wordsAt (0xA3000 + k * 512) (basisRow ps qs k)
  recs ++ tw ++ inv ++ pair ++ down ++ digitArea p qs ps (List.range p.nq) 0xA5000

/-- A set's constant area is written and its slot installed (R90). -/
def State.installPset (s : State) (slot b : Nat) : State :=
  let p := decodePset b
  let s := s.wipeBytes p.constBase 0x200000
  let mem := memWriteN s.mem p.constBase (natToBytes 256 b)
  let mem := (s.areaWords p).foldl (fun m w => memWriteN m (p.constBase + w.1) (natToBytes 4 w.2)) mem
  ({ s with mem, global := { s.global with psets := alSet s.global.psets slot p } } : State).wroteSpan 2 p.constBase 0x200000

/-! ## The chain table (R155, R156) -/

/-- The selects a stage operation uses: A, B and C (Table 5.4). -/
def stageUses (op : Nat) : Bool × Bool × Bool :=
  match op with
  | 1 | 2 | 3 | 18 => (true, true, true)
  | 8 | 9 | 13 | 14 | 15 | 16 | 17 => (true, false, true)
  | 10 => (true, true, false)
  | _ => (true, false, false)

def stageReserved (op : Nat) : Bool := (4 ≤ op && op ≤ 7) || 21 ≤ op

/-- Reserved bits and encodings of a chain entry's stages below STAGES. -/
def stageBad (w : Nat) : Bool × Bool :=
  let st := decodeStage w
  let u := stageUses st.op
  let r := stageReserved st.op
  (bitsAt w 22 10 != 0 || (!r && ((!u.2.1 && st.bsel != 0) || (!u.2.2 && st.csel != 0))) ||
     (st.op != 11 && st.op != 12 && st.shift != 0),
   r || 12 ≤ st.asel || 12 ≤ st.bsel || 12 ≤ st.csel)

/-- The failures of the chain table, entry by entry; an all-zero entry is valid (R155). STAGES above 8 and reserved
encodings are met here, before any word that R158 would judge by them (log entry 78). -/
def State.chainErrs (s : State) (ct base : Nat) : List LoadErr :=
  (s.table ct 256 64).zipIdx.flatMap fun x =>
    let e := x.1
    let n := bitsAt e 256 8
    let ws := (List.range 8).map fun i => bitsAt e (32 * i) 32
    errsAt 0 (base + x.2) [
      (((ws.take n).any fun w => (stageBad w).1) || (ws.drop n).any (· != 0) || bitsAt e 267 5 != 0 ||
        bitsAt e 292 4 != 0 || bitsAt e 296 88 != 0, 2, Codes.loadReservedZero),
      (((ws.take n).any fun w => (stageBad w).2) || decide (8 < n) || bitsAt e 264 3 == 7, 3, Codes.loadEncoding)]

/-! ## Regions (R288, R289) -/

def RegEntry.has (e : RegEntry) (b : Nat) : Bool := e.attr.testBit b

def regOverlap (a b m n : Nat) : Bool := a < m + n && m < a + b

/-- Does a resident region match a table entry of its number in ORIGIN, SIZE and ATTR? -/
def Region.matches (r : Region) (e : RegEntry) : Bool :=
  r.originRow * 2048 == e.origin && r.sizeRows * 2048 == e.size &&
    e.attr == (1 + boolBit r.isSealed * 2 + boolBit r.keyring * 4 + boolBit r.remote * 8)

/-- The failures of the region table (Table 9.2, in its order), entry by entry. A DEPTH above 8 is a field out of range (log
entry 98). -/
def State.regionErrs (s : State) (f : FrameNo) (frame : Nat) (raw : List Nat) : List LoadErr :=
  let es := raw.map decodeRegion
  let res := (s.frame f).regions.filter (·.resident)
  let undecl := res.filter fun r => !es.any (·.number == r.number)
  raw.zipIdx.flatMap fun x =>
    let e := decodeRegion x.1
    let before := es.take x.2
    let src (k : Nat) : Credit := e.srcs.getD k {}
    errsAt frame (1 + x.2) [
      (e.size == 0 || (e.has 2 && e.depth == 0) || (!e.has 2 && e.depth != 0) || 16 ≤ e.attr ||
        bitsAt x.1 24 8 != 0 || bitsAt x.1 96 32 != 0 || bitsAt x.1 140 4 != 0 || bitsAt x.1 150 10 != 0 ||
        bitsAt x.1 204 4 != 0 || bitsAt x.1 214 10 != 0, 2, Codes.loadReservedZero),
      (decide (8 < e.depth) || decide (4096 < (src 0).rows) || decide (4096 < (src 1).rows), 3, Codes.loadEncoding),
      (decide (8388608 < e.origin + e.size) || before.any (fun b => regOverlap e.origin e.size b.origin b.size) ||
        undecl.any (fun r => regOverlap e.origin e.size (r.originRow * 2048) (r.sizeRows * 2048)) ||
        res.any (fun r => r.number == e.number && !r.matches e), 4, Codes.loadFootprint),
      (e.origin % 2048 != 0 || e.size % 2048 != 0 || decide (8388608 < e.size) ||
        before.any (·.number == e.number) || decide (64 < x.2 + 1 + undecl.length) ||
        (e.has 2 && e.attr != 4) || decide (4 < ((es.take (x.2 + 1)).filter (·.has 2)).length), 4,
        Codes.loadDescriptorInvalid),
      (e.srcs.any (fun c => c.rows != 0 && (!e.has 3 || e.size / 2048 < c.rows)) ||
        ((src 0).rows != 0 && (src 1).rows != 0 && (src 0).dev == (src 1).dev && (src 0).frame == (src 1).frame),
        4, Codes.loadDescriptorInvalid)]

/-- A region as a region-table entry makes it at a program's start (R291, R303). -/
def regionOf (e : RegEntry) (owner : Nat) : Region := {
  number := e.number, resident := e.has 0, isSealed := e.has 1, keyring := e.has 2, remote := e.has 3, owner
  originRow := e.origin / 2048, sizeRows := e.size / 2048
  credits := e.srcs.filter (·.rows != 0)
  ring := if e.has 2 then some { depth := e.depth } else none }

/-- The lowest free slot of the 64 a frame has (R288). -/
def freeSlot (used : List Nat) : Nat := ((List.range 64).find? (!used.contains ·)).getD 0

/-- The declared regions, each with its slot: a resident region keeps its slot and owner until it is freed
(R294, R297), and a new one takes the lowest free slot. -/
def declaredRegions (held : List Region) (func : Nat) : List RegEntry → List Nat → List Region
  | [], _ => []
  | e :: es, used =>
    match held.find? (·.number == e.number) with
    | some r => { regionOf e r.owner with slot := r.slot } :: declaredRegions held func es used
    | none => { regionOf e func with slot := freeSlot used } :: declaredRegions held func es (freeSlot used :: used)

/-- The regions of a frame from a program's start on: the declared ones, and resident regions the program
does not declare. -/
def Frame.startRegions (fr : Frame) (rtab : List RegEntry) (func : Nat) : List Region :=
  let held := fr.regions.filter (·.resident)
  declaredRegions held func rtab (held.map (·.slot)) ++
    (held.filter fun r => !(rtab.any (·.number == r.number))).map fun (r : Region) => { r with overrun := false }

/-! ## Descriptors (R94, R96) -/

/-- A zero-reserved field that is zero, or a reserved bit or field that is not (Tables 3.7 and 3.11). -/
def descZeroBad (raw : Nat) : Bool :=
  let d := decodeDesc raw
  let ten := d.kind == kTensor
  let int := d.kind == kPlain && 4 ≤ d.etype && d.etype ≤ 6
  let key := d.kind == kKey
  let galoisUsed := key && (d.keytype == 1 || d.keytype == 2)
  d.kind == 0 || descReservedBits raw || d.etype == 0 || d.layout == 0 ||
  (if ten then d.logN != 0 || d.level != 0 || d.pset != 0 || d.comps != 0
    else d.logN == 0 || d.level == 0 || d.pset == 0 || d.comps == 0) ||
  ((ten || d.kind == kPlain || d.kind == kShare || d.kind == kTriple) && d.special != 0) ||
  ((ten || int) && (d.domain != 0 || d.form != 0 || d.capacity != 0 || d.ccap != 0)) ||
  (!ten && !int && (d.capacity == 0 || d.ccap == 0)) ||
  (!key && (d.keyform != 0 || d.keytype != 0)) || (galoisUsed && d.galois == 0) || (!galoisUsed && d.galois != 0) ||
  (d.kind != kShare && d.kind != kTriple && d.party != 0) ||
  (if d.tagged then d.keyTag == 0 else d.keyTag != 0) ||
  (!d.scaled && d.scale != 0) || (!d.noisy && d.noise != 0) ||
  (!ten && (d.dim0 != 0 || d.dim1 != 0 || d.dim2 != 0 || d.dim3 != 0))

/-- SCHEME and COMPONENTS that Table 3.11 allows a kind. -/
def kindAllows (d : Desc) : Bool :=
  match d.kind with
  | 1 => (1 ≤ d.scheme && d.scheme ≤ 3) && (d.comps == 2 || d.comps == 3)
  | 2 => (1 ≤ d.scheme && d.scheme ≤ 3) && d.comps == 1
  | 3 => (1 ≤ d.scheme && d.scheme ≤ 3) && d.comps == 2
  | 4 => d.scheme == 4 && d.comps == 1
  | 5 => d.scheme == 0
  | 6 => d.scheme == 4 && d.comps == 3
  | _ => false

/-- Row 2 of Table 3.12 that the descriptor shows by itself. -/
def descRangeBad (d : Desc) (declared : Nat → Bool) : Bool :=
  let ten := d.kind == kTensor
  !kindAllows d || d.location == 3 || 7 ≤ d.etype || 4 ≤ d.layout || d.keyform == 3 ||
  (if ten then d.layout != 3
    else if d.intPlain then d.layout != 3
    else d.etype != 1 || d.layout == 3 || 128 < d.capacity) ||
  (!ten && (d.logN < 10 || 17 < d.logN || 112 < d.level || 63 < d.pset)) ||
  (if ten then d.base % max 1 (etypeBits d.etype / 8) != 0 else d.base % 2048 != 0) ||
  (d.kind == kKey && ((d.keyform == 2 && (d.keytype == 0 || d.keytype == 3)) ||
    (d.keyform == 1 && (d.layout != 1 || d.ccap != 2 || d.location == 1)))) ||
  (d.location == 1 && !declared d.region)

/-- Row 2 of Table 3.12 that needs the prime set. -/
def descSetBad (d : Desc) (p : PSet) : Bool :=
  p.nq < d.level || p.logNMax < d.logN || (d.special != 0 && d.special != p.np) ||
  ((d.scheme == 2 || d.scheme == 3) && p.t == 0) || ((d.scheme == 1 || d.scheme == 4) && p.t != 0) ||
  (d.kind == kKey && d.keytype == 1 && !(d.galois % 2 == 1 && 3 ≤ d.galois && d.galois ≤ 2 * d.n - 3)) ||
  (d.kind == kKey && d.keytype == 2 && d.galois != 2 * d.n - 1)

/-- A footprint with LOCATION DEVICE that leaves what a program of the function may reach: device memory,
the scratchpad window of one frame, or for the PF the register alias window (R96, R424). -/
def State.deviceFootBad (s : State) (n : FuncNo) (a len : Nat) : Bool :=
  len != 0 &&
  match s.place a with
  | .mem => !s.spanOk n a len
  | .spad f off => !(s.reach n a && off + len ≤ 0x800000 && hasFrame s.global.funcs[n].frames f)
  | .regs off => n.val != 0 || 0x8000000 < off + len
  | .unmapped => true

/-- How the words of a stream use a descriptor: as an engine operand, a transfer's destination, or a Feeder
word's other operand. -/
inductive Use where
  | engine | dest | feeder
deriving DecidableEq, Repr

/-- The failures of a descriptor the program references (Table 3.12, in its order). -/
def State.descErrs (s : State) (n : FuncNo) (rtab : List RegEntry) (frame item raw : Nat) (uses : List Use) : List LoadErr :=
  let d := decodeDesc raw
  let p? := s.pset? d.pset
  let p := p?.getD {}
  let ten := d.kind == kTensor
  let ring := !ten && !d.intPlain
  let bytes := d.bytes p
  errsAt frame item [
    (descZeroBad raw, 2, Codes.loadReservedZero),
    (descRangeBad d (fun r => rtab.any (·.number == r)) ||
      (d.location == 2 && (uses.contains .engine || uses.contains .feeder)) ||
      (!ten && p?.isSome && descSetBad d p), 4, Codes.loadDescriptorInvalid),
    (!ten && p?.isNone, 4, Codes.loadPrimeInvalid),
    ((ring && (d.ccap < d.comps || d.capacity < d.level || (d.special != 0 && d.capacity < d.level + p.np))) ||
      (d.location == 1 && (match rtab.find? (·.number == d.region) with | some e => decide (e.size < bytes) | none => false)) ||
      (d.location == 0 && (s.deviceFootBad n d.base bytes ||
        (uses.contains .engine && bytes != 0 && s.usable < d.base + bytes))), 4, Codes.loadFootprint)]

/-! ## Transfer records (R311, R322) -/

def XRec.bit (x : XRec) (i : Nat) : Bool := x.mode.getLsbD i

/-- The sources named for a REMOTE region across its entry and the GRANT records of a frame (R303, R322). -/
def grantSources (e : RegEntry) (xs : List XRec) : List (Nat × Nat) :=
  ((e.srcs.filter (·.rows != 0)).map (fun c => (c.dev, c.frame)) ++
    (xs.filter fun x => x.kind == 4 && x.gRegion == e.number).map fun x => (x.gDev, x.gFrame)).eraseDups

/-- R322's rules on a GATHER, SCATTER or COPY that the record shows by itself. -/
def xrecShapeBad (x : XRec) : Bool :=
  let c (d : Nat) : Nat := x.count.getD d 0
  let pad (d : Nat) : Nat := x.padlo.getD d 0 + x.padhi.getD d 0
  (x.bit 1 && (x.kind != 1 || c 0 < 1 || 256 < c 0 || c 1 < 1 || 256 < c 1)) ||
  (List.range 4).any (fun d => pad d != 0 && (if x.bit 2 then c d < pad d else c d ≤ pad d)) ||
  (x.kind != 1 && [1, 2, 3].any fun d => pad d != 0) ||
  (x.kind == 2 && (x.sstr.getD 2 0 != 0 || x.sstr.getD 3 0 != 0)) ||
  (x.kind == 3 && (x.dstr.getD 2 0 != 0 || x.dstr.getD 3 0 != 0))

/-- The failures of a transfer record that it shows by itself. -/
def xrecErrs (rtab : List RegEntry) (xs : List XRec) (frame item raw : Nat) : List LoadErr :=
  let x := decodeXRec raw
  if x.kind = 4 then
    errsAt frame item [
      (bitsAt raw 8 8 != 0 || bitsAt raw 24 8 != 0 || bitsAt raw 44 4 != 0 || bitsAt raw 54 10 != 0 ||
        bitsAt raw 96 416 != 0, 2, Codes.loadReservedZero),
      (decide (4096 < x.gRows), 3, Codes.loadEncoding),
      ((match rtab.find? (·.number == x.gRegion) with
        | some e => !e.has 3 || decide (4 < (grantSources e xs).length)
        | none => true), 4, Codes.loadDescriptorInvalid)]
  else
    errsAt frame item [
      (x.kind == 0 || x.bit 7 || bitsAt raw 24 8 != 0 || (!x.bit 2 && x.fill != 0) ||
        (!x.bit 0 && x.prime != 0) || bitsAt raw 496 16 != 0, 2, Codes.loadReservedZero),
      (decide (4 < x.kind) || decide (4096 < x.advrows), 3, Codes.loadEncoding),
      (xrecShapeBad x, 4, Codes.loadDescriptorInvalid)]

/-! ## The frame record -/

/-- The failures of a frame record (Table 7.13, R247, R248). -/
def State.recordErrs (s : State) (n : FuncNo) (f : FrameNo) (frame a : Nat) : List LoadErr :=
  let b := s.rd a 128
  let g (byte len : Nat) : Nat := bitsAt b (8 * byte) (8 * len)
  errsAt frame 0 [
    (g 1 3 != 0 || g 26 6 != 0 || g 73 7 != 0 || g 90 38 != 0 || [16, 64, 80].any (fun x => g (x + 6) 2 != 0), 2,
      Codes.loadReservedZero),
    (decide (512 < g 24 2) || decide (256 < g 88 2) || decide (63 < g 0 1), 3, Codes.loadEncoding),
    (g 0 1 != f.val || [16, 64, 80].any (fun x => g x 8 % 64 != 0), 4, Codes.loadDescriptorInvalid),
    (!(s.spanOk n (g 16 8) (64 * g 24 2) && s.spanOk n (g 64 8) (32 * g 72 1) && s.spanOk n (g 80 8) (64 * g 88 2)),
      4, Codes.loadFootprint)]

end Sys2Proof.Machine
end

