-- ==== Sys2Proof/Machine/Transform.lean ====
section
/-!
DEFINITION. The Transform, Basis and Permute Engines (chapter 4): NTT.F, NTT.I, BCONV, KSIP, PMAT, AUT
and TRP.
-/

namespace Sys2Proof.Machine

open Sys2Proof

/-! ## Transforms (R114 to R125) -/

/-- The transform check interval D of the redundancy profile (R124). -/
def checkInterval (profile : Nat) : Nat := if profile = 0 then 16 else if profile = 1 then 4 else 1

/-- Of `l` limbs whose counter values start at `k`, is one checked (R124)? -/
def anyChecked (k l profile : Nat) (check : Bool) : Bool :=
  check || (List.range l).any fun i => (k + i) % checkInterval profile == 0

/-- The two lines of a position's twiddles (R143). -/
def twiddleLines (p : PSet) (pos : Nat) : List Nat :=
  let b := (p.constBase + 0x3000 + pos * 0x1000) / 2048
  [b, b + 1]

/-- A 32-bit word of the constant area (R142). -/
def constWord (rd : Reader) (a : Nat) : Nat :=
  match rd.consts.find? (·.line == a / 2048) with
  | some c => memReadNat c.cells a 4
  | none => 0

/-- A power of ψ_set in M-form, the product of two words of the position's twiddle block (R143). -/
def twiddle (rd : Reader) (p : PSet) (pos q x : Nat) : Nat :=
  let b := p.constBase + 0x3000 + pos * 0x1000
  mont (constWord rd (b + 4 * (x % 512))) (constWord rd (b + 4 * (512 + x / 512))) q

/-- One limb of a transform (R114), with the powers that the area's words give: ψ is the power
2^LOG_N_MAX / N of ψ_set, and an inverse power turns the sign of a power from the other half (R143). -/
def State.transform (s : State) (rd : Reader) (fwd : Bool) (p : PSet) (pos logN : Nat) (a : List Nat) : List Nat :=
  let q := (s.primeAt p pos).q.toNat
  let step := 2 ^ p.logNMax / 2 ^ logN
  let half := 2 ^ p.logNMax
  let pw (x : Nat) : Nat := twiddle rd p pos q (x * step)
  let ipw (x : Nat) : Nat :=
    let e := x * step
    if e ≤ half then (q - twiddle rd p pos q (half - e) % q) % q else twiddle rd p pos q (2 * half - e)
  if fwd then nttF a logN pw q else nttI a logN ipw q

/-- The comparison of R123 on a limb's words as read and as written. -/
def sumsAgree (fwd : Bool) (q : Nat) (v out : List Nat) : Bool :=
  if fwd then out.sum % q == v.length * v.headD 0 % q else v.sum % q == v.length * out.headD 0 % q

/-- The issue of NTT.F or NTT.I (R115 to R118, R123, R584). The first limb after a program's start takes K = 0 (log entry
89). -/
def State.nttIssue (s : State) (f : FrameNo) (fwd : Bool) (i : Iss) : State :=
  let w := i.w
  let op : Op := if fwd then .nttF else .nttI
  let l := fld w 94 8
  if l = 0 then s.startNothing f i op else
  let fr := s.frame f
  let a := slot fr.rn.dtab (wA w)
  let d := slot fr.rn.dtab (wD w)
  let ps := s.pset a.pset
  let first := fld w 80 7
  let dfirst := fld w 87 7
  let spread := fwd && flag1 w 102
  let sc := srcComp a (fld w 76 2)
  let src (k : Nat) : Nat := if spread then first else first + k
  let nd := { deriveFrom d a with domain := if fwd then 1 else 0 }
  let pre := [
    (ringDiff d a || a.domain != (if fwd then 0 else 1) || (spread && a.form == 1) ||
      limbsBad first (if spread then 1 else l) a || limbsBad dfirst l nd || compsBad (fld w 76 2) 1 a,
      Codes.operandMismatch),
    (tagBad [a] i.r.keyTag, Codes.keyTagMismatch)]
  let chk := s.checkAll i.p pre nd a.scale [a] none
  let checked := anyChecked fr.rn.kcount l s.global.profile.toNat (flag1 w 103)
  let x : Ops := {
    dests := [{ slot := wD w, d, derived := chk.1 }], src := a, descs := [a], code := chk.2
    rows := dedup ((List.range (if spread then 1 else l)).flatMap fun k =>
      s.limbRows f a sc (limbSlot a ps.np (src k)))
    consts := (List.range l).flatMap fun k => twiddleLines ps (limbPos a.level (dfirst + k)) }
  let s := s.updFrame f fun fr => { fr with rn := { fr.rn with kcount := fr.rn.kcount + l } }
  let pos (k : Nat) : Nat := limbPos a.level (dfirst + k)
  let input (s : State) (rd : Reader) (k : Nat) : List Nat :=
    s.limb f rd a sc (limbSlot a ps.np (src k)) (s.primeAt ps (pos k)).q.toNat
  let fails (s : State) (rd : Reader) (k : Nat) : Bool :=
    anyChecked (fr.rn.kcount + k) 1 s.global.profile.toNat (flag1 w 103) &&
      !sumsAgree fwd (s.primeAt ps (pos k)).q.toNat (input s rd k) (s.transform rd fwd ps (pos k) a.logN (input s rd k))
  s.startWhole f i op x (checked := checked) (badLimb := fun s rd => ((List.range l).find? (fails s rd)).map (dfirst + ·))
    fun s rd => (List.range l).flatMap fun k =>
      s.limbChunks f d (fld w 78 2) (limbSlot chk.1 ps.np (dfirst + k))
        (s.transform rd fwd ps (pos k) a.logN (input s rd k)) (fun _ => [])

/-! ## Base conversion (R129 to R134) -/

/-- The set positions of the rows of a BCONV (Table 4.1). -/
def bconvRowPos (p : PSet) (mode digit pair level : Nat) : List Nat :=
  let m := bconvRows p mode digit pair level
  match mode with
  | 0 => (List.range m).map (digit * p.alpha + ·)
  | 1 => (List.range m).map (112 + ·)
  | _ => (List.range m).map (level - m + ·)

/-- The set positions of its columns (Table 4.1). -/
def bconvColPos (p : PSet) (mode digit pair level : Nat) : List Nat :=
  match mode with
  | 0 => (List.range p.np).map (112 + ·) ++
      (List.range level).filter fun x => x < digit * p.alpha || digit * p.alpha + bconvRows p 0 digit pair level ≤ x
  | 1 => List.range level
  | _ => List.range (level - bconvRows p mode digit pair level)

/-- The extended limb index of a set position at a level. -/
def posLimb (level pos : Nat) : Nat := if pos < 112 then pos else level + (pos - 112)

/-- α_d, the full size of a digit. -/
def PSet.digitSize (p : PSet) (d : Nat) : Nat := min p.alpha (p.nq - d * p.alpha)

/-- The byte offset of the matrix row r of EXT and DOWN from CONST_BASE, given DIR's word (Table 4.2). -/
def matrixRow (p : PSet) (mode digit dir r : Nat) : Nat :=
  if mode = 0 then dir + r * (ceilDiv (p.np + p.nq - p.digitSize digit + 1) 16 * 64) else 0xA3000 + r * 512

/-- Prescale of row `r` and constant of row `r` and column `t`: from the area, or derived by R131. -/
def State.bconvPre (s : State) (p : PSet) (rd : Reader) (mode digit level dir m r : Nat) : Nat :=
  if mode = 2 then
    if m = 1 then (s.primeAt p (level - 1)).rModQ.toNat
    else
      let me := level - 2 + r
      let other := level - 1 - r
      constWord rd (p.constBase + 0x83000 + (128 * me + other) * 4)
  else constWord rd (p.constBase + matrixRow p mode digit dir r)

def State.bconvCon (s : State) (p : PSet) (rd : Reader) (mode digit level dir m r t col : Nat) : Nat :=
  if mode = 2 then
    let q := (s.primeAt p col).q.toNat
    if m = 1 then (s.primeAt p col).rModQ.toNat
    else toM (s.primeAt p (level - 1 - r)).q.toNat q
  else constWord rd (p.constBase + matrixRow p mode digit dir r + 4 * (t + 1))

/-- The value of one column at one position (R130): the exact sum of products, times 2^-32 mod p. -/
def bconvVal (p : Nat) (ys cs : List Nat) : Nat :=
  let acc := ((ys.zip cs).map fun x => x.1 * x.2).sum
  acc * invPrime (2 ^ 32 % p) p % p

/-- The lines of the constant area a BCONV reads. -/
def bconvLines (p : PSet) (mode digit m dir : Nat) : List Nat :=
  let span (o n : Nat) : List Nat := linesOf (p.constBase + o) n
  dedup (match mode with
  | 0 => span (0x100 + 4 * (digit * p.alpha + m - 1)) 4 ++
      span dir (m * (ceilDiv (p.np + p.nq - p.digitSize digit + 1) 16 * 64))
  | 1 => span 0xA3000 (m * 512)
  | _ => [])

/-- The issue of BCONV. A component at or past the source's COMPONENTS is read where R95 would place it (log entry 90). -/
def State.bconvIssue (s : State) (f : FrameNo) (i : Iss) : State :=
  let w := i.w
  let dt := (s.frame f).rn.dtab
  let a := slot dt (wA w)
  let d := slot dt (wD w)
  let ps := s.pset a.pset
  let mode := fld w 76 2
  let digit := fld w 78 3
  let pair := fld w 83 1
  let sc := fld w 81 2
  let r := if pair = 1 then 2 else 1
  let levelBad : Bool :=
    match mode with
    | 0 => a.special != 0 || ps.np == 0 || decide (a.level ≤ digit * ps.alpha)
    | 1 => a.special != ps.np || ps.np == 0
    | _ => a.special != 0 || decide (a.level ≤ r)
  let nd := { deriveFrom d a with
    level := if mode = 2 then a.level - r else a.level, special := if mode = 0 then ps.np else 0
    comps := 1, domain := 0 }
  let pre := [(ringDiff d a || a.domain != 0, Codes.operandMismatch),
    (tagBad [a] i.r.keyTag, Codes.keyTagMismatch), (levelBad, Codes.levelExhausted)]
  let chk := s.checkAll i.p pre nd a.scale [a] none
  let rp := bconvRowPos ps mode digit pair a.level
  let m := rp.length
  -- DIR is read before the matrix it names (Table 4.2)
  let dirLine := if mode = 0 then [(ps.constBase + 0x100 + 4 * (digit * ps.alpha + m - 1)) / 2048] else []
  let inv := if mode = 2 ∧ r = 2 then
      [(ps.constBase + 0x83000 + (128 * (a.level - 2) + (a.level - 1)) * 4) / 2048,
       (ps.constBase + 0x83000 + (128 * (a.level - 1) + (a.level - 2)) * 4) / 2048] else []
  let dir := if mode = 0 then memReadNat s.mem (ps.constBase + 0x100 + 4 * (digit * ps.alpha + m - 1)) 4 else 0
  let x : Ops := {
    dests := [{ slot := wD w, d, derived := chk.1 }], src := a, descs := [a], code := chk.2
    rows := dedup (rp.flatMap fun pos => s.limbRows f a sc (limbSlot a ps.np (posLimb a.level pos)))
    consts := dedup (dirLine ++ inv ++ bconvLines ps mode digit m dir) }
  s.startWhole f i .bconv x fun s rd =>
    let rowQ := rp.map fun pos => (s.primeAt ps pos).q.toNat
    let rows := rp.map fun pos =>
      s.limb f rd a sc (limbSlot a ps.np (posLimb a.level pos)) (s.primeAt ps pos).q.toNat
    (bconvColPos ps mode digit pair a.level).zipIdx.flatMap fun ct =>
      let q := (s.primeAt ps ct.1).q.toNat
      let cs := (List.range m).map fun k => s.bconvCon ps rd mode digit a.level dir m k ct.2 ct.1
      let vals := (List.range d.n).map fun n =>
        let ys := (List.range m).map fun k =>
          mont ((rows.getD k []).getD n 0) (s.bconvPre ps rd mode digit a.level dir m k) (rowQ.getD k 1)
        bconvVal q ys cs
      s.limbChunks f d 0 (limbSlot chk.1 ps.np (posLimb chk.1.level ct.1)) vals (fun _ => [])

/-! ## Key-switching inner product (R135 to R137, R197, R207, R208) -/

/-- The form of a product as a descriptor field, and whether Table 3.1 allows it. -/
def mulFormBit (a b : Nat) : Option Nat :=
  if a = 1 ∧ b = 1 then some 1 else if a = 0 ∧ b = 0 then none else some 0

/-- The scratchpad address of word `j` of component `c` of the tile `k` slots past a ring's head (R201). -/
def tileAddr (f : FrameNo) (r : Region) (n k c j : Nat) : Nat :=
  match r.ring with
  | none => nowhere
  | some g => if g.depth = 0 then nowhere else
      spadAddr f (r.originRow * 2048 + ((g.head + k) % g.depth) * (8 * n) + c * (4 * n) + 4 * j)

/-- The rows of one component of a tile. -/
def tileRows (f : FrameNo) (r : Region) (n k c : Nat) : List Nat :=
  (List.range (n / 512)).map fun x => tileAddr f r n k c (512 * x) / 2048

/-- The issue of KSIP. -/
def State.ksipIssue (s : State) (f : FrameNo) (i : Iss) : State :=
  let w := i.w
  let l := fld w 86 8
  if l = 0 then s.startNothing f i .ksip else
  let fr := s.frame f
  let dt := fr.rn.dtab
  let e := slot dt (wA w)
  let k := slot dt (wB w)
  let d := slot dt (wD w)
  let ps := s.pset e.pset
  let digit := fld w 76 3
  let first := fld w 79 7
  let acc := flag1 w 94
  let ring := flag1 w 95
  let reg := (fr.region? (fld w 96 8)).getD {}
  let form := mulFormBit e.form k.form
  let nd := { deriveFrom d e with comps := 2, domain := 1, form := form.getD e.form }
  let srcs := if acc then [e, k, d] else [e, k]
  let accBad := acc && (d.level != nd.level || d.special != nd.special || d.form != nd.form || d.keyTag != nd.keyTag)
  let pre := [
    (ringDiff d e || ringDiff k e || e.domain != 1 || k.domain != 1 || d.domain != 1 || k.kind != kKey ||
      k.keytype == 3 || k.comps != 2 || k.level != e.level || e.special != ps.np || k.special != ps.np ||
      form.isNone || limbsBad first l e || limbsBad first l nd || accBad, Codes.operandMismatch),
    (tagBad srcs i.r.keyTag, Codes.keyTagMismatch),
    (decide (ceilDiv e.level ps.alpha ≤ digit), Codes.levelExhausted)]
  let chk := s.checkAll i.p pre nd e.scale srcs (some (fld w 105 8))
  let kd := { k with base := k.base + digit * 2 * k.capacity * k.n * 4 }
  let limbs := List.range l
  let x : Ops := {
    dests := [{ slot := wD w, d, derived := chk.1 }], src := e, descs := srcs, code := chk.2
    rows := dedup (limbs.flatMap fun t =>
      s.limbRows f e 0 (limbSlot e ps.np (first + t)) ++
      (if ring then tileRows f reg e.n t 0 ++ tileRows f reg e.n t 1
        else s.limbRows f kd 0 (limbSlot k ps.np (first + t)) ++ s.limbRows f kd 1 (limbSlot k ps.np (first + t))) ++
      (if acc then s.limbRows f d 0 (limbSlot d ps.np (first + t)) ++
        s.limbRows f d 1 (limbSlot d ps.np (first + t)) else [])) }
  let free := if ring && flag1 w 104 then [Pend.freeTiles (fld w 96 8) l] else []
  s.startWhole f i .ksip x (pend := free) fun s rd =>
    limbs.flatMap fun t =>
      let q := (s.primeAt ps (limbPos e.level (first + t))).q.toNat
      let ev := s.limb f rd e 0 (limbSlot e ps.np (first + t)) q
      [0, 1].flatMap fun c =>
        let kv := if ring then (List.range e.n).map fun j => s.engNat rd (tileAddr f reg e.n t c j) 4 % q
          else s.limb f rd kd c (limbSlot k ps.np (first + t)) q
        let av := if acc then s.limb f rd d c (limbSlot d ps.np (first + t)) q else ev.map fun _ => 0
        let vals := ((ev.zip kv).zip av).map fun p => (mont p.1.1 p.1.2 q + p.2) % q
        s.limbChunks f d c (limbSlot chk.1 ps.np (first + t)) vals (fun _ => [])

/-! ## Plaintext-matrix product (R138 to R141) -/

/-- The weight W(i, r, o) times an input word, mod q (R139): an M-form residue, or a signed integer. -/
def State.pmatTerm (s : State) (f : FrameNo) (rd : Reader) (wt : Desc) (li r o x q : Nat) : Nat :=
  if wt.etype = 1 then mont (s.elem f rd wt (o + 32 * (r + 16 * li)) % q) x q
  else intMod (elemInt wt.etype (s.elem f rd wt (o + 32 * r)) * (x : Int)) q

/-- The issue of PMAT. Where its inputs differ in SCALE or COMPONENTS, which R98 does not compare, the first input's stand
for all (log entry 73). -/
def State.pmatIssue (s : State) (f : FrameNo) (i : Iss) : State :=
  let w := i.w
  let ni := fld w 76 5
  let no := fld w 81 6
  if ni = 0 ∨ no = 0 then s.startNothing f i .pmat else
  let dt := (s.frame f).rn.dtab
  let ins := (List.range ni).map fun r => slot dt (wA w + r)
  let outs := (List.range no).map fun o => slot dt (wD w + o)
  let wt := slot dt (wB w)
  let a := slot dt (wA w)
  let ps := s.pset a.pset
  let acc := flag1 w 107
  let srcs := ins ++ [wt] ++ (if acc then outs else [])
  let agree (d : Desc) : Bool :=
    ringDiff d a || d.level != a.level || d.special != a.special || d.domain != a.domain || d.form != a.form
  let pre := [
    (ins.any agree || outs.any (ringDiff · a) || (acc && outs.any agree), Codes.operandMismatch),
    (tagBad srcs i.r.keyTag, Codes.keyTagMismatch)]
  let derived := outs.map fun d =>
    s.checkAll i.p pre (deriveFrom d a) (a.scale + fld w 87 20 : Nat) srcs (some (fld w 108 8))
  let comps := List.range a.comps
  let limbs := List.range a.level
  let objRows (d : Desc) : List Nat := limbs.flatMap fun li => comps.flatMap fun c => s.limbRows f d (srcComp d c) li
  let x : Ops := {
    dests := (List.range no).map fun o =>
      { slot := wD w + o, d := outs.getD o {}, derived := (derived.getD o ({}, none)).1 }
    src := a, descs := srcs, code := (derived.findSome? (·.2))
    rows := dedup (ins.flatMap objRows ++
      s.objRows f wt 0 ((if wt.etype = 1 then 512 * a.level else 512) * etypeBits wt.etype / 8) ++
      (if acc then outs.flatMap objRows else [])) }
  s.startWhole f i .pmat x fun s rd =>
    (List.range no).flatMap fun o =>
      let d := outs.getD o {}
      comps.flatMap fun c => limbs.flatMap fun li =>
        let q := (s.primeAt ps li).q.toNat
        let vals := (List.range a.n).map fun n =>
          let base := if acc then s.coef f rd d c li n % q else 0
          (base + ((List.range ni).map fun r =>
            let x := ins.getD r {}
            s.pmatTerm f rd wt li r o (s.coef f rd x (srcComp x c) li n % q) q).sum) % q
        s.limbChunks f d c li vals (fun _ => [])

/-! ## The Permute Unit (R145 to R148) -/

/-- The automorphism X → X^g on coefficients (DOMAIN 0): coefficient i goes to t = i·g mod 2N, with its
sign turned where t ≥ N. -/
def autCoef (a : List Nat) (logN g q : Nat) : List Nat :=
  let n := 2 ^ logN
  (List.range n).map fun k =>
    let i := k * (invMod? g (2 * n)).getD 1 % (2 * n)
    if i < n then a.getD i 0 else (q - a.getD (i - n) 0) % q

/-- The automorphism on slots (DOMAIN 1). -/
def autSlot (a : List Nat) (logN g : Nat) : List Nat :=
  (List.range (2 ^ logN)).map fun j =>
    let x := g * (2 * brv logN j + 1) % (2 * 2 ^ logN)
    a.getD (brv logN ((x - 1) / 2)) 0

/-- The issue of AUT. A word with a zero count writes nothing (R16, R584). -/
def State.autIssue (s : State) (f : FrameNo) (i : Iss) : State :=
  let w := i.w
  let l := fld w 87 8
  let cc := fld w 78 2
  let dt := (s.frame f).rn.dtab
  let a := slot dt (wA w)
  let d := slot dt (wD w)
  let ps := s.pset a.pset
  let first := fld w 80 7
  let fc := fld w 76 2
  let g := fld w 95 18
  let nd := deriveFrom d a
  let named := limbsBad first l a || limbsBad first l nd || compsBad fc cc a
  if l = 0 ∨ cc = 0 then s.startNamed f i .aut (named && a.mark.isNone) d (s.footRows f d) else
  let pre := [
    (ringDiff d a || named, Codes.operandMismatch),
    (tagBad [a] i.r.keyTag, Codes.keyTagMismatch)]
  let chk := s.checkAll i.p pre nd a.scale [a] none
  let pairs := (List.range cc).flatMap fun c => (List.range l).map fun k => (fc + c, first + k)
  let x : Ops := {
    dests := [{ slot := wD w, d, derived := chk.1 }], src := a, descs := [a], code := chk.2
    rows := dedup (pairs.flatMap fun p => s.limbRows f a (srcComp a p.1) (limbSlot a ps.np p.2)) }
  s.startWhole f i .aut x fun s rd =>
    pairs.flatMap fun p =>
      let q := (s.primeAt ps (limbPos a.level p.2)).q.toNat
      let v := s.limb f rd a (srcComp a p.1) (limbSlot a ps.np p.2) q
      s.limbChunks f d p.1 (limbSlot chk.1 ps.np p.2)
        (if a.domain = 0 then autCoef v a.logN g q else autSlot v a.logN g) (fun _ => [])

/-- The issue of TRP (R148): destination element (…, a, b) is source element (…, b, a). -/
def State.trpIssue (s : State) (f : FrameNo) (i : Iss) : State :=
  let w := i.w
  let dt := (s.frame f).rn.dtab
  let a := slot dt (wA w)
  let d := slot dt (wD w)
  if a.extent = 0 ∨ d.extent = 0 then s.startNothing f i .trp else
  let x : Ops := {
    dests := [{ slot := wD w, d, derived := d }], src := a, descs := [a], code := none
    rows := s.footRows f a }
  s.startWhole f i .trp x fun s rd =>
    let vals := (List.range d.extent).map fun k =>
      let i0 := k % d.dim0
      let i1 := k / d.dim0 % d.dim1
      let rest := k / (d.dim0 * d.dim1)
      s.elem f rd a (i1 + a.dim0 * (i0 + a.dim1 * rest))
    s.tensorChunks f d vals (fun _ => [])

/-! ## The commands -/

def execNttF (f : FrameNo) (s : State) : Host.Outcome State Fault Refusal :=
  issueStep s f .nttF (s.nttIssue f true)

def execNttI (f : FrameNo) (s : State) : Host.Outcome State Fault Refusal :=
  issueStep s f .nttI (s.nttIssue f false)

def execBconv (f : FrameNo) (s : State) : Host.Outcome State Fault Refusal :=
  issueStep s f .bconv (s.bconvIssue f)

def execKsip (f : FrameNo) (s : State) : Host.Outcome State Fault Refusal :=
  issueStep s f .ksip (s.ksipIssue f)

def execPmat (f : FrameNo) (s : State) : Host.Outcome State Fault Refusal :=
  issueStep s f .pmat (s.pmatIssue f)

def execAut (f : FrameNo) (s : State) : Host.Outcome State Fault Refusal :=
  issueStep s f .aut (s.autIssue f)

def execTrp (f : FrameNo) (s : State) : Host.Outcome State Fault Refusal :=
  issueStep s f .trp (s.trpIssue f)

end Sys2Proof.Machine
end

