-- ==== Sys2Proof/Machine/Lane.lean ====
section
/-!
DEFINITION. The Lane Engine and the Key Synthesizer (chapter 5, R198 to R200): LCHAIN, LEXP, LRED,
SMUL.OPEN, SMUL.CLOSE, SRESHARE, NFLOOD, ENC.PK, SEXPORT, SIMPORT and KREGEN.
-/

namespace Sys2Proof.Machine

open Sys2Proof

/-! ## What Lane Engine words share -/

/-- A Lane Engine word's operands and its effects: a chunk list for each destination, its lane flags, its
TRAP mask, and further rows it marks and cells it writes at its last beat. -/
structure LaneOut where
  chunks : List (List Chunk) := []
  flags : BitVec 3 := 0
  extra : Writes := {}

/-- The first mark among rows. -/
def firstMark (ms : List (Nat × Mark)) : Option Mark := ms.head?.map (·.2)

/-- The issue of a Lane Engine word (R97, R106, R164, R165): poison moves row by row. A word with a sealed source raises
no flag (R166). -/
def State.startLane (s : State) (f : FrameNo) (i : Iss) (op : Op) (x : Ops) (isSealed : Bool) (trap : Nat)
    (rows : Dest → List Nat) (pend : List Pend) (body : State → Reader → LaneOut) (extra : Writes := {}) : State :=
  s.startChecked f i op x isSealed rows (pend ++ [.lane 0]) (extra := extra) fun s rd =>
    let o := body s rd
    let ws := o.chunks.map (s.laneWrites rd s.freeCtr)
    let ms := s.rowMarks rd (dedup (o.chunks.flatten.flatMap (·.rows)))
    let wr := ws.foldl Writes.add extra
    let wr := { wr with cells := wr.cells ++ o.extra.cells, marks := wr.marks ++ o.extra.marks
                        clears := wr.clears ++ o.extra.clears, foot := wr.foot ++ o.extra.foot }
    let flags := if x.descs.any (s.objSealed f) then 0 else o.flags
    let trapped := (flags &&& BitVec.ofNat 3 trap) != 0
    let s := (s.consume i.r.id f ms).startOp f i op wr (x.dests.map (·.slot)) (pend ++ [.lane flags])
      (execFault := if trapped then some Codes.laneFlags else none)
    s.pend f ((x.dests.zip ws).map fun p => .desc p.1.slot { p.1.derived with mark := firstMark p.2.marks })

/-- The rows of a destination's limbs a word covers. -/
def State.coverRows (s : State) (f : FrameNo) (d : Desc) (np : Nat) (pairs : List (Nat × Nat)) : List Nat :=
  dedup (pairs.flatMap fun p => s.limbRows f d p.1 (limbSlot d np p.2))

/-- The row of the 512 words from word 512·k of a limb. -/
def State.limbRow (s : State) (f : FrameNo) (d : Desc) (c i k : Nat) : Nat :=
  s.objAddr f d (coefOff d c i (512 * k)) / 2048

/-- The rows of elements 512·k to 512·k + 511 of an integer PLAINTEXT. -/
def State.intRows (s : State) (f : FrameNo) (d : Desc) (k : Nat) : List Nat :=
  s.objRows f d (elemOff (etypeBits d.etype) (512 * k)) (64 * etypeBits d.etype)

/-- The rows that feed row `k` of a limb from a source: the same row of its limb, or an integer
PLAINTEXT's elements. -/
def State.feedRows (s : State) (f : FrameNo) (a : Desc) (c e np k : Nat) : List Nat :=
  if a.intPlain then s.intRows f a k else [s.limbRow f a (srcComp a c) (limbSlot a np e) k]

/-- A source's element n as a residue mod q, and whether a RES32 word was q or more (R79, R163). -/
def State.laneElem (s : State) (f : FrameNo) (rd : Reader) (a : Desc) (c e np n q : Nat) : Nat × Bool :=
  if a.intPlain then (intMod (elemInt a.etype (s.elem f rd a n)) q, false)
  else
    let x := s.coef f rd a (srcComp a c) (limbSlot a np e) n
    (x % q, decide (q ≤ x))

/-- Are the rows that feed row `k` free of poison? Poisoned rows raise no flag (R164). -/
def State.liveRow (s : State) (rd : Reader) (rows : List Nat) : Bool := (s.rowMarks rd rows).isEmpty

/-- Is a flag raised by a lane of a limb whose row, fed by the rows that `feeds` names, is free of poison (R164)? -/
def State.liveLanes (s : State) (rd : Reader) (feeds : Nat → List Nat) (raised : List Bool) : Bool :=
  (List.range (ceilDiv raised.length 512)).any fun k =>
    s.liveRow rd (feeds k) && ((raised.drop (512 * k)).take 512).any (fun (b : Bool) => b)

/-! ## LCHAIN (R153 to R161) -/

/-- The source slots a chain names: S0 and those its selects hold. -/
def chainNames (c : Chain) : List Nat :=
  (List.range 4).filter fun k => k == 0 || c.stages.any fun st => st.asel == k + 1 || st.bsel == k + 1 || st.csel == k + 1

/-- The descriptor-table slot of S0 to S3. A word whose S3USE is 0 holds slot 0 there, which a chain that names S3 then
reads (log entry 74). -/
def chainSlot (w : BcWord) (k : Nat) : Nat :=
  match k with | 0 => wA w | 1 => wB w | 2 => wC w | _ => fld w 117 9

/-- The offset in the constant area of K for a mode, KSRC and set position (Table 5.5, R150). PAIRTOP at LEVEL 1, whose
word lies before the row, reads word 0 of the row (log entry 76). -/
def kOffset (mode ksrc level logN pos : Nat) : Nat :=
  let k := if mode = 1 then 1 else if mode = 2 then 2 else if mode = 3 then 3 else ksrc
  match k with
  | 1 => 0x83000 + (128 * pos + (level - 1)) * 4
  | 2 => 0x93000 + (128 * pos + (level - 2)) * 4
  | 3 => 0x1000 + pos * 64 + 48
  | 4 => 0x1000 + pos * 64 + 52
  | 5 => 0x1000 + pos * 64 + 56
  | _ => 0x1000 + pos * 64 + (4 + logN - 10) * 4

/-- The destination LEVEL of a mode (Table 5.6). -/
def modeLevel (mode level : Nat) : Nat :=
  if mode = 1 then level - 1 else if mode = 2 then level - 2 else level

/-- S0's requirements in modes 1 to 3 (Table 5.6). -/
def modeS0Bad (mode np : Nat) (a : Desc) : Bool :=
  match mode with
  | 0 => false
  | 1 => a.special != 0 || decide (a.level < 2)
  | 2 => a.special != 0 || decide (a.level < 3)
  | _ => a.special != np || np == 0

/-- S1's and S2's requirements in modes 1 to 3. -/
def modeOpsBad (mode level : Nat) (s1 s2 : Option Desc) : Bool :=
  let lev (d : Option Desc) (l : Nat) (sp : Bool) : Bool :=
    match d with | some d => d.level != l || (sp && d.special != 0) | none => false
  match mode with
  | 0 => false
  | 1 => lev s1 (level - 1) false
  | 2 => lev s1 (level - 2) false
  | _ => lev s1 level true || lev s2 level true

/-- The chain's element on a ring destination: the residue, RANGE and WRAP. -/
def State.chainElem (s : State) (f : FrameNo) (rd : Reader) (ch : Chain) (named : List Nat) (srcs : List Desc)
    (np c e n q rModQ k : Nat) : Nat × Bool × Bool :=
  let vals := (List.range 4).map fun j =>
    if named.contains j then s.laneElem f rd (srcs.getD j {}) c e np n q else (0, false)
  let l : LaneIn := { srcs := vals.map fun v => (v.1 : Int), k, q, rModQ, imms := ch.imms }
  let r := chainVal l (fun _ => .r) .r ch.stages (l.srcs.getD 0 0) .r
  (r.1.toNat, vals.any (·.2), r.2)

/-- LCHAIN into a ring object. -/
def State.lchainRing (s : State) (f : FrameNo) (i : Iss) (ch : Chain) (d : Desc) : State :=
  let w := i.w
  let dt := (s.frame f).rn.dtab
  let mode := fld w 84 2
  let fc := fld w 94 2
  let cc := fld w 96 2
  let first := fld w 98 7
  let l := fld w 105 8
  let named := chainNames ch
  let srcs := (List.range 4).map fun k => if named.contains k then slot dt (chainSlot w k) else {}
  let descs := named.map fun k => srcs.getD k {}
  let a := srcs.getD 0 {}
  let ps := s.pset a.pset
  let rings := descs.filter fun x => !x.intPlain
  let nlvl := modeLevel mode a.level
  let form := chainForm (fun k => formOf (srcs.getD k {})) (fun _ => .r) .r ch.stages (formOf a) .r
  let fbit : Nat := match form with
    | some .m => 1
    | some .any => if a.intPlain then 0 else a.form
    | _ => 0
  let tag := match descs.find? (·.tagged) with | some x => x.keyTag | none => i.r.keyTag
  let nd := { d with
    level := nlvl, special := if mode = 0 then a.special else 0, comps := max a.comps (fc + cc)
    domain := if a.intPlain then 0 else a.domain, form := fbit
    noise := if d.noisy then a.noise else d.noise
    scale := if d.scaled then a.scale else d.scale
    keyTag := if d.tagged then tag else d.keyTag }
  let outside := rings.any (limbsBad first l) || limbsBad first l nd || rings.any (compsBad fc cc)
  if cc = 0 ∨ l = 0 then s.startNamed f i .lchain (outside && descs.all (·.mark.isNone)) d [] else
  let ringDomain := if mode = 0 then (rings.head?.map (·.domain)).getD nd.domain else 1
  let dropped := ((List.range (a.level - nlvl)).map fun k => (s.primeAt ps (nlvl + k)).log2q.toNat).sum
  let sc := chainScale (fun k => (srcs.getD k {}).scale) ch.iscale i.p.scaleTol ch.stages a.scale
  let scale : Int := if mode = 0 then sc.1 else (a.scale : Int) - dropped
  let destSealed := s.objSealed f d
  let mismatch :=
    ringDiff d a || descs.any (ringDiff · a) ||
    (mode == 0 && rings.any fun x => x.level != nlvl || x.special != nd.special) ||
    rings.any (fun x => x.domain != ringDomain) || form.isNone ||
    (destSealed && descs.any fun x => x.kind == kShare && x.party != d.party) ||
    outside ||
    modeOpsBad mode a.level (if named.contains 1 then srcs[1]? else none) (if named.contains 2 then srcs[2]? else none)
  let pre := [(modeS0Bad mode ps.np a, Codes.levelExhausted), (mismatch, Codes.operandMismatch),
    (tagBad descs i.r.keyTag, Codes.keyTagMismatch)]
  let chk := s.checkAll i.p pre nd scale descs (some (fld w 86 8)) (tolBad := mode == 0 && !sc.2)
  let pairs := (List.range cc).flatMap fun c => (List.range l).map fun k => (fc + c, first + k)
  let usesK := mode != 0 || ch.ksrc != 0
  let kAddr (e : Nat) : Nat := ps.constBase + kOffset mode ch.ksrc a.level a.logN (limbPos nlvl e)
  let rowIx := List.range (ceilDiv d.n 512)
  let feeds (c e k : Nat) : List Nat := descs.flatMap fun x => s.feedRows f x c e ps.np k
  let x : Ops := {
    dests := [{ slot := wD w, d, derived := chk.1 }], src := a, descs, code := chk.2
    rows := dedup (pairs.flatMap fun p => rowIx.flatMap fun k => feeds p.1 p.2 k)
    consts := if usesK then dedup ((List.range l).map fun k => kAddr (first + k) / 2048) else [] }
  s.startLane f i .lchain x (descs.any (s.objSealed f)) (fld w 113 3) (fun _ => s.coverRows f nd ps.np pairs) []
    fun s rd =>
      let kPoison := rd.consts.filterMap (·.mark)
      let one (p : Nat × Nat) : List Chunk × Bool × Bool :=
        let pr := s.primeAt ps (limbPos nlvl p.2)
        let q := pr.q.toNat
        let k := if usesK then constWord rd (kAddr p.2) else 0
        let es := (List.range d.n).map fun n => s.chainElem f rd ch named srcs ps.np p.1 p.2 n q pr.rModQ.toNat k
        let live := rowIx.filter fun k => s.liveRow rd (feeds p.1 p.2 k)
        let le := live.flatMap fun k => (es.drop (512 * k)).take 512
        (s.limbChunks f d p.1 (limbSlot nd ps.np p.2) (es.map (·.1))
          (fun k => feeds p.1 p.2 k ++ (if kPoison.isEmpty then [] else [kAddr p.2 / 2048])),
         le.any (·.2.1), le.any (·.2.2))
      let os := pairs.map one
      { chunks := [os.flatMap (·.1)], flags := laneBits (os.any (·.2.1)) (os.any (·.2.2)) false }

/-- LCHAIN into a TENSOR: one element per flat index (R153), its mode's requirements judged first (R160). The flat index is also how
a source of other extents is read (log entry 77). -/
def State.lchainTensor (s : State) (f : FrameNo) (i : Iss) (ch : Chain) (d : Desc) : State :=
  let w := i.w
  let dt := (s.frame f).rn.dtab
  if d.extent = 0 then s.startNothing f i .lchain else
  let named := chainNames ch
  let srcs := (List.range 4).map fun k => if named.contains k then slot dt (chainSlot w k) else {}
  let descs := named.map fun k => srcs.getD k {}
  let feeds (k : Nat) : List Nat := descs.map fun x => s.elemRow f x k
  let mode := fld w 84 2
  let a := srcs.getD 0 {}
  let op (k : Nat) : Option Desc := if named.contains k then srcs[k]? else none
  let x : Ops := {
    dests := [{ slot := wD w, d, derived := d }], src := d, descs
    code := firstBad [(modeS0Bad mode (s.pset a.pset).np a, Codes.levelExhausted),
      (modeOpsBad mode a.level (op 1) (op 2), Codes.operandMismatch)]
    rows := dedup ((List.range d.extent).flatMap feeds) }
  s.startLane f i .lchain x (descs.any (s.objSealed f)) (fld w 113 3) (fun _ => s.footRows f d) [] fun s rd =>
    let es := (List.range d.extent).map fun k =>
      let vals := (List.range 4).map fun j =>
        if named.contains j then elemInt (srcs.getD j {}).etype (s.elem f rd (srcs.getD j {}) k) else 0
      let r := chainVal { srcs := vals, imms := ch.imms } (fun _ => .i) .i ch.stages (vals.getD 0 0) .i
      let v := narrow d.etype r.1
      (v.1, (r.2 || v.2) && s.liveRow rd (feeds k))
    { chunks := [s.tensorChunks f d (es.map (·.1)) feeds], flags := laneBits false (es.any (·.2)) false }

/-- The issue of LCHAIN: a chain of 0 stages writes nothing. -/
def State.lchainIssue (s : State) (f : FrameNo) (i : Iss) : State :=
  let ch := i.p.chainTab.getD (fld i.w 76 8) {}
  let d := slot (s.frame f).rn.dtab (wD i.w)
  if ch.stages = [] then s.startNothing f i .lchain
  else if d.kind = kTensor then s.lchainTensor f i ch d
  else s.lchainRing f i ch d

/-! ## LEXP (R162) and LRED (R229) -/

/-- The issue of LEXP. -/
def State.lexpIssue (s : State) (f : FrameNo) (i : Iss) : State :=
  let w := i.w
  let first := fld w 76 7
  let l := fld w 83 8
  let sh := fld w 91 6
  if l = 0 then s.startNothing f i .lexp else
  let dt := (s.frame f).rn.dtab
  let a := slot dt (wA w)
  let d := slot dt (wD w)
  let ps := s.pset a.pset
  let nd := { d with level := a.level, special := 0, comps := 1, domain := 0, form := fld w 97 1 }
  let pre := [(d.logN != a.logN || d.level != a.level || d.pset != a.pset || limbsBad first l nd,
    Codes.operandMismatch)]
  let chk := s.checkAll i.p pre nd (a.scale + 256 * sh : Nat) [a] none
  let pairs := (List.range l).map fun k => (0, first + k)
  let x : Ops := {
    dests := [{ slot := wD w, d, derived := chk.1 }], src := a, descs := [a], code := chk.2
    rows := s.footRows f a }
  s.startLane f i .lexp x (s.objSealed f a) (fld w 98 3) (fun _ => s.coverRows f nd ps.np pairs) [] fun s rd =>
    let ws := (List.range d.n).map fun n => elemInt a.etype (s.elem f rd a n)
    let bound : Int := (s.log2Sum ps nd.level : Int) - 256
    let big := (List.range (ceilDiv d.n 512)).any fun k =>
      s.liveRow rd (s.intRows f a k) &&
      ((ws.drop (512 * k)).take 512).any fun x => x != 0 && decide (bound < 256 * (bitlen x.natAbs + sh : Nat))
    let chunks := pairs.flatMap fun p =>
      let pr := s.primeAt ps (limbPos nd.level p.2)
      let q := pr.q.toNat
      let vals := ws.map fun x =>
        let r := intMod (x * (2 ^ sh : Nat)) q
        if flag1 w 97 then mont r pr.rrModQ.toNat q else r
      s.limbChunks f d 0 (limbSlot nd ps.np p.2) vals (fun k => s.intRows f a k)
    { chunks := [chunks], flags := laneBits false false big }

/-- The reduction of R229 over elements: as residues or unsigned words, or as signed integers. -/
def reduce (rop : Nat) (isSigned : Bool) (q : Nat) (vs : List Int) : Word :=
  match rop with
  | 0 => if q = 0 then BitVec.ofInt 32 vs.sum else BitVec.ofInt 32 (vs.sum % (q : Int))
  | 1 => BitVec.ofInt 32 (vs.foldl max (if isSigned then -(2 ^ 31 : Int) else 0))
  | _ => if vs.any (· != 0) then 1 else 0

/-- The issue of LRED: the scalar XD is written at the launch after the last beat. A sealed source reaches no scalar: its
read is refused (R2, R173, R174; log entry 71). -/
def State.lredIssue (s : State) (f : FrameNo) (i : Iss) : State :=
  let w := i.w
  let dt := (s.frame f).rn.dtab
  let a := slot dt (wA w)
  let xd := fld w 78 5
  let flat := a.kind == kTensor || a.intPlain
  let e := if a.kind = kTensor then a.extent else a.n
  if e = 0 then s.startNothing f i .lred else
  let ps := s.pset a.pset
  let comp := srcComp a (fld w 83 2)
  let li := fld w 85 7
  let pre := [
    (!flat && (limbsBad li 1 a || compsBad (fld w 83 2) 1 a), Codes.operandMismatch),
    (tagBad [a] i.r.keyTag, Codes.keyTagMismatch)]
  let bad (s : State) (m : Mark) (fl : BitVec 3) : State :=
    let v : Scalar := { value := BitVec.ofNat 32 (Config.openValue s.freeCtr).toNat, poison := some m }
    { (s.startNothing f i .lred [.scalar xd v, .lane fl]) with freeCtr := s.freeCtr + 1 }
  match a.mark with
  | some m => bad (s.consume i.r.id f [m]) (markFrom [m] i.r.id) 0
  | none =>
    match firstBad pre with
    | some c => bad (s.fault i.r.id c f.val) { cause := c, run := i.r.id } 0
    | none =>
      let rows := if flat then s.footRows f a else s.limbRows f a comp (limbSlot a ps.np li)
      let isSealed := s.objSealed f a
      if isSealed then bad (s.fault i.r.id Codes.sealViolation f.val) { cause := Codes.sealViolation, run := i.r.id } 0 else
      let sr := s.reader f i.r isSealed rows
      let s := sr.1
      let rd := sr.2
      let ms := s.rowMarks rd rows
      let q := (s.primeAt ps (limbPos a.level li)).q.toNat
      let word (k : Nat) : Nat := if flat then s.elem f rd a k else s.coef f rd a comp (limbSlot a ps.np li) k
      let out (k : Nat) : Bool := !flat && s.liveRow rd [s.limbRow f a comp (limbSlot a ps.np li) (k / 512)] && decide (q ≤ word k)
      let flags := laneBits ((List.range e).any out) false false
      if !ms.isEmpty then bad (s.consume i.r.id f ms) (markFrom ms i.r.id) flags
      else
        let raw := (List.range e).map word
        let isSigned := flat && decide (3 ≤ a.etype)
        let vs : List Int := raw.map fun x =>
          if isSigned then elemInt a.etype x else if flat then (x : Int) else ((x % q : Nat) : Int)
        s.startNothing f i .lred
          [.scalar xd { value := reduce (fld w 76 2) isSigned (if flat then 0 else q) vs }, .lane flags]

/-! ## Beaver products (R177 to R180) -/

/-- What the three-operand share words check: one ring, level, domain and P-form, and one tag. -/
def shareBad (dests srcs : List Desc) (a : Desc) (first l : Nat) : Bool :=
  dests.any (ringDiff · a) || srcs.any (fun x => ringDiff x a || x.level != a.level || x.special != a.special ||
    x.domain != a.domain || x.form != 0 || limbsBad first l x)

/-- The issue of SMUL.OPEN (R178). -/
def State.smulOpenIssue (s : State) (f : FrameNo) (i : Iss) : State :=
  let w := i.w
  let first := fld w 85 7
  let l := fld w 92 8
  if l = 0 then s.startNothing f i .smulOpen else
  let dt := (s.frame f).rn.dtab
  let xD := slot dt (wA w)
  let yD := slot dt (wB w)
  let t := slot dt (wC w)
  let d := slot dt (wD w)
  let e := slot dt (fld w 76 9)
  let ps := s.pset xD.pset
  let descs := [xD, yD, t]
  let pre := [
    (shareBad [d, e] descs xD first l || descs.any (·.party != xD.party), Codes.operandMismatch),
    (tagBad descs i.r.keyTag, Codes.keyTagMismatch)]
  let nd := { deriveFrom d xD with comps := 1 }
  let ne := { deriveFrom e xD with comps := 1 }
  let pairs := (List.range l).map fun k => (0, first + k)
  let rowIx := List.range (ceilDiv xD.n 512)
  let row (a : Desc) (c e k : Nat) : Nat := s.limbRow f a c (limbSlot a ps.np e) k
  let x : Ops := {
    dests := [{ slot := wD w, d, derived := nd, pub := true }, { slot := fld w 76 9, d := e, derived := ne, pub := true }]
    src := xD, descs, code := firstBad pre
    rows := dedup (pairs.flatMap fun p => rowIx.flatMap fun k =>
      [row xD 0 p.2 k, row yD 0 p.2 k, row t 0 p.2 k, row t 1 p.2 k]) }
  s.startLane f i .smulOpen x (descs.any (s.objSealed f)) 0 (fun dd => s.coverRows f dd.derived ps.np pairs) []
    fun s rd =>
      let half (a : Desc) (tc : Nat) (dst nd : Desc) : List (List Chunk × Bool) := pairs.map fun p =>
        let q := (s.primeAt ps (limbPos xD.level p.2)).q.toNat
        let es := (List.range xD.n).map fun n =>
          (s.laneElem f rd a 0 p.2 ps.np n q, s.coef f rd t tc (limbSlot t ps.np p.2) n)
        (s.limbChunks f dst 0 (limbSlot nd ps.np p.2) (es.map fun v => (v.1.1 + q - v.2 % q) % q)
          (fun k => [row a 0 p.2 k, row t tc p.2 k]) true,
         s.liveLanes rd (fun k => [row a 0 p.2 k, row t tc p.2 k]) (es.map fun v => v.1.2 || decide (q ≤ v.2)))
      let h1 := half xD 0 d nd
      let h2 := half yD 1 e ne
      { chunks := [h1.flatMap (·.1), h2.flatMap (·.1)], flags := laneBits ((h1 ++ h2).any (·.2)) false false }

/-- The issue of SMUL.CLOSE (R179): Z := c + D·b + E·a, and + D·E for party 0, plain products; T's rows are
spent at the launch after its last beat (R180), but where a poisoned descriptor or a failed check keeps the word from
reading them (log entry 91). -/
def State.smulCloseIssue (s : State) (f : FrameNo) (i : Iss) : State :=
  let w := i.w
  let first := fld w 76 7
  let l := fld w 83 8
  if l = 0 then s.startNothing f i .smulClose else
  let dt := (s.frame f).rn.dtab
  let dD := slot dt (wA w)
  let eD := slot dt (wB w)
  let t := slot dt (wC w)
  let d := slot dt (wD w)
  let ps := s.pset t.pset
  let descs := [dD, eD, t]
  let pre := [(shareBad [d] descs t first l, Codes.operandMismatch), (tagBad descs i.r.keyTag, Codes.keyTagMismatch)]
  let nd := { deriveFrom d t with comps := 1, party := t.party }
  let pairs := (List.range l).map fun k => (0, first + k)
  let rowIx := List.range (ceilDiv t.n 512)
  let row (a : Desc) (c e k : Nat) : Nat := s.limbRow f a c (limbSlot a ps.np e) k
  let feeds (e k : Nat) : List Nat := [row dD 0 e k, row eD 0 e k, row t 0 e k, row t 1 e k, row t 2 e k]
  let spent := dedup (pairs.flatMap fun p => rowIx.flatMap fun k => [row t 0 p.2 k, row t 1 p.2 k, row t 2 p.2 k])
  let x : Ops := {
    dests := [{ slot := wD w, d, derived := nd }], src := t, descs, code := firstBad pre
    rows := dedup (pairs.flatMap fun p => rowIx.flatMap fun k => feeds p.2 k) }
  s.startLane f i .smulClose x (descs.any (s.objSealed f)) 0 (fun _ => s.coverRows f nd ps.np pairs) [] fun s rd =>
    let os := pairs.map fun p =>
      let q := (s.primeAt ps (limbPos t.level p.2)).q.toNat
      let g (a : Desc) (c n : Nat) : Nat := s.coef f rd a c (limbSlot a ps.np p.2) n
      let vals := (List.range t.n).map fun n =>
        let dv := g dD 0 n
        let ev := g eD 0 n
        (g t 2 n + dv * g t 1 n + ev * g t 0 n + (if t.party = 0 then dv * ev else 0)) % q
      let range := s.liveLanes rd (feeds p.2) ((List.range t.n).map fun n =>
        [g dD 0 n, g eD 0 n, g t 0 n, g t 1 n, g t 2 n].any fun v => decide (q ≤ v))
      (s.limbChunks f d 0 (limbSlot nd ps.np p.2) vals (feeds p.2), range)
    { chunks := [os.flatMap (·.1)], flags := laneBits (os.any (·.2)) false false
      extra := { marks := spent.map fun r => (r, { cause := Codes.tripleSpent }) } }

/-! ## Randomness (R181 to R185) -/

/-- A seed slot for a word that draws: with FRESH, or empty, the die's DRBG fills it at issue; none where
it cannot deliver, and the slot is empty (R181). -/
def State.seedFor (s : State) (f : FrameNo) (k : Nat) (fresh : Bool) : Option (BitVec 256) × State :=
  let cur := if h : k < 16 then (s.frame f).rn.seeds[k] else none
  let put (s : State) (v : Option (BitVec 256)) : State :=
    s.updFrame f fun fr => { fr with rn := { fr.rn with
      seeds := if h : k < 16 then fr.rn.seeds.set k v else fr.rn.seeds } }
  if fresh || cur.isNone then
    let x := s.drbgDraw (dieOf f)
    match x.1 with
    | some r => (some (r.truncate 256), put x.2 (some (r.truncate 256)))
    | none => (none, put x.2 none)
  else (cur, s)

/-- The stream of a seed (R182): seed, domain byte, component and limb byte. -/
def seedStream (seed : BitVec 256) (ds c e n : Nat) : List Nat :=
  shakeWords (natToBytes 32 seed.toNat ++ [BitVec.ofNat 8 ds, BitVec.ofNat 8 c, BitVec.ofNat 8 e]) n

/-- The check that a draw delivered, after the others. -/
def withSeed (c : Option Code) (seed : Option (BitVec 256)) : Option Code :=
  match c with
  | some c => some c
  | none => if seed.isNone then some Codes.entropyUnavailable else none

/-- The issue of SRESHARE (R183). -/
def State.sreshareIssue (s : State) (f : FrameNo) (i : Iss) : State :=
  let w := i.w
  let first := fld w 90 7
  let l := fld w 97 8
  if l = 0 then s.startNothing f i .sreshare else
  let dt := (s.frame f).rn.dtab
  let a := slot dt (wA w)
  let m := slot dt (wD w)
  let kp := slot dt (fld w 76 9)
  let ps := s.pset a.pset
  let sd := s.seedFor f (fld w 85 4) (flag1 w 89)
  let s := sd.2
  let pre := [
    (ringDiff m a || ringDiff kp a || limbsBad first l a, Codes.operandMismatch),
    (tagBad [a] i.r.keyTag, Codes.keyTagMismatch)]
  let nm := { deriveFrom m a with comps := 1 }
  let nk := { deriveFrom kp a with comps := 1, party := a.party }
  let pairs := (List.range l).map fun k => (0, first + k)
  let rowIx := List.range (ceilDiv a.n 512)
  let row (e k : Nat) : Nat := s.limbRow f a 0 (limbSlot a ps.np e) k
  let x : Ops := {
    dests := [{ slot := wD w, d := m, derived := nm, pub := true }, { slot := fld w 76 9, d := kp, derived := nk }]
    src := a, descs := [a], code := withSeed (firstBad pre) sd.1
    rows := dedup (pairs.flatMap fun p => rowIx.map fun k => row p.2 k) }
  s.startLane f i .sreshare x (s.objSealed f a) 0 (fun d => s.coverRows f d.derived ps.np pairs) [] fun s rd =>
    let os := pairs.map fun p =>
      let q := (s.primeAt ps (limbPos a.level p.2)).q.toNat
      let r := (seedStream (sd.1.getD 0) 0x01 0 p.2 a.n).map (· % q)
      let v := (List.range a.n).map fun n => s.laneElem f rd a 0 p.2 ps.np n q
      (s.limbChunks f m 0 (limbSlot nm ps.np p.2) ((v.zip r).map fun z => (z.1.1 + q - z.2) % q)
        (fun k => [row p.2 k]) true,
       s.limbChunks f kp 0 (limbSlot nk ps.np p.2) r (fun k => [row p.2 k]),
       s.liveLanes rd (fun k => [row p.2 k]) (v.map (·.2)))
    { chunks := [os.flatMap (·.1), os.flatMap (·.2.1)], flags := laneBits (os.any (·.2.2)) false false }

/-- The issue of NFLOOD (R184). -/
def State.nfloodIssue (s : State) (f : FrameNo) (i : Iss) : State :=
  let w := i.w
  let comp := fld w 76 2
  let first := fld w 78 7
  let l := fld w 85 8
  let b := fld w 93 6
  if l = 0 then s.startNothing f i .nflood else
  let dt := (s.frame f).rn.dtab
  let a := slot dt (wA w)
  let d := slot dt (wD w)
  let ps := s.pset a.pset
  let sd := s.seedFor f (fld w 99 4) (flag1 w 103)
  let s := sd.2
  let nd := deriveFrom d a
  -- the noise is P-form, so an M-form source breaks Table 3.1's add (log entry 14)
  let pre := [
    (ringDiff d a || a.domain != 0 || a.form != 0 || limbsBad first l a || limbsBad first l nd ||
      compsBad comp 1 a, Codes.operandMismatch),
    (tagBad [a] i.r.keyTag, Codes.keyTagMismatch)]
  let chk := s.checkAll i.p pre nd a.scale [a] (some (fld w 104 8))
  let pairs := (List.range l).map fun k => (comp, first + k)
  let rowIx := List.range (ceilDiv a.n 512)
  let row (e k : Nat) : Nat := s.limbRow f a (srcComp a comp) (limbSlot a ps.np e) k
  let x : Ops := {
    dests := [{ slot := wD w, d, derived := chk.1 }], src := a, descs := [a], code := withSeed chk.2 sd.1
    rows := dedup (pairs.flatMap fun p => rowIx.map fun k => row p.2 k) }
  s.startLane f i .nflood x (s.objSealed f a) 0 (fun _ => s.coverRows f nd ps.np pairs) [] fun s rd =>
    let noise := (seedStream (sd.1.getD 0) 0x02 comp 0xFF a.n).map (signed b)
    let os := pairs.map fun p =>
      let q := (s.primeAt ps (limbPos a.level p.2)).q.toNat
      let v := (List.range a.n).map fun n => s.laneElem f rd a comp p.2 ps.np n q
      (s.limbChunks f d comp (limbSlot nd ps.np p.2) ((v.zip noise).map fun z => intMod ((z.1.1 : Int) + z.2) q)
        (fun k => [row p.2 k]), s.liveLanes rd (fun k => [row p.2 k]) (v.map (·.2)))
    { chunks := [os.flatMap (·.1)], flags := laneBits (os.any (·.2)) false false }

/-- Table 5.9's values of a stream word. -/
def ternary (w : Nat) : Int := (w % 3 : Nat) - 1

def binomial (w : Nat) : Int := (popcount 21 w : Int) - popcount 21 (w / 2 ^ 21)

/-- The issue of ENC.PK (R185). WORK reads as zero after it whatever became of the destination. Component 1 of a SEEDED
key, which has no storage, is read where that of a FULL key would lie (log entry 92). -/
def State.encPkIssue (s : State) (f : FrameNo) (i : Iss) : State :=
  let w := i.w
  let first := fld w 76 7
  let l := fld w 83 8
  if l = 0 then s.startNothing f i .encPk else
  let dt := (s.frame f).rn.dtab
  let k := slot dt (wA w)
  let m := slot dt (wB w)
  let work := slot dt (wC w)
  let d := slot dt (wD w)
  let ps := s.pset k.pset
  let share := m.kind == kShare
  let sd := s.seedFor f (fld w 91 4) (flag1 w 95)
  let s := sd.2
  let nd := { d with level := m.level, special := 0, comps := 2, domain := 1, form := 0, keyTag := k.keyTag
                     scale := 0, noise := 0 }
  let pre := [
    (ringDiff d k || m.logN != k.logN || m.pset != k.pset || (!share && m.scheme != k.scheme) ||
      m.level != k.level || m.special != 0 || k.kind != kKey || k.keytype != 3 || k.domain != 1 || k.form != 1 ||
      k.special != 0 || (m.kind != kPlain && !share) || m.form != 0 || limbsBad first l k || limbsBad first l m,
      Codes.operandMismatch),
    (tagBad [k, m] i.r.keyTag, Codes.keyTagMismatch)]
  let chk := s.checkAll i.p pre nd (if share then fld w 96 20 else m.scale : Nat) [k, m] (some (fld w 116 8))
  let pairs := [0, 1].flatMap fun c => (List.range l).map fun t => (c, first + t)
  let rowIx := List.range (ceilDiv k.n 512)
  let mRows (e k : Nat) : List Nat :=
    if m.domain = 1 then s.feedRows f m 0 e ps.np k else rowIx.flatMap fun k => s.feedRows f m 0 e ps.np k
  let feeds (c e r : Nat) : List Nat :=
    s.limbRow f k c (limbSlot k ps.np e) r :: ((if c = 0 then mRows e r else []) ++ twiddleLines ps (limbPos k.level e))
  let x : Ops := {
    dests := [{ slot := wD w, d, derived := chk.1, pub := true }], src := m, descs := [k, m], code := withSeed chk.2 sd.1
    rows := dedup (pairs.flatMap fun p => rowIx.flatMap fun r =>
      s.limbRow f k p.1 (limbSlot k ps.np p.2) r :: (if p.1 = 0 then mRows p.2 r else []))
    consts := dedup (pairs.flatMap fun p => twiddleLines ps (limbPos k.level p.2)) }
  let isSealed := [k, m, work].any (s.objSealed f)
  let zero := s.laneWrites { func := funcNo i.r.func, run := i.r.id, isSealed } s.freeCtr
    ((List.range (work.bytes ps)).map fun b => { addr := s.objAddr f work b, bytes := [0] })
  s.startLane f i .encPk x isSealed 0 (fun _ => s.coverRows f nd ps.np pairs) [] (extra := zero) fun s rd =>
    let seed := sd.1.getD 0
    let u := (seedStream seed 0x03 0 0xFF k.n).map ternary
    let e0 := (seedStream seed 0x04 0 0xFF k.n).map binomial
    let e1 := (seedStream seed 0x05 1 0xFF k.n).map binomial
    let limbOut (c e : Nat) : List Chunk × Bool :=
      let pos := limbPos k.level e
      let q := (s.primeAt ps pos).q.toNat
      let ntt (v : List Int) : List Nat := s.transform rd true ps pos k.logN (v.map fun x => intMod x q)
      let mv := (List.range k.n).map fun n => s.laneElem f rd m 0 e ps.np n q
      let mm := if m.domain = 1 then mv.map (·.1) else s.transform rd true ps pos k.logN (mv.map (·.1))
      let kv := (List.range k.n).map fun n => s.laneElem f rd k c e ps.np n q
      let er := ntt (if c = 0 then e0 else e1)
      let uu := ntt u
      let vals := (List.range k.n).map fun n =>
        (mont (uu.getD n 0) ((kv.getD n (0, false)).1) q + er.getD n 0 + (if c = 0 then mm.getD n 0 else 0)) % q
      (s.limbChunks f d c (limbSlot nd ps.np e) vals (feeds c e) true,
       s.liveLanes rd (feeds c e) (kv.map (·.2)) ||
         (c == 0 && !m.intPlain && s.liveLanes rd (fun r => s.feedRows f m 0 e ps.np r) (mv.map (·.2))))
    let os := pairs.map fun p => limbOut p.1 p.2
    { chunks := [os.flatMap (·.1)], flags := laneBits (os.any (·.2)) false false }

/-! ## Session keystreams (R186 to R188) -/

/-- The keystream of a session slot (R186). -/
def keystream (key : BitVec 256) (role v c e q n : Nat) : List Nat :=
  (shakeWords (natToBytes 32 key.toNat ++ [BitVec.ofNat 8 (0x10 + role)] ++ natToBytes 8 v ++
    [BitVec.ofNat 8 c, BitVec.ofNat 8 e] ++ natToBytes 4 q) n).map (· % q)

def State.session (s : State) (k : Nat) : Session := if h : k < 64 then s.lne.sessions[k] else {}

def State.setSession (s : State) (k : Nat) (x : Session) : State :=
  if h : k < 64 then { s with lne := { s.lne with sessions := s.lne.sessions.set k x } } else s

/-- May a program of function `n` use the slot: valid, its own, and its counter below 2^64 − 1? -/
def Session.usable (x : Session) (n : Nat) : Bool :=
  x.valid && x.owner.toNat == n && x.counter != BitVec.allOnes 64

/-- The issue of SEXPORT (R187). -/
def State.sexportIssue (s : State) (f : FrameNo) (i : Iss) : State :=
  let w := i.w
  let sl := fld w 85 6
  let comp := fld w 91 2
  let first := fld w 93 7
  let l := fld w 100 8
  if l = 0 then s.startNothing f i .sexport else
  let dt := (s.frame f).rn.dtab
  let a := slot dt (wA w)
  let d := slot dt (wD w)
  let h := slot dt (fld w 76 9)
  let ps := s.pset a.pset
  let se := s.session sl
  let ok := se.usable i.r.func
  let s := if ok then s.setSession sl { se with counter := se.counter + 1 } else s
  let nd := deriveFrom d a
  let pre := [
    (ringDiff d a || limbsBad first l a || limbsBad first l nd || compsBad comp 1 a, Codes.operandMismatch),
    (tagBad [a] i.r.keyTag, Codes.keyTagMismatch)]
  let chk := s.checkAll i.p pre nd a.scale [a] none
  let code := match chk.2 with
    | some c => some c
    | none => if ok then none else some Codes.sealViolation
  let pairs := (List.range l).map fun k => (comp, first + k)
  let rowIx := List.range (ceilDiv a.n 512)
  let row (e k : Nat) : Nat := s.limbRow f a (srcComp a comp) (limbSlot a ps.np e) k
  let x : Ops := {
    dests := [{ slot := wD w, d, derived := chk.1, pub := true }, { slot := fld w 76 9, d := h, derived := h, pub := true }]
    src := a, descs := [a], code
    rows := dedup (pairs.flatMap fun p => rowIx.map fun k => row p.2 k) }
  s.startLane f i .sexport x (s.objSealed f a) 0
    (fun dd => if dd.slot = wD w then s.coverRows f nd ps.np pairs else s.footRows f h) [] fun s rd =>
    let v := se.counter.toNat
    let os := pairs.map fun p =>
      let q := (s.primeAt ps (limbPos a.level p.2)).q.toNat
      let ks := keystream se.key (if se.role then 1 else 0) v comp p.2 q a.n
      let xs := (List.range a.n).map fun n => s.laneElem f rd a comp p.2 ps.np n q
      (s.limbChunks f d comp (limbSlot nd ps.np p.2) ((xs.zip ks).map fun z => (z.1.1 + z.2) % q)
        (fun k => [row p.2 k]) true, s.liveLanes rd (fun k => [row p.2 k]) (xs.map (·.2)))
    let hdr := s.tensorChunks f h [v % 2 ^ 32, v / 2 ^ 32, sl, a.logN, first, l, comp, 0] (fun _ => []) true
    { chunks := [os.flatMap (·.1), hdr], flags := laneBits (os.any (·.2)) false false }

/-- The issue of SIMPORT (R188). A header that differs is an OPERAND_MISMATCH in R97's order, before the tag's check, and a
slot it may not use comes last (log entry 79). A poisoned header is not compared. The destination's fields are derived as
those of SEXPORT's (log entry 93). -/
def State.simportIssue (s : State) (f : FrameNo) (i : Iss) : State :=
  let w := i.w
  let sl := fld w 76 6
  let comp := fld w 82 2
  let first := fld w 84 7
  let l := fld w 91 8
  if l = 0 then s.startNothing f i .simport else
  let dt := (s.frame f).rn.dtab
  let a := slot dt (wA w)
  let h := slot dt (wB w)
  let d := slot dt (wD w)
  let ps := s.pset a.pset
  let se := s.session sl
  let nd := deriveFrom d a
  let isSealed := [a, h, d].any (s.objSealed f)
  let hRows := s.objRows f h 0 32
  let hd := (s.reader f i.r isSealed hRows).2
  let hw (k : Nat) : Nat := s.elem f hd h k
  let headerBad := s.liveRow hd hRows && (hw 3 != a.logN || hw 4 != first || hw 5 != l || hw 6 != comp)
  let pre := [
    (ringDiff d a || limbsBad first l a || limbsBad first l nd || compsBad comp 1 a || headerBad, Codes.operandMismatch),
    (tagBad [a] i.r.keyTag, Codes.keyTagMismatch),
    (!se.usable i.r.func, Codes.sealViolation)]
  let pairs := (List.range l).map fun k => (comp, first + k)
  let rowIx := List.range (ceilDiv a.n 512)
  let row (e k : Nat) : Nat := s.limbRow f a (srcComp a comp) (limbSlot a ps.np e) k
  let x : Ops := {
    dests := [{ slot := wD w, d, derived := nd }], src := a, descs := [a, h], code := firstBad pre
    rows := dedup (hRows ++ pairs.flatMap fun p => rowIx.map fun k => row p.2 k) }
  s.startLane f i .simport x isSealed 0 (fun _ => s.coverRows f nd ps.np pairs) [] fun s rd =>
      let v := hw 0 + 2 ^ 32 * hw 1
      let os := pairs.map fun p =>
        let q := (s.primeAt ps (limbPos a.level p.2)).q.toNat
        let ks := keystream se.key (if se.role then 0 else 1) v comp p.2 q a.n
        let xs := (List.range a.n).map fun n => s.laneElem f rd a comp p.2 ps.np n q
        (s.limbChunks f d comp (limbSlot nd ps.np p.2) ((xs.zip ks).map fun z => (z.1.1 + q - z.2) % q)
          (fun k => row p.2 k :: hRows), s.liveLanes rd (fun k => row p.2 k :: hRows) (xs.map (·.2)))
      { chunks := [os.flatMap (·.1)], flags := laneBits (os.any (·.2)) false false }

/-! ## KREGEN (R198, R200) -/

/-- Component 1 of a tile (R198): SHAKE128 of the seed, 0x20, the digit, the set position and the prime. -/
def regenWords (t : TileSlot) (n : Nat) : List Nat :=
  (shakeWords (t.seed ++ [0x20, BitVec.ofNat 8 t.digit, BitVec.ofNat 8 t.pos] ++ natToBytes 4 t.q) n).map (· % t.q)

/-- The issue of KREGEN: component 1 of the next L tiles that are not yet regenerated. -/
def State.kregenIssue (s : State) (f : FrameNo) (i : Iss) : State :=
  let w := i.w
  let l := fld w 84 7
  if l = 0 then s.startNothing f i .kregen else
  match ((s.frame f).region? (fld w 76 8)).bind fun r => r.ring.map fun g => (r, g) with
  | none => s.startNothing f i .kregen
  | some (r, g) =>
    if g.depth = 0 then s.startNothing f i .kregen else
    let n := r.sizeRows * 2048 / (8 * g.depth)
    let from_ := max g.regen g.head
    let rd : Reader := { func := funcNo i.r.func, run := i.r.id }
    let chunks := (List.range l).flatMap fun t =>
      let ws := regenWords (g.slots.getD ((from_ + t) % g.depth) {}) n
      (List.range (n / 512)).map fun k => {
        addr := tileAddr f r n (from_ - g.head + t) 1 (512 * k)
        bytes := ((ws.drop (512 * k)).take 512).flatMap (natToBytes 4) }
    s.startOp f i .kregen (s.laneWrites rd s.freeCtr chunks) [] [.regenTiles (fld w 76 8) l]

/-! ## The commands -/

def execLchain (f : FrameNo) (s : State) : Host.Outcome State Fault Refusal :=
  issueStep s f .lchain (s.lchainIssue f)

def execLexp (f : FrameNo) (s : State) : Host.Outcome State Fault Refusal :=
  issueStep s f .lexp (s.lexpIssue f)

def execLred (f : FrameNo) (s : State) : Host.Outcome State Fault Refusal :=
  issueStep s f .lred (s.lredIssue f)

def execSmulOpen (f : FrameNo) (s : State) : Host.Outcome State Fault Refusal :=
  issueStep s f .smulOpen (s.smulOpenIssue f)

def execSmulClose (f : FrameNo) (s : State) : Host.Outcome State Fault Refusal :=
  issueStep s f .smulClose (s.smulCloseIssue f)

def execSreshare (f : FrameNo) (s : State) : Host.Outcome State Fault Refusal :=
  issueStep s f .sreshare (s.sreshareIssue f)

def execNflood (f : FrameNo) (s : State) : Host.Outcome State Fault Refusal :=
  issueStep s f .nflood (s.nfloodIssue f)

def execEncPk (f : FrameNo) (s : State) : Host.Outcome State Fault Refusal :=
  issueStep s f .encPk (s.encPkIssue f)

def execSexport (f : FrameNo) (s : State) : Host.Outcome State Fault Refusal :=
  issueStep s f .sexport (s.sexportIssue f)

def execSimport (f : FrameNo) (s : State) : Host.Outcome State Fault Refusal :=
  issueStep s f .simport (s.simportIssue f)

def execKregen (f : FrameNo) (s : State) : Host.Outcome State Fault Refusal :=
  issueStep s f .kregen (s.kregenIssue f)

end Sys2Proof.Machine
end

