-- ==== Sys2Proof/Machine/LoadScan.lean ====
section
/-!
DEFINITION. The load scan of a frame's stream (R249, orders 2 to 7): the operands of each word (R222, R584 and
the rules of its chapter), its cost on the descriptors derived along the stream (R225), the limits of each
beat (R217, R230, R231, R244, R585) and the structure (R228, R234, R237, R242, R243, R246).
-/

namespace Sys2Proof.Machine

open Sys2Proof

/-! ## What a stream is scanned against -/

/-- A frame's stream in the scan; `s` has the sets the load carries in their slots, and the frames' regions as the
program declares them; `was` has the regions that they hold. -/
structure Scan where
  s : State
  was : State
  n : FuncNo
  p : Program
  f : FrameNo
  part : FramePart
  words : List BcWord

/-- One path's view of the frame at a word (R225, R234, R585). Ages and times are in beats from the beat of
the word: engines by the beats they stay occupied, Feeder places by the beats to their due beats, scalars
awaited by the beats since their word and to their due beat, and scalars that SOP and LRED write by the beats to the
launch that writes them. -/
structure Walk where
  descs : List Desc := []
  beat : Nat := 0
  floating : Bool := false
  busy : List (Engine × Nat) := []
  places : List (Nat × Nat) := []
  awaited : List (Nat × Nat × Nat) := []
  count : Nat := 0
  feeders : List Nat := []
  flags : List Nat := []
  scalars : List Nat := []
  lands : List (Nat × Nat) := []
  dests : List Nat := []
deriving DecidableEq

/-- What a scan of another frame's words needs to know (R243). -/
inductive Ev where
  | read (word : Nat) (rows : List Nat) (beat : Nat)
  | due (rows : List Nat) (beat : Nat)
  | stream (mask : BitVec 64) (ring : Nat)
  | ringRead (word ring : Nat)

structure Found where
  errs : List LoadErr := []
  evs : List Ev := []

def Found.add (a b : Found) : Found := { errs := a.errs ++ b.errs, evs := a.evs ++ b.evs }

/-- The item of a word (R249: words follow the frame's tables). -/
def wordItem (i : Nat) : Nat := 2000 + i

def Scan.err (c : Scan) (i order : Nat) (code : Code) : LoadErr := { frame := c.f.val + 1, item := wordItem i, order, code }

/-- Beats pass on a path. -/
def Walk.pass (st : Walk) (n : Nat) : Walk :=
  if n = 0 then st else
  { st with
    beat := st.beat + n
    busy := st.busy.filterMap fun e => if e.2 ≤ n then none else some (e.1, e.2 - n)
    places := st.places.filterMap fun e => if e.2 ≤ n then none else some (e.1, e.2 - n)
    awaited := st.awaited.filterMap fun e => if e.2.2 ≤ n then none else some (e.1, e.2.1 + n, e.2.2 - n)
    lands := st.lands.filterMap fun e => if e.2 ≤ n then none else some (e.1, e.2 - n)
    count := 0, feeders := [], flags := [], scalars := [], dests := [] }

/-- What R234 and R237 compare of the descriptors. -/
def Walk.shape (st : Walk) : List (Nat × Nat × Nat × Nat × Nat) :=
  st.descs.map fun d => (d.level, d.special, d.comps, d.domain, d.form)

/-- The state that R585 compares at the start of an iteration. -/
def Walk.relative (st : Walk) : Walk := { st with beat := 0 }

/-! ## The operands of a word -/

/-- The chain entry that an LCHAIN names. -/
def Scan.chain (c : Scan) (w : BcWord) : Chain := c.p.chainTab.getD (fld w 76 8) {}

/-- The transfer record that an XFER names. -/
def Scan.rec? (c : Scan) (w : BcWord) : Option XRec := c.part.xtab[fld w 76 8]?

/-- The descriptor slots a word uses and how (R222). -/
def Scan.slots (c : Scan) (w : BcWord) : List (Nat × Use) :=
  match opOf w with
  | none => []
  | some op =>
    match op with
    | .ldrop | .nttF | .nttI | .bconv | .lexp | .nflood | .aut | .trp => [(wD w, .engine), (wA w, .engine)]
    | .ksip => [(wD w, .engine), (wA w, .engine), (wB w, .engine)]
    | .pmat => ((List.range (fld w 81 6)).map fun o => (wD w + o, Use.engine)) ++
        ((List.range (fld w 76 5)).map fun r => (wA w + r, Use.engine)) ++ [(wB w, .engine)]
    | .lchain => (wD w, .engine) :: (chainNames (c.chain w)).map fun k => (chainSlot w k, Use.engine)
    | .lred => [(wA w, .engine)]
    | .smulOpen => [(wD w, .engine), (fld w 76 9, .engine), (wA w, .engine), (wB w, .engine), (wC w, .engine)]
    | .smulClose | .encPk => [(wD w, .engine), (wA w, .engine), (wB w, .engine), (wC w, .engine)]
    | .sreshare | .sexport => [(wD w, .engine), (fld w 76 9, .engine), (wA w, .engine)]
    | .simport => [(wD w, .engine), (wA w, .engine), (wB w, .engine)]
    | .xfer =>
      match c.rec? w with
      | some x => if x.kind = 4 then [] else
          [(wD w, .dest), (wA w, .feeder)] ++ (if flag1 w 101 then [(wB w, .feeder)] else [])
      | none => []
    | .kstream => [(wA w, .feeder)]
    | .sld => [(wA w, .feeder)]
    | .atom => [(wA w, .dest)]
    | _ => []

/-- The descriptors a word gives derived fields, as the load derives them without faults (R100, R225). -/
def Scan.derive (c : Scan) (dt : List Desc) (w : BcWord) : List (Nat × Desc) :=
  let d := slot dt (wD w)
  let a := slot dt (wA w)
  let ps := c.s.pset a.pset
  match opOf w with
  | some .ldrop => [(wD w, { deriveFrom d a with level := fld w 76 7 })]
  | some .nttF => if fld w 94 8 = 0 then [] else [(wD w, { deriveFrom d a with domain := 1 })]
  | some .nttI => if fld w 94 8 = 0 then [] else [(wD w, { deriveFrom d a with domain := 0 })]
  | some .bconv =>
    let r := if flag1 w 83 then 2 else 1
    [(wD w, { deriveFrom d a with
      level := if fld w 76 2 = 2 then a.level - r else a.level
      special := if fld w 76 2 = 0 then ps.np else 0, comps := 1, domain := 0 })]
  | some .ksip => if fld w 86 8 = 0 then [] else
      [(wD w, { deriveFrom d a with
        comps := 2, domain := 1, form := (mulFormBit a.form (slot dt (wB w)).form).getD a.form })]
  | some .pmat => if fld w 76 5 = 0 then [] else
      (List.range (fld w 81 6)).map fun o => (wD w + o, deriveFrom (slot dt (wD w + o)) a)
  | some .lchain =>
    let ch := c.chain w
    let cc := fld w 96 2
    if ch.stages = [] ∨ d.kind = kTensor ∨ cc = 0 ∨ fld w 105 8 = 0 then [] else
    let mode := fld w 84 2
    let form := chainForm (fun k => formOf (slot dt (chainSlot w k))) (fun _ => .r) .r ch.stages (formOf a) .r
    [(wD w, { d with
      level := modeLevel mode a.level, special := if mode = 0 then a.special else 0
      comps := max a.comps (fld w 94 2 + cc), domain := if a.intPlain then 0 else a.domain
      form := match form with | some .m => 1 | some .any => if a.intPlain then 0 else a.form | _ => 0 })]
  | some .lexp => if fld w 83 8 = 0 then [] else
      [(wD w, { d with level := a.level, special := 0, comps := 1, domain := 0, form := fld w 97 1 })]
  | some .smulOpen => if fld w 92 8 = 0 then [] else
      [(wD w, { deriveFrom d a with comps := 1 }), (fld w 76 9, { deriveFrom (slot dt (fld w 76 9)) a with comps := 1 })]
  | some .smulClose => if fld w 83 8 = 0 then [] else
      [(wD w, { deriveFrom d (slot dt (wC w)) with comps := 1 })]
  | some .sreshare => if fld w 97 8 = 0 then [] else
      [(wD w, { deriveFrom d a with comps := 1 }), (fld w 76 9, { deriveFrom (slot dt (fld w 76 9)) a with comps := 1 })]
  | some .nflood => if fld w 85 8 = 0 then [] else [(wD w, deriveFrom d a)]
  | some .encPk => if fld w 83 8 = 0 then [] else
      [(wD w, { d with level := (slot dt (wB w)).level, special := 0, comps := 2, domain := 1, form := 0 })]
  | some .sexport => if fld w 100 8 = 0 then [] else [(wD w, deriveFrom d a), (fld w 76 9, slot dt (fld w 76 9))]
  | some .simport => if fld w 91 8 = 0 then [] else [(wD w, deriveFrom d a)]
  | some .aut => if fld w 87 8 = 0 ∨ fld w 78 2 = 0 then [] else [(wD w, deriveFrom d a)]
  | some .trp => if a.extent = 0 ∨ d.extent = 0 then [] else [(wD w, d)]
  | some .xfer =>
    match c.rec? w with
    | some x =>
      if x.kind = 4 ∨ x.count.contains 0 then []
      else if x.kind = 1 ∧ d.kind = a.kind ∧ d.ring ∧ a.ring then [(wD w, deriveFrom d a)] else [(wD w, d)]
    | none => []
  | _ => []

/-- A component range and a limb range that a word addresses of a descriptor; a source of one component
serves every component (R584). -/
structure Cover where
  d : Desc
  comps : List Nat
  limbs : List Nat
  src : Bool := true

def upto (first n : Nat) : List Nat := (List.range n).map (first + ·)

/-- What a word addresses under R584; nothing where its counts are zero. A word of whose two counts one is zero derives
nothing, and addresses its destination as it stands (log entry 72). -/
def Scan.covers (c : Scan) (dt : List Desc) (w : BcWord) : List Cover :=
  let a := slot dt (wA w)
  let b := slot dt (wB w)
  let t := slot dt (wC w)
  let made := (c.derive dt w).map (·.2)
  let outs := if made.isEmpty then [slot dt (wD w)] else made
  let out (comps limbs : List Nat) : List Cover := outs.map fun d => { d, comps, limbs, src := false }
  match opOf w with
  | some .nttF | some .nttI =>
    let l := fld w 94 8
    if l = 0 then [] else
      { d := a, comps := [fld w 76 2], limbs := upto (fld w 80 7) (if flag1 w 102 then 1 else l) } ::
        out [fld w 78 2] (upto (fld w 87 7) l)
  | some .ksip =>
    let ls := upto (fld w 79 7) (fld w 86 8)
    if ls.isEmpty then [] else
      [{ d := a, comps := [0], limbs := ls }] ++
        (if flag1 w 95 then [] else [{ d := b, comps := [0, 1], limbs := ls }]) ++ out [0, 1] ls
  | some .lchain =>
    let ch := c.chain w
    let cs := upto (fld w 94 2) (fld w 96 2)
    let ls := upto (fld w 98 7) (fld w 105 8)
    if cs.isEmpty ∧ ls.isEmpty then [] else
      ((chainNames ch).map fun k => { d := slot dt (chainSlot w k), comps := cs, limbs := ls }) ++ out cs ls
  | some .lexp => if fld w 83 8 = 0 then [] else out [0] (upto (fld w 76 7) (fld w 83 8))
  | some .lred => [{ d := a, comps := [fld w 83 2], limbs := [fld w 85 7] }]
  | some .smulOpen =>
    let ls := upto (fld w 85 7) (fld w 92 8)
    if ls.isEmpty then [] else
      [{ d := a, comps := [0], limbs := ls }, { d := b, comps := [0], limbs := ls }, { d := t, comps := [0, 1], limbs := ls }] ++
        out [0] ls
  | some .smulClose =>
    let ls := upto (fld w 76 7) (fld w 83 8)
    if ls.isEmpty then [] else
      [{ d := a, comps := [0], limbs := ls }, { d := b, comps := [0], limbs := ls },
       { d := t, comps := [0, 1, 2], limbs := ls }] ++ out [0] ls
  | some .sreshare =>
    let ls := upto (fld w 90 7) (fld w 97 8)
    if ls.isEmpty then [] else { d := a, comps := [0], limbs := ls } :: out [0] ls
  | some .nflood =>
    let ls := upto (fld w 78 7) (fld w 85 8)
    if ls.isEmpty then [] else { d := a, comps := [fld w 76 2], limbs := ls } :: out [fld w 76 2] ls
  | some .encPk =>
    let ls := upto (fld w 76 7) (fld w 83 8)
    if ls.isEmpty then [] else
      [{ d := a, comps := [0, 1], limbs := ls }, { d := b, comps := [0], limbs := ls }] ++ out [0, 1] ls
  | some .sexport =>
    let ls := upto (fld w 93 7) (fld w 100 8)
    if ls.isEmpty then [] else { d := a, comps := [fld w 91 2], limbs := ls } :: out [fld w 91 2] ls
  | some .simport =>
    let ls := upto (fld w 84 7) (fld w 91 8)
    if ls.isEmpty then [] else { d := a, comps := [fld w 82 2], limbs := ls } :: out [fld w 82 2] ls
  | some .aut =>
    let cs := upto (fld w 76 2) (fld w 78 2)
    let ls := upto (fld w 80 7) (fld w 87 8)
    if cs.isEmpty ∧ ls.isEmpty then [] else { d := a, comps := cs, limbs := ls } :: out cs ls
  | _ => []

/-- R584 at load: a limb slot at or past CAPACITY, or a component at or past CCAP. -/
def Scan.coverBad (c : Scan) (x : Cover) : Bool :=
  x.d.kind != kTensor && !x.d.intPlain &&
    (x.limbs.any (fun e => x.d.capacity ≤ limbSlot x.d (c.s.pset x.d.pset).np e) ||
     x.comps.any fun k => x.d.ccap ≤ (if x.src then srcComp x.d k else k))

/-! ## The classes of a chain (R158) -/

def srcCls (d : Desc) : Cls := if d.kind = kTensor then .i else .r

/-- Does a select give the class a position needs? Constants but K take it. -/
def selFits (v : Cls) (srcs : Nat → Cls) (need : Cls) (sel : Nat) : Bool :=
  match selCls v srcs sel with | some x => x == need | none => true

/-- Every stage's operands have the classes it needs, K is named only where it is given, and the last value
has the class of the destination. -/
def chainClassOk (kOk : Bool) (srcs : Nat → Cls) (dst : Cls) : List Stage → Cls → Bool
  | [], v => v == dst
  | st :: rest, v =>
    let u := stageUses st.op
    let ka := (st.asel != 5 || kOk) && (!u.2.1 || st.bsel != 5 || kOk) && (!u.2.2 || st.csel != 5 || kOk)
    let fits (c : Cls) : Bool :=
      selFits v srcs c st.asel && (!u.2.1 || selFits v srcs c st.bsel) && (!u.2.2 || selFits v srcs c st.csel)
    let ok := match st.op with
      | 0 => true
      | 1 | 2 | 3 => fits .r && dst == .r
      | 18 => selFits v srcs .i st.asel &&
          (match selCls v srcs st.bsel, selCls v srcs st.csel with | some x, some y => x == y | _, _ => true)
      | 19 => fits .r && dst == .r
      | 20 => fits .i && dst == .r
      | _ => fits .i
    let c := if st.op = 19 then .i else stageCls v srcs (laterCls srcs dst rest) st
    ka && ok && chainClassOk kOk srcs dst rest c

/-- R158 and R160 on an LCHAIN. -/
def Scan.lchainBad (c : Scan) (dt : List Desc) (w : BcWord) : Bool :=
  let ch := c.chain w
  let d := slot dt (wD w)
  let srcs := (chainNames ch).map fun k => slot dt (chainSlot w k)
  let ten := d.kind == kTensor
  let mode := fld w 84 2
  c.p.chains.isNone ||
  (d :: srcs).any (fun x => x.kind == kKey || x.kind == kTriple) ||
  srcs.any (fun x => (x.kind == kTensor) != ten) ||
  (ten && (fld w 94 2 != 0 || fld w 96 2 != 1 || fld w 98 7 != 0 || fld w 105 8 != 1)) ||
  (mode != 0 && (ch.ksrc != 0 || ch.iscale != 0)) ||
  (ch.stages != [] && !chainClassOk (mode != 0 || ch.ksrc != 0) (fun k => srcCls (slot dt (chainSlot w k)))
    (if ten then .i else .r) ch.stages (srcCls (slot dt (wA w))))

/-! ## Feeder words -/

/-- The region-table entry of an operand in a region of the frame. -/
def Scan.regionOf (c : Scan) (d : Desc) : Option RegEntry :=
  if d.location = 1 then c.part.rtab.find? (·.number == d.region) else none

/-- An operand that lies in another frame's scratchpad, of this device or another: a destination that may take remote
writes (R302, R319). -/
def Scan.isRemote (c : Scan) (d : Desc) : Bool :=
  match c.s.place (d.base % 2 ^ 48) with
  | .spad g _ => (d.location == 2 && sysDev d != c.s.carry.self) || (d.location != 1 && g != c.f)
  | _ => false

/-- Extents past the first are contiguous (R319). -/
def strideOk : Nat → List Nat → List Int → Bool
  | prod, c :: cs, t :: ts => (c ≤ 1 || t == (prod : Int)) && strideOk (prod * c) cs ts
  | _, _, _ => true

/-- R314, R317 to R320 and R322 on an XFER and its operands. -/
def Scan.xferBad (c : Scan) (dt : List Desc) (w : BcWord) (x : XRec) : Bool :=
  let d := slot dt (wD w)
  let a := slot dt (wA w)
  let ix := slot dt (wB w)
  if x.kind = 4 then wD w != 0 || wA w != 0 || flag1 w 101
  else
    let own (e : Desc) : Bool := match c.regionOf e with | some r => !r.has 2 | none => false
    let cnt (k : Nat) : Nat := x.count.getD k 0
    let bits := d.ebits
    (a.etype != d.etype && !((a.etype == 1 && d.etype == 2) || (a.etype == 2 && d.etype == 1))) ||
    (x.bit 1 && d.etype == 6 && (cnt 0 % 2 == 1 || cnt 1 % 2 == 1)) ||
    ((x.bit 3 || x.bit 5) && !own a) || (x.bit 4 && !own d) ||
    (x.bit 6 && !(own d || c.isRemote d)) ||
    ((x.kind == 2 || x.kind == 3) != flag1 w 101) ||
    ((x.kind == 2 || x.kind == 3) &&
      (ix.kind != kTensor || (ix.etype != 2 && ix.etype != 3) || ix.extent < cnt 1 * cnt 2 * cnt 3)) ||
    (c.isRemote d &&
      (x.kind != 1 || x.bit 1 || x.dstr.getD 0 0 != 1 || !strideOk (cnt 0) (x.count.drop 1) (x.dstr.drop 1) ||
        d.base % 2048 != 0 || x.doff * (bits : Int) % (2048 * 8) != 0 || cnt 0 * cnt 1 * cnt 2 * cnt 3 * bits % (2048 * 8) != 0))

/-! ## One word -/

/-- A word whose noise class a destination reads, without a noise table (R104, R247). -/
def Scan.noiseMissing (c : Scan) (dt : List Desc) (w : BcWord) : Bool :=
  c.p.noise.isNone && (match opOf w with
    | some .lchain | some .ksip | some .nflood | some .encPk => (slot dt (wD w)).noisy
    | some .pmat => (List.range (fld w 81 6)).any fun o => (slot dt (wD w + o)).noisy
    | _ => false)

/-- The computed cost of a word from the load's descriptors (R225). -/
def Scan.cost (c : Scan) (dt : List Desc) (w : BcWord) : Nat :=
  match opOf w with
  | some .kregen =>
    match c.part.rtab.find? (·.number == fld w 76 8) with
    | some e => if fld w 84 7 = 0 ∨ e.depth = 0 then 1 else max 1 (fld w 84 7 * ceilDiv (e.size / (8 * e.depth)) 2048)
    | none => 1
  | _ => costOf c.s c.p.chainTab dt w

/-- The operand checks of order 4, each rule's code. The LEVEL that bounds PMAT's DIM2 is slot ASLOT's, with I = 0 too (log
entry 73). -/
def Scan.operandBad (c : Scan) (dt : List Desc) (w : BcWord) : Option Code :=
  let d := slot dt (wD w)
  let a := slot dt (wA w)
  let inv := Codes.loadDescriptorInvalid
  if (c.slots w).any (fun x => dt.length ≤ x.1) then some inv
  else
    firstBad ([(c.noiseMissing dt w, inv)] ++
      (match opOf w with
      | some .ldrop => [(a.kind == kTensor || d.kind == kTensor || a.kind != d.kind || a.scheme != d.scheme ||
          a.logN != d.logN || a.pset != d.pset || a.etype != d.etype || a.layout != d.layout ||
          a.location != d.location || a.region != d.region || a.base != d.base || a.capacity != d.capacity ||
          a.ccap != d.ccap, inv)]
      | some .ksip => [(!flag1 w 95 && (slot dt (wB w)).location == 0, inv)]
      | some .pmat =>
        let m := slot dt (wB w)
        [(!(m.kind == kTensor && m.dim0 == 32 && m.dim1 == 16 &&
            ((m.etype == 1 && a.level ≤ m.dim2) || ((m.etype == 4 || m.etype == 5) && m.dim2 == 1))), inv)]
      | some .lchain => [(c.lchainBad dt w, inv)]
      | some .lexp => [(!a.intPlain || d.kind != kPlain || d.etype != 1, inv)]
      | some .trp => [(a.kind != kTensor || d.kind != kTensor || a.etype != d.etype || d.dim0 != a.dim1 ||
          d.dim1 != a.dim0 || d.dim2 != a.dim2 || d.dim3 != a.dim3 ||
          (a.etype == 6 && (a.dim0 % 2 == 1 || a.dim1 % 2 == 1)), inv)]
      | some .kstream => [(c.p.msets.isNone, inv)]
      | some .sld => [(a.location != 0 && a.location != 1, inv)]
      | some .atom => [
          (a.kind != kTensor || (a.etype != 1 && a.etype != 2 && a.etype != 3) || a.base % 4 != 0 ||
            (a.location == 2 && !(c.p.group && c.s.groupHolds (sysDev a))), inv),
          (fld w 76 3 == 1 && !(c.s.prime (fld w 94 8)).valid, Codes.loadPrimeInvalid)]
      | some .xfer =>
        match c.rec? w with
        | some x => [(c.xferBad dt w x, inv), (xferPrimed x d && !(c.s.prime x.prime).valid, Codes.loadPrimeInvalid)]
        | none => []
      | _ => []) ++ [((c.covers dt w).any c.coverBad, Codes.loadFootprint)])

/-- Orders 2 to 5 and LIDX's depth on a word. -/
def Scan.wordErrs (c : Scan) (dt : List Desc) (i depth : Nat) (w : BcWord) : List LoadErr :=
  let op := c.operandBad dt w
  let e2 := wordReservedBad w || c.p.operandZeroBad c.part.xtab dt w
  let e3 := wordEncodingBad w || c.s.operandEncodingBad c.p c.f c.part.xtab dt w
  (if e2 then [c.err i 2 Codes.loadReservedZero] else []) ++
  (if e3 then [c.err i 3 Codes.loadEncoding] else []) ++
  (match op with | some k => [c.err i 4 k] | none => []) ++
  (if !e2 && !e3 && op.isNone && wCost w != c.cost dt w then [c.err i 5 Codes.loadCostMismatch] else []) ++
  (if opOf w = some .sop ∧ fld w 76 4 = 13 ∧ depth ≤ fld w 96 32 then [c.err i 7 Codes.loadControlFlow] else [])

/-! ## Limits of a beat (R149, R154, R217, R230, R231, R244) -/

/-- The scalars a word reads; X0 is no register of R230's. -/
def wordReads (w : BcWord) : List Nat :=
  (match opOf w with
  | some .sop => sopReads w
  | some .br => brReads w
  | some .loop => if flag1 w 76 then [] else [fld w 77 5]
  | some .flagSet => if flag1 w 84 then [fld w 85 5] else []
  | some .flagWait | some .flagAcq => if flag1 w 84 then [fld w 85 5] else []
  | some .flagRel => if flag1 w 86 then [fld w 87 5] else []
  | some .atom => if fld w 76 3 = 4 then [fld w 84 5, fld w 89 5] else [fld w 84 5]
  | _ => []).filter (· != 0)

/-- The scalar a word writes. -/
def wordWrites (w : BcWord) : List Nat :=
  (match opOf w with
  | some .sop => [fld w 80 5]
  | some .lred => [fld w 78 5]
  | some .atom => [fld w 79 5]
  | some .sld => [fld w 76 5]
  | _ => []).filter (· != 0)

/-- The beats from a word to its due beat, if it has one: for an ATOM on another device the first beat of the
next junction window (R231). A transfer of a zero count lands at once (R311). -/
def Scan.dueIn (c : Scan) (dt : List Desc) (beat : Nat) (w : BcWord) : Option Nat :=
  match opOf w with
  | some .xfer =>
    let none_ := (c.rec? w).any fun x => x.kind != 4 && x.count.contains 0
    if flag1 w 100 || none_ then none else some (fld w 84 16)
  | some .kstream => if fld w 86 7 = 0 then none else some (fld w 106 16)
  | some .sld => some (fld w 81 16)
  | some .atom =>
    if (slot dt (wA w)).location = 2 then
      let j := c.s.tally.j.toNat
      if j = 0 then none else some ((beat / j + 1) * j - beat)
    else some (fld w 102 16)
  | _ => none

/-- The beats from a word to the launch at which it writes its scalar, for SOP and LRED (R228, R218). -/
def landIn (w : BcWord) : Option Nat :=
  match opOf w with
  | some .sop => some 1
  | some .lred => some (max 1 (wCost w))
  | _ => none

/-- A path after a word has issued on it, and whether the word broke a limit. Two words conflict on a scalar where they
issue in one beat, where one launch writes it for both, and between an ATOM or SLD and its due beat. -/
def Scan.limits (c : Scan) (st : Walk) (w : BcWord) : Walk × Bool :=
  let es := ((opOf w).map Op.engines).getD []
  let fd := if 8 ≤ wEngine w then [wEngine w - 8] else []
  let fl := if opOf w = some .flagSet then [fld w 76 8] else []
  let ds := (c.derive st.descs w).map (·.1)
  let ws := wordWrites w
  let due := c.dueIn st.descs st.beat w
  let counted := match opOf w with
    | some .atom => if (slot st.descs (wA w)).location = 2 then none else due
    | _ => due
  let awaits : List Nat := match opOf w with | some .atom | some .sld => ws | _ => []
  let lands := match landIn w with | some k => ws.map fun x => (x, k) | none => []
  let bad := 16 ≤ st.count || fd.any (st.feeders.contains ·) || es.any (fun e => st.busy.any (·.1 == e)) ||
    fl.any (st.flags.contains ·) || ds.any (st.dests.contains ·) || hasDup ds || ws.any (st.scalars.contains ·) ||
    (wordReads w).any (fun x => st.awaited.any fun a => a.1 == x && a.2.1 != 0) ||
    ws.any (fun x => st.awaited.any fun a => a.1 == x) || lands.any (st.lands.contains ·) ||
    awaits.any (fun x => st.lands.any fun l => l.1 == x && (match due with | some n => decide (l.2 ≤ n) | none => false)) ||
    (counted.isSome && fd.any fun k => 16 ≤ (st.places.filter (·.1 == k)).length)
  ({ st with
    count := st.count + 1, feeders := st.feeders ++ fd, flags := st.flags ++ fl, scalars := st.scalars ++ ws
    lands := st.lands ++ lands
    dests := st.dests ++ ds
    busy := st.busy ++ es.map fun e => (e, max 1 (wCost w))
    places := match counted with | some n => st.places ++ fd.map fun k => (k, n) | none => st.places
    awaited := match due with | some n => st.awaited ++ awaits.map fun x => (x, 0, n) | none => st.awaited },
   bad)

/-! ## Floating positions (R243) -/

/-- The rows and lines of a span of an operand on this device. -/
def Scan.spanRows (c : Scan) (d : Desc) (off len : Nat) : List Nat :=
  if d.location = 2 then (if sysDev d = c.s.carry.self then linesOf (d.base % 2 ^ 48 + off) len else [])
  else c.s.objRows c.f d off len

/-- A row of the scratchpad of the issuing frame. -/
def Scan.ownRow (c : Scan) (r : Nat) : Bool := match c.s.place (r * 2048) with | .spad g _ => g == c.f | _ => false

/-- A row of another frame's scratchpad. -/
def Scan.otherRow (c : Scan) (r : Nat) : Bool := match c.s.place (r * 2048) with | .spad g _ => g != c.f | _ => false

/-- The rows of limbs of a ring operand, a source of one component serving every one, and of any other operand whole. -/
def Scan.limbRows (c : Scan) (d : Desc) (comps limbs : List Nat) : List Nat :=
  if d.ring then
    limbs.flatMap fun e => comps.flatMap fun k => c.s.limbRows c.f d (srcComp d k) (limbSlot d (c.s.pset d.pset).np e)
  else c.s.footRows c.f d

/-- The rows of the elements that an XFER reads: those its record addresses, or, where an index tensor names them, the
whole source; and the index elements (R312 to R314). -/
def Scan.moveReads (c : Scan) (x : XRec) (a ix : Desc) : List Nat :=
  let es := a.elems
  (if x.kind = 2 then c.s.footRows c.f a
    else (x.iters.filter fun i => !(x.pads i && x.bit 2)).flatMap fun i =>
      let k := (min (max (x.srcIndex [] i) 0) ((es : Int) - 1)).toNat
      c.spanRows a (k * a.ebits / 8) 1) ++
  (if x.kind = 1 then [] else c.s.objRows c.f ix 0 (4 * x.indices))

/-- The rows of the elements that an XFER writes: those its record addresses, or, where an index tensor names them, the
whole destination. -/
def Scan.moveWrites (c : Scan) (x : XRec) (d : Desc) : List Nat :=
  if x.kind = 3 then c.spanRows d 0 (d.bytes (c.s.pset d.pset))
  else x.iters.flatMap fun i =>
    let p := x.dstIndex [] i
    if 0 ≤ p ∧ p < (d.elems : Int) then c.spanRows d (p.toNat * d.ebits / 8) 1 else []

/-- The rows that a word reads (R243): an accumulator that it adds to among them. -/
def Scan.readRows (c : Scan) (dt : List Desc) (w : BcWord) : List Nat :=
  let d := slot dt (wD w)
  let a := slot dt (wA w)
  let b := slot dt (wB w)
  let s := c.s
  let ps := s.pset a.pset
  let named := ((c.covers dt w).filter (·.src)).flatMap fun x => c.limbRows x.d x.comps x.limbs
  match opOf w with
  | some .bconv =>
    (bconvRowPos ps (fld w 76 2) (fld w 78 3) (fld w 83 1) a.level).flatMap fun pos =>
      s.limbRows c.f a (fld w 81 2) (limbSlot a ps.np (posLimb a.level pos))
  | some .ksip =>
    let ls := upto (fld w 79 7) (fld w 86 8)
    let k := { b with base := b.base + fld w 76 3 * 2 * b.capacity * b.n * 4 }
    if ls.isEmpty then [] else
      c.limbRows a [0] ls ++ (if flag1 w 95 then [] else c.limbRows k [0, 1] ls) ++
        (if flag1 w 94 then c.limbRows d [0, 1] ls else [])
  | some .pmat =>
    let all (e : Desc) : List Nat := c.limbRows e (List.range a.comps) (List.range a.level)
    if fld w 76 5 = 0 ∨ fld w 81 6 = 0 then [] else
      ((upto (wA w) (fld w 76 5)).flatMap fun i => all (slot dt i)) ++
        s.objRows c.f b 0 ((if b.etype = 1 then 512 * a.level else 512) * etypeBits b.etype / 8) ++
        (if flag1 w 107 then (upto (wD w) (fld w 81 6)).flatMap fun i => all (slot dt i) else [])
  | some .lchain =>
    let ch := c.chain w
    if ch.stages = [] then []
    else if d.kind = kTensor then (chainNames ch).flatMap fun k => s.footRows c.f (slot dt (chainSlot w k))
    else if fld w 96 2 = 0 ∨ fld w 105 8 = 0 then [] else named
  | some .lexp => if fld w 83 8 = 0 then [] else s.footRows c.f a
  | some .trp => s.footRows c.f a
  | some .simport => named ++ (if fld w 91 8 = 0 then [] else s.objRows c.f b 0 32)
  | some .xfer =>
    match c.rec? w with
    | some x => if x.kind = 4 ∨ x.count.contains 0 then [] else c.moveReads x a b
    | none => []
  | some .kstream => if fld w 86 7 = 0 then [] else s.footRows c.f a
  | some .atom | some .sld => c.spanRows a 0 4
  | _ => named

/-- The rows of other frames' scratchpads that a due transfer or ATOM of a word writes (R243). -/
def Scan.dueRows (c : Scan) (dt : List Desc) (w : BcWord) : List Nat :=
  (match opOf w with
  | some .xfer =>
    match c.rec? w with
    | some x => if x.kind = 4 then [] else c.moveWrites x (slot dt (wD w))
    | none => []
  | some .atom => c.spanRows (slot dt (wA w)) 0 4
  | _ => []).filter c.otherRow

/-- An operand inside the issuing frame. -/
def Scan.inFrame (c : Scan) (d : Desc) : Bool :=
  d.location == 1 || (match c.s.place (d.base % 2 ^ 48) with
    | .spad g _ => g == c.f && (d.location == 0 || sysDev d == c.s.carry.self)
    | _ => false)

/-- R243's cases that the frame's own stream shows. -/
def Scan.floatBad (c : Scan) (st : Walk) (w : BcWord) : Bool :=
  let d := slot st.descs (wD w)
  match opOf w with
  | some .xfer =>
    match c.rec? w with
    | some x => x.kind != 4 &&
        ((!flag1 w 100 && (!c.inFrame d || (flag1 w 101 && !c.inFrame (slot st.descs (wB w))))) ||
         (c.p.group && d.location == 2 && sysDev d != c.s.carry.self))
    | none => false
  | some .kstream => (match c.p.msets with | some m => m.getD (fld w 101 4) 0 != 1#64 <<< c.f.val | none => false)
  | some .atom =>
    let a := slot st.descs (wA w)
    c.p.group && a.location == 2 && sysDev a != c.s.carry.self
  | _ => false

/-- What other frames' scans need of a word (R243). -/
def Scan.events (c : Scan) (st : Walk) (i : Nat) (w : BcWord) : List Ev :=
  (if st.floating then
    let rows := (c.readRows st.descs w).filter c.ownRow
    (if rows.isEmpty then [] else [Ev.read i rows st.beat]) ++
      (if opOf w = some .ksip ∧ flag1 w 95 ∧ fld w 86 8 ≠ 0 then [Ev.ringRead i (fld w 96 8)] else [])
  else []) ++
  (match c.dueIn st.descs st.beat w with
  | some n =>
    let rows := c.dueRows st.descs w
    if rows.isEmpty then [] else [Ev.due rows (st.beat + n)]
  | none => []) ++
  (match opOf w with
  | some .kstream => if fld w 86 7 = 0 then [] else [Ev.stream ((c.p.msets.getD []).getD (fld w 101 4) 0) (fld w 93 8)]
  | _ => [])

/-! ## The walk -/

/-- A word issues on one path: its failures, and the path in the beat of its issue. -/
def Scan.issue (c : Scan) (i depth : Nat) (w : BcWord) (st : Walk) : Walk × Found :=
  let lim := c.limits st w
  let descs := (c.derive st.descs w).foldl (fun dt x => dt.set x.1 x.2) st.descs
  ({ lim.1 with descs, floating := st.floating || floats w },
   { errs := c.wordErrs st.descs i depth w ++ (if lim.2 then [c.err i 6 Codes.loadBeatConflict] else []) ++
       (if st.floating && c.floatBad st w then [c.err i 7 Codes.loadControlFlow] else [])
     evs := c.events st i w })

/-- The sum of the nominal lengths of the top-level words of a span (R234, R237). -/
def spanLen (words : List BcWord) : Nat → Nat → Nat → Nat
  | 0, _, _ => 0
  | n + 1, i, hi =>
    if hi ≤ i then 0 else
    match words[i]? with
    | none => 0
    | some w =>
      let skip := match opOf w with
        | some .br => fld w 91 11 + fld w 102 11
        | some .loop => fld w 97 11
        | _ => 0
      nominal w + spanLen words n (i + 1 + skip) hi

/-- A word of a span makes what follows float (R242). -/
def spanFloats (words : List BcWord) (i hi : Nat) : Bool := ((words.take hi).drop i).any floats

/-- Iterations of a loop's body on a set of paths, `count` of them: the paths after the last and all that was
found. -/
def iterate (body : List Walk → List Walk × Found) : Nat → List Walk → List Walk × Found
  | 0, sts => (sts, {})
  | n + 1, sts =>
    let r := body sts
    let t := iterate body n r.1
    (t.1, r.2.add t.2)

/-- Iterations of a body whose count is a register's (R585): on, until the state at an iteration's start
repeats an earlier one. The paths out are those after each count. -/
def iterateAny (body : List Walk → List Walk × Found) : Nat → List (List Walk) → List Walk → List Walk × Found
  | 0, _, sts => (sts, {})
  | n + 1, seen, sts =>
    let key := sts.map Walk.relative
    if seen.contains key then (sts, {})
    else
      let r := body sts
      let t := iterateAny body n (key :: seen) r.1
      (sts ++ t.1, r.2.add t.2)

/-- The walk of words `i` to `hi` − 1 on a set of paths, at a loop depth (R234, R237, R242, R585). -/
def Scan.walk (c : Scan) : Nat → Nat → Nat → Nat → List Walk → List Walk × Found
  | 0, _, _, _, sts => (sts, {})
  | n + 1, i, hi, depth, sts =>
    if hi ≤ i then (sts, {}) else
    match c.words[i]? with
    | none => (sts, {})
    | some w =>
      let rs := sts.map (c.issue i depth w)
      let out := (rs.map (·.1)).eraseDups
      let found : Found := rs.foldl (fun (a : Found) r => a.add r.2) {}
      let go (sts : List Walk) (f : Found) (next : Nat) : List Walk × Found :=
        let t := c.walk n next hi depth sts
        (t.1, f.add t.2)
      let cf : Found := { errs := [c.err i 7 Codes.loadControlFlow] }
      match opOf w with
      | some .endWord =>
        let last := i + 1 = c.words.length ∧ hi = c.words.length
        go (out.map (·.pass 1)) (if last then found else found.add { errs := [c.err (if i + 1 < hi then i + 1 else i) 7 Codes.loadControlFlow] }) (i + 1)
      | some .br =>
        let a1 := i + 1 + fld w 91 11
        let j := a1 + fld w 102 11
        let arm := fld w 113 15
        if hi < j then go (out.map (·.pass 2)) (found.add cf) (i + 1)
        else
          let side (lo up : Nat) : List Walk × Found :=
            let r := c.walk n lo up depth (out.map fun st => { st.pass 2 with floating := st.floating || spanFloats c.words lo up })
            (if lo = up then r.1.map (·.pass arm) else r.1, r.2)
          let r0 := side (i + 1) a1
          let r1 := side a1 j
          let either := spanFloats c.words (i + 1) j
          let both := ((r0.1 ++ r1.1).map fun st => { st with floating := st.floating || either }).eraseDups
          let lenBad (lo up : Nat) : Bool := lo != up && spanLen c.words (up - lo) lo up != arm
          let bad := lenBad (i + 1) a1 || lenBad a1 j ||
            (match both with | [] => false | x :: xs => xs.any fun y => y.shape != x.shape)
          go both ((found.add r0.2).add (r1.2.add (if bad then cf else {}))) j
      | some .loop =>
        let lo := i + 1
        let up := lo + fld w 97 11
        if hi < up then go (out.map (·.pass 1)) (found.add cf) (i + 1)
        else if lo = up then go (out.map (·.pass 1)) (if fld w 108 16 = 0 then found else found.add cf) up
        else
          let flt := floats w || spanFloats c.words lo up
          let start := out.map fun st => { st.pass 1 with floating := st.floating || flt }
          let body (sts : List Walk) : List Walk × Found := c.walk n lo up (depth + 1) sts
          let first := body start
          let bad := fld w 108 16 == 0 || 4 ≤ depth || spanLen c.words (up - lo) lo up != fld w 108 16 ||
            first.1.any fun st => start.any fun x => x.shape != st.shape
          let count := fld w 77 20
          let r : List Walk × Found :=
            if flag1 w 76 then
              (if count = 0 then (out.map (·.pass 1), { first.2 with errs := first.2.errs.filter (·.order != 6), evs := [] })
                else iterate body count start)
            else iterateAny body (2 ^ 21) [] start
          go r.1.eraseDups ((found.add r.2).add (if bad then cf else {})) up
      | _ => go (out.map (·.pass (nominal w))) found (i + 1)

/-! ## A frame, and the program -/

/-- A word's place among the frame's tables in R249's sequence: region entries from 1, descriptors from 400,
transfer records from 1,000. -/
def descItem (i : Nat) : Nat := 400 + i

def xrecItem (i : Nat) : Nat := 1000 + i

/-- The failures of the frame's tables: region entries, the descriptors that words name (R18, R96; log entry 101), and records. -/
def Scan.tableErrs (c : Scan) (a : Nat) : List LoadErr :=
  let s := c.s
  let fr := c.f.val + 1
  let regs := s.table (s.rd (a + 64) 8) (s.rd (a + 72) 1) 32
  let descs := s.table (s.rd (a + 16) 8) c.part.dtab.length 64
  let recs := s.table (s.rd (a + 80) 8) c.part.xtab.length 64
  let used := c.words.flatMap c.slots
  c.was.regionErrs c.f fr regs ++
  (descs.zipIdx.flatMap fun x =>
    let us := (used.filter (·.1 == x.2)).map (·.2)
    if us.isEmpty then [] else s.descErrs c.n c.part.rtab fr (descItem x.2) x.1 us) ++
  recs.zipIdx.flatMap fun x => xrecErrs c.part.rtab c.part.xtab fr (xrecItem x.2) x.1

/-- The index of the last word that lies in no arm or body, or where an arm or body leaves the stream, none. -/
def lastTop (words : List BcWord) : Nat → Nat → Option Nat
  | 0, _ => none
  | n + 1, i =>
    match words[i]? with
    | none => none
    | some w =>
      let skip := match opOf w with
        | some .br => fld w 91 11 + fld w 102 11
        | some .loop => fld w 97 11
        | _ => 0
      if words.length ≤ i + 1 + skip then (if skip = 0 then some i else none) else lastTop words n (i + 1 + skip)

/-- The scan of one frame whose record lies at an address. A stream ends with END as a word of no arm or body: every path
meets it (R246). -/
def Scan.frame (c : Scan) (a : Nat) : Found :=
  let rec_ := c.s.recordErrs c.n c.f (c.f.val + 1) a
  if !rec_.isEmpty then { errs := rec_ } else
  let total := c.part.words
  let ring := (c.s.frame c.f).seq.qringSize.toNat * 4096
  let last := c.words.length - 1
  let tail : List LoadErr :=
    if ring < total then [c.err ring 7 Codes.loadControlFlow]
    else if total = 0 ∨ ((lastTop c.words (c.words.length + 1) 0).isSome ∧ (c.words[last]?.bind opOf) = some .endWord) then [] else [c.err last 7 Codes.loadControlFlow]
  let w := c.walk (c.words.length + 1) 0 c.words.length 0 [{ descs := c.part.dtab }]
  { errs := c.tableErrs a ++ tail ++ w.2.errs, evs := w.2.evs }

/-- R243's cases that need other frames' words: a floating read of a span that another frame's due transfer
writes after the read's beat, and of a ring that another frame's KSTREAM fills. -/
def crossErrs (all : List (Scan × Found)) (c : Scan) (own : Found) : List LoadErr :=
  let others := (all.filter fun x => x.1.f != c.f).flatMap (·.2.evs)
  own.evs.filterMap fun e =>
    match e with
    | .read i rows beat =>
      if others.any (fun o => match o with
        | .due rs b => decide (beat < b) && rs.any (rows.contains ·)
        | _ => false) then some (c.err i 7 Codes.loadControlFlow) else none
    | .ringRead i ring =>
      if others.any (fun o => match o with | .stream m r => r == ring && hasFrame m c.f | _ => false)
      then some (c.err i 7 Codes.loadControlFlow) else none
    | _ => none

/-- The state that a program's streams are scanned in: its frames hold the regions it declares. -/
def State.declared (s : State) (p : Program) : State :=
  s.mapFrames fun f fr =>
    match p.part? f with
    | some a => { fr with regions := fr.startRegions a.rtab p.func }
    | none => fr

/-- The words of a stream that the scan reads. -/
def State.partWords (s : State) (f : FrameNo) (a : FramePart) : List BcWord :=
  s.streamWords f a.qoffset (min a.words ((s.frame f).seq.qringSize.toNat * 4096))

/-- A part with the indices of its words that make the positions after them floating (R242). -/
def State.withWaits (s : State) (a : FramePart) : FramePart :=
  match frameNo? a.frame with
  | some f => { a with waits := ((s.partWords f a).zipIdx.filter fun x => floats x.1).map (·.2) }
  | none => a

/-- The scan of every frame of a program, with its carried sets in `s`. -/
def State.scanFrames (s : State) (n : FuncNo) (p : Program) : List LoadErr :=
  let ft := s.rd (p.hdr + 24) 8
  let all := (p.parts.zip (framesOf p.frames)).zipIdx.map fun x =>
    let part := x.1.1
    let f := x.1.2
    let c : Scan := { s := s.declared p, was := s, n, p, f, part, words := s.partWords f part }
    (c, c.frame (ft + 128 * x.2))
  all.flatMap fun x => x.2.errs ++ crossErrs all x.1 x.2

/-- The device scan of a header (R249): the first failure, or the program and the sets to install. -/
def State.loadScan (s : State) (n : FuncNo) (h : Nat) : Option Code × Program × List (Nat × Nat) :=
  let p := s.program n.val h
  match firstErr (s.headerErrs n h) with
  | some c => (some c, p, [])
  | none =>
    let pl := s.rd (h + 64) 8
    let list := if pl = 0 then [] else s.table pl (s.rd (h + 72) 1) 16
    let r := s.resolveList n list 0 [] []
    match firstErr r.1 with
    | some c => (some c, p, [])
    | none =>
      let ct := s.rd (h + 32) 8
      match firstErr (if ct = 0 then [] else s.chainErrs ct 100) with
      | some c => (some c, p, [])
      | none =>
        let psets := r.2.foldl (fun (m : List (Nat × PSet)) x => alSet m x.1 (decodePset x.2)) s.global.psets
        let s' := { s with global := { s.global with psets } }
        (firstErr (s'.scanFrames n p), { p with parts := p.parts.map s.withWaits }, r.2)

end Sys2Proof.Machine
end

