-- ==== Sys2Proof/Machine/Program.lean ====
section
/-!
DEFINITION. The start and the end of programs: tables loaded (R247, R294), parts ended (R246), residue
(R306), what a program leaves (R295) and its completion (R477, R480); BEAT_STOP's release (R255); a region's
freeing, scratchpad copies and whole-frame wipes (R296, R297, R324).
-/

namespace Sys2Proof.Machine

open Sys2Proof

/-! ## The stream table (R439) -/

/-- The code of an entry's state (Table 13.9). -/
def EState.code : EState → Nat
  | .free => 0
  | .bound => 1
  | .queued => 2
  | .running => 3
  | .done => 4

/-- The state of a code; one that the table leaves out reads as FREE (log entry 47). -/
def EState.ofCode : Nat → EState
  | 1 => .bound
  | 2 => .queued
  | 3 => .running
  | 4 => .done
  | _ => .free

/-- The 64 bytes of an entry (Table 13.9). -/
def Entry.bytes (e : Entry) : List Byte :=
  natToBytes 1 e.state.code ++ natToBytes 1 e.func ++ natToBytes 2 e.handle ++ natToBytes 1 e.cqid ++ natToBytes 3 0 ++
  natToBytes 8 e.keyTag ++ natToBytes 8 e.cookie ++ natToBytes 8 e.acceptSeq ++ natToBytes 8 e.startBeat ++
  natToBytes 8 e.launches ++ natToBytes 16 0

/-- The entry that 64 bytes give, as a number. -/
def entryOf (b : Nat) : Entry := {
  state := EState.ofCode (bitsAt b 0 8), func := bitsAt b 8 6, handle := bitsAt b 16 12, cqid := bitsAt b 32 6
  keyTag := bitsAt b 64 64, cookie := bitsAt b 128 64, acceptSeq := bitsAt b 192 64, startBeat := bitsAt b 256 64
  launches := bitsAt b 320 64 }

/-- Where an entry stands in device memory, if the table lies there. -/
def State.entryAddr (s : State) (i : Nat) : Option Nat :=
  let a := s.global.streamBase.toNat * 0x4000000 + i * 64
  if a + 64 ≤ s.usable then some a else none

/-- An entry: as the cache on chip holds it, or else as device memory does. -/
def State.entry (s : State) (i : Nat) : Entry :=
  match alGet s.hostq.entries i with
  | some e => e
  | none => match s.entryAddr i with
    | some a => entryOf (memReadNat s.mem a 64)
    | none => {}

/-- An entry is written in the cache. -/
def State.setEntry (s : State) (i : Nat) (e : Entry) : State :=
  { s with hostq := { s.hostq with entries := alSet s.hostq.entries i e } }

/-! ## Completions that wait (R433) -/

/-- The CQ takes no completion now: it is disabled, or full. -/
def Cq.stuck (q : Cq) : Bool := !q.enable || (q.tail.toNat + 1) % (q.sizeM1.toNat + 1) == q.head.toNat

/-- Completions of a CQ that takes none wait, and each wait counts once. -/
def State.countWaits (s : State) (f : FuncNo) (q : Nat) : State :=
  if h : q < 64 then
    if (s.hostq.fns[f].cqs[q]).stuck then
      let new (c : Comp) : Bool := c.func == f.val && c.cqid == q && !c.waited
      let n := (s.hostq.comps.filter new).length
      let s := { s with hostq := { s.hostq with comps := s.hostq.comps.map fun (c : Comp) => if new c then { c with waited := true } else c } }
      if n = 0 then s else s.updHostFn f fun h => { h with cqFull := satAdd h.cqFull n }
    else s
  else s

/-- A completion is to be written (R433). -/
def State.complete (s : State) (c : Comp) : State :=
  ({ s with hostq := { s.hostq with comps := s.hostq.comps ++ [c] } } : State).countWaits (funcNo c.func) c.cqid

/-! ## The start of a program -/

/-- An entry that creates a resident region (R294). -/
def Frame.creates (fr : Frame) (e : RegEntry) : Bool :=
  e.has 0 && !(fr.regions.any fun r => r.resident && r.number == e.number)

/-- The tables of a program as its start reads them (R247); its frames and streams stay as loaded. -/
def Program.reload (p q : Program) : Program :=
  { p with
    chains := q.chains, noise := q.noise, msets := q.msets
    parts := p.parts.map fun (a : FramePart) =>
      match q.parts.find? (·.frame == a.frame) with
      | some b => { a with dtab := b.dtab, flagClear := b.flagClear, rtab := b.rtab, xtab := b.xtab }
      | none => a }

/-- A frame at the start of its part of a program. -/
def Frame.startPart (fr : Frame) (a : FramePart) (func count : Nat) : Frame :=
  { fr with
    seq := { fr.seq with state := .running, floating := false, pbeat := 0 }
    rn := { fr.rn with
      word := 0, nextBeat := count, words := a.words, qoffset := a.qoffset, ctx := [], wait := none
      dtab := a.dtab, xtab := a.xtab, issued := a.words = 0, endMark := a.words = 0, endIssued := false
      ended := false, held := false, lastHeld := false, kcount := 0, seeds := Vector.replicate 16 none
      pend := [], ops := [], stopped := false, zeroing := false, feeds := [], drops := [] }
    scalars := Vector.replicate 32 {}
    flags := Vector.ofFn fun i => if a.flagClear.getLsbD i then 0 else fr.flags[i]
    regions := fr.startRegions a.rtab func
    rrc := []
    reg := { fr.reg with
      laneSticky := 0, rrcHits := 0, rrcMisses := 0, suppressed := false } }

/-- The frame of a starting program whose armed stop is the newest (R253). -/
def State.armedStop (s : State) (frames : BitVec 64) : Option FrameNo :=
  ((framesOf frames).filter fun f => (s.frame f).seq.stopArm).foldl (fun (m : Option FrameNo) f =>
    match m with
    | some g => if (s.frame g).seq.stopOrd < (s.frame f).seq.stopOrd then some f else some g
    | none => some f) none

/-- The resident regions that a part creates are zeroed, and their poison cleared (R294). -/
def State.zeroNew (s : State) (f : FrameNo) (a : FramePart) : State :=
  (a.rtab.filter ((s.frame f).creates ·)).foldl (fun (s : State) e => s.wipeBytes (spadAddr f e.origin) e.size) s

/-- A program starts at the launch just made (R219): its tables are loaded, and the words of its beat 0
are checked (R252). -/
def State.startRun (s : State) (r : Run) (p : Program) : State :=
  let s := s.readSpans 1 (s.tableSpans p.hdr)
  let p' := p.reload (s.program r.func p.hdr)
  let count := s.tally.count.toNat
  let armed := s.armedStop r.frames
  let stop := armed.map fun f => (s.frame f).seq.stopBeat.toNat
  let s := match armed with | some f => s.dropArms r.frames f | none => s
  let s := { s with programs := s.programs.map fun (q : Program) => if q.handle == p.handle && q.func == p.func then p' else q }
  let s := s.updRun r.id fun r => { r with starting := false, started := true, startBeat := count, stopBeat := stop }
  let e := s.entry r.index
  let s := s.setEntry r.index { e with state := .running, startBeat := count }
  let s := (framesOf r.frames).foldl (fun (s : State) f => match p'.part? f with | some a => s.zeroNew f a | none => s) s
  let s := s.mapFrames fun f fr =>
    if hasFrame r.frames f then
      (match p'.part? f with | some a => fr.startPart a r.func count | none => fr)
    else fr
  let bad := (framesOf r.frames).filter fun f =>
    let fr := s.frame f
    fr.rn.words != 0 && s.issueBad f p' []
  let s := bad.foldl (fun (s : State) f => s.askAbort r.id f.val Codes.issueCheckFail) s
  if bad.isEmpty then s else s.takeAborts

/-- PROGRAM_START: the program whose start the launch just made begins (R219). -/
def execProgramStart (run : Nat) (s : State) : Host.Outcome State Fault Refusal :=
  match s.run? run with
  | some r =>
    match s.program? r.func r.handle with
    | some p => guardStep r.starting s (s.startRun r p)
    | none => .next s
  | none => .next s

/-! ## The end of a program -/

/-- Would an operation write this row of its footprint? Its home drops what it sends to an M buffer that is not open,
and part of a line sent to a contribution window (R376, R405). -/
def State.opWrites (s : State) (o : EngOp) (row : Nat) : Bool :=
  match s.place (row * 2048) with
  | .mem => (s.memDrop (row * 2048) (o.cells.filter fun c => c.1 / 2048 == row).length).isNone
  | _ => true

/-- What an abort leaves of the operations in progress on a frame (R306): every row of their footprints is
poisoned, and what they would have written is open (R106). -/
def State.cutOps (s : State) (f : FrameNo) : State :=
  let ops := (s.frame f).rn.ops
  let rows := (ops.flatMap fun o => o.foot.filter fun l => s.opWrites o l)
  let hit (a : Nat) : Bool := rows.contains (a / 2048)
  { s with
    mem := writeNibs (memWriteCells s.mem (openCells s.freeCtr ((ops.flatMap (·.cells)).filter fun c => hit c.1)))
      (((ops.flatMap (·.nibs)).filter fun w => hit w.addr).map fun (w : PWrite) =>
        { w with value := (Config.openByte s.freeCtr w.addr).toNat % 16 })
    freeCtr := s.freeCtr + 1
    poison := setMarks s.poison (rows.map fun row => (row, ({} : Mark))) }

/-- Every transfer of a run that has not landed is cancelled; a flag update already sent is applied (R213, R306,
R333). -/
def State.cancelXfers (s : State) (run : Nat) : State :=
  s.cancel fun x => x.run == run && !x.flying

/-- What the end of a program leaves of a frame's regions (R295): resident ones, without credits or
counters. Between a forced gate and RETAIN the credits stay (R463). -/
def Frame.endRegions (fr : Frame) : List Region :=
  (fr.regions.filter fun r => r.resident || (fr.lateWrite && r.remote)).map fun (r : Region) =>
    { r with head := 0, tail := 0, ring := none, credits := if fr.lateWrite then r.credits else [] }

/-- A frame is released by the program that ended: its sealed regions are wiped, it holds no program, and it
is IDLE unless it was fenced (R295, R442). Its descriptor table still reads as the program left it (R306). -/
def State.releaseFrame (s : State) (f : FrameNo) : State :=
  let fr := s.frame f
  let wipes := fr.regions.filter fun r => r.isSealed && !r.resident
  let s := wipes.foldl (fun (s : State) r => s.wipeBytes (spadAddr f (r.originRow * 2048)) (r.sizeRows * 2048)) s
  let s := { s with upsets := s.upsets.filter fun u => match u with | .word g _ | .desc g _ => g != f | _ => true }
  s.updFrame f fun fr => { fr with
    regions := fr.endRegions, rn := { dtab := fr.rn.dtab }, done := fr.active
    seq := { fr.seq with state := if fr.gone then fr.seq.state else .idle, floating := false }
    reg := { fr.reg with wiping := fr.reg.wiping || !wipes.isEmpty } }

/-- The beats from a program's start to its end: none before it has started (R480). -/
def Run.beats (r : Run) : Nat := if r.started then r.endBeat.getD r.startBeat - r.startBeat else 0

/-- The completion of a launch (R436, R477, R480). -/
def Run.comp (r : Run) (cqid cookie : Nat) : Comp := {
  func := r.func, cqid
  status := match r.aborted with
    | some c => c
    | none => match r.fault with
      | some x => x.code
      | none => match r.event with
        | some x => x.code
        | none => Codes.ok
  origin := match r.fault with | some x => x.code | none => 0
  faults := r.nFaults, lflags := r.lflags, rkind := 4, sq := r.sq, index := r.index, cookie
  beats := r.beats, recId := r.recId, launch := true }

/-- A record of a function's SQ is answered or dropped: a FENCE no longer waits for it. -/
def State.closeRec (s : State) (id : Nat) : State :=
  { s with hostq := { s.hostq with open_ := s.hostq.open_.filter (·.2.2 != id) } }

/-- The program ends (R246, R480): residue if it was aborted, its frames released, frames at their check
limit fenced (R483), and its completion, unless it writes none. -/
def State.finishRun (s : State) (r : Run) : State :=
  let own := (framesOf r.frames).filter fun f => (s.frame f).rn.run == r.id
  let after := (s.xfers.filter (·.run == r.id)).map (·.id)
  let s := if r.aborted.isSome then (own.foldl State.cutOps s).cancelXfers r.id else s
  let s := own.foldl State.releaseFrame s
  let s := own.foldl (fun (s : State) f =>
    if (s.frame f).fencePend && !(s.frame f).gone then s.fence f 2 Codes.transformCheckFail else s) s
  let s := { s with runs := s.runs.filter (·.id != r.id) }
  let s := s.updHostFn (funcNo r.func) fun h => { h with
    launches := satAdd h.launches (if r.silent then 0 else 1)
    frameBeats := satAdd h.frameBeats ((framesOf r.frames).length * r.beats) }
  if r.silent then (s.closeRec r.recId).settleLeave
  else
    let e := s.entry r.index
    ((s.setEntry r.index { e with state := .done }).complete { r.comp e.cqid e.cookie with after }).settleLeave

/-- FRAME_PART_END: a frame's part of its program ends at the launch just made; the last one ends the
program (R246). -/
def execFramePartEnd (f : FrameNo) (s : State) : Host.Outcome State Fault Refusal :=
  match s.runOf f with
  | some r =>
    let s' := s.updFrame f fun fr => { fr with
      done := fr.active, rn := { fr.rn with endMark := false, ended := true, issued := true } }
    let all := (framesOf r.frames).all fun g => (s'.frame g).rn.ended || (s'.frame g).rn.run != r.id
    guardStep (s.frame f).rn.endMark s
      (if all && r.aborted.isNone then s'.finishRun { r with endBeat := some s.tally.count.toNat } else s'.settleLeave)
  | none => .next s

/-- PROGRAM_ABORT: an abort that took effect at a launch leaves its residue, and the program is completed
(R306, R480). -/
def execProgramAbort (run : Nat) (s : State) : Host.Outcome State Fault Refusal :=
  match s.run? run with
  | some r => guardStep r.residue s (s.finishRun r)
  | none => .next s

/-- BEAT_STOP_RELEASE: RELEASE ends a stopped program, which reports 0x0306 (R255). -/
def execBeatStopRelease (f : FrameNo) (s : State) : Host.Outcome State Fault Refusal :=
  if !s.hostOk then .next s else
  match s.runOf f with
  | some r => s.frmWrite f (if r.stopped then s.askAbort r.id f.val Codes.beatStopped else s)
  | none => s.frmWrite f s

/-! ## Freeing a region (R297) -/

/-- A loaded program of the frame declares the region. -/
def State.regionDeclared (s : State) (f : FrameNo) (n : Nat) : Bool :=
  s.programs.any fun p => match p.part? f with | some a => a.rtab.any (·.number == n) | none => false

/-- REGION_FREE: FREE is written to FRM_REGION_CTRL; ignored while BUSY. -/
def execRegionFree (f : FrameNo) (number : BitVec 8) (s : State) : Host.Outcome State Fault Refusal :=
  if !s.hostOk then .next s else
  let fr := s.frame f
  let set (s : State) (busy : Bool) (result : BitVec 2) : State :=
    s.updFrame f fun fr => { fr with reg := { fr.reg with regNumber := number, regBusy := busy, regResult := result } }
  if !s.powered f then .next (s.offAccess f)
  else if fr.reg.regBusy then .next s
  else if s.regionDeclared f number.toNat then .next (set s false 1)
  else
    match fr.regions.find? fun r => r.resident && r.number == number.toNat with
    | some r =>
      if (s.holder f).map (·.val) == some r.owner then
        let s := s.wipeBytes (spadAddr f (r.originRow * 2048)) (r.sizeRows * 2048)
        let s := s.updFrame f fun fr => { fr with regions := fr.regions.filter fun q => q.number != number.toNat }
        .next (set s true 0)
      else .next (set s false 2)
    | none => .next (set s false 2)

/-- REGION_FREE_COMPLETE: the region's rows are zeroed (R297). -/
def execRegionFreeComplete (f : FrameNo) (s : State) : Host.Outcome State Fault Refusal :=
  .next (s.updFrame f fun fr => { fr with reg := { fr.reg with regBusy := false } })

/-! ## Scratchpad copies (R324) -/

/-- The state of a frame that admits a copy: IDLE, STOPPED or FENCED, and IDLE alone for DIR 1. -/
def FState.copies (st : FState) (toMem : Bool) : Bool :=
  st == .idle || (toMem && (st == .stopped || st == .fenced))

/-- A sealed location met by an access through a BAR or a scratchpad copy: 0x0701 in the event log and the PF error status, and
never in a VF's (R175). -/
def State.barSealed (s : State) (n : FuncNo) (a : Nat) : State :=
  (s.log Codes.sealViolation .memory { func := some n.val, detail := a }).pfErr Codes.sealViolation n.val

/-- One row of a copy by the PF: a row or line of a sealed location reads as zero and takes no write, and each such
access is logged (R175). The Bool tells whether it met one. -/
def State.copyRow (s : State) (f : FrameNo) (toMem : Bool) (row addr : Nat) : State × Bool :=
  let sp := spadAddr f (row * 2048)
  let src := if toMem then sp else addr
  let dst := if toMem then addr else sp
  let srcSealed := (s.sealOwner src).isSome
  let dstSealed := (s.sealOwner dst).isSome
  let s := if srcSealed then s else if toMem then s.checkSpad src 2048 else s.lineRead 3 src 2048
  let bytes := if srcSealed then List.replicate 2048 (0 : Byte) else memReadN s.mem src 2048
  let mark := if srcSealed then none else poisonAt s.poison src
  let s := if srcSealed then s.barSealed 0 src else s
  let s := if dstSealed then s.barSealed 0 dst else s
  if dstSealed then (s, true)
  else if toMem then (s.memArrive dst bytes mark 3, srcSealed)
  else (s.store dst bytes mark, srcSealed)

/-- The rows of a copy, in order. -/
def State.copyRows (s : State) (f : FrameNo) (toMem : Bool) : Nat → Nat → Nat → State × Bool
  | 0, _, _ => (s, false)
  | n + 1, row, addr =>
    let x := s.copyRow f toMem row addr
    let y := x.1.copyRows f toMem n (row + 1) (addr + 2048)
    (y.1, x.2 || y.2)

/-- SPAD_XFER_GO: GO is written to FRM_SPAD_XFER_CTRL; `toMem` is DIR 0. -/
def execSpadXferGo (f : FrameNo) (first : BitVec 12) (rows : BitVec 13) (toMem : Bool) (s : State) :
    Host.Outcome State Fault Refusal :=
  if !s.hostOk then .next s else
  let fr := s.frame f
  if !s.powered f then .next (s.offAccess f)
  else if fr.reg.spadBusy then .next s
  else
    let s := s.updFrame f fun fr => { fr with reg := { fr.reg with xferFirst := first, xferRows := rows, xferDir := !toMem } }
    let result (s : State) (r : BitVec 3) : State := s.updFrame f fun fr => { fr with reg := { fr.reg with spadResult := r } }
    let base := fr.reg.xferAddr.toNat * 2048
    if !fr.seq.state.copies toMem then .next (result s 1)
    else if 4096 < first.toNat + rows.toNat ∨ s.usable < base + rows.toNat * 2048 then .next (result s 2)
    else if rows = 0 then .next (result s 0)
    else
      let x := s.copyRows f toMem rows.toNat first.toNat base
      .next ((result x.1 (if x.2 then 3 else 0)).updFrame f fun fr => { fr with reg := { fr.reg with spadBusy := true } })

/-- SPAD_XFER_COMPLETE: the copy has moved its rows. -/
def execSpadXferComplete (f : FrameNo) (s : State) : Host.Outcome State Fault Refusal :=
  .next (s.updFrame f fun fr => { fr with reg := { fr.reg with spadBusy := false } })

/-! ## Whole-frame wipes (R296) and what waits for them -/

/-- Functions whose enable or reset waited for wipes of frames, or of seal windows, that have ended (R423, R446): an enable takes
effect, and a reset's FLR completes with a Function Readiness Status message. -/
def State.settleFunc (s : State) (n : FuncNo) : State :=
  let g := s.global.funcs[n]
  let clear := (framesOf g.frames).all fun f => !(s.frame f).reg.wiping
  let sealed := s.memc.wipes.any fun w =>
    match w.kind with
    | .sealed i => ((s.global.seals[i]?).map (·.owner.toNat)) == some n.val
    | _ => false
  if g.enabling && clear then
    { s with global := { s.global with funcs := s.global.funcs.set n { g with enabling := false, busy := false, enable := true } } }
  else if g.resetting && clear && !sealed && (n.val != 0 || s.lne.running.isNone) then
    ({ s with global := { s.global with funcs := s.global.funcs.set n { g with resetting := false, busy := false } } }
      |>.emit (.flr n.val)).emit (.frs n.val)
  else s

def State.settle (s : State) : State := (List.finRange 64).foldl State.settleFunc s

/-- FRAME_WIPE_COMPLETE: a wipe of the frame's rows, whole or of its sealed regions, ends, or the zeroing of the new
resident regions of the program it is assigned to (R294 to R296). -/
def execFrameWipeComplete (f : FrameNo) (s : State) : Host.Outcome State Fault Refusal :=
  guardStep ((s.frame f).reg.wiping || (s.frame f).rn.zeroing) s
    (s.updFrame f fun fr => { fr with
      reg := { fr.reg with wiping := false }, rn := { fr.rn with zeroing := false } }).settle

end Sys2Proof.Machine
end

