-- ==== Sys2Proof/Machine/ReduceSets.lean ====
section
/-!
DEFINITION. Reduction sets: ARM and DISARM (R404), contributions (R405), RED and REDDOWN (R406 to R410), and
the line timeout (R411).
-/

namespace Sys2Proof.Machine

open Sys2Proof

/-- Do two spans overlap? -/
def overlaps (a n b m : Nat) : Bool := a < b + m && b < a + n && n != 0 && m != 0

/-- A span within usable device memory. -/
def State.inMem (s : State) (a n : Nat) : Bool := a + n ≤ s.usable

/-- A span that meets a valid seal window. -/
def State.meetsSeal (s : State) (a n : Nat) : Bool :=
  s.global.seals.toList.any fun w => w.valid && overlaps a n (w.base.toNat * 65536) (w.size.toNat * 65536)

/-- A span that meets a MEMC wipe in progress. -/
def State.meetsWipe (s : State) (a n : Nat) : Bool := s.memc.wipes.any fun w => overlaps a n w.base w.size

/-- Orders 1 and 3 of Table 11.5 on a shape (R373, R404). -/
def State.shapeOk (s : State) (h : Shape) : Bool :=
  h.objects != 0 && h.logN != 0 && h.level != 0 && h.capacity != 0 &&
  (match s.pset? h.pset.toNat with
    | some p => h.level.toNat ≤ p.nq && h.level.toNat ≤ h.capacity.toNat && 10 ≤ h.logN.toNat && h.logN.toNat ≤ p.logNMax
    | none => false)

/-- The RESULT of ARM on an IDLE set (Table 12.10); 0 where every check passes. -/
def State.armResult (s : State) (i : Nat) : Nat :=
  let r := s.set? i
  let n := r.shape.size
  let c := lineBase r.contrib
  let d := lineBase r.deliver
  let a := lineBase r.area
  let areaLen := n / 2048 * 8
  let role (x : Nat) : Bool := s.carry.ports.toList.any fun q => q.role.toNat == x
  if 64 < r.locals.toNat ∨ (r.vote ∧ 1 < r.locals.toNat) ∨
      (!r.vote ∧ !(s.shapeOk r.shape && s.inMem c n && s.inMem d n && s.inMem a areaLen)) then 2
  else if !r.vote ∧ (((List.range 64).any fun j =>
        let t := s.set? j
        j != i && t.armed && !t.vote && overlaps c n (lineBase t.contrib) t.shape.size) ∨
      (s.mas.layers.toList.any fun l => l.state != .idle &&
        (overlaps c n (lineBase l.wBase) l.shape.size || overlaps c n (lineBase l.mBase) l.shape.size)) ∨
      s.meetsWipe c n ∨ overlaps c n a areaLen ∨ overlaps d n a areaLen) then 3
  else if (r.parent != 0 ∧ !role r.parent.toNat) ∨ r.childRoles.any (fun x => !role x) then 4
  else if !r.vote ∧ (s.meetsSeal c n ∨ s.meetsSeal d n) then 5
  else 0

/-- RS_ARM: an IDLE set that passes the checks of Table 12.10 becomes ARMED, with no line open (R404). -/
def execRsArm (set : Fin 64) (s : State) : Host.Outcome State Fault Refusal :=
  if !s.hostOk then .next s else
  let r := s.carry.sets[set]
  if r.armed then .next (s.updSet set fun r => { r with result := 1 })
  else
    let n := s.armResult set
    .next (s.updSet set fun r =>
      if n = 0 then { r with armed := true, result := 0, rounds := 0, lines := [], votes := [], logged := [] }
      else { r with result := BitVec.ofNat 4 n })

/-- A set returns to IDLE, its open lines abandoned (R404). -/
def RSet.disarm (r : RSet) : RSet := { r with armed := false, lines := [], votes := [] }

/-- An armed set returns to IDLE; a vote of a layer that its abandoned round held will not come (R380, R404). -/
def State.disarmSet (s : State) (i : Fin 64) : State :=
  if s.carry.sets[i].armed then
    let s := s.updSet i RSet.disarm
    { s with mas := { s.mas with layers := s.mas.layers.map fun (l : Layer) =>
      if l.rset.toNat = i.val then { l with voteRound := none } else l } }
  else s

/-- Every armed set returns to IDLE. -/
def State.disarmAll (s : State) : State := (List.finRange 64).foldl State.disarmSet s

/-- RS_DISARM (R404). -/
def execRsDisarm (set : Fin 64) (s : State) : Host.Outcome State Fault Refusal :=
  if !s.hostOk then .next s else
  let ok := s.carry.sets[set].armed
  .next ((s.disarmSet set).updSet set fun r => { r with result := if ok then 0 else 1 })

/-- BYPASS: on entry, every armed set is disarmed (R399). -/
def execBypass (on : Bool) (s : State) : Host.Outcome State Fault Refusal :=
  if !s.hostOk then .next s else
  let s := { s with carry := { s.carry with bypass := on } }
  .next (if on then s.disarmAll else s)

/-- CONTRIBUTION: a write of an agent of the device lands in an armed contribution window (R405). -/
def execContribution (set : Fin 64) (addr : Nat) (bytes : List Byte) (poison : Bool) (s : State) :
    Host.Outcome State Fault Refusal :=
  guardStep (s.contribAt addr == some set.val && addr % 2048 + bytes.length ≤ 2048) s
    (s.memArrive addr bytes (if poison then some {} else none))

/-- The role of the port a packet of a set arrived on. -/
def State.inRole (s : State) (i : Inbound) : Nat :=
  match (List.finRange 8).find? (·.val == i.port) with
  | some p => s.carry.ports[p].role.toNat
  | none => 0

/-- The line a RED or REDDOWN names. -/
def redLine (r : RSet) (k : Packet) : Nat := if r.vote then 0 else k.addr / 2048

/-- A packet for a set that is not armed is answered with a poisoned REDDOWN (R410). -/
def State.answerBroken (s : State) (i : Inbound) : State :=
  let k := i.pkt
  match s.carry.neighbour (s.inRole i) with
  | some dev => s.sendRole (s.inRole i) { k with
      ptype := tReddown, poison := true, dst := dev, src := s.carry.self, siod := true
      ext := natToBytes 8 s.primeHash ++ natToBytes 2 Codes.reduceBroken.toNat ++ natToBytes 6 0 }
  | none => s

/-- Does a packet agree with this device's prime table and its own entry for the line (R407, R408)? -/
def State.redAgrees (s : State) (set line : Nat) (k : Packet) : Bool :=
  let own := s.redPacket false set line [] none 0
  bytesToNat (k.ext.take 8) == s.primeHash && k.arg / 2 ^ 8 % 2 ^ 9 == own.arg / 2 ^ 8 % 2 ^ 9

/-- A disagreement is logged once for each set and round (R407). -/
def State.logHash (s : State) (set round : Nat) : State :=
  if (s.set? set).logged.contains round then s
  else (s.log Codes.primeTableHash .carry { index := set }).updSet set fun r => { r with logged := r.logged ++ [round] }

/-- The cause a RED or REDDOWN carries. -/
def redCause (k : Packet) : Option Code :=
  if k.poison then some (BitVec.ofNat 16 (bytesToNat ((k.ext.drop 8).take 2))) else none

/-- A child's RED joins its line's round (R406 to R410). -/
def State.takeRed (s : State) (i : Inbound) : State :=
  let k := i.pkt
  let set := k.arg % 64
  let r := s.set? set
  let line := redLine r k
  let role := s.inRole i
  let x := r.line line
  if !r.armed then s.answerBroken i
  else if x.round % 256 != k.arg / 2 ^ 24 ∨ !r.childRoles.contains role ∨ x.reds.contains role ∨ r.count ≤ line then s
  else
    let s :=
      if s.redAgrees set line k then s.combine set line k.data (redCause k)
      else
        (s.logHash set x.round).spoil set line Codes.primeTableHash
    let s := s.updSet set fun r => r.setLine { r.line line with reds := (r.line line).reds ++ [role] }
    s.work 4096 [.complete set line]

/-- The parent's REDDOWN ends a line's round here (R409, R410). -/
def State.takeReddown (s : State) (i : Inbound) : State :=
  let k := i.pkt
  let set := k.arg % 64
  let r := s.set? set
  let line := redLine r k
  let x := r.line line
  if !r.armed then s.answerBroken i
  else if x.round % 256 != k.arg / 2 ^ 24 ∨ s.inRole i != r.parent.toNat ∨ r.count ≤ line then s
  else if s.redAgrees set line k then s.work 4096 [.deliver set line k.data (redCause k)]
  else
    let s := s.logHash set x.round
    let (s, data, _) := s.lineData set line
    s.work 4096 [.deliver set line data (some Codes.primeTableHash)]

/-- The first packet of a type received and not handled. -/
def State.takeRedOf (s : State) (t : Nat) : Option (Inbound × State) :=
  (s.carry.reds.find? (·.pkt.ptype == t)).map fun i =>
    (i, { s with carry := { s.carry with reds := s.carry.reds.eraseP (·.pkt.ptype == t) } })

/-- RED_RECEIVE (R406). -/
def execRedReceive (s : State) : Host.Outcome State Fault Refusal :=
  match s.takeRedOf tRed with
  | some (i, s) => .next (s.takeRed i)
  | none => .next s

/-- REDDOWN_RECEIVE (R409). -/
def execReddownReceive (s : State) : Host.Outcome State Fault Refusal :=
  match s.takeRedOf tReddown with
  | some (i, s) => .next (s.takeReddown i)
  | none => .next s

/-- RED_LINE_TIMEOUT: a line whose round stayed open for RED_TIMEOUT_US is delivered poisoned, and a member
that is not the root and has not sent its RED sends a poisoned one (R411). -/
def execRedLineTimeout (set : Fin 64) (line : Nat) (s : State) : Host.Outcome State Fault Refusal :=
  let r := s.carry.sets[set]
  let x := r.line line
  if r.armed && x.started then
    let s := s.log Codes.reduceBroken .carry { index := set.val, detail := line }
    let (s, d, _) := s.lineData set line
    let s := if r.parent != 0 && !x.sent then
        s.sendRole r.parent.toNat (s.redPacket false set line d (some Codes.reduceBroken) r.parent.toNat)
      else s
    .next (s.work 4096 [.deliver set line d (some Codes.reduceBroken)])
  else .next s

end Sys2Proof.Machine
end

