-- ==== Sys2Proof/Machine/HostQ.lean ====
section
/-!
DEFINITION. The HOSTQ (chapter 13): queues and doorbells, records and their checks, the stream table,
launches, host copies, completions and interrupts, and functions' enables and resets.
-/

namespace Sys2Proof.Machine

open Sys2Proof

def State.updSq (s : State) (f : FuncNo) (q : Fin 64) (g : Sq → Sq) : State :=
  s.updHostFn f fun h => { h with sqs := h.sqs.set q (g h.sqs[q]) }

def State.updCq (s : State) (f : FuncNo) (q : Fin 64) (g : Cq → Cq) : State :=
  s.updHostFn f fun h => { h with cqs := h.cqs.set q (g h.cqs[q]) }

/-! ## Queues and doorbells (R430, R431, R433) -/

/-- SQ_TAIL: a tail doorbell. -/
def execSqTail (func : FuncNo) (q : Fin 64) (tail : BitVec 16) (s : State) : Host.Outcome State Fault Refusal :=
  let sq := s.hostq.fns[func].sqs[q]
  if !s.hostOk || !sq.enable then .next s
  else if sq.sizeM1.toNat < tail.toNat then
    .next ((s.updSq func q fun x => { x with error := true, cause := 1 }).updHostFn func fun h =>
      { h with qerr := true, qerrSq := BitVec.ofNat 6 q.val })
  else .next (s.updSq func q fun x => { x with tail })

/-- CQ_HEAD: a head doorbell. -/
def execCqHead (func : FuncNo) (q : Fin 64) (head : BitVec 16) (s : State) : Host.Outcome State Fault Refusal :=
  let cq := s.hostq.fns[func].cqs[q]
  if !s.hostOk || !cq.enable then .next s
  else if cq.sizeM1.toNat < head.toNat then .next (s.updHostFn func fun h => { h with qerr := true })
  else .next (s.updCq func q fun x => { x with head })

/-- QUEUE_ENABLE: ENABLE of SQ_CFG or CQ_CFG is written; setting it zeroes head and tail (R430). -/
def execQueueEnable (func : FuncNo) (cq : Bool) (q : Fin 64) (enable : Bool) (s : State) :
    Host.Outcome State Fault Refusal :=
  let g := s.global.funcs[func]
  let limit := if cq then g.cqMax.toNat else g.sqMax.toNat
  if !s.hostOk || (enable && limit ≤ q.val) then .next s
  else if cq then
    .next ((s.updCq func q fun x =>
      if enable && !x.enable then { x with enable := true, head := 0, tail := 0, phase := true, unsignalled := 0 }
      else { x with enable }).countWaits func q.val)
  else
    .next (s.updSq func q fun x =>
      if enable && !x.enable then { x with enable := true, head := 0, tail := 0, error := false, cause := 0 }
      else { x with enable })

/-! ## Records (R432, R434, R435) -/

def Rec.opc (r : Rec) : Nat := bitsAt r.bits.toNat 0 8
def Rec.fence (r : Rec) : Bool := bitsAt r.bits.toNat 8 1 == 1
def Rec.index (r : Rec) : Nat := bitsAt r.bits.toNat 32 20
def Rec.cookie (r : Rec) : Nat := bitsAt r.bits.toNat 64 64
/-- HEADER, KEY_TAG and START_WINDOW (Table 13.7). -/
def Rec.arg (r : Rec) : Nat := bitsAt r.bits.toNat 128 64
def Rec.handle (r : Rec) : Nat := bitsAt r.bits.toNat 192 12
def Rec.cqid (r : Rec) : Nat := bitsAt r.bits.toNat 208 6

/-- The bits of a record that its OPC uses (Tables 13.6 and 13.7). -/
def recUsed (opc : Nat) : Nat :=
  let m (lo n : Nat) : Nat := (2 ^ n - 1) * 2 ^ lo
  let common := m 0 9 + m 64 64
  match opc with
  | 1 => common + m 128 48
  | 2 => common + m 32 12
  | 3 => common + m 32 20 + m 128 64 + m 192 12 + m 208 6
  | 4 => common + m 32 20 + m 128 64
  | 5 => common + m 32 20
  | _ => common + m 128 1 + m 192 64 + m 256 48 + m 320 32

/-- Check 1 of R435 as the record alone shows it. -/
def Rec.malformed (r : Rec) : Bool :=
  r.opc == 0 || decide (6 < r.opc) || (r.bits.toNat &&& (2 ^ 512 - 1 - recUsed r.opc)) != 0 ||
  (r.opc == 3 && (r.arg == 0 || r.handle == 0))

/-- The CQ of a record's SQ. -/
def State.recCq (s : State) (r : Rec) : Nat :=
  if h : r.sq < 64 then (s.hostq.fns[funcNo r.func].sqs[r.sq]).cqid.toNat else 0

/-- A record other than an accepted LAUNCH is completed (R435, R436). -/
def State.answerRec (s : State) (r : Rec) (status : Code) (index : Nat) : State :=
  s.complete { func := r.func, cqid := s.recCq r, status, rkind := r.opc % 8, sq := r.sq, index
               cookie := r.cookie, recId := r.id }

/-- Records of an SQ that have not been accepted yet. -/
def Sq.pending (q : Sq) : Nat := (q.tail.toNat + (q.sizeM1.toNat + 1) - q.head.toNat) % (q.sizeM1.toNat + 1)

def Sq.live (q : Sq) : Bool := q.enable && !q.error && q.head != q.tail

/-- The queue whose turn it is: the next enabled function with a non-empty SQ, and the next such SQ of it
(R432). -/
def State.turnOf (s : State) : Option (FuncNo × Fin 64) :=
  let sqOf (n : FuncNo) : Option (Fin 64) :=
    let h := s.hostq.fns[n]
    ((List.finRange 64).map fun i => i + Fin.ofNat 64 h.nextSq.toNat).find? fun i => h.sqs[i].live
  ((List.finRange 64).map fun i => i + Fin.ofNat 64 s.hostq.turn).findSome? fun n =>
    if s.global.funcs[n].enable then (sqOf n).map fun q => (n, q) else none

/-- One fetched record is accepted (R432). -/
def State.acceptRec (s : State) (func : FuncNo) (q : Fin 64) (bits : BitVec 512) : State :=
  let r : Rec := { id := s.hostq.nextRec, func := func.val, sq := q.val, bits }
  let s := (s.updSq func q fun x =>
      { x with head := BitVec.ofNat 16 ((x.head.toNat + 1) % (x.sizeM1.toNat + 1)) }).updHostFn func fun h =>
      { h with records := satInc h.records }
  let s := { s with hostq := { s.hostq with
    nextRec := r.id + 1, open_ := s.hostq.open_ ++ [(func.val, q.val, r.id)] } }
  if r.malformed then s.answerRec r Codes.loadRecordInvalid (if r.opc = 6 ∨ r.opc = 1 then 0 else r.index)
  else { s with hostq := { s.hostq with accepted := s.hostq.accepted ++ [r] } }

/-- Fetched records are accepted in order, up to a FENCE that must wait (R432). -/
def State.acceptAll (s : State) (func : FuncNo) (q : Fin 64) : List (BitVec 512) → State
  | [] => s
  | b :: bs =>
    if bitsAt b.toNat 8 1 = 1 ∧ s.hostq.open_.any (fun o => o.1 == func.val && o.2.1 == q.val) then s
    else (s.acceptRec func q b).acceptAll func q bs

/-- RECORD_FETCH: a turn reads up to 8 records of the queue whose turn it is; a DMA fault stops that queue. -/
def execRecordFetch (func : FuncNo) (q : Fin 64) (records : List (BitVec 512)) (dmaFault : Bool) (s : State) :
    Host.Outcome State Fault Refusal :=
  let ok := s.hostOk && s.turnOf == some (func, q) &&
    (dmaFault || records.length == min 8 s.hostq.fns[func].sqs[q].pending)
  let s1 := { s with hostq := { s.hostq with turn := (func.val + 1) % 64 } }
  let s1 := s1.updHostFn func fun h => { h with nextSq := BitVec.ofNat 6 (q.val + 1) }
  guardStep ok s
    (if dmaFault then
      (s1.updSq func q fun x => { x with error := true, cause := 2 }).updHostFn func fun h =>
        { h with qerrSq := BitVec.ofNat 6 q.val }
    else s1.acceptAll func q records)

/-- The first accepted record, where its OPC is the one given. -/
def State.nextRecord (s : State) (opc : Nat) : Option (Rec × State) :=
  match s.hostq.accepted with
  | [] => none
  | r :: rest => if r.opc = opc ∧ s.hostOk then some (r, { s with hostq := { s.hostq with accepted := rest } }) else none

/-! ## Programs (R437, R438) -/

/-- Programs may be loaded and launched in this lifecycle state (R515). -/
def State.programsAllowed (s : State) : Bool :=
  let l := s.boot.fuses.lifecycle
  l == 1 || l == 2 || l == 3

/-- The lowest free handle (R437). -/
def State.freeHandle (s : State) : Option Nat :=
  ((List.range 4095).map (· + 1)).find? fun h => !s.programs.any (·.handle == h)

/-- Frames named by a mask that a function may not use: not held, fenced, unavailable or not ON (R437,
R441, R465). -/
def State.framesBad (s : State) (n : FuncNo) (frames : BitVec 64) : Bool :=
  (framesOf frames).any fun f => !hasFrame s.global.funcs[n].frames f || !s.usableFrame f

/-- A LOAD's checks in the order of R437, and the program and the sets it installs. -/
def State.tryLoad (s : State) (n : FuncNo) (hdr : Nat) : Code × Nat × State :=
  let own := (s.programs.filter (·.func == n.val)).length
  match s.freeHandle with
  | none => (Codes.loadRecordInvalid, 0, s)
  | some h =>
    if s.global.funcs[n].progMax.toNat ≤ own then (Codes.loadRecordInvalid, 0, s)
    else if !s.spanOk n hdr 256 then (Codes.loadFootprint, 0, s)
    else if s.framesBad n (BitVec.ofNat 64 (s.rd (hdr + 8) 8)) then (Codes.loadFrames, 0, s)
    else
      let s := s.readSpans 1 (s.loadSpans (s.program n.val hdr))
      match s.loadScan n hdr with
      | (some c, _, _) => (c, 0, s)
      | (none, p, sets) =>
        let s := sets.foldl (fun (s : State) x => s.installPset x.1 x.2) s
        (Codes.ok, h, { s with programs := s.programs ++ [{ p with handle := h, func := n.val }] })

/-- A LOAD or LAUNCH in a lifecycle state that runs no program is refused, and logged (R515, Table 15.3). -/
def State.refuseLocked (s : State) (r : Rec) (index : Nat) : State :=
  (s.answerRec r Codes.lifecycleLock index).log Codes.lifecycleLock .hostq { func := some r.func }

/-- LOAD (R437). -/
def execLoad (s : State) : Host.Outcome State Fault Refusal :=
  match s.nextRecord 1 with
  | some (r, s) =>
    if !s.programsAllowed then .next (s.refuseLocked r 0)
    else
      let x := s.tryLoad (funcNo r.func) r.arg
      .next (x.2.2.answerRec r x.1 x.2.1)
  | none => .next s

/-- UNLOAD (R438). -/
def execUnload (s : State) : Host.Outcome State Fault Refusal :=
  match s.nextRecord 2 with
  | some (r, s) =>
    match s.program? r.func r.index with
    | none => .next (s.answerRec r Codes.loadRecordInvalid r.index)
    | some p =>
      if p.bound ≠ 0 then .next (s.answerRec r Codes.loadStreamBusy r.index)
      else .next ({ s with programs := s.programs.filter fun q => q.handle != p.handle }.answerRec r Codes.ok r.index)
  | none => .next s

/-! ## Stream entries (R439 to R441) -/

def State.inRange (s : State) (func index : Nat) : Bool :=
  let g := s.global.funcs[funcNo func]
  g.streamFirst.toNat ≤ index && index < g.streamFirst.toNat + g.streamCount.toNat

def State.updCache (s : State) (g : List Nat → List Nat) : State :=
  { s with hostq := { s.hostq with cache := g s.hostq.cache } }

/-- The cache gives up its least recently used entry that is neither QUEUED nor RUNNING: it is written back to its place in
device memory (R439). -/
def State.evict (s : State) : State :=
  match s.hostq.cache.reverse.find? fun j => (s.entry j).state != .queued && (s.entry j).state != .running with
  | none => s
  | some j =>
    let e := s.entry j
    let s := match s.entryAddr j with
      | some a => (s.lineWrite 1 a 64 false).store a e.bytes none
      | none => s
    { s with hostq := { s.hostq with cache := s.hostq.cache.erase j, entries := alErase s.hostq.entries j } }

/-- An entry is fetched into the cache (R439). -/
def State.fetchEntry (s : State) (i : Nat) : State :=
  let s := match s.entryAddr i with
    | some a => s.lineRead 1 a 64
    | none => s
  (s.setEntry i (s.entry i)).updCache fun c => i :: c

/-- A lookup of an entry in the on-chip cache of 16,384 entries; a QUEUED or RUNNING entry stays (R439). -/
def State.lookup (s : State) (i : Nat) : State :=
  let c := s.hostq.cache
  if c.contains i then
    { s.updCache fun c => i :: c.filter (· != i) with
      global := { s.global with streamHits := satInc s.global.streamHits } }
  else
    let s := { s with global := { s.global with streamMisses := satInc s.global.streamMisses } }
    (if c.length < 16384 then s else s.evict).fetchEntry i

/-- The code of R440 for an entry that must be BOUND. -/
def boundCode (e : Entry) : Option Code :=
  match e.state with
  | .free => some Codes.loadRecordInvalid
  | .bound => none
  | _ => some Codes.loadStreamBusy

def State.addBound (s : State) (handle : Nat) (up : Bool) : State :=
  { s with programs := s.programs.map fun (p : Program) =>
      if p.handle = handle then { p with bound := if up then p.bound + 1 else p.bound - 1 } else p }

/-- BIND (R440). -/
def execBind (s : State) : Host.Outcome State Fault Refusal :=
  match s.nextRecord 3 with
  | some (r, s) =>
    let i := r.index
    if !s.inRange r.func i ∨ (s.program? r.func r.handle).isNone ∨
        s.global.funcs[funcNo r.func].cqMax.toNat ≤ r.cqid then
      .next (s.answerRec r Codes.loadRecordInvalid i)
    else
      let s := s.lookup i
      if (s.entry i).state ≠ .free then .next (s.answerRec r Codes.loadStreamBusy i)
      else
        .next (((s.setEntry i {
          state := .bound, func := r.func, handle := r.handle, cqid := r.cqid, keyTag := r.arg }).addBound r.handle true).answerRec
          r Codes.ok i)
  | none => .next s

/-- UNBIND (R440). -/
def execUnbind (s : State) : Host.Outcome State Fault Refusal :=
  match s.nextRecord 5 with
  | some (r, s) =>
    let i := r.index
    if !s.inRange r.func i then .next (s.answerRec r Codes.loadRecordInvalid i)
    else
      let s := s.lookup i
      match boundCode (s.entry i) with
      | some c => .next (s.answerRec r c i)
      | none => .next (((s.addBound (s.entry i).handle false).setEntry i {}).answerRec r Codes.ok i)
  | none => .next s

/-- A LAUNCH's checks (R435, R440, R441): START_WINDOW is reserved for a program without ATTR.GROUP, which
check 1 of R435 refuses before the entry's state is judged. -/
def State.launchCode (s : State) (r : Rec) : Option Code :=
  let e := s.entry r.index
  if !s.inRange r.func r.index then some Codes.loadRecordInvalid
  else
    match s.program? r.func e.handle with
    | none => some ((boundCode e).getD Codes.loadRecordInvalid)
    | some p =>
      if !p.group ∧ r.arg ≠ 0 then some Codes.loadRecordInvalid
      else
        match boundCode e with
        | some c => some c
        | none => if s.framesBad (funcNo r.func) p.frames then some Codes.loadFrames else none

/-- LAUNCH (R441). -/
def execLaunch (s : State) : Host.Outcome State Fault Refusal :=
  match s.nextRecord 4 with
  | some (r, s) =>
    let i := r.index
    if !s.programsAllowed then .next (s.refuseLocked r i)
    else
      let s := if s.inRange r.func i then s.lookup i else s
      match s.launchCode r with
      | some c => .next (s.answerRec r c i)
      | none =>
        let e := s.entry i
        let frames := ((s.program? r.func e.handle).map (·.frames)).getD 0
        let seq := s.hostq.acceptSeq
        let s := s.setEntry i { e with state := .queued, cookie := r.cookie, acceptSeq := seq }
        .next { s with hostq := { s.hostq with
          acceptSeq := seq + 1
          launches := s.hostq.launches ++ [{
            seq, func := r.func, sq := r.sq, recId := r.id, index := i, handle := e.handle, frames
            window := r.arg }] } }
  | none => .next s

/-! ## Admission of launches (R219, R442) -/

/-- A frame that a launch may take: usable, IDLE and holding no program, and in no domain that a forced gate is taking to
RETAIN (R463). -/
def State.frameIdle (s : State) (f : FrameNo) : Bool :=
  s.usableFrame f && (s.frame f).seq.state == .idle && (s.frame f).rn.run == 0 && !(s.frame f).reg.wiping &&
    !s.adm.forcedPend.contains (s.domainOf f)

/-- Frames are taken by the QUEUED launches in acceptance order; `busy` are those taken already. -/
def State.takeFrames (s : State) : List Launch → BitVec 64 → List Launch
  | [], _ => []
  | l :: ls, busy =>
    let more := (framesOf l.frames).foldl (fun (m : BitVec 64) (f : FrameNo) =>
      if !busy.getLsbD f && s.frameIdle f then m ||| (1 <<< f.val) else m) 0
    { l with taken := l.taken ||| more } :: s.takeFrames ls (busy ||| more)

/-- A group-scoped launch whose start window has already opened (R72). -/
def State.windowMissed (s : State) (p : Program) (l : Launch) : Bool :=
  p.group && s.tally.gstate == .running && !s.tally.formReady && l.window * s.tally.j.toNat ≤ s.tally.gbeat.toNat

/-- A launch that holds all its frames is admitted: its program is assigned to them (R219), and its start waits for the
zeroing of the resident regions that its loaded tables create (R294). -/
def State.assign (s : State) (l : Launch) : State :=
  let s := { s with hostq := { s.hostq with launches := s.hostq.launches.filter (·.seq != l.seq) } }
  match s.program? l.func l.handle with
  | none => s
  | some p =>
    let e := s.entry l.index
    if s.windowMissed p l then
      let s := s.updHostFn (funcNo l.func) fun h => { h with launches := satAdd h.launches 1 }
      (s.setEntry l.index { e with state := .done }).complete {
        func := l.func, cqid := e.cqid, status := Codes.startWindowMissed, rkind := 4, sq := l.sq
        index := l.index, cookie := e.cookie, recId := l.recId, launch := true }
    else
      let id := s.nextRun
      let r : Run := {
        id, func := l.func, handle := l.handle, stream := l.index, keyTag := e.keyTag, frames := l.frames
        group := p.group, startWindow := l.window, index := l.index, sq := l.sq, recId := l.recId, cookie := e.cookie }
      let s := { s with runs := s.runs ++ [r], nextRun := id + 1 }
      p.parts.foldl (fun (s : State) a =>
        match frameNo? a.frame with
        | some f => s.updFrame f fun fr => { fr with
            seq := { fr.seq with state := .assigned }
            rn := { ({} : FrmRun) with
              run := id, words := a.words, qoffset := a.qoffset, ended := false, zeroing := a.rtab.any fr.creates } }
        | none => s) s

/-- LAUNCH_ADMIT: idle frames are taken in acceptance order, and each launch that holds all its frames is
admitted (R442). -/
def execLaunchAdmit (s : State) : Host.Outcome State Fault Refusal :=
  let held := s.hostq.launches.foldl (fun (m : BitVec 64) l => m ||| l.taken) 0
  let ls := s.takeFrames s.hostq.launches held
  let s := { s with hostq := { s.hostq with launches := ls } }
  .next ((ls.filter fun l => l.taken == l.frames).foldl State.assign s)

/-! ## Host copies (R444) -/

/-- A span that a copy may use: device memory that the function reaches, other functions' seal windows inside it apart, or
the scratchpad window of a frame that it holds (R424). -/
def State.copyReach (s : State) (n : FuncNo) (a len : Nat) : Bool :=
  let own := { s with global := { s.global with seals := Vector.ofFn fun i =>
    if s.global.seals[i].owner.toNat == n.val then s.global.seals[i] else {} } }
  match s.place a with
  | .mem => own.spanOk n a len
  | .spad f off => hasFrame s.global.funcs[n].frames f && decide (off + len ≤ 0x800000)
  | _ => false

/-- The code with which an HCOPY record fails. -/
def State.hcopyCode (s : State) (r : Rec) : Option Code :=
  let dev := bitsAt r.bits.toNat 256 48
  let len := bitsAt r.bits.toNat 320 32
  if !s.copyReach (funcNo r.func) dev len then some Codes.loadFootprint
  else if s.meetsSeal dev len then some Codes.sealViolation
  else none

/-- HCOPY: a copy is accepted; one of no bytes completes at once. -/
def execHcopy (s : State) : Host.Outcome State Fault Refusal :=
  match s.nextRecord 6 with
  | some (r, s) =>
    let len := bitsAt r.bits.toNat 320 32
    if len = 0 then .next (s.answerRec r Codes.ok 0)
    else
      match s.hcopyCode r with
      | some c => .next (s.answerRec r c 0)
      | none =>
        .next { s with hostq := { s.hostq with hcopies := s.hostq.hcopies ++ [{
          recId := r.id, func := r.func, sq := r.sq, toHost := bitsAt r.bits.toNat 128 1 == 1
          host := bitsAt r.bits.toNat 192 64, dev := bitsAt r.bits.toNat 256 48, len, cookie := r.cookie }] } }
  | none => .next s

/-- Bytes of a copy reach one line or row of their home (R108, R321, R422). A row of a sealed region takes none, and a
frame that is off none, each being told of (R39, R175; log entry 85). -/
def State.copyIn (s : State) (n : FuncNo) (a : Nat) (bytes : List Byte) (mark : Option Mark) : State :=
  match s.place a with
  | .mem => s.memArrive a bytes mark
  | .spad f _ =>
    if !s.powered f then s.offAccess f n.val
    else if (s.sealOwner a).isSome then s.barSealed n a
    else s.store a bytes mark
  | _ => s

/-- Bytes of one line or row leave their home, with the EP bit of their line (R422); zero where `copyIn` writes none. -/
def State.copyOut (s : State) (n : FuncNo) (a len : Nat) : State × List Byte × Bool :=
  let zero := List.replicate len (0 : Byte)
  match s.place a with
  | .mem =>
    let s := s.lineRead 1 a len
    (s, memReadN s.mem a len, (poisonAt s.poison a).isSome)
  | .spad f _ =>
    if !s.powered f then (s.offAccess f n.val, zero, false)
    else if (s.sealOwner a).isSome then (s.barSealed n a, zero, false)
    else
      let s := s.checkSpad a len
      (s, memReadN s.mem a len, (poisonAt s.poison a).isSome)
  | _ => (s, zero, false)

/-- The EP bit came with bytes of a copy's data from offset `o`: one of the poisoned TLPs, by their offsets and lengths,
holds some of them. -/
def epMark (poisoned : List (Nat × Nat)) (o len : Nat) : Option Mark :=
  if poisoned.any fun t => overlaps o len t.1 t.2 then some {} else none

/-- The payloads of at most 512 bytes in which bytes go to the host (Table 13.1). -/
def tlpsOf (a : Nat) (bs : List Byte) : List (Nat × List Byte) :=
  (List.range ((bs.length + 511) / 512)).map fun i => (a + 512 * i, (bs.drop (512 * i)).take 512)

/-- A copy's data moves, a line or row at a time: `data` is what the host's reads returned, all of it unless a read
failed, and `poisoned` the parts of it that came with EP set (R422, R444). -/
def State.moveCopy (s : State) (h : HCopy) (data : List Byte) (poisoned : List (Nat × Nat)) : State :=
  let n := funcNo h.func
  let cut (bytes : List Byte) := splitLines (bytes.length / 2048 + 2) h.dev bytes
  if h.toHost then
    (cut (List.replicate h.len 0)).foldl (fun (s : State) x =>
      let r := s.copyOut n x.1 x.2.length
      (tlpsOf (h.host + (x.1 - h.dev)) r.2.1).foldl (fun (t : State) y => t.emit (.hostWrite h.func y.1 y.2 r.2.2)) r.1) s
  else
    let s := (cut (data.take h.len)).foldl (fun (s : State) x =>
      s.copyIn n x.1 x.2 (epMark poisoned (x.1 - h.dev) x.2.length)) s
    if poisoned.isEmpty then s else s.emit (.aerPoisoned h.func)

/-- HCOPY_COMPLETE: the copy of a record, the first of its SQ, has moved its bytes or was ended by a failed
DMA read. `ep` are the TLPs of the host's data that came with EP set. -/
def execHcopyComplete (rec : Nat) (data : List Byte) (ep : List (Nat × Nat)) (dmaFault : Bool) (s : State) :
    Host.Outcome State Fault Refusal :=
  match s.hostq.hcopies.find? (·.recId == rec) with
  | none => .next s
  | some h =>
    let first := (s.hostq.hcopies.find? fun x => x.func == h.func && x.sq == h.sq).map (·.recId)
    let ok := s.hostOk && first == some h.recId && (h.toHost || dmaFault || data.length == h.len)
    let s1 := { s with hostq := { s.hostq with hcopies := s.hostq.hcopies.filter (·.recId != rec) } }
    let s1 := s1.moveCopy h data ep
    guardStep ok s (s1.complete {
      func := h.func, cqid := s.recCq { func := h.func, sq := h.sq }
      status := if dmaFault && !h.toHost then Codes.hostDmaFault else Codes.ok
      rkind := 6, sq := h.sq, cookie := h.cookie, recId := h.recId })

/-! ## Completions (R433, R436, R445) -/

/-- The 32 bytes of a completion record (Table 13.8). -/
def compBytes (c : Comp) (phase : Bool) (sqHead : Nat) : List Byte :=
  natToBytes 2 c.status.toNat ++ natToBytes 2 c.origin.toNat ++ natToBytes 2 c.faults ++
  [BitVec.ofNat 8 (c.lflags.toNat + 8 * (c.rkind % 8))] ++ [if phase then 1 else 0] ++
  natToBytes 2 sqHead ++ [BitVec.ofNat 8 (c.sq % 64)] ++ [0] ++
  natToBytes 3 c.index ++ [0] ++ natToBytes 8 c.cookie ++ natToBytes 8 c.beats

/-- CQ_STATUS.FULL: an enabled CQ has no room (R433). -/
def Cq.full (q : Cq) : Bool := q.enable && q.stuck

/-- A CQ signals its vector after a completion, where its count threshold is met (R445). -/
def State.coalesce (s : State) (f : FuncNo) (q : Fin 64) : State :=
  let cq := s.hostq.fns[f].cqs[q]
  if cq.ien && decide (cq.coalCount.toNat ≤ cq.unsignalled) then
    (s.updCq f q fun x => { x with unsignalled := 0 }).signal f cq.vector.toNat
  else s

/-- A completion is written at its CQ's tail; that of an accepted LAUNCH takes its entry back to BOUND (R440). -/
def State.writeComp (s : State) (c : Comp) (q : Fin 64) : State :=
  let f := funcNo c.func
  let cq := s.hostq.fns[f].cqs[q]
  let head := if h : c.sq < 64 then (s.hostq.fns[f].sqs[c.sq]).head.toNat else 0
  let next := (cq.tail.toNat + 1) % (cq.sizeM1.toNat + 1)
  let s := s.emit (.hostWrite c.func (cq.base.toNat * 4096 + cq.tail.toNat * 32) (compBytes c cq.phase head) false)
  let s := s.updCq f q fun x => { x with
    tail := BitVec.ofNat 16 next, phase := if next = 0 then !x.phase else x.phase, unsignalled := x.unsignalled + 1 }
  let s := (s.updHostFn f fun h => { h with completions := satInc h.completions }).closeRec c.recId
  let s := if c.launch ∧ (s.entry c.index).state = .done then
      let e := s.entry c.index
      (s.lookup c.index).setEntry c.index { e with state := .bound, launches := e.launches + 1 }
    else s
  (s.coalesce f q).countWaits f q.val

/-- Nothing that a transfer sent is left to be committed, or to be answered by another device. -/
def State.answered (s : State) (id : Nat) : Bool :=
  !s.xfers.any (·.id == id) && !s.carry.reqs.any fun q =>
    match q.owner with
    | .row i | .flag i | .atom i => i == id
    | .agent => false

/-- COMPLETION_RECORD_WRITE: the `k`-th waiting completion is written, if it is the first for its CQ, the CQ is enabled
and has room (R433), and every write of its program that was not cancelled has committed or been dropped (R480). -/
def execCompletionRecordWrite (k : Nat) (s : State) : Host.Outcome State Fault Refusal :=
  match s.hostq.comps[k]? with
  | none => .next s
  | some c =>
    let first := ((s.hostq.comps.take k).any fun d => d.func == c.func && d.cqid == c.cqid) == false
    let f := funcNo c.func
    if h : c.cqid < 64 then
      let cq := s.hostq.fns[f].cqs[c.cqid]
      let t := { s with hostq := { s.hostq with comps := s.hostq.comps.eraseIdx k } }
      guardStep (s.hostOk && first && !cq.stuck && c.after.all s.answered) s (t.writeComp c ⟨c.cqid, h⟩)
    else .next s

/-- COAL_TIME_EXPIRY: COAL_TIME_US has passed since the first unsignalled completion (R445). -/
def execCoalTimeExpiry (func : FuncNo) (q : Fin 64) (s : State) : Host.Outcome State Fault Refusal :=
  let cq := s.hostq.fns[func].cqs[q]
  guardStep (cq.enable && cq.ien && cq.coalTimeUs != 0 && cq.unsignalled != 0) s
    ((s.updCq func q fun x => { x with unsignalled := 0 }).signal func cq.vector.toNat)

/-! ## Functions (R423) -/

def State.updFunc (s : State) (n : FuncNo) (g : Func → Func) : State :=
  { s with global := { s.global with funcs := s.global.funcs.set n (g s.global.funcs[n]) } }

/-- Another function that is enabled, or whose enable is under way. -/
def State.otherFuncs (s : State) (n : FuncNo) : List FuncNo :=
  (List.finRange 64).filter fun m => m != n && (s.global.funcs[m].enable || s.global.funcs[m].enabling)

/-- log2 of PF BAR2's size (Table 13.4). -/
def Global.bar2Log (g : Global) : Nat := 28 + g.link.bar2.val

/-- log2 of every VF BAR2's size. -/
def Global.vfBar2Log (g : Global) : Nat := 28 + g.link.vfBar2.val

/-- TotalVFs: MAX_VFS of the applied image (R541), and 0 in recovery mode (R551). -/
def State.totalVfs (s : State) : Nat := if s.boot.state = .recovery then 0 else s.boot.image.maxVfs.toNat

/-- The function is the PF, or a VF that the device has and the host has enabled (R421). -/
def State.present (s : State) (n : FuncNo) : Bool := decide (n.val ≤ min s.global.link.numVfs.val s.totalVfs)

/-- The RESULT of an enable (R423): 0 OK, 1 RANGE, 2 OVERLAP. -/
def State.enableResult (s : State) (n : FuncNo) : Nat :=
  let g := s.global.funcs[n]
  let part := s.partition n
  let table := s.global.streamBase.toNat * 0x4000000
  let others := s.otherFuncs n
  let vf := n.val != 0
  if 64 < g.sqMax.toNat ∨ 64 < g.cqMax.toNat ∨ g.carryAccept = 3 ∨
      1048576 < g.streamFirst.toNat + g.streamCount.toNat ∨
      4095 < g.progMax.toNat + (others.map fun m => s.global.funcs[m].progMax.toNat).sum ∨
      (vf ∧ (s.usable < part.1 + part.2 ∨ 2 ^ s.global.vfBar2Log < part.2)) then 1
  else if others.any (fun m =>
      let h := s.global.funcs[m]
      (h.frames &&& g.frames) != 0 ||
      (vf && m.val != 0 && overlaps part.1 part.2 (s.partition m).1 (s.partition m).2) ||
      overlaps g.streamFirst.toNat g.streamCount.toNat h.streamFirst.toNat h.streamCount.toNat) ∨
      (vf ∧ overlaps part.1 part.2 table 0x4000000) then 2
  else 0

/-- FUNC_ENABLE: ENABLE is written 1 (R423). -/
def execFuncEnable (func : FuncNo) (s : State) : Host.Outcome State Fault Refusal :=
  let g := s.global.funcs[func]
  if !s.hostOk || g.enable || g.busy then .next s
  else
    let res := s.enableResult func
    if res ≠ 0 then .next (s.updFunc func fun g => { g with result := BitVec.ofNat 2 res })
    else
      let s := (framesOf g.frames).foldl (fun (s : State) f => if (s.frame f).seq.state == .unavailable then s else s.wipeFrame f) s
      let part := s.partition func
      let s := if func.val = 0 then s else s.startWipe (.part func.val) part.1 part.2
      .next (s.updFunc func fun g => { g with
        result := 0, busy := true, enabling := true, wiping := func.val != 0 && part.2 != 0 }).settle

/-! ## Function resets (R446, R447) -/

/-- Step 2: programs of the function are aborted (R306) without a completion, and a group that one of them ran in is left
(R481). -/
def State.dropPrograms (s : State) (n : FuncNo) : State :=
  let s := { s with runs := s.runs.map fun (r : Run) =>
    if r.func == n.val then { r with
      silent := true, residue := true, aborted := some (r.aborted.getD 0)
      endBeat := some (r.endBeat.getD s.tally.count.toNat) }
    else r }
  let s := s.quietAborted.leaveOnAbort
  let s := (s.runs.filter (·.func == n.val)).foldl (fun (s : State) r => s.finishRun r) s
  { s with
    hostq := { s.hostq with
      launches := s.hostq.launches.filter (·.func != n.val), accepted := s.hostq.accepted.filter (·.func != n.val)
      open_ := s.hostq.open_.filter (·.1 != n.val), comps := s.hostq.comps.filter (·.func != n.val)
      hcopies := s.hostq.hcopies.filter (·.func != n.val) }
    programs := s.programs.filter (·.func != n.val) }

/-- Every entry of the function's stream range becomes FREE, in the cache and in device memory (R446). -/
def State.freeEntries (s : State) (n : FuncNo) : State :=
  let g := s.global.funcs[n]
  let a := s.global.streamBase.toNat * 0x4000000 + g.streamFirst.toNat * 64
  let size := if a + g.streamCount.toNat * 64 ≤ s.usable then g.streamCount.toNat * 64 else 0
  ({ s with mem := memZero s.mem a size } : State).wroteSpan 1 a size |> fun s => { s with
    hostq := { s.hostq with
      entries := s.hostq.entries.filter fun e => !s.inRange n.val e.1
      cache := s.hostq.cache.filter fun i => !s.inRange n.val i } }

/-- The session slots that a function owns become empty (R446, R527). -/
def State.dropSessions (s : State) (n : FuncNo) : State :=
  { s with lne := { s.lne with sessions := s.lne.sessions.mapIdx fun _ (x : Session) =>
      if x.valid && x.owner.toNat == n.val then {} else x } }

/-- Steps 5 and 6 over the spans a function loses: seal windows wiped, session slots emptied, MAS layers and
reduction sets that meet the spans returned to IDLE. -/
def State.dropSpans (s : State) (n : FuncNo) (all : Bool) : State :=
  let part := s.partition n
  let wins := (List.finRange 64).filter fun i => s.global.seals[i].valid && s.global.seals[i].owner.toNat == n.val
  let spans := part :: wins.map fun i => (s.global.seals[i].base.toNat * 65536, s.global.seals[i].size.toNat * 65536)
  let hits (a len : Nat) : Bool := all || spans.any fun x => overlaps a len x.1 x.2
  let s := wins.foldl (fun (s : State) i =>
    s.startWipe (.sealed i.val) (s.global.seals[i].base.toNat * 65536) (s.global.seals[i].size.toNat * 65536)) s
  let layer (l : Layer) : Layer :=
    if hits (lineBase l.wBase) l.shape.size || hits (lineBase l.mBase) l.shape.size then { l with state := .idle } else l
  let set (r : RSet) : RSet :=
    if r.armed && (all || (!r.vote && (hits (lineBase r.contrib) r.shape.size || hits (lineBase r.deliver) r.shape.size ||
        hits (lineBase r.area) (r.shape.size / 256)))) then r.disarm else r
  { s.dropSessions n with
    mas := { s.mas with layers := s.mas.layers.mapIdx fun _ l => layer l }
    carry := { s.carry with sets := s.carry.sets.mapIdx fun _ r => set r } }

/-- The steps of R446 on an enabled function; `all` for the PF, with all of usable memory (R447). -/
def State.resetFunc (s : State) (n : FuncNo) (all : Bool) : State :=
  let g := s.global.funcs[n]
  let s := s.updHostFn n fun h => { h with
    sqs := Vector.ofFn fun i => { h.sqs[i] with enable := false }
    cqs := Vector.ofFn fun i => { h.cqs[i] with enable := false } }
  let s := (s.dropPrograms n).freeEntries n
  let s := (framesOf g.frames).foldl (fun (s : State) f =>
    let s := s.updFrame f fun fr => { fr with flags := Vector.replicate 256 0 }
    if (s.frame f).seq.state == .unavailable then s else s.wipeFrame f) s
  let s := s.dropSpans n all
  let part := if all then (0, s.usable) else s.partition n
  let s := s.startWipe (.part n.val) part.1 part.2
  s.updFunc n fun g => { g with
    enable := false, enabling := false, busy := true, resetting := true, wiping := part.2 != 0 }

/-- FUNCTION_RESET of a VF: FLR, VF Enable cleared or ENABLE written 0 (R446). In orphan mode an FLR
completes and does nothing (R496); on a VF that is not enabled it empties the session slots that it owns (R527). -/
def execFunctionReset (func : FuncNo) (s : State) : Host.Outcome State Fault Refusal :=
  let g := s.global.funcs[func]
  if func.val = 0 || g.resetting then .next s
  else if s.hostOk && (g.enable || g.enabling) then .next (s.resetFunc func false).settle
  else .next ((if s.hostOk then s.dropSessions func else s).emit (.flr func.val))

/-- The PF's reset: every enabled VF, then the PF (R447). -/
def State.pfReset (s : State) : State :=
  let vfs := (List.finRange 64).filter fun n => n.val != 0 && (s.global.funcs[n].enable || s.global.funcs[n].enabling)
  let s := vfs.foldl (fun (s : State) n => s.resetFunc n false) s
  let s := (List.finRange 64).foldl (fun (s : State) n => s.dropSessions n) s
  let s := s.resetFunc 0 true
  ({ s with lne := { s.lne with waiting := s.lne.waiting.filter (!·.pf), pending := false } } : State).settle

/-- PF_FUNCTION_RESET: every enabled VF, then the PF, with all of usable memory; the LNE's pending PF
operation is discarded (R447, R524). -/
def execPfFunctionReset (s : State) : Host.Outcome State Fault Refusal :=
  if !s.hostOk then .next (s.emit (.flr 0))
  else if s.global.funcs[(0 : FuncNo)].resetting then .next s
  else .next s.pfReset

end Sys2Proof.Machine
end

