-- ==== Sys2Proof/Machine/Power.lean ====
section
/-!
DEFINITION. Power (chapter 14): the budget (R453, R458, R503), the core rails (R459), thermal limits (R461 to
R464), and the power domains and their transitions (R465 to R470).
-/

namespace Sys2Proof.Machine

open Sys2Proof

/-! ## Budget and rails -/

/-- The Reckoner writes BUDGET; FALLBACK, where it was in force, stays so to the next launch (R453, R458). -/
def State.writeBudget (s : State) (b : BitVec 16) : State :=
  let a := s.adm
  { s with adm := { a with budget := b, budgetNow := if a.stale then a.fallback else a.budgetNow, stale := false } }

/-- BUDGET_WRITE. -/
def execBudgetWrite (budget : BitVec 16) (s : State) : Host.Outcome State Fault Refusal :=
  .next (s.writeBudget budget)

/-- BUDGET_STALE: 10 ms without a write put FALLBACK in force (R453). -/
def execBudgetStale (s : State) : Host.Outcome State Fault Refusal :=
  .next { s with adm := { s.adm with stale := true } }

/-- CNT_CLEAR: the counters clear at the next launch, before it is counted. -/
def execCntClear (s : State) : Host.Outcome State Fault Refusal :=
  if !s.hostOk then .next s else
  .next { s with adm := { s.adm with cntClear := true } }

/-- BUDGET as R503 derives it, in AU: `v` in mV, `rate` in M tokens/s, `icc` in 0.1 A, `mean` in AU and
`pkg` in mW. Powers are held in units of W / (9 · 10^9), in which one AU is v² · rate. -/
def budgetOf (v rate icc mean pkg : Nat) : Nat :=
  let au : Int := v * v * rate
  let limit : Int := (min (650 * 9000000000) (icc * v * 900000) : Nat) - 292500000000
  let other : Int := pkg * 9000000 - au * mean
  (max 256 (min 65535 ((limit - other) / au))).toNat

/-- The mean AU granted per beat over the last 100 µs (R503); none without a beat. -/
def State.meanAu (s : State) : Nat :=
  let g := s.adm.grants.filter fun p => s.tally.up < p.1 + 100000
  (g.map (·.2)).sum / g.length

/-- The Current, Temperature and Status of both core rails are read over the AVSBus (R459; log entry 94). -/
def State.readAvs (s : State) (got : Nat) : State :=
  let s := [0, 1].foldl (fun (s : State) rail => [1, 2, 3].foldl (fun (s : State) what => s.emit (.avsRead rail what)) s) s
  { s with adm := { s.adm with avsStatus := got } }

/-- BUDGET_UPDATE: the Reckoner reads the regulators, what they answer being `avs`, derives BUDGET from the grants and the
package's power `pkgMw` (log entry 94), and writes it (R503). Without a token rate or a set point the spec states no result:
an open value. -/
def execBudgetUpdate (avs pkgMw : Nat) (s : State) : Host.Outcome State Fault Refusal :=
  let v := max s.adm.targetMv[0].toNat s.adm.targetMv[1].toNat
  let rate := s.tally.tokenRate.toNat
  let t := s.readAvs avs
  let open_ := t.openVal
  guardStep s.mgmt.alive s
    (if v = 0 ∨ rate = 0 then open_.2.writeBudget (BitVec.ofNat 16 open_.1.toNat)
     else t.writeBudget (BitVec.ofNat 16 (budgetOf v rate s.mgmt.iccMax.toNat s.meanAu pkgMw)))

/-- VCORE_SET: the Reckoner sets a rail over AVSBus, within the limits, and reads it back (R459): the
reading is the regulator's, an open value. Where the regulator does not answer, which the operand's second part
says, the set point is held and the event is logged (R460; its record: log entry 88). -/
def execVcoreSet (rail : Fin 2) (point : BitVec 10 × Bool) (s : State) : Host.Outcome State Fault Refusal :=
  let mv := point.1
  let a := s.adm
  let lo := max a.vmin.toNat s.mgmt.railMin.toNat
  let hi := min a.vmax.toNat s.mgmt.railMax.toNat
  let s1 := (s.emit (.avs rail.val mv.toNat)).emit (.avsRead rail.val 0)
  let r := s1.openVal
  guardStep (lo ≤ mv.toNat && mv.toNat ≤ hi) s
    (if point.2 then
      { r.2 with
        adm := { a with targetMv := a.targetMv.set rail mv, readMv := a.readMv.set rail (BitVec.ofNat 10 r.1.toNat) }
        mgmt := { s.mgmt with oldMv := s.mgmt.oldMv.set rail (some (a.targetMv[rail], s.tally.up)) } }
    else s1.log Codes.ok .adm { index := rail.val, detail := mv.toNat })

/-- The rail of a voltage sensor 96 + k (Table 18.2): 0 and 1 the compute rails. -/
def railOf (k : Nat) : Nat := if k < 8 then 0 else if k < 16 then 1 else k - 14

/-- The window of a rail in mV: for a compute rail the set point in force, or both for 100 µs after a write
(R559, R564). -/
def State.window (s : State) (rail : Nat) : Nat × Nat :=
  match rail with
  | 0 | 1 =>
    let r : Fin 2 := if rail = 0 then 0 else 1
    let now := if s.adm.targetMv[r] = 0 then 750 else s.adm.targetMv[r].toNat
    let was := match s.mgmt.oldMv[r] with
      | some (v, t) => if s.tally.up < t + 100000 then (if v = 0 then 750 else v.toNat) else now
      | none => now
    (min now was - 30, max now was + 30)
  | 2 | 9 => (776, 824)
  | 3 => (882, 918)
  | 4 => (1164, 1236)
  | 5 => (488, 512)
  | 6 => (1019, 1081)
  | 7 => (825, 875)
  | _ => (1710, 1890)

/-- The rail of a compute die stands inside its window at every point that senses it (R566). -/
def State.railBack (s : State) (die : Nat) : Bool :=
  let w := s.window die
  (List.range 8).all fun i =>
    match s.mgmt.sensors[96 + 8 * die + i]? with
    | some x => x.valid && decide ((w.1 : Int) ≤ x.value) && decide (x.value ≤ (w.2 : Int))
    | none => true

/-! ## Domains (Table 1.7) -/

def isGroupDom (d : Nat) : Bool := d < 8 || (10 ≤ d && d < 18)

def isPairDom (d : Nat) : Bool := d == 8 || d == 18

/-- A domain that holds frames. -/
def isFrameDom (d : Nat) : Bool := isGroupDom d || isPairDom d

def isFabricDom (d : Nat) : Bool := d == 9 || d == 19

/-- The domain of a physical frame (Table 1.7). -/
def domainOfPhys (die phys : Nat) : Nat := (if phys < 32 then phys / 4 else 8) + 10 * die

/-- The Carry port of a domain. -/
def portOfDom (d : Nat) : Option (Fin 8) := if h : 20 ≤ d ∧ d < 28 then some ⟨d - 20, by omega⟩ else none

/-- The fabric domain of a frame domain's die. -/
def fabricOf (d : Nat) : Nat := if d < 10 then 9 else 19

def State.updDomain (s : State) (d : Nat) (g : Domain → Domain) : State :=
  if h : d < 36 then { s with adm := { s.adm with domains := s.adm.domains.set d (g s.adm.domains[d]) } } else s

/-- The logical frames whose physical frames a domain holds (R37). -/
def State.framesIn (s : State) (d : Nat) : List FrameNo :=
  if isFrameDom d then (List.finRange 64).filter fun f => s.domainOf f == d && (s.frame f).seq.state != .unavailable else []

/-- A domain counts as powered (R36, R465). -/
def State.domPowered (s : State) (d : Nat) : Bool := (s.domain d).state == .on || (s.domain d).state == .retain

/-- A frame is drained (R466); a fenced one counts as drained (R486). -/
def State.frameDrained (s : State) (f : FrameNo) : Bool :=
  let fr := s.frame f
  fr.seq.state == .fenced ||
    (fr.rn.run == 0 && !(s.xfers.any (·.frame == f.val)) && !fr.reg.wiping && !fr.reg.regBusy && !fr.reg.spadBusy &&
      fr.regions.all (·.credits.isEmpty))

def State.drained (s : State) (d : Nat) : Bool := (s.framesIn d).all s.frameDrained

/-- What a frame loses when its domain leaves ON: flags, scalars, descriptor tables and the remote-read
cache (Table 14.3), and its credits (R463); in OFF also its rows, regions and registers, FRM_MAP and FRM_HEALTH apart, which
describe the frame to the device. A program that a die loss takes it from keeps its name there, and what its engines were
about, until the launch that aborts it (R566). -/
def Frame.powerDown (fr : Frame) (off : Bool) : Frame :=
  { fr with
    rn := if fr.rn.run = 0 then {} else {
      run := fr.rn.run, ops := fr.rn.ops, endIssued := true, ended := fr.rn.ended || fr.rn.endMark }
    seq := if off then { state := fr.seq.state, phys := fr.seq.phys, domain := fr.seq.domain } else fr.seq
    reg := if off then {
        checkFails := fr.reg.checkFails, remapBusy := fr.reg.remapBusy, remapResult := fr.reg.remapResult
        fenceCause := fr.reg.fenceCause, spadCe := fr.reg.spadCe }
      else fr.reg
    scalars := Vector.replicate 32 {}, flags := Vector.replicate 256 0, rrc := []
    active := false, done := false, decl := 0, lateWrite := false
    deferWipe := fr.deferWipe || off
    regions := if off then [] else (fr.regions.filter (·.resident)).map fun (r : Region) => { r with credits := [], head := 0, tail := 0, ring := none } }

/-- A domain enters RETAIN (R465). -/
def State.enterRetain (s : State) (d : Nat) : State :=
  let fs := s.framesIn d
  ((s.mapFrames fun f fr => if fs.contains f then fr.powerDown false else fr).updDomain d fun x => { x with state := .retain }).settleLeave

/-- The DRBG of a compute die starts afresh at power-on, and is uninstantiated while its die is OFF (R519). -/
def State.dieDrbg (s : State) (d : Nat) (on : Bool) : State :=
  if isFabricDom d then
    if on then s.startDrbg (if d = 9 then 0 else 1) else s.setDrbg (if d = 9 then 0 else 1) {}
  else s

/-- A domain goes OFF: every content lost; a Carry port goes to DISABLED and drops what it queued (Table 14.4). -/
def State.enterOff (s : State) (d : Nat) : State :=
  let fs := s.framesIn d
  let s := s.mapFrames fun f fr => if fs.contains f then fr.powerDown true else fr
  let s := match portOfDom d with
    | some p => (s.linkDown p).updPort p fun q => { q with state := .disabled, txq := [], identFail := false }
    | none => s
  ((s.dieDrbg d false).updDomain d fun x => { x with state := .off, cold := true }).settle.settleLeave

/-- Coming ON, a domain wipes its frames: every frame when it was OFF, in a whole-frame wipe that goes on after it;
from RETAIN the frames that are owed one, before it (R468, Table 14.4). -/
def State.wakeFrames (s : State) (d : Nat) : State :=
  if (s.domain d).cold then
    (s.framesIn d).foldl (fun (s : State) f => (s.updFrame f fun fr => { fr with deferWipe := false }).wipeFrame f) s
  else
    ((s.framesIn d).filter fun f => (s.frame f).deferWipe).foldl (fun (s : State) f =>
      (s.wipeBytes (spadAddr f 0) 0x800000).updFrame f fun fr => { fr with deferWipe := false, regions := [], rrc := [] }) s

/-- A die's domain is ON, so the die counts as lost no longer (R566). -/
def State.dieBack (s : State) (d : Nat) : State :=
  if d < 20 then { s with boot := { s.boot with lost := s.boot.lost.filter (· != d / 10) } } else s

/-- A domain comes ON: its frames are wiped, a port trains when it is enabled and the SerDes have their rail (R563), and
FORCED clears. -/
def State.enterOn (s : State) (d : Nat) : State :=
  let s := s.wakeFrames d
  let s := match portOfDom d with
    | some p => s.updPort p fun q => { q with
        state := if q.enable && q.role != 0 && !s.boot.lost.contains 3 then .equalize else .disabled }
    | none => s
  ((s.dieDrbg d true).dieBack d).updDomain d fun x => { x with state := .on, forced := false, cold := false }

def State.enterDomain (s : State) (d : Nat) (t : DomState) : State :=
  match t with
  | .on => s.enterOn d
  | .retain => s.enterRetain d
  | .off => s.enterOff d
  | .switching => s

/-! ## Switching by request (R467, R470) -/

/-- Would the transition break R36, or is it none of Table 14.4? -/
def State.orderBroken (s : State) (d : Nat) (t : DomState) : Bool :=
  if isFrameDom d then
    (t == .on && !(s.domPowered (fabricOf d) && s.domPowered 34)) || (t == .retain && (s.domain d).state != .on)
  else if isFabricDom d then
    (t == .on && !s.domPowered 34) ||
      (t == .off && (List.range 20).any fun x => isFrameDom x && fabricOf x == d && (s.domain x).state != .off)
  else false

/-- A spare pair that profile L holds warm, or that holds a mapped spare (R38). -/
def State.pairHeld (s : State) (d : Nat) : Bool := isPairDom d && (s.profL || (s.domain d).fvalid != 0)

/-- The first reason to refuse a request, but for the drain (R470). A spare pair that R38 keeps off is not
switched ON: RESULT 5 PROFILE, and the domain of a lost die whose rail is not back: RESULT 3 ORDER (log entry 69). -/
def State.switchCode (s : State) (d : Nat) (t : DomState) : Nat :=
  if (28 ≤ d) ∨ (t = .retain ∧ !isFrameDom d) then 1
  else if (s.domain d).state = t then 0
  else if (s.framesIn d).any s.frameLoaded then 2
  else if s.orderBroken d t ∨ (t = .on ∧ d < 20 ∧ s.boot.lost.contains (d / 10) ∧ !s.railBack (d / 10)) then 3
  else if (t ≠ .on ∧ s.pairHeld d) ∨ (t = .on ∧ isPairDom d ∧ !s.pairHeld d) then 5
  else 0

/-- ADMIT_DOMAIN_CTRL.BUSY: a transition runs or waits, whoever has asked for it (R467). -/
def State.domBusy (s : State) : Bool := !s.adm.domQueue.isEmpty

/-- A transition can begin: to ON, by a forced gate, or of a drained domain (R466). -/
def State.transReady (s : State) (t : DomTrans) : Bool := t.target == .on || t.forced || s.drained t.dom

/-- A force-gated domain is in RETAIN: FORCED is set, and with the last of them CRIT (R463). -/
def State.gateDone (s : State) (d : Nat) : State :=
  let rest := s.adm.forcedPend.filter (· != d)
  let s := s.updDomain d fun x => { x with forced := true }
  { s with adm := { s.adm with forcedPend := rest, crit := s.adm.crit || rest.isEmpty } }

/-- The transitions still to be made, in order, one at a time (R467): the first one that is not made already begins as soon
as it can. -/
def State.runQueue (s : State) : List DomTrans → State
  | [] => { s with adm := { s.adm with domQueue := [] } }
  | t :: ts =>
    if (s.domain t.dom).state = t.target then (if t.forced then s.gateDone t.dom else s).runQueue ts
    else
      let s := { s with adm := { s.adm with domQueue := t :: ts } }
      if s.transReady t then s.updDomain t.dom fun x => { x with state := .switching } else s

/-- The transition at the head begins, where it waited for its domain to drain and that has drained. -/
def State.startHead (s : State) : State := s.runQueue s.adm.domQueue

/-- A transition is asked for: it waits for those asked for before it. -/
def State.askTrans (s : State) (t : DomTrans) : State := s.runQueue (s.adm.domQueue ++ [t])

/-- No transition of these domains is left to make. -/
def State.dropTrans (s : State) (p : Nat → Bool) : State := s.runQueue (s.adm.domQueue.filter fun t => !p t.dom)

/-- GO of ADMIT_DOMAIN_CTRL (R470); ignored while BUSY. A drained domain begins its transition at once. -/
def State.domainGo (s : State) (d : Fin 36) (target : BitVec 2) (t : DomState) : State :=
  if s.domBusy then s
  else
    let s := { s with adm := { s.adm with domSel := BitVec.ofNat 6 d.val, domTarget := target } }
    let c := s.switchCode d.val t
    let s := { s with adm := { s.adm with domResult := BitVec.ofNat 3 c } }
    if c ≠ 0 then s else s.askTrans { dom := d.val, target := t }

/-- DOMAIN_ON. -/
def execDomainOn (domain : Fin 36) (s : State) : Host.Outcome State Fault Refusal :=
  if !s.hostOk then .next s else
  .next (s.domainGo domain 0 .on)

/-- DOMAIN_RETAIN. -/
def execDomainRetain (domain : Fin 36) (s : State) : Host.Outcome State Fault Refusal :=
  if !s.hostOk then .next s else
  .next (s.domainGo domain 1 .retain)

/-- DOMAIN_OFF. -/
def execDomainOff (domain : Fin 36) (s : State) : Host.Outcome State Fault Refusal :=
  if !s.hostOk then .next s else
  .next (s.domainGo domain 2 .off)

/-- The transition at the head has been made. A forced gate takes with it what its frames' Feeders still held (R463). -/
def State.endTrans (s : State) (t : DomTrans) (rest : List DomTrans) : State :=
  let fs := s.framesIn t.dom
  let s := if t.forced then
      ({ s with xfers := s.xfers.filter fun x => !fs.any (·.val == x.frame) || x.flying }.enterDomain t.dom t.target).gateDone t.dom
    else s.enterDomain t.dom t.target
  s.runQueue rest

/-- DOMAIN_TRANSITION_COMPLETE: the transition in progress ends, and the next one begins; one that waited for its domain to
drain begins, once that has drained (R466, R467). -/
def execDomainTransitionComplete (s : State) : Host.Outcome State Fault Refusal :=
  match s.adm.domQueue with
  | t :: rest => .next (if (s.domain t.dom).state = .switching then s.endTrans t rest else s.startHead)
  | [] => .next s

/-- GATE_WAIT_EXPIRY: the domain did not drain in time (R470). -/
def execGateWaitExpiry (s : State) : Host.Outcome State Fault Refusal :=
  match s.adm.domQueue with
  | t :: rest =>
    guardStep ((s.domain t.dom).state != .switching && !s.transReady t) s
      (({ s with adm := { s.adm with domResult := 4 } } : State).runQueue rest)
  | [] => .next s

/-! ## Thermal limits -/

/-- The domain of a sensor (Table 16.2); rails are measured in the always-on domain. -/
def sensorDomain (i : Nat) : Nat :=
  if i < 32 then i / 4 else if i < 40 then 9
  else if i < 72 then 10 + (i - 40) / 4 else if i < 80 then 19
  else if i < 88 then 20 + (i - 80) else if i < 92 then 28 + (i - 88)
  else if i < 94 then 33 else if i < 96 then 34
  else if i < 121 then 35
  else domainOfPhys ((i - 121) / 34) ((i - 121) % 34)

/-- What a sensor shows: one whose domain is not ON has no valid reading (R504). -/
def State.sensor (s : State) (i : Fin 189) : Sensor :=
  let x := s.mgmt.sensors[i]
  { x with valid := x.valid && (s.domain (sensorDomain i.val)).state == .on }

/-- A die is lost, and the launch that aborts its programs has not come (R566). -/
def State.losing (s : State) (die : Nat) : Bool :=
  s.runs.any fun r => r.aborts.any fun a => a.2 == Codes.supplyFault && a.1 / 32 == die

/-- The readings of the 96 thermal sensors, in 1/8 °C (Table 16.2). -/
def State.temps (s : State) : List Int :=
  ((((List.finRange 189).filter (·.val < 96)).map s.sensor).filter (·.valid)).map (·.value)

/-- The last readings of the thermal sensors of dies that are being lost: what they showed before the same launch. -/
def State.lastTemps (s : State) : List Int :=
  (((List.finRange 189).filter fun i => i.val < 80 && s.losing (i.val / 40)).map fun i => s.mgmt.sensors[i]).filterMap fun x =>
    if x.valid then some x.value else none

/-- Hardware throttle (R462). -/
def State.scanHot (s : State) : State :=
  let hot := s.adm.tjHot.toNat
  if s.temps.any (((8 * hot : Nat) : Int) ≤ ·) then
    if s.adm.throttled then s
    else
      let s := (s.log Codes.thermalThrottle .adm {}).pfErr Codes.thermalThrottle 0
      { s with adm := { s.adm with throttled := true } }
  else if s.temps.all (· < 8 * (hot : Int) - 40) then { s with adm := { s.adm with throttled := false } }
  else s

/-- Forced gate (R463): programs of the domains are asked to abort, and the domains wait to enter RETAIN. Where a die is
lost before the same launch, its programs have this cause beside the other, the lower one being reported (R566). -/
def State.scanCrit (s : State) : State :=
  if (s.temps ++ s.lastTemps).any (((8 * s.adm.tjCrit.toNat : Nat) : Int) ≤ ·) then
    let doms := (List.range 20).filter fun d =>
      isFrameDom d && (s.domain d).state == .on && !s.adm.forcedPend.contains d
    let lost := (List.finRange 64).filter fun f => s.losing (dieOf f)
    let fs := doms.flatMap s.framesIn
    let s := (fs ++ lost).foldl (fun (s : State) f =>
      match s.runOf f with | some r => s.askAbort r.id f.val Codes.forcedGate | none => s) s
    if doms.isEmpty then { s with adm := { s.adm with crit := s.adm.crit || s.adm.forcedPend.isEmpty } }
    else
      let s := (s.log Codes.forcedGate .adm {}).alert
      let s := s.mapFrames fun f fr => if fs.contains f then { fr with lateWrite := true } else fr
      { s with adm := { s.adm with forcedPend := s.adm.forcedPend ++ doms } }
  else s

/-- THERMAL_SCAN: every thermal sensor is compared with the thresholds of Table 14.2. -/
def execThermalScan (s : State) : Host.Outcome State Fault Refusal :=
  let trip := s.temps.any ((920 : Int) ≤ ·)
  let s := s.scanHot.scanCrit
  .next { s with adm := { s.adm with thermtrip := s.adm.thermtrip || trip } }

/-- FORCE_DRAIN_EXPIRY: a force-gated domain, its programs aborted, is to enter RETAIN, drained or not, in its turn
(R463, R467). -/
def execForceDrainExpiry (domain : Fin 36) (s : State) : Host.Outcome State Fault Refusal :=
  let d := domain.val
  let free := (s.framesIn d).all fun f => (s.frame f).rn.run == 0
  guardStep (s.adm.forcedPend.contains d && free && !s.adm.domQueue.any fun t => t.forced && t.dom == d) s
    (s.askTrans { dom := d, target := .retain, forced := true })

end Sys2Proof.Machine
end

