-- ==== Sys2Proof/Machine/Faults.lean ====
section
/-!
DEFINITION. Fences and spares (R483 to R489), the fault ring's head and ALERT (R491, R492), and the Reckoner's
watchdog and orphan mode (R494 to R496), and what resets leave (R533 to R536).
-/

namespace Sys2Proof.Machine

open Sys2Proof

/-! ## Spare frames -/

/-- A physical frame as die × 34 + number. -/
def physId (die phys : Nat) : Nat := die * 34 + phys

/-- The logical frame mapped to a physical one. -/
def State.mappedAt (s : State) (die phys : Nat) : Option FrameNo :=
  (List.finRange 64).find? fun f =>
    dieOf f == die && (s.frame f).seq.state != .unavailable && (s.frame f).seq.phys.toNat == phys

/-- The physical frames of a domain, in slot order. -/
def physOfDom (d : Nat) : List Nat := if isPairDom d then [32, 33] else (List.range 4).map (· + 4 * (d % 10))

/-- FVALID and LFRAME0 to LFRAME3 of every frame domain follow the frame map (R37). -/
def State.showMap (s : State) : State :=
  (List.range 20).foldl (fun (t : State) d =>
    if isFrameDom d then
      let at_ (j : Nat) : Option FrameNo :=
        match (physOfDom d)[j]? with | some p => s.mappedAt (if d < 10 then 0 else 1) p | none => none
      t.updDomain d fun x => { x with
        fvalid := (List.range 4).foldl (fun (m : BitVec 4) j => if (at_ j).isSome then m ||| (1 <<< j) else m) 0
        lframes := Vector.ofFn fun j => match at_ j.val with | some f => BitVec.ofNat 6 f.val | none => 0 }
    else t) s

/-- Physical frames treated as defective (R23, R489). -/
def State.defective (s : State) : List Nat :=
  s.boot.fuses.defective ++ (if s.boot.image.sparePolicy then s.boot.fencedLog else [])

/-- The lowest spare of a die that is neither mapped, fenced nor defective (R487, R489). -/
def State.freeSpare (s : State) (die : Nat) : Option Nat :=
  ([32, 33] : List Nat).find? fun p =>
    (s.mappedAt die p).isNone && !s.global.fault.fencedPhys.contains (physId die p) &&
      !s.defective.contains (physId die p)

/-- RESULT of a remap (R488): 1 STATE, 2 IN_USE, 3 NO_SPARE. -/
def State.remapCode (s : State) (f : FrameNo) : Nat :=
  if (s.frame f).seq.state ≠ .fenced then 1
  else if s.frameLoaded f then 2
  else if (s.freeSpare (dieOf f)).isNone then 3
  else 0

/-- A transition of a domain to OFF that has not begun is asked for no longer. -/
def State.keepOn (s : State) (d : Nat) : State :=
  { s with adm := { s.adm with domQueue := s.adm.domQueue.filter fun t =>
    !(t.dom == d && t.target == .off && (s.domain d).state != .switching) } }

/-- A logical frame moves to a spare, which is wiped; a cold one's domain is switched ON first, in its turn (R467, R487,
R488). -/
def State.mapSpare (s : State) (f : FrameNo) (p : Nat) : State :=
  let d := domainOfPhys (dieOf f) p
  let warm := (s.domain d).state == .on
  let s := s.updFrame f fun fr => { fr with
    seq := { fr.seq with phys := BitVec.ofNat 6 p, domain := BitVec.ofNat 6 d }
    rn := {}, scalars := Vector.replicate 32 {}, flags := Vector.replicate 256 0, regions := [], rrc := [], deferWipe := !warm
    reg := { fr.reg with remapBusy := true, remapResult := 0, checkFails := 0, fenceCause := 0 } }
  let s := s.showMap.keepOn d
  if warm then s.wipeFrame f else s.askTrans { dom := d, target := .on }

/-- A spare pair with no frame mapped in goes OFF in its turn, but where profile L holds it (R38, R467). -/
def State.dropPair (s : State) (d : Nat) : State :=
  if isPairDom d ∧ !s.pairHeld d ∧ (s.domain d).state = .on then s.askTrans { dom := d, target := .off } else s

/-- REMAP: FRM_HEALTH.REMAP is written; ignored while BUSY. Its FRM block answers while fenced (R486). -/
def execRemap (f : FrameNo) (s : State) : Host.Outcome State Fault Refusal :=
  if !s.hostOk then .next s else
  let c := s.remapCode f
  let t := s.updFrame f fun fr => { fr with
    seq := if c = 3 then { fr.seq with state := .unavailable } else fr.seq
    reg := { fr.reg with remapResult := BitVec.ofNat 3 c } }
  if (s.frame f).reg.remapBusy then .next s
  else s.frmWrite f (if c = 0 then s.mapSpare f ((s.freeSpare (dieOf f)).getD 0) else if c = 3 then t.showMap.dropPair (s.domainOf f) else t)

/-- REMAP_COMPLETE: the spare is powered and wiped, and the frame takes part from the next launch on. -/
def execRemapComplete (f : FrameNo) (s : State) : Host.Outcome State Fault Refusal :=
  let fr := s.frame f
  guardStep (fr.reg.remapBusy && !fr.reg.wiping && s.powered f) s
    (s.updFrame f fun fr => { fr with seq := { fr.seq with state := .idle }, reg := { fr.reg with remapBusy := false } })

/-- HEALTH_CLEAR: CLEAR is written (R484). -/
def execHealthClear (f : FrameNo) (s : State) : Host.Outcome State Fault Refusal :=
  if !s.hostOk then .next s else
  s.frmWrite f (s.updFrame f fun fr => { fr with reg := { fr.reg with checkFails := 0, spadCe := 0 } })

/-! ## Fault ring and ALERT -/

/-- FAULT_RING_HEAD: a head of SIZE or more is ignored (R491). -/
def execFaultRingHead (head : BitVec 16) (s : State) : Host.Outcome State Fault Refusal :=
  let fr := s.global.fault
  guardStep (s.hostOk && head.toNat ≤ fr.sizeM1.toNat) s { s with global := { s.global with fault := { fr with head } } }

/-- ALERT_CLR: ignored in orphan mode (R492). -/
def execAlertClr (s : State) : Host.Outcome State Fault Refusal :=
  let fr := s.global.fault
  guardStep (!fr.orphan) s { s with global := { s.global with fault := { fr with alert := false } } }

/-! ## The Reckoner's watchdog -/

/-- Programs, transfers and waiting records go without a completion (R480, R495, R535). -/
def State.dropAll (s : State) : State :=
  let s := s.mapFrames fun _ fr => { fr with rn := {}, active := false, done := false, decl := 0, fencePend := false }
  { s with
    runs := [], xfers := []
    hostq := { s.hostq with accepted := [], open_ := [], launches := [], comps := [], hcopies := [] } }

/-- Reduction sets are disarmed and MAS layers return to IDLE. -/
def State.idleUnits (s : State) : State :=
  { s with
    carry := s.disarmAll.carry
    mas := { s.mas with layers := s.mas.layers.mapIdx fun _ (l : Layer) => { l with state := .idle, voteRound := none } } }

/-- Every session slot is emptied (R527). -/
def State.emptySessions (s : State) : State := { s with lne := { s.lne with sessions := Vector.replicate 64 {} } }

/-- Pending operations of the LNE are discarded (R524). -/
def State.dropLne (s : State) : State := { s with lne := { s.lne with waiting := [], pending := false } }

/-- Domains 0 to 19 go OFF: frame groups and spare pairs first (Table 15.9, R535). -/
def State.computeOff (s : State) : State :=
  let s := (List.range 20).foldl (fun (t : State) d => if isFrameDom d then t.enterOff d else t) s
  let s := (s.enterOff 9).enterOff 19
  let s := { s with adm := { s.adm with domQueue := [], forcedPend := [] } }
  s.wipeBytes spadBase (64 * 0x1000000)

/-- The orphan record (Table 15.10). -/
def State.orphanBits (s : State) (first : Code × BitVec 64) (second : Code) (pc : Nat) : BitVec 512 :=
  BitVec.ofNat 512 (Codes.orphanMode.toNat + first.1.toNat * 2 ^ 16 + second.toNat * 2 ^ 32 + s.carry.devnum.toNat * 2 ^ 48 +
    s.tally.tb.toNat * 2 ^ 64 + first.2.toNat * 2 ^ 128 + s.tally.count.toNat * 2 ^ 192 + pc * 2 ^ 256 + 63 * (2 ^ 160 * 2 ^ 160))

/-- Steps 4 to 6 of the orphan sequence, no operation of the LNE running: slots emptied, the host's reads answered, the
DRAM in self-refresh, ALERT and the record (Table 15.9). -/
def State.finishOrphan (s : State) (rec_ : BitVec 512) : State :=
  let s := s.memc.held.foldl (fun (s : State) h => s.emit (.readData h.tag h.bytes h.ep)) s.emptySessions
  let s := { s with memc := { s.memc with held := [], wipes := [], selfRefresh := true } }
  let a : LogArgs := { detail := bitsAt rec_.toNat 256 64 }
  let s := s.logNotice Codes.orphanMode .reckoner a
  { s with global := { s.global with fault := { s.global.fault with alert := true, orphanRec := rec_, orphanWait := none } } }

/-- The orphan sequence (Table 15.9): steps 1 to 3, and the others once no operation of the LNE runs. -/
def State.enterOrphan (s : State) (first : Code × BitVec 64) (second : Code) (pc : Nat) : State :=
  let s := s.dropAll
  let s := s.mapFrames fun _ fr => { fr with
    seq := { fr.seq with state := if fr.seq.state = .unavailable then .unavailable else .fenced }
    reg := { fr.reg with fenceCause := 3 } }
  let s := s.computeOff.idleUnits.dropLne
  let rec_ := s.orphanBits first second pc
  let s := { s with global := { s.global with fault := { s.global.fault with orphan := true, orphanWait := some rec_ } } }
  if s.lne.running.isNone then s.finishOrphan rec_ else s

/-- The restart path's firmware check (R494, R534): the active slot runs if it passes, or else the first that does. -/
def State.restartFw (s : State) : State :=
  let active := boolBit s.mgmt.fwSlot
  match (if s.codeError 1 active = 0 then some active else s.goodSlot 1) with
  | some k => { s with
      mgmt := { s.mgmt with fwSlot := k == 1, noFw := false }
      boot := { s.boot with fwSlot := k == 1, fwDigest := s.slotDigest 1 k } }
  | none => { s with mgmt := { s.mgmt with noFw := true } }

/-- What the Reckoner's restart does to the LNE: the operation that runs ends for no command, and those of the Reckoner
that wait go (R502). -/
def State.loosenLne (s : State) : State :=
  { s with
    mgmt := { s.mgmt with lneSince := none }
    lne := { s.lne with
      running := s.lne.running.map fun x => if x.pf then x else { x with loose := true }
      waiting := s.lne.waiting.filter (·.pf) } }

/-- The restart path after an expiry of trial firmware: the committed slot runs and is measured, and the trial
slot is marked failed (R514, R529). -/
def State.failTrial (s : State) : State :=
  if s.mgmt.trial then
    let back := s.boot.slots[0].committed == 1
    let bit : BitVec 2 := if s.mgmt.fwSlot then 2 else 1
    let s := (s.log Codes.firmwareRejected .reckoner {}).commitSlot 0 fun c => { c with trial := 0, failed := c.failed ||| bit }
    { s with mgmt := { s.mgmt with trial := false, fwSlot := back } }
  else s

/-- The command in progress on the mailbox ends with ABORTED (R502). -/
def State.endMailbox (s : State) (c : Nat) (result : Nat) (bytes : List Byte) : State :=
  if h : c < 2 then
    let b := s.mgmt.mb[c]
    let n := bytes.length
    let data := bytes ++ b.data.drop n
    let s := { s with mgmt := { s.mgmt with
      mb := s.mgmt.mb.set c { b with busy := false, done := true, result := BitVec.ofNat 4 result, rlen := BitVec.ofNat 13 n, data }
      goQueue := s.mgmt.goQueue.erase c } }
    if c = 1 then s.emit (.mailbox c result bytes)
    else if b.ien then s.signal 0 s.mgmt.mbVector.toNat else s
  else s

/-- An expiry that orphan mode follows: before ALIVE, or within 60 s of the ALIVE that ended a restart (R495). -/
def State.secondExpiry (s : State) : Bool :=
  s.mgmt.expiry.isSome && (s.global.fault.restarting || decide (s.tally.up < s.mgmt.aliveUp + 60000000000))

/-- An expiry of the watchdog (R494, R495). -/
def State.expire (s : State) (code : Code) : State :=
  let pc := s.openVal
  let s := pc.2
  let a : LogArgs := { detail := pc.1.toNat }
  let s := s.logNotice code .reckoner a
  let second := s.secondExpiry
  let first := s.mgmt.expiry.getD (code, s.tally.tb)
  let s := if s.mgmt.alive then (match s.mgmt.goQueue with | c :: _ => s.endMailbox c 6 [] | [] => s) else s
  let s := s.failTrial.restartFw.loosenLne
  let s := { s with
    mgmt := { s.mgmt with alive := false, activating := false, nonce := none, expiry := some (code, s.tally.tb) }
    global := { s.global with fault := { s.global.fault with
      alert := true, restarting := true, expiries := satInc s.global.fault.expiries } } }
  if second then s.enterOrphan first code pc.1.toNat else s

/-- RECKONER_WATCHDOG: a missed kick, or a lockstep mismatch, expires the watchdog. -/
def execReckonerWatchdog (lockstep : Bool) (s : State) : Host.Outcome State Fault Refusal :=
  guardStep (!s.global.fault.orphan) s (s.expire (if lockstep then Codes.lockstepMismatch else Codes.reckonerWatchdog))

/-- WATCHDOG_KICK: the watchdog's period starts again, which is time alone (R494). -/
def execWatchdogKick (s : State) : Host.Outcome State Fault Refusal := .next s

/-! ## Resets -/

/-- What a power-on keeps: the fuses, the flash with its records, and the model's own fields (Table 17.2). -/
def State.powerOn (s : State) : State :=
  let s := s.tearRecord
  { ({} : State) with
    pending := s.pending, outbox := s.outbox, nextXfer := s.nextXfer, nextRun := s.nextRun, freeCtr := s.freeCtr
    mgmt := { flashLog := s.mgmt.flashLog, flashNext := s.mgmt.flashNext }
    boot := {
      flash := s.boot.flash, flashMiB := s.boot.flashMiB, fencedLog := s.boot.fencedLog, fuses := s.boot.fuses
      perst := s.boot.perst }
    global := { link := s.global.link } }

/-- A device reset ends, no operation of the LNE running (steps 4 and 5 of R535, R536): ACTIVE ports stay ACTIVE, the IOD's
domains but the host port's stay as they are, the always-on log is kept, and the boot ROM runs from B0. -/
def State.finishReset (s : State) (cause : BitVec 3) : State :=
  let kept := s.boot.keptPorts
  let t := s.powerOn
  { t with
    tally := { t.tally with up := s.tally.up }
    carry := { t.carry with
      ports := Vector.ofFn fun p =>
        if kept.contains p.val then { s.carry.ports[p] with spareArm := false, fullOnly := false } else {}
      dxM1 := s.carry.dxM1, dyM1 := s.carry.dyM1, dzM1 := s.carry.dzM1, closed := s.carry.closed
      expDim := s.carry.expDim, expStride := s.carry.expStride, devnum := s.carry.devnum
      inq := s.carry.inq, atHome := s.carry.atHome }
    global := { t.global with profile := s.global.profile }
    adm := { t.adm with thermtrip := s.adm.thermtrip, domains := Vector.ofFn fun i =>
      if 20 ≤ i.val ∧ i.val ≠ 32 then s.adm.domains[i] else {} }
    mgmt := { t.mgmt with ring := s.mgmt.ring, logSeq := s.mgmt.logSeq, flashed := s.mgmt.flashed }
    boot := { t.boot with bypass := true, keptPorts := kept, cause }
    jtag := s.jtag }

/-- A device reset begins (steps 1 to 3 of R535): nothing launches, programs go without completions, the host port goes
OFF, and bypass is entered; the rest follows once no operation of the LNE runs (R524). -/
def State.deviceReset (s : State) (cause : BitVec 3) : State :=
  let kept := ((List.finRange 8).filter fun p => s.carry.ports[p].state == .active).map (·.val)
  let s := (s.dropAll.enterOff 32).dropLne
  let s := { s with
    tally := { s.tally with run := false }
    boot := { s.boot with linkUp := false, bypass := true, keptPorts := kept, resetWait := some cause } }
  if s.lne.running.isNone then s.finishReset cause else s

end Sys2Proof.Machine
end

