-- ==== Sys2Proof/Machine/Lne.lean ====
section
/-!
DEFINITION. The Long-Number Engine (R520 to R525): its operations, their times and results, and the PF bank's
commands.
-/

namespace Sys2Proof.Machine

open Sys2Proof

/-! ## Operations -/

/-- The curve of an EC operation's OP (Table 16.8). -/
def lneCurve (op : Nat) : Curve := if 0x18 ≤ op then p384 else p256

def lneGeneric (op : Nat) : Bool := op == 1 || op == 2 || op == 3

/-- An EC operation on P-256 or P-384, as 0 EC_PUB, 1 ECDH, 2 ECDSA_SIGN, 3 ECDSA_VERIFY. -/
def lneEc (op : Nat) : Option Nat :=
  if 0x10 ≤ op ∧ op ≤ 0x13 then some (op - 0x10) else if 0x18 ≤ op ∧ op ≤ 0x1B then some (op - 0x18) else none

/-- A Curve25519 operation. -/
def lneEd (op : Nat) : Bool := 0x20 ≤ op && op ≤ 0x23

/-- An OP of Table 16.8. -/
def lneDefined (op : Nat) : Bool := lneGeneric op || (lneEc op).isSome || lneEd op

/-- First check of Table 16.11. -/
def lneLengthBad (x : LneOp) : Bool :=
  !lneDefined x.op || (lneGeneric x.op && (x.lenW == 0 || 128 < x.lenW)) || (!lneGeneric x.op && x.lenW != 0) ||
    256 < x.msgLen

/-- M(w) in ns (R523). -/
def lneM (w : Nat) : Nat := 48 + ceilDiv (19 * w * w) 64

/-- The time of an operation in ns (R523, Tables 16.10 and 16.11). -/
def lneTime (x : LneOp) : Nat :=
  if lneLengthBad x then 1000
  else match x.op with
  | 0x01 => 8 * lneM x.lenW
  | 0x02 => (80 * x.lenW + 24) * lneM x.lenW
  | 0x03 => (12 * x.lenW + 8) * lneM x.lenW
  | 0x10 | 0x11 => 192000
  | 0x12 => 200000
  | 0x13 => 384000
  | 0x18 | 0x19 => 320000
  | 0x1A => 330000
  | 0x1B => 640000
  | 0x20 | 0x21 => 136000
  | 0x22 => 150000
  | _ => 290000

/-- What an operation leaves: RESULT, VALID and A3, where it is an output. -/
structure LneOut where
  result : Nat := 0
  valid : Bool := false
  a3 : Option Nat := some 0

/-- MODMUL, MODEXP and MODINV (rows 2 and 5 of Table 16.11). -/
def lneModular (op w a b m : Nat) : LneOut :=
  let top := 2 ^ (64 * w)
  let second := op != 3 && (top ≤ b || (op == 1 && m ≤ b))
  if m % 2 = 0 ∨ m < 3 ∨ top ≤ m ∨ top ≤ a ∨ m ≤ a ∨ second then { result := 1 }
  else match op with
  | 1 => { a3 := some (a * b % m) }
  | 2 => { a3 := some (powMod a b m) }
  | _ => match invMod? a m with
    | some i => if a = 0 then { result := 2 } else { a3 := some i }
    | none => { result := 2 }

/-- Bytes as a number that fills an operand from its first byte. -/
def opNat (bs : List Byte) : Nat := leNat bs

/-- The EC operations (rows 3, 4 and 7 of Table 16.11). -/
def lneCurveOp (k : Nat) (c : Curve) (a0 a1 a2 : List Byte) : LneOut :=
  let d := bytesToNatBE (a0.take c.len)
  let dBad := d == 0 || c.n ≤ d
  let digest := a1.take c.len
  match k with
  | 0 => if dBad then { result := 1 } else { a3 := some (opNat (c.encode (c.mul d c.base))) }
  | 1 =>
    if dBad then { result := 1 }
    else match c.decode a1 with
      | none => { result := 3 }
      | some q => { a3 := some (opNat ((c.encode (c.mul d (some q))).take c.len)) }
  | 2 =>
    if dBad then { result := 1 }
    else if (c.sign d digest).1 = 0 ∨ (c.sign d digest).2 = 0 then { result := 1 }
    else { a3 := some (opNat (c.signBytes d digest)) }
  | _ =>
    let r := bytesToNatBE (a2.take c.len)
    let t := bytesToNatBE ((a2.drop c.len).take c.len)
    if r = 0 ∨ c.n ≤ r ∨ t = 0 ∨ c.n ≤ t then { result := 1, a3 := none }
    else match c.decode a0 with
      | none => { result := 3, a3 := none }
      | some q => { valid := c.verify q digest r t, a3 := none }

/-- The Curve25519 operations (rows 3, 4 and 6 of Table 16.11). -/
def lneEdOp (op msgLen : Nat) (a0 a1 a2 : List Byte) : LneOut :=
  match op with
  | 0x20 =>
    let z := x25519 (leNat (a0.take 32)) (leNat (a1.take 32))
    if z = 0 then { result := 3 } else { a3 := some z }
  | 0x21 => { a3 := some (opNat (edPub (a0.take 32))) }
  | 0x22 => { a3 := some (opNat (edSign (a0.take 32) (a1.take msgLen))) }
  | _ =>
    if edL ≤ leNat ((a2.drop 32).take 32) then { result := 1, a3 := none }
    else match edDecode (a0.take 32), edDecode (a2.take 32) with
      | some a, some r => { valid := edVerify (a0.take 32) (a1.take msgLen) (a2.take 64) a r, a3 := none }
      | _, _ => { result := 3, a3 := none }

/-- An operation on the PF bank (Tables 16.8 and 16.11). -/
def lneRun (x : LneOp) (bank : Vector (BitVec 8192) 8) : LneOut :=
  let bytes (i : Fin 8) : List Byte := natToBytes 256 bank[i].toNat
  if lneLengthBad x then
    { result := 4, a3 := if x.op = 0x13 ∨ x.op = 0x1B ∨ x.op = 0x23 then none else some 0 }
  else if lneGeneric x.op then
    lneModular x.op x.lenW bank[0].toNat bank[1].toNat bank[2].toNat
  else match lneEc x.op with
    | some k => lneCurveOp k (lneCurve x.op) (bytes 0) (bytes 1) (bytes 2)
    | none => lneEdOp x.op x.msgLen (bytes 0) (bytes 1) (bytes 2)

/-! ## Commands -/

/-- An operation enters the queue of the two banks, and starts if the engine is free (R524). -/
def State.lneAccept (s : State) (x : LneOp) : State :=
  if s.lne.running.isNone ∧ s.lne.waiting.isEmpty then
    { s with lne := { s.lne with running := some x, busy := s.lne.busy || x.pf } }
  else { s with lne := { s.lne with waiting := s.lne.waiting ++ [x], pending := s.lne.pending || x.pf } }

/-- A write of LNE_CMD with GO (R524): ignored while BUSY or PENDING, and without microcode. -/
def State.lneGo (s : State) (op : Nat) (lenW : BitVec 8) (msgLen : BitVec 9) : State :=
  let s := { s with lne := { s.lne with op := BitVec.ofNat 8 op, lenW, msgLen } }
  if s.lne.busy ∨ s.lne.pending ∨ !s.lne.loaded then s
  else s.lneAccept { op, lenW := lenW.toNat, msgLen := msgLen.toNat }

/-- GO of an operation, where the host port answers the PF. -/
def State.lneCmd (s : State) (op : Nat) (lenW : BitVec 8) (msgLen : BitVec 9) : Host.Outcome State Fault Refusal :=
  guardStep s.hostOk s (s.lneGo op lenW msgLen)

/-- MODMUL. -/
def execModmul (lenW : BitVec 8) (s : State) : Host.Outcome State Fault Refusal := s.lneCmd 0x01 lenW 0

/-- MODEXP. -/
def execModexp (lenW : BitVec 8) (s : State) : Host.Outcome State Fault Refusal := s.lneCmd 0x02 lenW 0

/-- MODINV. -/
def execModinv (lenW : BitVec 8) (s : State) : Host.Outcome State Fault Refusal := s.lneCmd 0x03 lenW 0

/-- EC_PUB. -/
def execEcPub (lenW : BitVec 8) (p384 : Bool) (s : State) : Host.Outcome State Fault Refusal :=
  s.lneCmd (if p384 then 0x18 else 0x10) lenW 0

/-- ECDH. -/
def execEcdh (lenW : BitVec 8) (p384 : Bool) (s : State) : Host.Outcome State Fault Refusal :=
  s.lneCmd (if p384 then 0x19 else 0x11) lenW 0

/-- ECDSA_SIGN. -/
def execEcdsaSign (lenW : BitVec 8) (p384 : Bool) (s : State) : Host.Outcome State Fault Refusal :=
  s.lneCmd (if p384 then 0x1A else 0x12) lenW 0

/-- ECDSA_VERIFY. -/
def execEcdsaVerify (lenW : BitVec 8) (p384 : Bool) (s : State) : Host.Outcome State Fault Refusal :=
  s.lneCmd (if p384 then 0x1B else 0x13) lenW 0

/-- X25519. -/
def execX25519 (lenW : BitVec 8) (s : State) : Host.Outcome State Fault Refusal := s.lneCmd 0x20 lenW 0

/-- ED25519_PUB. -/
def execEd25519Pub (lenW : BitVec 8) (s : State) : Host.Outcome State Fault Refusal := s.lneCmd 0x21 lenW 0

/-- ED25519_SIGN. -/
def execEd25519Sign (lenW : BitVec 8) (msgLen : BitVec 9) (s : State) : Host.Outcome State Fault Refusal :=
  s.lneCmd 0x22 lenW msgLen

/-- ED25519_VERIFY. -/
def execEd25519Verify (lenW : BitVec 8) (msgLen : BitVec 9) (s : State) : Host.Outcome State Fault Refusal :=
  s.lneCmd 0x23 lenW msgLen

/-- LNE_RESERVED_OP: a GO whose OP is none of Table 16.8. -/
def execLneReservedOp (op lenW : BitVec 8) (msgLen : BitVec 9) (s : State) : Host.Outcome State Fault Refusal :=
  guardStep (s.hostOk && !lneDefined op.toNat) s (s.lneGo op.toNat lenW msgLen)

/-- LNE_PENDING_START: the engine is free, and the operation that waits first is the PF's (R524). -/
def execLnePendingStart (s : State) : Host.Outcome State Fault Refusal :=
  match s.lne.waiting with
  | x :: rest =>
    guardStep (x.pf && s.lne.running.isNone) s
      { s with lne := { s.lne with running := some x, waiting := rest, busy := true, pending := false } }
  | [] => .next s

/-- A Reckoner operation that waits first starts at once, and whatever waited for the engine goes on (R447, R524). -/
def State.lneNext (s : State) : State :=
  (match s.lne.waiting with
  | x :: rest => if x.pf then s else { s with lne := { s.lne with running := some x, waiting := rest } }
  | [] => s).settle

/-- The running operation has ended: a device reset or the orphan sequence that waited for it goes on, or the next
operation does (R495, R524, R535). -/
def State.lneFree (s : State) : State :=
  let s := { s with lne := { s.lne with running := none } }
  match s.boot.resetWait, s.global.fault.orphanWait with
  | some cause, _ => s.finishReset cause
  | none, some r => s.finishOrphan r
  | none, none => s.lneNext

/-- What a PF operation leaves at its end: its RESULT and its outputs in full (R521, R525). -/
def Lne.finish (l : Lne) (x : LneOp) : Lne :=
  let o := lneRun x l.bank
  { l with
    busy := false, done := true, result := BitVec.ofNat 3 o.result, valid := o.valid, tNs := BitVec.ofNat 32 (lneTime x)
    bank := match o.a3 with | some v => l.bank.set 3 (BitVec.ofNat 8192 v) | none => l.bank }

/-- LNE_DONE: a PF operation ends at its time T (R523), or one of the Reckoner's whose command an expiry has ended (R502,
R524). -/
def execLneDone (s : State) : Host.Outcome State Fault Refusal :=
  match s.lne.running with
  | some x =>
    .next (if x.pf then ({ s with lne := s.lne.finish x } : State).lneFree else if x.loose then s.lneFree else s)
  | none => .next s

end Sys2Proof.Machine
end

