-- ==== Sys2Proof/Machine/Boot.lean ====
section
/-!
DEFINITION. The commands that reset (R533 to R537), the boot stages (R545 to R553), the host link (R549), supplies and brown-outs
(R563 to R566), the reference clocks (R573) and the JTAG TAP (R575).
-/

namespace Sys2Proof.Machine

open Sys2Proof

/-! ## Resets -/

/-- POWER_ON. -/
def execPowerOn (s : State) : Host.Outcome State Fault Refusal := .next s.powerOn

/-- DEVICE_RESET: SYS_RESET_N (1), PERST_N while PERST_MODE is DEVICE (2), or the register command (3); an
LC_SET (4) resets the device itself (R533, R516). One that is under way already goes on. -/
def execDeviceReset (cause : BitVec 3) (s : State) : Host.Outcome State Fault Refusal :=
  let s := if cause = 1 then { s with jtag := { s.jtag with pinLow := true } } else s
  let asked := cause == 1 || (cause == 2 && s.boot.image.perstDevice) || (cause == 3 && !s.global.fault.orphan)
  let t := s.deviceReset cause
  guardStep (asked && s.boot.resetWait.isNone) s
    (if cause = 2 then { t with boot := { t.boot with perst := true } } else t)

/-- HOST_RESET: PERST_N is asserted while PERST_MODE is HOST: the link resets, and outside boot and orphan mode
the steps of the PF's reset follow (R447, R533, R534, R537). The nonce of LC_NONCE goes (log entry 87). -/
def execHostReset (s : State) : Host.Outcome State Fault Refusal :=
  let t := { s with boot := { s.boot with perst := true, linkUp := false }, mgmt := { s.mgmt with nonce := none } }
  let busy := s.global.funcs[(0 : FuncNo)].resetting
  guardStep (!s.boot.image.perstDevice) s (if s.boot.state = .ready ∧ s.hostOk ∧ !busy then t.pfReset else t)

/-- HOST_LINK_TRAINING: B10 has completed, or recovery mode, its memory wiped, opens the host port; and PERST_N
is deasserted (R549, R551). -/
def execHostLinkTraining (s : State) : Host.Outcome State Fault Refusal :=
  let wiping := s.memc.wipes.any (·.kind == .boot)
  let open_ := s.boot.state == .ready || (s.boot.state == .recovery && !wiping)
  guardStep (open_ && !s.boot.lost.contains 2 && s.boot.resetWait.isNone) s
    { s with
      boot := { s.boot with perst := false, linkUp := true }
      global := { s.global with ready := true } }

/-! ## Stages -/

/-- A stage is entered, which is logged (R545). -/
def State.enterStage (s : State) (k : Nat) : State :=
  let s := { s with boot := { s.boot with stage := BitVec.ofNat 4 k } }
  s.log Codes.ok .boot { index := k, detail := k }

def State.switchOn (s : State) (ds : List Nat) : State := ds.foldl (fun (t : State) d => t.enterOn d) s

/-- The topology and roles of the applied image; ports kept through the reset stay ACTIVE where role and device
number are as they were, and the others are DISABLED until they train (R536, R545 B7). -/
def State.setTopology (s : State) : State :=
  let i := s.img (boolBit s.boot.cfgSlot * 0x100000)
  let same := s.carry.devnum.toNat == i.at_ 36 2
  { s with
    carry := { s.carry with
      devnum := BitVec.ofNat 12 (i.at_ 36 2), dxM1 := BitVec.ofNat 4 (i.at_ 38 1), dyM1 := BitVec.ofNat 4 (i.at_ 38 1 / 16)
      dzM1 := BitVec.ofNat 4 (i.at_ 39 1), closed := BitVec.ofNat 3 (i.at_ 39 1 / 16)
      expDim := BitVec.ofNat 2 (i.at_ 40 1), expStride := BitVec.ofNat 4 (i.at_ 40 1 / 4)
      ports := Vector.ofFn fun p =>
        let role := s.boot.image.roles.getD p.val 0
        let q := s.carry.ports[p]
        if s.boot.keptPorts.contains p.val && same && q.role == role then q else { role, enable := role != 0 } }
    boot := { s.boot with keptPorts := [] } }

/-- The domains of the ports that the image uses come ON, and the ports train that are not ACTIVE, where the SerDes have
their rails (R545 B7, R563). -/
def State.trainPorts (s : State) : State :=
  let s := s.switchOn ((List.range 8).filterMap fun p =>
    if s.boot.image.roles.getD p 0 = 0 ∨ (s.domain (20 + p)).state = .on then none else some (20 + p))
  { s with carry := { s.carry with ports := Vector.ofFn fun p =>
    let q := s.carry.ports[p]
    if q.enable && q.state == .disabled && q.role != 0 && s.portTrains p then { q with state := .equalize } else q } }

/-- The SerDes are without their rails: every port is DISABLED, and stays so (R563). -/
def State.losePorts (s : State) : State :=
  let s := s.log Codes.supplyFault .boot { index := 113 }
  { s with
    carry := { s.carry with ports := Vector.ofFn fun p => { s.carry.ports[p] with state := .disabled } }
    boot := { s.boot with lost := s.boot.lost ++ [3] } }

/-- Domains that are ON go OFF. -/
def State.switchOff (s : State) (ds : List Nat) : State :=
  ds.foldl (fun (t : State) d => if (t.domain d).state = .on then t.enterOff d else t) s

/-- The memory ports at the image's rate and organisation (R356), trained where `ok` says so. -/
def State.setMemory (s : State) (ok : BitVec 32) : State :=
  let i := s.img (boolBit s.boot.cfgSlot * 0x100000)
  { s with memc := { s.memc with ports := Vector.ofFn fun p =>
    { s.memc.ports[p] with
      rate := BitVec.ofNat 3 (i.at_ 64 1), density := BitVec.ofNat 2 (i.at_ 65 1), ranks := i.at_ 66 1 == 1
      granule := BitVec.ofNat 2 (i.at_ 67 1), trained := ok.getLsbD p.val } } }

/-- The lowest profile a system size requires (Table 15.2). -/
def sizeProfile (n : Nat) : Nat := if n ≤ 16 then 0 else if n ≤ 256 then 1 else 2

/-- B5, the profile (R482) and the CHECK_LIMIT it resets to. -/
def State.setProfile (s : State) : State :=
  let i := s.img (boolBit s.boot.cfgSlot * 0x100000)
  let need := sizeProfile (i.extent 0 * i.extent 1 * i.extent 2)
  let p := max s.boot.image.profile.toNat need
  { s with global := { s.global with
    profile := BitVec.ofNat 2 p
    fault := { s.global.fault with
      profileRaised := s.boot.image.profile.toNat < p, checkLimit := if p = 0 then 4 else if p = 1 then 3 else 2 } } }

/-- Recovery mode (R551): domains 32 to 35 ON; with an image, its profile, ports trained, in bypass, and memory trained and
wiped; without one, ports kept through a reset are DISABLED and memory untrained. -/
def State.enterRecovery (s : State) (ms : Nat) : State :=
  let stage := s.boot.stage.toNat
  let s := (s.switchOn [34, 33, 32]).log Codes.bootRecovery .boot { index := stage, detail := stage }
  let s := { s with boot := { s.boot with state := .recovery, bypass := true, bootMs := BitVec.ofNat 28 ms } }
  if s.boot.image.applied then
    let s := ((s.switchOn [28, 29, 30, 31]).setProfile.setTopology.trainPorts).setMemory 0xFFFF
    s.startWipe .boot 0 s.usable
  else s.switchOff ((List.range 12).map (· + 20))

/-- B3: a slot is tried (R546, R547): the image applied, or the next slot. -/
def State.trySlots (s : State) (readOk : BitVec 32) : List Nat → State
  | [] => s
  | k :: ks =>
    let c := s.slots 3
    let trial := c.trial == k + 1
    let e := if c.failed.getLsbD k then 9 else s.imageError (k * 0x100000) (readOk.getLsbD k) false
    let s := { s with boot := { s.boot with
      cfgErr := if h : k < 2 then s.boot.cfgErr.set k (BitVec.ofNat 4 e) else s.boot.cfgErr } }
    if e = 0 then
      let image := s.applied (k * 0x100000)
      { s with
        boot := { s.boot with cfgSlot := k == 1, image }
        mgmt := { s.mgmt with iccMax := image.iccMax } }
    else
      let s := if e = 2 ∨ e = 5 ∨ (trial ∧ e ≠ 9) then s.log Codes.firmwareRejected .boot { index := k } else s
      (if trial ∧ e ≠ 9 then s.markFailed 3 k else s).trySlots readOk ks

/-- B4: firmware, then microcode (R520, R529, R543). The Bool tells whether a firmware slot passed. -/
def State.loadCode (s : State) : State × Bool :=
  let fail (s : State) (comp : Nat) : State :=
    let c := s.slots comp
    if c.trial != 0 && s.codeError comp (c.trial - 1) != 0 then
      (s.log Codes.firmwareRejected .boot { index := comp }).markFailed comp (c.trial - 1) else s
  let fw := s.goodSlot 1
  let mc := s.goodSlot 2
  let s1 := (fail (fail s 1) 2)
  match fw with
  | none => (s1, false)
  | some k =>
    let t := { s1 with
      boot := { s1.boot with fwSlot := k == 1, fwDigest := s.slotDigest 1 k }
      mgmt := { s1.mgmt with fwSlot := k == 1, trial := (s.slots 1).trial == k + 1 } }
    match mc with
    | none => ((t.log Codes.microcodeSignature .boot {}), true)
    | some m =>
      let v := s.slotVersion 2 m
      let t := { t with
        lne := { t.lne with loaded := true, mcVersion := BitVec.ofNat 16 v.1, mcSvn := BitVec.ofNat 8 v.2 }
        boot := { t.boot with mcSlot := m == 1, mcDigest := s.slotDigest 2 m } }
      (if (s.slots 2).trial = m + 1 then t.commitSlot 1 fun c => { c with committed := m, trial := 0 } else t, true)

/-- The physical frame of a logical one: its own number or, for the k-th defective frame of its die, the k-th good
spare (R23, R487). The spec fixes the spares' order and not the frames': log entry 67. -/
def mapFrame (bad : List Nat) (f : FrameNo) : Option Nat :=
  let die := dieOf f
  let own := f.val % 32
  let isBad (p : Nat) : Bool := bad.contains (physId die p)
  if !isBad own then some own
  else ([32, 33].filter fun p => !isBad p)[((List.range own).filter isBad).length]?

/-- B5: domains ON in the order of R469 and the frame map. `rails` tells which compute rails are inside their
windows; a die without one stays OFF with its frames UNAVAILABLE (R563). -/
def State.bringUp (s : State) (rails : BitVec 32) : State :=
  let s := (s.switchOn [34, 33, 28, 29, 30, 31]).startDrbg 2
  let lost := [0, 1].filter fun d => !rails.getLsbD d
  let s := lost.foldl (fun (t : State) d => t.log Codes.supplyFault .boot { index := d }) s
  let bad := s.defective
  let s := s.mapFrames fun f fr =>
    match (if lost.contains (dieOf f) then none else mapFrame bad f) with
    | some p => { fr with seq := { fr.seq with
        state := .idle, phys := BitVec.ofNat 6 p, domain := BitVec.ofNat 6 (domainOfPhys (dieOf f) p) } }
    | none => { fr with seq := { fr.seq with
        state := .unavailable, domain := BitVec.ofNat 6 (domainOfPhys (dieOf f) (f.val % 32)) } }
  let s := s.setProfile.showMap
  let dies := [0, 1].filter fun d => !lost.contains d
  let s := s.switchOn (dies.map fun d => 9 + 10 * d)
  let groups := dies.flatMap fun d => (List.range 8).filterMap fun g =>
    if s.boot.image.domainsOff.getLsbD (8 * d + g) then none else some (10 * d + g)
  let pairs := (dies.map fun d => 8 + 10 * d).filter fun d => s.profL || (s.domain d).fvalid != 0
  { s.switchOn (groups ++ pairs) with boot := { s.boot with lost } }

/-- Has a port a VALID seed record (Table 17.5)? -/
def State.seeded (s : State) (p : Nat) : Bool :=
  let i := s.img (boolBit s.boot.cfgSlot * 0x100000)
  (List.range 4).any fun c => i.at_ (4096 + 64 * (4 * p + c)) 1 == 1

/-- B6: bit p of `ok` says that port p trained, and bit 16 + p that it did so from defaults after its seed had
failed, which is logged as INFO. A port that does not train sends the device to the memory-failed state (R553). -/
def State.trainMemory (s : State) (ok : BitVec 32) (ms : Nat) : State :=
  let trained : BitVec 16 := ok.setWidth 16
  let late := (List.range 16).filter fun p => ok.getLsbD p && ok.getLsbD (16 + p) && s.seeded p
  let s := late.foldl (fun (t : State) p => t.log Codes.ok .memory { index := p }) (s.setMemory ok)
  if trained = BitVec.allOnes 16 then s
  else
    let s := s.log Codes.memoryTraining .boot { detail := (~~~trained).toNat }
    { s with boot := { s.boot with state := .memoryFailed, memFail := ~~~trained, bootMs := BitVec.ofNat 28 ms } }

/-- A configuration trial that passed becomes COMMITTED once B10 has completed and ALIVE is set (R546). -/
def State.commitConfig (s : State) : State :=
  let c := s.boot.slots[2]
  if s.boot.state = .ready ∧ s.mgmt.alive ∧ c.trial = boolBit s.boot.cfgSlot + 1 ∧ s.boot.image.applied then
    s.commitSlot 2 fun c => { c with committed := boolBit s.boot.cfgSlot, trial := 0 }
  else s

/-- B10: the host port's domain ON, READY, bypass left (R545); VDD_PCIE outside its window is logged (R563). -/
def State.finishBoot (s : State) (pcie : Bool) (ms : Nat) : State :=
  let s := s.enterOn 32
  let s := if pcie then s else s.log Codes.supplyFault .boot { index := 117 }
  ({ s with
    global := { s.global with ready := true }
    boot := { s.boot with
      state := .ready, bypass := false, bootMs := BitVec.ofNat 28 ms
      lost := if pcie then s.boot.lost else s.boot.lost ++ [2] } } : State).commitConfig

/-- B8 wipes every scratchpad whose domain is ON (R296); one whose domain is OFF is wiped when it comes ON (R467). -/
def State.wipeScratchpads (s : State) : State :=
  (List.finRange 64).foldl (fun (t : State) f =>
    if t.powered f && (t.frame f).seq.state != .unavailable then t.wipeFrame f else t) s

/-- B7 and B8 start together (R545), and the entry of both is logged: in bypass (R548), with the image's topology. In the
memory-failed state B8 is for the scratchpads only (R553). -/
def State.startLinksAndWipes (s : State) : State :=
  let s := (s.enterStage 7).log Codes.ok .boot { index := 8, detail := 8 }
  let s := ({ s with boot := { s.boot with bypass := true } } : State).setTopology.wipeScratchpads
  if s.boot.state = .memoryFailed then s else s.startWipe .boot 0 s.usable

/-- B2: the flash in 8D-8D-8D mode, and the slot-state record read; a flash whose capacity R538 does not allow is none
(R538, R540). -/
def State.findFlash (s : State) : State := ({ s with boot := { s.boot with octal := true } } : State).readSlots

/-- The flash's capacity is one that R538 allows. -/
def State.flashFits (s : State) : Bool := 64 ≤ s.boot.flashMiB && s.boot.flashMiB ≤ 512

/-- A wipe of B8 goes on. -/
def State.bootWiping (s : State) : Bool :=
  s.memc.wipes.any (·.kind == .boot) || (List.finRange 64).any fun f => (s.frame f).reg.wiping

/-- The stage in progress ends. What `ok` says stands in each stage's own bits: B2 bit 0, the flash answers;
B3 bit s, slot s can be read; B5 bit d, rail d is inside its window; B6 bit p, port p trained, and bit 16 + p, only
from defaults; B7 bit 0, the SerDes rails are inside theirs; B9 bit 0, the 2 s have not passed; B10 bit 0, VDD_PCIE is.
B0's own entry is logged as it ends, and XSPI_RESET_N is pulsed as B2 begins (R538, R545). -/
def State.bootNext (s : State) (ms : Nat) (ok : BitVec 32) : State :=
  let failed := s.boot.state == .memoryFailed
  match s.boot.stage.toNat with
  | 0 => (s.enterStage 0).enterStage 1
  | 1 => (s.enterStage 2).emit .xspiReset
  | 2 => if ok.getLsbD 0 && s.flashFits then s.findFlash.enterStage 3 else s.enterRecovery ms
  | 3 =>
    let s := s.trySlots ok (s.slots 3).order
    if s.boot.image.applied then s.enterStage 4 else s.enterRecovery ms
  | 4 =>
    let r := s.loadCode
    if r.2 then r.1.enterStage 5 else r.1.enterRecovery ms
  | 5 => (s.bringUp ok).enterStage 6
  | 6 => (s.trainMemory ok ms).startLinksAndWipes
  | 7 =>
    let s := (if ok.getLsbD 0 then s else s.losePorts).trainPorts
    { s with boot := { s.boot with stage := 8 } }
  | 8 =>
    if s.bootWiping then s
    else ({ s with tally := { s.tally with run := true } } : State).enterStage 9
  | 9 =>
    if s.mgmt.alive then (if failed then s else s.enterStage 10)
    else if ok.getLsbD 0 then s else s.expire Codes.reckonerWatchdog
  | _ => if s.boot.state = .booting then s.finishBoot (ok.getLsbD 0) ms else s

/-- BOOT_STAGE_ADVANCE: the boot ROM moves on; `ms` is the time since the release of reset, SYS_RESET_N being deasserted. -/
def execBootStageAdvance (ms : Nat) (ok : BitVec 32) (s : State) : Host.Outcome State Fault Refusal :=
  guardStep ((s.boot.state == .booting || s.boot.state == .memoryFailed) && !s.global.fault.orphan && s.boot.resetWait.isNone) s
    (({ s with jtag := { s.jtag with pinLow := false } } : State).bootNext ms ok)

/-! ## Supplies -/

/-- SUPPLY_FAULT: a rail has stood outside its window for 10 µs (R564). -/
def execSupplyFault (sensor : Fin 24) (s : State) : Host.Outcome State Fault Refusal :=
  let k := sensor.val
  let rail := railOf k
  let v := (s.mgmt.sensors[96 + k]).value
  let w := s.window rail
  let out := decide (v < w.1) || decide ((w.2 : Int) < v)
  let recent : Bool := match alGet s.mgmt.supplyLog rail with
    | some t => decide (s.tally.up < t + 1000000)
    | none => false
  let t := s.alert
  let t := if recent then t else
    let t := t.log Codes.supplyFault .adm { index := 96 + k }
    { t with mgmt := { t.mgmt with supplyLog := alSet t.mgmt.supplyLog rail s.tally.up } }
  guardStep out s t

/-- Die loss (R566): programs with a frame on the die are asked to abort, and its domains go OFF. -/
def State.dieLoss (s : State) (die : Nat) : State :=
  let fs := (List.finRange 64).filter fun f => dieOf f == die
  let s := fs.foldl (fun (s : State) f =>
    match s.runOf f with | some r => s.askAbort r.id f.val Codes.supplyFault | none => s) s
  let doms := (List.range 10).map (· + 10 * die)
  let s := doms.foldl (fun (t : State) d => t.enterOff d) s
  let s := fs.foldl (fun (t : State) f => t.wipeBytes (spadAddr f 0) 0x800000) s
  let rest := s.adm.forcedPend.filter fun d => !doms.contains d
  let s := { s with adm := { s.adm with
    forcedPend := rest, crit := s.adm.crit || (!s.adm.forcedPend.isEmpty && rest.isEmpty) } }
  let s := s.dropTrans doms.contains
  { s with
    boot := { s.boot with lost := if s.boot.lost.contains die then s.boot.lost else s.boot.lost ++ [die] } }

/-- BROWN_OUT: VSENSE_CD0, VSENSE_CD1, VDD_IOD or VDD_AON below its threshold for 1 µs (R565). -/
def execBrownOut (rail : Fin 4) (s : State) : Host.Outcome State Fault Refusal :=
  .next (if rail.val < 2 then s.dieLoss rail.val else s.powerOn)

/-! ## Reference clocks -/

/-- REFCLK_LINK_LOSS: every port loses codeword lock and retrains (R573). -/
def execRefclkLinkLoss (s : State) : Host.Outcome State Fault Refusal :=
  .next ((List.finRange 8).foldl (fun (t : State) p => t.retrainPort p) s)

/-- REFCLK_PCIE_LOSS: the host link goes down (R573). -/
def execRefclkPcieLoss (s : State) : Host.Outcome State Fault Refusal :=
  .next { s with boot := { s.boot with linkUp := false } }

/-! ## JTAG -/

/-- An instruction is loaded into the TAP. -/
def State.tap (s : State) (ir : TapInstr) : State := { s with jtag := { s.jtag with ir, resetState := false } }

/-- BYPASS_INSTRUCTION: every code but the four others selects the bypass register, which shifts one bit. -/
def execBypassInstruction (code : BitVec 8) (tdi : Bool) (s : State) : Host.Outcome State Fault Refusal :=
  let t := (s.emit (.tdo s.jtag.bypassBit)).tap .bypass
  guardStep (4 ≤ code.toNat) s { t with jtag := { t.jtag with bypassBit := tdi } }

/-- SAMPLE_PRELOAD: the boundary register takes the pins, or what is shifted in. -/
def execSamplePreload (pins : BitVec 2413) (s : State) : Host.Outcome State Fault Refusal :=
  let t := s.tap .samplePreload
  .next { t with jtag := { t.jtag with boundary := pins } }

/-- EXTEST, HIGHZ and CLAMP are loaded while SYS_RESET_N is at a level. They take effect while it is asserted
(`Jtag.driving`, `Jtag.hiz`), and act as BYPASS while it is not. -/
def State.testInstr (s : State) (ir : TapInstr) (resetLow : Bool) : State :=
  let t := s.tap ir
  { t with jtag := { t.jtag with pinLow := resetLow } }

/-- EXTEST. -/
def execExtest (resetLow : Bool) (s : State) : Host.Outcome State Fault Refusal := .next (s.testInstr .extest resetLow)

/-- HIGHZ. -/
def execHighz (resetLow : Bool) (s : State) : Host.Outcome State Fault Refusal := .next (s.testInstr .highz resetLow)

/-- CLAMP. -/
def execClamp (resetLow : Bool) (s : State) : Host.Outcome State Fault Refusal := .next (s.testInstr .clamp resetLow)

/-- TAP_RESET: Test-Logic-Reset selects BYPASS. -/
def execTapReset (s : State) : Host.Outcome State Fault Refusal :=
  .next { s with jtag := { s.jtag with ir := .bypass, resetState := true } }

/-! ## Idling -/

/-- What goes on while no command waits: a nanosecond passes, the write of the slot-state record is over, and the domain
transition at the head begins where its domain has drained (log entries 4 and 64). -/
def State.idle (s : State) : State :=
  let s := s.tick
  ({ s with boot := { s.boot with slotTorn := false } } : State).startHead

end Sys2Proof.Machine
end

