-- ==== Sys2Proof/Machine/Memc.lean ====
section
/-!
DEFINITION. Seal windows (R171, R172), device-memory wipes and the accesses they hold (R370 to R372), host
accesses through BAR2 (R422, R428, R175), the scrub and retraining (R357, R369).
-/

namespace Sys2Proof.Machine

open Sys2Proof

/-! ## Seal windows -/

/-- A staged window (GLOBAL_SEAL_STAGE, GLOBAL_SEAL_CTRL). -/
def Global.stagedWin (g : Global) : SealWin := { valid := true, owner := g.sealOwner, base := g.sealBase, size := g.sealSize }

/-- Window bytes: base and size. -/
def SealWin.span (w : SealWin) : Nat × Nat := (w.base.toNat * 65536, w.size.toNat * 65536)

/-- A loaded program or a defined layer references a span of device memory (R172, R373). -/
def State.spanUsed (s : State) (a n : Nat) : Bool :=
  (s.programs.any fun p => p.parts.any fun t => t.dtab.any fun d =>
    d.location == 0 && overlaps a n d.base (d.bytes (s.pset d.pset))) ||
  s.mas.layers.toList.any fun l => l.state != .idle &&
    (overlaps a n (lineBase l.wBase) l.shape.size || overlaps a n (lineBase l.mBase) l.shape.size)

/-- The RESULT of SET (R171): 5 OCCUPIED, 1 RANGE, 2 OVERLAP. -/
def State.sealSetResult (s : State) (i : BitVec 6) (w : SealWin) : Nat :=
  if (s.global.seals[i.toNat]).valid then 5
  else if w.size = 0 ∨ 1048576 < w.size.toNat ∨ s.usable < w.span.1 + w.span.2 then 1
  else if s.meetsSeal w.span.1 w.span.2 then 2
  else 0

/-- The RESULT of RELEASE (R172): 4 EMPTY, 3 IN_USE. -/
def State.sealReleaseResult (s : State) (i : BitVec 6) : Nat :=
  let w := s.global.seals[i.toNat]
  if !w.valid then 4 else if s.spanUsed w.span.1 w.span.2 then 3 else 0

/-- SEAL_SET: GO with OP SET; ignored while BUSY. -/
def execSealSet (s : State) : Host.Outcome State Fault Refusal :=
  if !s.hostOk then .next s else
  let g := s.global
  guardStep (!g.sealBusy && !g.sealOp) s
    { s with global := { g with sealBusy := true, sealPend := some (false, g.sealIndex, g.stagedWin, 0) } }

/-- SEAL_RELEASE: GO with OP RELEASE; a release that is allowed begins to wipe its window (R172). -/
def execSealRelease (s : State) : Host.Outcome State Fault Refusal :=
  if !s.hostOk then .next s else
  let g := s.global
  let w := g.seals[g.sealIndex.toNat]
  let res := s.sealReleaseResult g.sealIndex
  let s1 := if res = 0 then s.startWipe (.sealed g.sealIndex.toNat) w.span.1 w.span.2 else s
  guardStep (!g.sealBusy && g.sealOp) s
    { s1 with global := { g with sealBusy := true, sealPend := some (true, g.sealIndex, w, BitVec.ofNat 3 res) } }

/-- SEAL_OP_COMPLETE: RESULT is written and BUSY cleared; a release that was allowed when it was asked for clears VALID
after its wipe (R171, R172). -/
def execSealOpComplete (s : State) : Host.Outcome State Fault Refusal :=
  match s.global.sealPend with
  | none => .next s
  | some (release, i, w, judged) =>
    let running := s.memc.wipes.any fun x => x.kind == .sealed i.toNat
    let res := if release then judged else BitVec.ofNat 3 (s.sealSetResult i w)
    let g := s.global
    let seals := if res ≠ 0 then g.seals else g.seals.set i.toNat (if release then {} else w) i.isLt
    guardStep (!(release && running)) s
      { s with global := { g with
        sealBusy := false, sealPend := none, sealResult := res, sealLast := i, seals } }

/-! ## Wipes (R370 to R372) -/

/-- MEMC_WIPE_GO: GO of MEMC_WIPE_CTRL; ignored while any wipe runs, and nothing where SIZE is zero (R372). -/
def execMemcWipeGo (s : State) : Host.Outcome State Fault Refusal :=
  if !s.hostOk then .next s else
  let a := s.memc.wipeBase.toNat * 2048
  let n := s.memc.wipeSize.toNat * 2048
  let used := s.mas.layers.toList.any fun l => l.state != .idle &&
    (overlaps a n (lineBase l.wBase) l.shape.size || overlaps a n (lineBase l.mBase) l.shape.size)
  let res : BitVec 2 := if n = 0 then 0 else if s.usable < a + n then 1 else if s.meetsSeal a n ∨ used then 2 else 0
  let s1 := if res = 0 then s.startWipe .span a n else s
  guardStep s.memc.wipes.isEmpty s { s1 with memc := { s1.memc with wipeResult := res } }

/-- The lines of a span wipe that no access reached first are zeroed at its end: a write that came before
the wipe is overwritten (R372). -/
def State.overwrite (s : State) (w : Wipe) : State :=
  let keep (l : Nat) : Bool := !(w.base ≤ l * 2048 && l * 2048 < w.base + w.size) || w.wiped.contains l
  { s with mem := s.mem.filter fun c => keep (c.1 / 2048), poison := s.poison.filter fun p => keep p.1 }

/-- WIPE_COMPLETE: the `k`-th wipe in progress ends; a function's reset may have waited for it (R446). -/
def execWipeComplete (k : Nat) (s : State) : Host.Outcome State Fault Refusal :=
  match s.memc.wipes[k]? with
  | none => .next s
  | some w =>
    let s := (if w.kind = .span then s.overwrite w else s).movedSpan 3 w.base w.size
    let wipes := s.memc.wipes.eraseIdx k
    let s := { s with memc := { s.memc with wipes, wipeDone := BitVec.ofNat 64 w.size } }
    match w.kind with
    | .part f =>
      let more := wipes.any fun x => x.kind == .part f
      .next (s.updFunc (funcNo f) fun g => { g with wiping := more })
    | _ => .next s.settle

/-! ## Host accesses through BAR2 (R428) -/

/-- The device physical address of a BAR2 offset, where it reaches memory. -/
def State.bar2Addr (s : State) (n : FuncNo) (o : Nat) : Option Nat :=
  if n.val = 0 then
    let size := 2 ^ s.global.bar2Log
    let a := s.global.bar2Base.toNat * 0x10000000 / size * size + o
    if o < size ∧ a < s.usable then some a else none
  else
    let p := s.partition n
    if o < p.2 ∧ p.1 + o < s.usable then some (p.1 + o) else none

/-- The addresses that an access of `len` bytes at a BAR2 offset reaches, with their offsets. -/
def State.bar2Span (s : State) (n : FuncNo) (o len : Nat) : List (Nat × Nat) :=
  (List.range len).filterMap fun i => (s.bar2Addr n (o + i)).map fun a => (i, a)

/-- The lines of an access that lie outside seal windows. -/
def State.openBytes (s : State) (span : List (Nat × Nat)) : List (Nat × Nat) :=
  span.filter fun x => (s.sealWindow x.2).isNone

/-- What a host read of device memory finds: zero beyond memory and in seal windows, EP for a poisoned line (R175,
R422). -/
def State.bar2Data (s : State) (span : List (Nat × Nat)) (len : Nat) : List Byte × Bool :=
  ((List.range len).map fun i =>
    match span.find? (·.1 == i) with
    | some x => memRead s.mem x.2
    | none => 0,
   (dedup (span.map (·.2 / 2048))).any fun l => (alGet s.poison l).isSome)

/-- The function answers memory requests (R422, R496). -/
def State.served (s : State) (n : FuncNo) : Bool := s.hostOk && s.global.funcs[n].enable && s.present n

/-- The parts of an access that lie in one line each: their first address, their bytes' places in the access. -/
def linesIn (span : List (Nat × Nat)) : List (Nat × List Nat) :=
  (dedup (span.map (·.2 / 2048))).filterMap fun l =>
    let mine := span.filter (·.2 / 2048 == l)
    mine.head?.map fun x => (x.2, mine.map (·.1))

/-- A line stands in no host read's way: no wipe has it to reach, and no host read of it is held (R364, R371). -/
def State.lineFree (s : State) (l : Nat) : Bool := !s.unwiped l && !s.memc.held.any (·.lines.contains l)

/-- HOST_BAR2_READ, zero in recovery mode (Table 17.9), of sectors as `offset.upsets` leave them. A read that must wait is held with what it reads: its lines are
wiped ahead of their order, and what comes after it does not change its answer (R364, R371). -/
def execHostBar2Read (func : FuncNo) (offset : Met Nat) (len tag : Nat) (s : State) :
    Host.Outcome State Fault Refusal :=
  let upsets := offset.upsets
  let offset := offset.place
  if s.boot.state = .recovery ∧ func.val = 0 ∧ !s.global.fault.orphan then
    .next (s.emit (.readData tag (List.replicate len 0) false))
  else if !s.served func then .next (s.emit (.unsupported tag))
  else
    let all := s.bar2Span func offset len
    let free := s.openBytes all
    let lines := dedup (free.map (·.2 / 2048))
    let now := lines.all s.lineFree
    let s := s.upset upsets
    let s := match all.find? fun x => (s.sealWindow x.2).isSome with
      | some x => s.barSealed func x.2
      | none => s
    let s := (linesIn free).foldl (fun (s : State) x => s.lineRead 1 x.1 x.2.length) s
    let data := s.bar2Data free len
    .next (if now then s.emit (.readData tag data.1 data.2)
      else { s with memc := { s.memc with
        held := s.memc.held ++ [{ func := func.val, offset, tag, lines, bytes := data.1, ep := data.2 }] } })

/-- HELD_ACCESS_RELEASE: the first held read is answered (R371). -/
def execHeldAccessRelease (s : State) : Host.Outcome State Fault Refusal :=
  match s.memc.held with
  | [] => .next s
  | h :: rest => .next (({ s with memc := { s.memc with held := rest } } : State).emit (.readData h.tag h.bytes h.ep))

/-- WIPE_PENDING: a host read held for HOLD_LIMIT_US is answered with a Completer Abort (R371). -/
def execWipePending (s : State) : Host.Outcome State Fault Refusal :=
  match s.memc.held with
  | [] => .next s
  | h :: rest =>
    let s := { s with memc := { s.memc with held := rest } }
    let s := (s.log Codes.wipePending .memory { func := some h.func, detail := h.offset }).pfErr Codes.wipePending h.func
    .next (s.emit (.completerAbort h.tag))

/-- HOST_BAR2_WRITE: bytes reach their homes, ingest adds and contributions included; those beyond memory
are dropped, and those in seal windows dropped and logged. EP poisons every line touched (R422). -/
def execHostBar2Write (func : FuncNo) (offset : Nat) (bytes : List Byte) (ep : Bool) (s : State) :
    Host.Outcome State Fault Refusal :=
  if !s.hostOk then .next s
  else if !s.global.funcs[func].enable || !s.present func then .next (s.emit (.unsupported 0))
  else
    let all := s.bar2Span func offset bytes.length
    let s := match all.find? fun x => (s.sealWindow x.2).isSome with
      | some x => s.barSealed func x.2
      | none => s
    let s := (linesIn (s.openBytes all)).foldl (fun (s : State) x =>
      s.memArrive x.1 (x.2.map fun k => bytes.getD k 0) (if ep then some {} else none)) s
    .next (if ep then s.emit (.aerPoisoned func.val) else s)

/-! ## Scrub and retraining -/

/-- Sectors that hold a single-bit error, and sectors that hold one that cannot be corrected (R359). -/
def sectorUpsets (ce ue : List Nat) : List Upset := ce.map (.sector · .single) ++ ue.map (.sector · .uncorrectable)

/-- SCRUB_READ: a port reads its next line. The sectors `ce` hold a single-bit error by then, and `ue` one that cannot
be corrected (R359, R369). -/
def execScrubRead (port : Fin 16) (ce ue : List Nat) (s : State) : Host.Outcome State Fault Refusal :=
  let p := s.memc.ports[port]
  let lines := s.usable / 16 / 2048
  let a := portAddr s.granule port.val (p.scrubNext * 2048)
  let last := lines ≤ p.scrubNext + 1
  guardStep (p.trained && p.periodH != 0 && !s.memc.selfRefresh) s
    (((s.upset (sectorUpsets ce ue)).lineRead 3 a 2048).updMem port fun p => { p with
      scrubNext := if last then 0 else p.scrubNext + 1
      scrubbing := !last
      passes := if last then p.passes + 1 else p.passes })

/-- MEM_RETRAIN: a retraining pauses its channel for at most 2 µs and costs ns only (R357); RETRAINING reads
1 for that time, and 0 again at the end of this event. -/
def execMemRetrain (port : Fin 16) (s : State) : Host.Outcome State Fault Refusal :=
  .next { s with memc := { s.memc with ports := s.memc.ports.set port { s.memc.ports[port] with retraining := false } } }

end Sys2Proof.Machine
end

