-- ==== Sys2Proof/Machine/Prime.lean ====
section
/-!
DEFINITION. The prime table: commits and their checks (R83 to R86).
-/

namespace Sys2Proof.Machine

open Sys2Proof

/-- PRIME_COMMIT: COMMIT is written; ignored while a commit runs (R83). -/
def execPrimeCommit (index : BitVec 8) (rootLog : BitVec 5) (s : State) : Host.Outcome State Fault Refusal :=
  if !s.hostOk then .next s else
  guardStep (!s.global.primeBusy) s
    { s with global := { s.global with primeIndex := index, primeRootLog := rootLog, primeBusy := true } }

/-- An entry that an installed prime set names. -/
def State.primeInUse (s : State) (i : Nat) : Bool :=
  s.global.psets.any fun p => p.2.qidx.contains i || p.2.pidx.contains i

/-- The entry a commit of a prime, its root and the root's order makes (R84). -/
def primeEntryOf (q root rootLog : Nat) : PrimeEntry := {
  q := BitVec.ofNat 31 q, valid := true, root := BitVec.ofNat 31 root, rootLog := BitVec.ofNat 5 rootLog
  log2q := BitVec.ofNat 16 (log2qOf q), qneg := BitVec.ofNat 32 (qnegOf q)
  rModQ := BitVec.ofNat 32 (2 ^ 32 % q), rrModQ := BitVec.ofNat 32 (2 ^ 64 % q) }

/-- The checks of Table 3.2 in order: RESULT and, where the entry changes, what it becomes. -/
def State.commitResult (s : State) (i q root l : Nat) : Nat × Option PrimeEntry :=
  if s.primeInUse i then (4, none)
  else if q = 0 then (0, some {})
  else if !(decide (2 ^ 21 < q) && q % 2 == 1 && 11 ≤ l && l ≤ 18 && q % 2 ^ l == 1) then (1, none)
  else if !millerRabin q then (2, none)
  else if !(decide (root < q) && powMod root (2 ^ (l - 1)) q == q - 1) then (3, none)
  else (0, some (primeEntryOf q root l))

/-- PRIME_COMMIT_COMPLETE: the checks have run; the entry is replaced, or left (R83, R84). -/
def execPrimeCommitComplete (s : State) : Host.Outcome State Fault Refusal :=
  let g := s.global
  let r := s.commitResult g.primeIndex.toNat g.stageQ.toNat g.stageRoot.toNat g.primeRootLog.toNat
  let g' := { g with
    primeBusy := false, primeResult := BitVec.ofNat 3 r.1, primeLast := g.primeIndex
    primes := match r.2 with | some e => g.primes.set g.primeIndex.toNat e g.primeIndex.isLt | none => g.primes }
  guardStep g.primeBusy s { s with global := g' }

end Sys2Proof.Machine
end

