-- ==== Sys2Proof/Machine/Mas.lean ====
section
/-!
DEFINITION. The memory-side update units (R373 to R381): layers and their commands, the step coefficient in
IEEE 754 binary64 (R377), votes (R379, R380) and steps (R378).
-/

namespace Sys2Proof.Machine

open Sys2Proof

/-! ## Binary64 -/

/-- A finite binary64 value: sign, and mant × 2^ex. -/
structure F64 where
  neg : Bool := false
  mant : Nat := 0
  ex : Int := 0
deriving DecidableEq, Repr

/-- The finite value that 64 bits spell. -/
def f64Of (b : BitVec 64) : Option F64 :=
  let e := bitsAt b.toNat 52 11
  let m := bitsAt b.toNat 0 52
  if e = 2047 then none
  else some { neg := b.msb, mant := if e = 0 then m else m + 2 ^ 52, ex := (if e = 0 then 1 else e : Nat) - 1075 }

/-- n / d × 2^e with its power of two moved into numerator and denominator, divided by 2^k. -/
def scaleDiv (n d : Nat) (e k : Int) : Nat × Nat :=
  if k ≤ e then (n * 2 ^ (e - k).toNat, d) else (n, d * 2 ^ (k - e).toNat)

/-- The quotient rounded to the nearest integer, ties to even. -/
def roundDiv (n d : Nat) : Nat :=
  let q := n / d
  let r := n % d
  if d < 2 * r ∨ (2 * r = d ∧ q % 2 = 1) then q + 1 else q

/-- n / d × 2^e rounded to binary64, to nearest, ties to even; none where it overflows. -/
def roundF64 (neg : Bool) (n d : Nat) (e : Int) : Option F64 :=
  if n = 0 ∨ d = 0 then some { neg }
  else
    let k0 : Int := (n.log2 : Int) - d.log2 + e - 52
    let x := scaleDiv n d e k0
    let k := max (if x.1 / x.2 < 2 ^ 52 then k0 - 1 else k0) (-1074)
    let y := scaleDiv n d e k
    let m := roundDiv y.1 y.2
    if 2 ^ 1024 ≤ m * 2 ^ k.toNat ∧ 0 ≤ k then none else some { neg, mant := m, ex := k }

def F64.mul (a b : F64) : Option F64 := roundF64 (a.neg != b.neg) (a.mant * b.mant) 1 (a.ex + b.ex)

def F64.one : F64 := { mant := 1 }

/-- 1 − p, for p from 0 to 1. -/
def F64.oneMinus (p : F64) : Option F64 :=
  if p.ex < 0 then roundF64 false (2 ^ (-p.ex).toNat - p.mant) 1 p.ex
  else roundF64 false (1 - p.mant * 2 ^ p.ex.toNat) 1 0

/-- 1 / x; none where x is zero. -/
def F64.inv (x : F64) : Option F64 := if x.mant = 0 then none else roundF64 x.neg 1 x.mant (-x.ex)

/-- β^t by square and multiply, from the highest bit (R377). -/
def betaPow (beta : F64) (t : Nat) : Nat → F64 → Option F64
  | 0, p => some p
  | k + 1, p => (p.mul p).bind fun p2 =>
      ((if t.testBit k then p2.mul beta else some p2)).bind fun p3 => betaPow beta t k p3

/-- The coefficient C of a step, none for STEP_RANGE (R377). -/
def stepCoef (eta beta : BitVec 64) (cfrac : Nat) (steps : BitVec 64) : Option Int :=
  if steps = BitVec.allOnes 64 then none
  else
    (f64Of eta).bind fun e => (f64Of beta).bind fun b =>
    (betaPow b (steps.toNat + 1) 64 F64.one).bind fun p =>
    p.oneMinus.bind fun d => d.inv.bind fun inv => (e.mul inv).bind fun c =>
      let x := scaleDiv c.mant 1 (c.ex + cfrac) 0
      if x.2 * 2 ^ 62 ≤ x.1 then none
      else
        let m := roundDiv x.1 x.2
        some (if c.neg then (m : Int) else -(m : Int))

/-! ## Layers (R373, R374) -/

/-- BETA is finite, at least 0 and below 1. -/
def betaOk (b : BitVec 64) : Bool :=
  match f64Of b with
  | some x => x.mant == 0 || (!x.neg && decide ((scaleDiv x.mant 1 x.ex 0).1 < (scaleDiv x.mant 1 x.ex 0).2))
  | none => false

/-- A buffer within seal windows that one function owns: the owner of every 64 KiB grain of it. -/
def State.sealedBy (s : State) (a n : Nat) : Option Nat :=
  let owners := (List.range ((a + n + 65535) / 65536 - a / 65536)).map fun i => s.sealWindow ((a / 65536 + i) * 65536)
  match owners with
  | some o :: rest => if rest.all (· == some o) then some o else none
  | _ => none

/-- The RESULT of DEFINE on an IDLE entry (Table 11.5). -/
def State.defineResult (s : State) (i : Fin 64) : Nat :=
  let l := s.mas.layers[i]
  let h := l.shape
  let w := lineBase l.wBase
  let m := lineBase l.mBase
  let n := h.size
  if h.objects = 0 ∨ h.logN = 0 ∨ h.level = 0 ∨ h.capacity = 0 ∨ l.shards = 0 then 2
  else if !((h.scheme == 1 && h.comps == 2) || (h.scheme == 4 && h.comps == 1)) then 4
  else if !(s.shapeOk h && s.inMem w n && s.inMem m n) then 2
  else if overlaps w n m n ∨ s.meetsWipe w n ∨ s.meetsWipe m n ∨
      ((List.finRange 64).any fun j =>
        let k := s.mas.layers[j]
        j != i && k.state != .idle &&
          (overlaps w n (lineBase k.wBase) k.shape.size || overlaps w n (lineBase k.mBase) k.shape.size ||
           overlaps m n (lineBase k.wBase) k.shape.size || overlaps m n (lineBase k.mBase) k.shape.size)) then 3
  else if l.scaleW.toNat ≠ l.scaleM.toNat + 256 * l.cfrac.toNat ∨ 62 < l.cfrac.toNat ∨ !betaOk l.beta then 5
  else if h.scheme = 4 then
    (match s.sealedBy w n, s.sealedBy m n with
      | some a, some b => if a = b then 0 else 6
      | _, _ => 6)
  else if s.meetsSeal w n ∨ s.meetsSeal m n then 6
  else 0

/-- A command of a layer that only certain states allow: otherwise RESULT STATE and no change (R374). -/
def State.layerCmd (s : State) (i : Fin 64) (ok : LState → Bool) (g : Layer → Layer) : Host.Outcome State Fault Refusal :=
  .next (s.updLayer i fun l => if ok l.state then { g l with result := 0 } else { l with result := 1 })

/-- MAS_DEFINE (R373). -/
def execMasDefine (layer : Fin 64) (s : State) : Host.Outcome State Fault Refusal :=
  if !s.hostOk then .next s else
  let n := s.defineResult layer
  if n ≠ 0 ∧ s.mas.layers[layer].state = .idle then
    .next (s.updLayer layer fun l => { l with result := BitVec.ofNat 4 n })
  else s.layerCmd layer (· == .idle) fun l => { l with state := .closed, steps := 0 }

/-- MAS_OPEN. -/
def execMasOpen (layer : Fin 64) (s : State) : Host.Outcome State Fault Refusal :=
  if !s.hostOk then .next s else
  s.layerCmd layer (· == .closed) fun l => { l with state := .opened }

/-- MAS_CLOSE. -/
def execMasClose (layer : Fin 64) (s : State) : Host.Outcome State Fault Refusal :=
  if !s.hostOk then .next s else
  s.layerCmd layer (· == .opened) fun l => { l with state := .closing }

/-- CLOSING_DONE: every write accepted before the CLOSE has committed. -/
def execClosingDone (layer : Fin 64) (s : State) : Host.Outcome State Fault Refusal :=
  guardStep (s.mas.layers[layer].state == .closing) s (s.updLayer layer fun l => { l with state := .closed })

/-- MAS_RELEASE. -/
def execMasRelease (layer : Fin 64) (s : State) : Host.Outcome State Fault Refusal :=
  if !s.hostOk then .next s else
  s.layerCmd layer (· == .closed) fun l => { l with state := .idle }

/-- ETA_WRITE: MAS_L_ETA is written; ignored but in OPEN and CLOSED. -/
def execEtaWrite (layer : Fin 64) (eta : BitVec 64) (s : State) : Host.Outcome State Fault Refusal :=
  if !s.hostOk then .next s else
  .next (s.updLayer layer fun l =>
    if l.state = .opened ∨ l.state = .closed then { l with eta, etaValid := true } else l)

/-- STEPS_WRITE: MAS_L_STEPS is written; ignored but in CLOSED (R381). -/
def execStepsWrite (layer : Fin 64) (steps : BitVec 64) (s : State) : Host.Outcome State Fault Refusal :=
  if !s.hostOk then .next s else
  .next (s.updLayer layer fun l => if l.state = .closed then { l with steps } else l)

/-- INGEST_ADD: a write of an agent of the device lands in a defined layer's M buffer (R375, R376). -/
def execIngestAdd (layer : Fin 64) (addr : Nat) (bytes : List Byte) (poison : Bool) (s : State) :
    Host.Outcome State Fault Refusal :=
  guardStep (s.layerAt addr == some layer && s.contribAt addr == none && addr % 2048 + bytes.length ≤ 2048) s
    (s.memArrive addr bytes (if poison then some {} else none))

/-! ## Steps -/

/-- The outcome of a step: LAST_CODE, the event log, a notice for a fault, and MAS_IRQ (R381, Table 15.3). -/
def State.stepOutcome (s : State) (i : Fin 64) (c : Code) : State :=
  let s := s.updLayer i fun l => { l with state := .closed, lastCode := c }
  let a : LogArgs := { index := i.val, detail := i.val }
  let s := s.log c .mas a
  let s := if c = 0 then s else s.notice c .mas a
  if s.mas.irqIen then s.signal 0 s.mas.irqVector.toNat else s

/-- A layer enters STEPPING with its coefficient, or the step is out of range (R377). -/
def State.enterStep (s : State) (i : Fin 64) (eta : BitVec 64) : State :=
  let l := s.mas.layers[i]
  match stepCoef eta l.beta l.cfrac.toNat l.steps with
  | some c => s.updLayer i fun l => { l with state := .stepping, coef := c }
  | none => s.stepOutcome i Codes.stepRange

/-- The nine words of a layer's vote (Table 12.11). -/
def Layer.vote (l : Layer) : List Nat :=
  let c := l.cfrac.toNat + 256 * l.shards.toNat
  [l.steps.toNat, l.steps.toNat, l.eta.toNat, l.eta.toNat, l.beta.toNat, l.beta.toNat, c, c, 1]

/-- MAS_STEP: a step begins at once, or with a vote where the layer has other shards (R374, R379, R381). -/
def execMasStep (layer : Fin 64) (clearM solo : Bool) (s : State) : Host.Outcome State Fault Refusal :=
  if !s.hostOk then .next s else
  let l := s.mas.layers[layer]
  if l.state ≠ .closed then .next (s.updLayer layer fun l => { l with result := 1 })
  else if !l.etaValid then .next (s.updLayer layer fun l => { l with result := 7 })
  else
    let s := s.updLayer layer fun l => { l with result := 0, clearM, voteEta := l.eta }
    if l.shards = 1 ∨ solo then .next (s.enterStep layer l.eta)
    else
      let s := s.updLayer layer fun l => { l with state := .voting }
      let r := s.set? l.rset.toNat
      let x := r.line 0
      .next (if r.armed && r.vote && r.locals != 0 then
          (s.updLayer layer fun l => { l with voteRound := some (if x.locals = 0 then x.round else x.round + 1 + x.held.length) }).work 4096
            [.contribute l.rset.toNat 0 (voteBytes l.vote) none]
        else s)

/-- Does a combined vote agree on a layer (R379)? -/
def voteAgrees (ws : List Nat) (shards : Nat) : Bool :=
  ws.getD 8 0 == shards && [0, 2, 4, 6].all fun i => ws.getD i 0 == ws.getD (i + 1) 0

/-- A layer awaits the combined vote of a round of a set. -/
def Layer.awaits (l : Layer) (set round : Nat) : Bool :=
  l.state == .voting && l.rset.toNat == set && l.voteRound == some round

/-- VOTE_RESULT: the next combined vote of the layer's set decides its step; one that no layer awaits, its own having
expired, is discarded, and a poisoned one disagrees (R379, R380, R412). -/
def execVoteResult (layer : Fin 64) (s : State) : Host.Outcome State Fault Refusal :=
  let l := s.mas.layers[layer]
  let r := s.set? l.rset.toNat
  match r.votes with
  | [] => .next s
  | v :: rest =>
    let s' := s.updSet l.rset.toNat fun r => { r with votes := rest }
    if l.awaits l.rset.toNat v.1 then
      let s' := s'.updLayer layer fun l => { l with voteRound := none }
      match v.2 with
      | some ws =>
        .next (if voteAgrees ws l.shards.toNat then s'.enterStep layer l.voteEta else s'.stepOutcome layer Codes.counterSkew)
      | none => .next (s'.stepOutcome layer Codes.counterSkew)
    else if s.mas.layers.toList.any fun k => k.awaits l.rset.toNat v.1 then .next s
    else .next s'

/-- STEP_VOTE_EXPIRED (R380). -/
def execStepVoteExpired (layer : Fin 64) (s : State) : Host.Outcome State Fault Refusal :=
  guardStep (s.mas.layers[layer].state == .voting) s
    ((s.updLayer layer fun l => { l with voteRound := none }).stepOutcome layer Codes.stepVoteExpired)

/-- One word of a step (R378). -/
def stepWord (q : Nat) (c : Int) (w m : Nat) : Nat := (w % q + intMod c q * (m % q)) % q

/-- W after a step: every word at a limb slot below LEVEL. A word whose W and M are both zero stays zero. -/
def State.stepMem (s : State) (l : Layer) : List Host.Cell :=
  let n := l.shape.size
  let w := lineBase l.wBase
  let m := lineBase l.mBase
  let offs := dedup ((memSlice s.mem w n).map (fun c => (c.1 - w) / 4 * 4) ++ (memSlice s.mem m n).map fun c => (c.1 - m) / 4 * 4)
  offs.foldl (fun (x : List Host.Cell) o =>
    let q := s.shapeMod l.shape o
    if q = 0 then x
    else memWriteN x (w + o) (natToBytes 4 (stepWord q l.coef (memReadNat s.mem (w + o) 4) (memReadNat s.mem (m + o) 4)))) s.mem

/-- STEP_COMPLETE: every line has been stepped (R377, R378). -/
def execStepComplete (layer : Fin 64) (s : State) : Host.Outcome State Fault Refusal :=
  let l := s.mas.layers[layer]
  let n := l.shape.size
  let w := lineBase l.wBase
  let m := lineBase l.mBase
  if l.state ≠ .stepping then .next s
  else
    let s := if l.clearM then ((s.checkRead w n).checkRead m n).movedSpan 3 m n else (s.checkRead w n).checkRead m n
    let s := ((s.movedSpan 3 w n).movedSpan 3 w n).movedSpan 3 m n
    let bad := (s.poison.filter fun p => overlaps (p.1 * 2048) 2048 m n).map fun p => ((p.1 * 2048 - m + w) / 2048, p.2)
    let poison := bad.foldl (fun (x : List (Nat × Mark)) p => if (alGet x p.1).isSome then x else alSet x p.1 p.2) s.poison
    let s := ({ s with mem := s.stepMem l, poison } : State).mendSpan w n fun o => s.shapeMod l.shape o != 0
    let s := if l.clearM then
        { s.mendSpan m n with mem := memZero s.mem m n, poison := s.poison.filter fun p => !overlaps (p.1 * 2048) 2048 m n }
      else s
    let s := s.updLayer layer fun l => { l with steps := l.steps + 1, etaValid := false, lastC := BitVec.ofInt 64 l.coef }
    .next (s.stepOutcome layer 0)

end Sys2Proof.Machine
end

