-- ==== Sys2Proof/Machine/Mgmt.lean ====
section
/-!
DEFINITION. The Reckoner's services (chapter 16): sensors, the log in flash, entropy, and the mailbox commands of
Table 16.4. The places of a request's and a response's fields are the model's: in the order of Table 16.4, little
endian (log entry 30).
-/

namespace Sys2Proof.Machine

open Sys2Proof

/-! ## Sensors (R504, R505) -/

/-- The hysteresis of a sensor in its unit: 2 °C, 10 mV, 2 A or 20 M tokens/s (R505). -/
def sensorMargin (i : Nat) : Int := if i < 96 then 16 else if i < 120 then 10 else if i < 121 then 20 else 20

/-- SENSOR_SAMPLE: a reading is taken, and compared with its warning range. -/
def execSensorSample (sensor : Fin 189) (value : Int) (s : State) : Host.Outcome State Fault Refusal :=
  let x := s.mgmt.sensors[sensor]
  let set (s : State) (x : Sensor) : State := { s with mgmt := { s.mgmt with sensors := s.mgmt.sensors.set sensor x } }
  if (s.domain (sensorDomain sensor.val)).state ≠ .on then .next (set s { x with valid := false })
  else
    let m := sensorMargin sensor.val
    let out := decide (value < x.lo) || decide (x.hi < value)
    let back := decide (x.lo + m ≤ value) && decide (value ≤ x.hi - m)
    let t := set s { x with value, valid := true, warn := if x.warn then !back else out }
    if out && !x.warn then
      let t := t.log Codes.sensorThreshold .reckoner { index := sensor.val }
      .next (if x.alertEn then t.alert else t)
    else .next t

/-! ## The log in flash (R508) -/

/-- The 32 bytes of a log record (Table 16.3). -/
def LogRec.bytes (r : LogRec) : List Byte :=
  natToBytes 2 r.code.toNat ++ [BitVec.ofNat 8 r.source, BitVec.ofNat 8 r.index,
    BitVec.ofNat 8 (match r.func with | some f => f % 64 + 64 | none => 0),
    BitVec.ofNat 8 (r.severity + 4 * boolBit r.persist)] ++
  natToBytes 2 r.count.toNat ++ natToBytes 8 r.tb.toNat ++ natToBytes 8 r.beat.toNat ++ natToBytes 8 r.detail.toNat

/-- The log's region of the flash. -/
def State.logBase (s : State) : Nat := (s.boot.image.regions.getD 5 (0, 0)).1

/-- A record is written at the next place of the ring of 131,072 (R508). -/
def State.flushRecord (s : State) (r : LogRec) : State :=
  let k := s.mgmt.flashNext
  let all := s.mgmt.flashLog ++ [(r.seq, k)]
  let s := s.flashWrite (s.logBase + 32 * k) r.bytes
  { s with mgmt := { s.mgmt with flashNext := (k + 1) % 131072, flashLog := all.drop (all.length - 131072) } }

/-- LOG_FLUSH: records of severity ERROR and above, and those with PERSIST, go to the persistent ring, in the region that the
applied image names (R508, R539). -/
def execLogFlush (s : State) : Host.Outcome State Fault Refusal :=
  let new := s.mgmt.ring.filter fun r => s.mgmt.flashed.toNat < r.seq.toNat && (2 ≤ r.severity || r.persist)
  let t := new.foldl (fun (s : State) r => s.flushRecord r) s
  guardStep (s.mgmt.alive && s.boot.image.applied) s { t with mgmt := { t.mgmt with flashed := s.mgmt.logSeq } }

/-- The records of a log at or after a sequence number, `n` at most, oldest first: of the ring, or of the flash. -/
def State.logFrom (s : State) (flash : Bool) (seq n : Nat) : List Byte :=
  if flash then
    ((s.mgmt.flashLog.filter fun p => seq ≤ p.1.toNat).take n).flatMap fun p => s.flashRead (s.logBase + 32 * p.2) 32
  else ((s.mgmt.ring.filter fun r => seq ≤ r.seq.toNat).take n).flatMap LogRec.bytes

/-! ## Entropy (R518, R519) -/

/-- DRBG_RESEED: an instance reseeds. Where the source had failed, the Reckoner has the start-up tests made, and where they
pass, reinstantiates the instances that are in their error state (R517, R519; log entry 31). -/
def execDrbgReseed (die : Fin 3) (s : State) : Host.Outcome State Fault Refusal :=
  if s.mgmt.entropyOk then
    guardStep ((s.drbg die).instantiated && !(s.drbg die).error) s (s.reseedDrbg die)
  else if !healthy s.raw.1 then .next s.raw.2
  else
    let t := s.raw.2
    let t := { t with mgmt := { t.mgmt with entropyOk := true } }
    .next (([0, 1, 2] : List Nat).foldl (fun (t : State) k =>
      if (t.drbg k).instantiated && (t.drbg k).error then t.startDrbg k else t) t)

/-- ENTROPY_HEALTH: the source stops, and an instance that needs a reseed enters its error state (R519). -/
def execEntropyHealth (s : State) : Host.Outcome State Fault Refusal := .next s.entropyFail

/-! ## The mailbox (R510, R511) -/

/-- Commands whose work the LNE does (R524, R544). -/
def usesLne (op : Nat) : Bool := op == 0x12 || op == 0x21 || op == 0x30 || op == 0x41

/-- The OPCODE at the front of the mailbox. -/
def State.mbFront (s : State) : Option (Fin 2 × Nat) :=
  match s.mgmt.goQueue with
  | c :: _ => if h : c < 2 then some (⟨c, h⟩, s.mgmt.mb[c].opcode.toNat) else none
  | [] => none

/-- A command that has come to the front takes its place in the LNE's queue (R524), from when its wait counts (R511). -/
def State.kick (s : State) : State :=
  match s.mbFront with
  | some (_, op) =>
    if s.mgmt.alive && usesLne op && !((s.lne.running.toList ++ s.lne.waiting).any fun x => !x.pf && !x.loose) then
      ({ s with mgmt := { s.mgmt with lneSince := some s.tally.up } } : State).lneAccept { pf := false }
    else s
  | none => s

/-- ALIVE: firmware that has started sets ALIVE, which ends a restart, and serves what was held (R494, R501, R502). -/
def execAlive (s : State) : Host.Outcome State Fault Refusal :=
  let fr := s.global.fault
  let starts := 9 ≤ s.boot.stage.toNat && s.boot.state != .recovery && !s.mgmt.noFw && s.boot.resetWait.isNone
  guardStep (!fr.orphan && starts && !s.mgmt.alive) s
    ({ s with
      mgmt := { s.mgmt with
        alive := true, activating := false, aliveUp := s.tally.up
        expiry := if fr.restarting then s.mgmt.expiry else none }
      global := { s.global with fault := { fr with restarting := false } } } : State).commitConfig.kick

/-- A command begins: its channel is BUSY and waits for its turn (R510, R502). -/
def State.go (s : State) (c : Fin 2) : State :=
  if s.mgmt.mb[c].busy then s
  else
    let s := { s with mgmt := { s.mgmt with
      mb := s.mgmt.mb.set c { s.mgmt.mb[c] with busy := true }, goQueue := s.mgmt.goQueue ++ [c.val] } }
    s.kick

/-- The lifecycle states a command is allowed in (Table 16.4). -/
def mbAllowed (op lc : Nat) : Bool :=
  match op with
  | 0x01 | 0x02 | 0x04 | 0x31 => true
  | 0x03 => lc != 0
  | 0x05 | 0x10 | 0x11 | 0x12 | 0x13 | 0x40 | 0x41 => 1 ≤ lc && lc ≤ 3
  | 0x14 | 0x30 => lc == 2
  | 0x20 | 0x21 => lc != 4
  | _ => true

/-- Commands that the boot ROM serves in recovery mode (Table 17.9). -/
def mbRecovery (op : Nat) : Bool := [0x01, 0x04, 0x10, 0x11, 0x12, 0x13].contains op

/-- The operation of the Reckoner's command has the LNE. -/
def State.lneMine (s : State) : Bool := match s.lne.running with | some x => !x.pf && !x.loose | none => false

/-- A command has waited 100 ms in the LNE's queue (R511). -/
def State.lneLate (s : State) (op : Nat) : Bool :=
  usesLne op && s.mgmt.alive && !s.global.fault.orphan && !s.lneMine &&
    match s.mgmt.lneSince with
    | some t => decide (t + 100000000 ≤ s.tally.up)
    | none => false

/-- The command at the front can be served now: by the firmware, by the boot ROM in recovery mode, and GET_INFO and
READ_LOG by the boot ROM from B2 on (R502, R550, R551). A command on the LNE needs its turn there. -/
def State.serving (s : State) (op : Nat) : Bool :=
  !s.global.fault.orphan &&
    (s.mgmt.alive || s.boot.state == .recovery || (s.boot.state != .ready && 2 ≤ s.boot.stage.toNat && (op == 1 || op == 4))) &&
    (!usesLne op || !s.mgmt.alive || s.lneMine)

/-- A command's answer: RESULT, the response, and the state. -/
abbrev MbAnswer := Nat × List Byte × State

/-- LIFECYCLE_LOCK, logged (R511). -/
def State.mbLocked (s : State) : MbAnswer := (2, [], s.log Codes.lifecycleLock .reckoner {})

/-- The command with an OPCODE is served if it stands at the front; a request of a length that does not match is
INVALID. The LNE goes on once the command has ended. A command that has waited 100 ms for the LNE is BUSY_LNE. -/
def State.serve (s : State) (op : Nat) (lenOk : Nat → Bool) (body : List Byte → State → MbAnswer) :
    Host.Outcome State Fault Refusal :=
  match s.mbFront with
  | some (c, op') =>
    if op' = op ∧ s.serving op then
      let b := s.mgmt.mb[c]
      let req := (b.data ++ List.replicate b.len.toNat 0).take b.len.toNat
      let a := if s.boot.state = .recovery ∧ !mbRecovery op then (5, [], s)
        else if !mbAllowed op s.boot.fuses.lifecycle then s.mbLocked
        else if !lenOk b.len.toNat then (1, [], s)
        else body req s
      let t := a.2.2.endMailbox c.val a.1 a.2.1
      let t := if usesLne op && t.lneMine then t.lneFree else t
      .next t.kick
    else if op' = op ∧ s.lneLate op then
      let t := { s with lne := { s.lne with waiting := s.lne.waiting.filter (·.pf) } }
      .next (t.endMailbox c.val 8 []).kick
    else .next s
  | none => .next s

/-- MAILBOX_UNDEFINED_OPCODE: an OPCODE that Table 16.4 does not give is INVALID and changes nothing. -/
def execMailboxUndefinedOpcode (s : State) : Host.Outcome State Fault Refusal :=
  match s.mbFront with
  | some (_, op) =>
    if [0x01, 0x02, 0x03, 0x04, 0x05, 0x10, 0x11, 0x12, 0x13, 0x14, 0x20, 0x21, 0x30, 0x31, 0x40, 0x41].contains op then .next s
    else s.serve op (fun _ => true) fun _ s => (1, [], s)
  | none => .next s

/-- A field of a request. -/
def reqNat (req : List Byte) (o n : Nat) : Nat := bytesToNat ((req.drop o).take n)

/-- GLOBAL_BOOT_STATUS as a number (Table 17.10). -/
def State.bootStatus (s : State) : Nat :=
  let b := s.boot
  b.stage.toNat + (match b.state with | .booting => 0 | .ready => 1 | .recovery => 2 | .memoryFailed => 3) * 2 ^ 4 +
    boolBit b.cfgSlot * 2 ^ 6 + boolBit b.fwSlot * 2 ^ 7 + b.cfgErr[0].toNat * 2 ^ 8 + b.cfgErr[1].toNat * 2 ^ 12 +
    boolBit s.lne.loaded * 2 ^ 16 + b.cause.toNat * 2 ^ 17 + b.memFail.toNat * 2 ^ 20 + b.bootMs.toNat * 2 ^ 36

/-- The response of GET_INFO. -/
def State.infoBytes (s : State) : List Byte :=
  let v (k : Nat) : List Byte := natToBytes 4 (s.slotVersion 1 k).1 ++ natToBytes 4 (s.slotVersion 1 k).2
  let versions := if s.mgmt.alive then v 0 ++ v 1 ++ natToBytes 4 s.boot.image.version.toNat else natToBytes 8 s.bootStatus
  natToBytes 16 s.boot.fuses.serial.toNat ++ [0, BitVec.ofNat 8 s.boot.fuses.lifecycle] ++ versions ++
    [BitVec.ofNat 8 (boolBit s.mgmt.fwSlot), BitVec.ofNat 8 s.boot.fuses.fwCounter, BitVec.ofNat 8 s.boot.fuses.mcCounter] ++
    natToBytes 2 s.carry.devnum.toNat

/-- GET_INFO. -/
def execGetInfo (s : State) : Host.Outcome State Fault Refusal :=
  s.serve 0x01 (· == 0) fun _ s => (0, s.infoBytes, s)

/-- MGMT_SENSOR_i as a number. -/
def Sensor.bits (x : Sensor) : Nat := unsignedOf 16 x.value + boolBit x.valid * 2 ^ 16 + boolBit x.warn * 2 ^ 17

/-- READ_SENSORS: the registers of `count` sensors from the first. -/
def execReadSensors (s : State) : Host.Outcome State Fault Refusal :=
  s.serve 0x02 (· == 2) fun req s =>
    let first := reqNat req 0 1
    let count := reqNat req 1 1
    if 189 < first + count then (1, [], s)
    else (0, (((List.finRange 189).drop first).take count).flatMap fun i => natToBytes 4 (s.sensor i).bits, s)

/-- SET_THRESHOLD. Thermal limits are signed. -/
def execSetThreshold (s : State) : Host.Outcome State Fault Refusal :=
  s.serve 0x03 (· == 6) fun req s =>
    let i := reqNat req 0 1
    let value (o : Nat) : Int := if i < 96 then signed 16 (reqNat req o 2) else reqNat req o 2
    if h : i < 189 then
      if value 3 < value 1 ∨ 1 < reqNat req 5 1 then (1, [], s)
      else (0, [], { s with mgmt := { s.mgmt with
        sensors := s.mgmt.sensors.set i { s.mgmt.sensors[i] with lo := value 1, hi := value 3, alertEn := reqNat req 5 1 == 1 } } })
    else (1, [], s)

/-- READ_LOG: the oldest held record at or after the requested number, and those after it (R509). -/
def execReadLog (s : State) : Host.Outcome State Fault Refusal :=
  s.serve 0x04 (· == 6) fun req s =>
    let src := reqNat req 0 1
    let count := reqNat req 5 1
    if 1 < src ∨ count = 0 ∨ 127 < count then (1, [], s)
    else
      (0, s.logFrom (src == 1) (reqNat req 1 4) count, s)

/-- SET_POWER: ICC_MAX, a BEAT_FLOOR request and rail limits within ADMIT_VLIMIT (R503, R510). -/
def execSetPower (s : State) : Host.Outcome State Fault Refusal :=
  s.serve 0x05 (· == 7) fun req s =>
    let icc := reqNat req 0 2
    let floor := reqNat req 2 1
    let lo := reqNat req 3 2
    let hi := reqNat req 5 2
    if icc = 0 ∨ floor < 24 ∨ hi < lo ∨ lo < s.adm.vmin.toNat ∨ s.adm.vmax.toNat < hi then (1, [], s)
    else (0, [], { s with
      mgmt := { s.mgmt with iccMax := BitVec.ofNat 16 icc, floorReq := BitVec.ofNat 8 floor, railMin := BitVec.ofNat 10 lo, railMax := BitVec.ofNat 10 hi }
      tally := { s.tally with beatFloor := BitVec.ofNat 8 floor } })

/-! ## Firmware update (R528 to R530) -/

/-- The slot of a component that is not committed. -/
def State.freeSlot (s : State) (comp : Nat) : Nat := 1 - (s.slots comp).committed

/-- A staging begins, unless the component or the size is out of range. -/
def State.stage (s : State) (comp size : Nat) : Option State :=
  if comp = 0 ∨ 3 < comp ∨ (s.slotSpan comp (s.freeSlot comp)).2 < size then none
  else some { s with mgmt := { s.mgmt with staging := some { comp, slot := s.freeSlot comp, size } } }

/-- FW_BEGIN; a size of zero is a no-op (R16). -/
def execFwBegin (s : State) : Host.Outcome State Fault Refusal :=
  s.serve 0x10 (· == 5) fun req s =>
    match s.stage (reqNat req 0 1) (reqNat req 1 4) with
    | some t => (0, [], if reqNat req 1 4 = 0 then s else t)
    | none => (1, [], s)

/-- FW_WRITE: bytes go to the staging slot; no bytes are a no-op (R16). -/
def execFwWrite (s : State) : Host.Outcome State Fault Refusal :=
  s.serve 0x11 (fun n => 4 ≤ n && n ≤ 4092) fun req s =>
    match s.mgmt.staging with
    | some g =>
      let bytes := req.drop 4
      if g.size < reqNat req 0 4 + bytes.length then (1, [], s)
      else
        let t := s.flashWrite ((s.slotSpan g.comp g.slot).1 + reqNat req 0 4) bytes
        (0, [], if bytes = [] then s else { t with mgmt := { t.mgmt with staging := some { g with verified := false } } })
    | none => (5, [], s)

/-- The staged image is checked (R528, R552): the RESULT, and the state after it. A slot that fails is marked
invalid, a signature or rollback failure logged. -/
def State.verifyStaged (s : State) (g : Staging) : Nat × State :=
  let e := if g.comp = 3 then
      (match s.imageError (g.slot * 0x100000) true true with | 0 => 0 | 2 => 3 | 5 => 4 | _ => 1)
    else s.codeError g.comp g.slot
  if e = 0 then
    let s := s.commitSlot (compIndex g.comp) fun c => { c with failed := c.failed &&& ~~~((1 : BitVec 2) <<< g.slot) }
    (0, { s with mgmt := { s.mgmt with staging := some { g with verified := true } } })
  else
    let s := if e = 1 then s else s.log Codes.firmwareRejected .reckoner { index := g.comp }
    let s := s.markFailed g.comp g.slot
    (e, { s with mgmt := { s.mgmt with staging := some { g with verified := false } } })

/-- FW_VERIFY. -/
def execFwVerify (s : State) : Host.Outcome State Fault Refusal :=
  s.serve 0x12 (· == 0) fun _ s =>
    match s.mgmt.staging with
    | some g =>
      let r := s.verifyStaged g
      let v := s.slotVersion g.comp g.slot
      (r.1, if r.1 = 0 then natToBytes 4 v.1 ++ natToBytes 4 v.2 else [], r.2)
    | none => (5, [], s)

/-- A verified slot becomes TRIAL (R529); at once, the Reckoner restarts onto it. -/
def State.activate (s : State) (g : Staging) (atOnce : Bool) : State :=
  let s := s.commitSlot (compIndex g.comp) fun c => { c with trial := g.slot + 1 }
  let s := { s with mgmt := { s.mgmt with staging := none } }
  if atOnce then
    State.restartFw { s with
      mgmt := { s.mgmt with trial := true, fwSlot := g.slot == 1, alive := false, activating := true, nonce := none } }
  else s

/-- FW_ACTIVATE: mode 0 at the next device reset, mode 1 at once for component 1. -/
def execFwActivate (s : State) : Host.Outcome State Fault Refusal :=
  s.serve 0x13 (· == 1) fun req s =>
    let mode := reqNat req 0 1
    if 1 < mode then (1, [], s)
    else if mode = 1 ∧ s.boot.state = .recovery then (5, [], s)
    else match s.mgmt.staging with
      | some g =>
        if !g.verified then (5, [], s)
        else if mode = 1 ∧ g.comp ≠ 1 then (1, [], s)
        else (0, [], s.activate g (mode == 1))
      | none => (5, [], s)

/-- FW_COMMIT_SVN: a fuse counter rises to the SVN of the committed image; it never falls (R530). -/
def execFwCommitSvn (s : State) : Host.Outcome State Fault Refusal :=
  s.serve 0x14 (· == 1) fun req s =>
    let comp := reqNat req 0 1
    let svn := (s.slotVersion comp (s.slots comp).committed).2
    let fuses := s.boot.fuses
    if comp = 1 ∧ svn ≤ 64 then
      let n := max fuses.fwCounter svn
      (0, [BitVec.ofNat 8 n], { s with boot := { s.boot with fuses := { fuses with fwCounter := n } } })
    else if comp = 2 ∧ svn ≤ 32 then
      let n := max fuses.mcCounter svn
      (0, [BitVec.ofNat 8 n], { s with boot := { s.boot with fuses := { fuses with mcCounter := n } } })
    else (1, [], s)

/-- TRIAL_COMMIT: trial firmware that has held ALIVE for 60 s becomes committed (R529). -/
def execTrialCommit (s : State) : Host.Outcome State Fault Refusal :=
  guardStep (s.mgmt.trial && s.mgmt.alive && s.mgmt.aliveUp + 60000000000 ≤ s.tally.up) s
    (let s := s.commitSlot 0 fun c => { c with committed := boolBit s.mgmt.fwSlot, trial := 0 }
     { s with mgmt := { s.mgmt with trial := false } })

/-! ## Lifecycle (R515, R516) -/

/-- The security DRBG delivers, or ENTROPY (R511). -/
def State.security (s : State) : Option (BitVec 384) × State :=
  match s.drbgDraw 2 with
  | (some x, t) => (some x, t)
  | (none, t) => (none, t.log Codes.entropyUnavailable .reckoner {})

/-- LC_NONCE: a fresh nonce, in place of any other. -/
def execLcNonce (s : State) : Host.Outcome State Fault Refusal :=
  s.serve 0x20 (· == 0) fun _ s =>
    match s.security with
    | (some x, t) =>
      let n : BitVec 256 := x.truncate 256
      (0, natToBytes 32 n.toNat, { t with mgmt := { t.mgmt with nonce := some n } })
    | (none, t) => (7, [], t)

/-- The targets of LC_SET from a state (Table 16.7); the fuses hold four owner keys. -/
def Fuses.mayEnter (f : Fuses) (target : Nat) : Bool :=
  match f.lifecycle, target with
  | 0, 1 => true
  | 1, 2 => f.owners.length < 4
  | 1, 4 => true
  | 2, 3 => true
  | 2, 4 => true
  | 3, 1 => f.owners.length < 4
  | 3, 4 => true
  | _, _ => false

/-- The key that authorises LC_SET from the present state: Drenil's, or the owner's from the applied image,
whose digest is fused (R516, R542). -/
def State.lifecycleKey (s : State) : List Byte :=
  if s.boot.fuses.lifecycle = 2 then s.flashRead (boolBit s.boot.cfgSlot * 0x100000 + 256) 96 else drenilKeyBytes 0

/-- The message an LC_SET signs (R516). -/
def State.lcMessage (s : State) (target : Nat) (nonce : BitVec 256) (digest : List Byte) : List Byte :=
  natToBytes 16 s.boot.fuses.serial.toNat ++ [BitVec.ofNat 8 s.boot.fuses.lifecycle, BitVec.ofNat 8 target] ++
    natToBytes 32 nonce.toNat ++ (if target = 2 then digest else [])

/-- The fuses after a lifecycle change. -/
def Fuses.enter (f : Fuses) (target : Nat) (digest : List Byte) (secret : BitVec 256) : Fuses :=
  { f with
    pairs := f.pairs ++ [(target, true, true)]
    secret := if f.lifecycle = 0 ∧ target = 1 then some secret else if target = 4 then none else f.secret
    owners := if target = 2 then digest :: f.owners else f.owners
    killed := f.killed || target == 4 }

/-- The change of LC_SET once its request is well formed: the nonce is consumed, the signature verified, the
fuses burnt. -/
def State.lcChange (s : State) (target : Nat) (digest sig : List Byte) : MbAnswer :=
  match s.mgmt.nonce with
  | none => (5, [], s)
  | some n =>
    let s := { s with mgmt := { s.mgmt with nonce := none } }
    let key := s.lifecycleKey
    let trusted := s.boot.fuses.lifecycle != 2 || s.boot.fuses.ownerIs key
    if trusted && p384.verifyBytes key (sha384 (s.lcMessage target n digest)) sig then
      if s.boot.fuses.lifecycle = 0 then
        (match s.security with
        | (some x, t) => (0, [], { t with boot := { t.boot with fuses := t.boot.fuses.enter target digest (x.truncate 256) } })
        | (none, t) => (7, [], t))
      else (0, [], { s with boot := { s.boot with fuses := s.boot.fuses.enter target digest 0 } })
    else (3, [], s)

/-- LC_SET: a signed lifecycle change; the device reset it ends with follows the command (R516). -/
def execLcSet (s : State) : Host.Outcome State Fault Refusal :=
  let r := s.serve 0x21 (fun n => n == 97 || n == 145) fun req s =>
    let target := reqNat req 0 1
    if 4 < target then (1, [], s)
    else if !s.boot.fuses.mayEnter target then s.mbLocked
    else if req.length ≠ (if target = 2 then 145 else 97) then (1, [], s)
    else s.lcChange target ((req.drop 1).take 48) ((req.drop (if target = 2 then 49 else 1)).take 96)
  match r with
  | .next t => .next (if t.boot.fuses.lifecycle = s.boot.fuses.lifecycle then t else t.deviceReset 4)
  | x => x

/-! ## Sessions, identity and measurements -/

/-- The identity key: SHAKE256 of the device secret and "DRN-ID", 48 bytes read big-endian, reduced to 1 .. n − 1
(R514; the reduction is the model's, log entry 30). -/
def identityKey (secret : BitVec 256) : Nat :=
  bytesToNatBE (sponge 136 0x1F (natToBytes 32 secret.toNat ++ [0x44, 0x52, 0x4E, 0x2D, 0x49, 0x44]) 48) % (p384.n - 1) + 1

/-- A signature with the identity key; none where there is no key, or no microcode to sign with (R514, R516, R544). -/
def State.identitySign (s : State) (msg : List Byte) : Option (List Byte) :=
  if s.boot.fuses.killed || !s.lne.loaded then none
  else s.boot.fuses.secret.map fun x => p384.signBytes (identityKey x) (sha384 msg)

/-- The steps of SESSION_AGREE (R526). -/
def State.agree (s : State) (slot : Fin 64) (owner : Nat) (role : Bool) (peer ctx : List Byte) : MbAnswer :=
  let old := s.lne.sessions[slot]
  let set (s : State) (x : Session) : State := { s with lne := { s.lne with sessions := s.lne.sessions.set slot x } }
  if old.valid && old.owner.toNat != owner then (5, [], s)
  else if !s.lne.loaded then (5, [], s)
  else match s.security with
    | (none, t) => (7, [], t)
    | (some x, t) =>
      let priv := x.toNat % 2 ^ 256
      let z := x25519 priv (leNat peer)
      let pub := leBytes 32 (x25519 priv 9)
      if z = 0 then (1, [], set t {})
      else
        let ids : List Byte := [BitVec.ofNat 8 slot.val, BitVec.ofNat 8 owner]
        let key := (sponge 136 0x1F (leBytes 32 z ++ pub ++ peer ++ ids ++ ctx) 32)
        let msg := natToBytes 16 t.boot.fuses.serial.toNat ++ ids ++ [BitVec.ofNat 8 (boolBit role)] ++ pub ++ peer ++ ctx
        match t.identitySign msg with
        | none => (5, [], t)
        | some sig =>
          (0, pub ++ sig, set t { valid := true, role, owner := BitVec.ofNat 6 owner, key := BitVec.ofNat 256 (bytesToNat key) })

/-- SESSION_AGREE. -/
def execSessionAgree (s : State) : Host.Outcome State Fault Refusal :=
  s.serve 0x30 (· == 67) fun req s =>
    let slot := reqNat req 0 1
    let owner := reqNat req 1 1
    let role := reqNat req 2 1
    if h : slot < 64 then
      if 64 ≤ owner ∨ 1 < role then (1, [], s)
      else s.agree ⟨slot, h⟩ owner (role == 1) ((req.drop 3).take 32) ((req.drop 35).take 32)
    else (1, [], s)

/-- SESSION_CLEAR. -/
def execSessionClear (s : State) : Host.Outcome State Fault Refusal :=
  s.serve 0x31 (· == 1) fun req s =>
    let slot := reqNat req 0 1
    if h : slot < 64 then (0, [], { s with lne := { s.lne with sessions := s.lne.sessions.set slot {} } }) else (1, [], s)

/-- The certificate chain's region. -/
def State.certSpan (s : State) : Nat × Nat := (s.boot.image.regions[4]?).getD (0, 0)

/-- GET_CERT. -/
def execGetCert (s : State) : Host.Outcome State Fault Refusal :=
  s.serve 0x40 (· == 6) fun req s =>
    let o := reqNat req 0 4
    let n := reqNat req 4 2
    if 4096 < n ∨ s.certSpan.2 < o + n then (1, [], s) else (0, s.flashRead (s.certSpan.1 + o) n, s)

/-- The digests of Table 16.6. -/
def State.measures (s : State) : List (List Byte) :=
  let f := s.boot.fuses
  let owner := (f.owners.head?).getD (List.replicate 48 0)
  let active := [s.mgmt.fwSlot, s.boot.mcSlot, s.boot.cfgSlot]
  let slots := (s.boot.slots.toList.zip active).flatMap fun c =>
    ([BitVec.ofNat 8 (boolBit c.2), BitVec.ofNat 8 c.1.trial, c.1.failed.zeroExtend 8] : List Byte)
  [natToBytesBE 48 Config.bootRomDigest.toNat, s.boot.fwDigest, s.boot.mcDigest, s.boot.image.digest,
    sha384 ([BitVec.ofNat 8 f.lifecycle] ++ owner ++ [BitVec.ofNat 8 f.fwCounter, BitVec.ofNat 8 f.mcCounter] ++ List.replicate 13 0),
    sha384 slots]

/-- The measurement blocks in DMTF format: index, specification 1, size, value type, value size, digest
(PRESUMED from DSP0274, log entry 32). -/
def State.measureBlocks (s : State) : List (List Byte) :=
  (s.measures.zipIdx 1).map fun m =>
    let v := m.1 ++ List.replicate (48 - m.1.length) (0 : Byte)
    let ty : Byte := if m.2 = 1 then 0 else if m.2 ≤ 3 then 1 else if m.2 = 4 then 3 else 4
    [BitVec.ofNat 8 m.2, 1] ++ natToBytes 2 51 ++ [ty] ++ natToBytes 2 48 ++ v

/-- GET_MEASUREMENTS: the blocks, signed with the nonce. -/
def execGetMeasurements (s : State) : Host.Outcome State Fault Refusal :=
  s.serve 0x41 (· == 32) fun req s =>
    let blocks := s.measureBlocks.flatten
    match s.identitySign (req ++ blocks) with
    | some sig => (0, blocks ++ sig, s)
    | none => (5, [], s)

end Sys2Proof.Machine
end

