-- ==== Sys2Proof/Machine/RegRead.lean ====
section
/-!
DEFINITION. What each register reads: the blocks of PF BAR0 (Table 1.5) as 64-bit slots at multiples of 8
bytes. A 32-bit register at an offset of 4 mod 8 is the high half of its slot. WO fields and reserved bits
read zero (R8, R10).
-/

namespace Sys2Proof.Machine

open Sys2Proof

/-- Fields put into a slot: the lowest bit and the value of each. -/
def pack (l : List (Nat × Nat)) : BitVec 64 := BitVec.ofNat 64 ((l.map fun p => p.2 * 2 ^ p.1).sum)

/-- One bit of a slot. -/
def bitAt (lo : Nat) (b : Bool) : Nat × Nat := (lo, boolBit b)

/-! ## Encodings of states -/

/-- FRM_SEQ_STATUS.STATE (chapter 7). -/
def FState.num : FState → Nat
  | .idle => 0 | .assigned => 1 | .running => 2 | .waiting => 3 | .stopped => 4 | .fenced => 5 | .unavailable => 6

/-- Table 2.7. -/
def GroupState.num : GroupState → Nat
  | .none => 0 | .forming => 1 | .running => 2 | .broken => 3

/-- Table 14.3. -/
def DomState.num : DomState → Nat
  | .on => 0 | .retain => 1 | .off => 2 | .switching => 3

/-- Table 11.6. -/
def LState.num : LState → Nat
  | .idle => 0 | .opened => 1 | .closing => 2 | .closed => 3 | .voting => 4 | .stepping => 5

/-- Table 12.12. -/
def PState.num : PState → Nat
  | .disabled => 0 | .equalize => 1 | .align => 2 | .ident => 3 | .active => 4 | .retrain => 5 | .down => 6

/-! ## GLOBAL (chapters 3, 5, 13, 15, 17) -/

/-- One slot of GLOBAL_FUNC_n. -/
def Func.slot (u : Func) (o : Nat) : BitVec 64 :=
  match o with
  | 0x00 => u.frames
  | 0x08 => pack [(28, u.memBase.toNat)]
  | 0x10 => pack [(28, u.memSize.toNat)]
  | 0x18 => pack [(0, u.streamFirst.toNat), (20, u.streamCount.toNat)]
  | 0x20 => pack [(0, u.sqMax.toNat), (8, u.cqMax.toNat), (16, u.progMax.toNat), (28, u.carryAccept.toNat),
      bitAt 32 u.enable, bitAt 33 u.busy, (34, u.result.toNat)]
  | _ => 0

/-- One slot of the fault registers (Table 15.5). -/
def FaultRegs.slot (r : FaultRegs) (o : Nat) : BitVec 64 :=
  match o with
  | 0x00 => pack [bitAt 0 (r.orphan && r.orphanWait.isNone), bitAt 1 r.restarting, (2, r.expiries.toNat), bitAt 4 r.alert,
      bitAt 6 r.profileRaised, (16, r.lastMgmt.toNat)]
  | 0x08 => pack [(12, r.ringBase.toNat)]
  | 0x10 => pack [(0, r.sizeM1.toNat), bitAt 16 r.ringEn, (17, r.vector.toNat), bitAt 28 r.ien,
      (32, r.tail.toNat), bitAt 48 r.phase]
  | 0x20 => r.lost
  | 0x28 => pack [(0, r.checkLimit.toNat)]
  | _ => if 0x100 ≤ o ∧ o < 0x140 then (r.orphanRec >>> ((o - 0x100) * 8)).setWidth 64 else 0

/-- One slot of the prime-table and seal-window registers (Tables 3.3 and 5.12). -/
def State.tableSlot (s : State) (o : Nat) : BitVec 64 :=
  let g := s.global
  match o with
  | 0x60000 => pack [(16, g.sealBase.toNat)]
  | 0x60008 => pack [(0, g.sealIndex.toNat), (8, g.sealOwner.toNat), bitAt 16 g.sealOp, (32, g.sealSize.toNat)]
  | 0x60010 => pack [bitAt 0 g.sealBusy, (1, g.sealResult.toNat), (4, g.sealLast.toNat)]
  | 0x70000 => pack [(0, g.stageQ.toNat), (32, g.stageRoot.toNat)]
  | 0x70008 => pack [(0, g.primeIndex.toNat), (8, g.primeRootLog.toNat), bitAt 32 g.primeBusy,
      (33, g.primeResult.toNat), (36, g.primeLast.toNat)]
  | 0x70010 => BitVec.ofNat 64 s.primeHash
  | 0x70018 => pack (g.psets.map fun p => bitAt p.1 true)
  | _ =>
    if 0x60100 ≤ o ∧ o < 0x60500 then
      let w := g.seals[(o - 0x60100) / 16 % 64]'(Nat.mod_lt _ (by decide))
      if o % 16 = 0 then pack [bitAt 0 w.valid, (8, w.owner.toNat), (16, w.base.toNat)] else pack [(0, w.size.toNat)]
    else if 0x80000 ≤ o ∧ o < 0x82000 then
      let e := g.primes[(o - 0x80000) / 32 % 256]'(Nat.mod_lt _ (by decide))
      match o % 32 with
      | 0 => pack [(0, e.q.toNat), bitAt 31 e.valid, (32, e.root.toNat)]
      | 8 => pack [(0, e.rootLog.toNat), (16, e.log2q.toNat), (32, e.qneg.toNat)]
      | 16 => pack [(0, e.rModQ.toNat), (32, e.rrModQ.toNat)]
      | _ => 0
    else 0

/-- One slot of a function's MSI-X table (R445): entries of address, data and vector control. -/
def State.msixSlot (s : State) (n : FuncNo) (o : Nat) : BitVec 64 :=
  let e := (alGet s.hostq.fns[n].msix (o / 16)).getD {}
  if o % 16 = 0 then e.addr else pack [(0, e.data.toNat), bitAt 32 e.mask]

/-- One slot of a function's MSI-X pending bits. -/
def State.pbaSlot (s : State) (n : FuncNo) (o : Nat) : BitVec 64 :=
  pack ((s.hostq.fns[n].pba.filter fun v => v / 64 == o / 8).map fun v => bitAt (v % 64) true)

def State.globalSlot (s : State) (o : Nat) : BitVec 64 :=
  let g := s.global
  match o with
  | 0x00 => pack [(8, 1), (16, 1), bitAt 32 g.ready, bitAt 33 (!s.memc.wipes.isEmpty), (34, g.profile.toNat)]
  | 0x10 => pack [(0, g.pfErrCode.toNat), (16, g.pfErrFunc.toNat), (32, g.pfErrCount.toNat)]
  | 0x18 => pack [(28, g.bar2Base.toNat)]
  | 0x20000 => pack [(26, g.streamBase.toNat)]
  | 0x20008 => g.streamHits
  | 0x20010 => g.streamMisses
  | 0x30008 => BitVec.ofNat 64 s.bootStatus
  | _ =>
    if 0x10000 ≤ o ∧ o < 0x11000 then g.funcs[(o - 0x10000) / 64 % 64]'(Nat.mod_lt _ (by decide)) |>.slot (o % 64)
    else if 0x50000 ≤ o ∧ o < 0x50140 then g.fault.slot (o - 0x50000)
    else if 0xC0000 ≤ o ∧ o < 0xC8000 then s.msixSlot 0 (o - 0xC0000)
    else if 0xD0000 ≤ o ∧ o < 0xD0100 then s.pbaSlot 0 (o - 0xD0000)
    else s.tableSlot o

/-! ## TALLY and ADMIT (chapters 2 and 14) -/

def State.tallySlot (s : State) (o : Nat) : BitVec 64 :=
  let t := s.tally
  match o with
  | 0x000 => pack [bitAt 0 t.run, bitAt 32 s.tallyRunning, bitAt 33 s.tallyHeld, bitAt 34 t.tbLocked,
      bitAt 35 t.tbHoldover, bitAt 36 t.markDone, bitAt 37 t.markMissed, bitAt 38 t.watchdogFired,
      bitAt 39 t.junctionExpired, (40, t.lastCause.toNat)]
  | 0x008 => pack [(0, t.beatFloor.toNat), (32, t.tokenRate.toNat)]
  | 0x010 => t.count
  | 0x200 => pack [(0, t.j.toNat), (32, t.memberIndex.toNat), (36, t.membersM1.toNat), (40, t.groupId.toNat),
      (48, t.portUp.toNat), (52, t.portDown.toNat), bitAt 56 t.closed]
  | 0x208 => pack [(32, t.gstate.num), (48, t.missing.toNat)]
  | 0x210 => t.gbeat
  | 0x218 => pack [(0, t.timeoutUs.toNat)]
  | 0x300 => t.tb
  | 0x308 => t.tbSet
  | 0x310 => pack [(0, t.syncMode.toNat), bitAt 3 t.loadArm, (4, t.syncOutMode.toNat), (16, t.syncCount.toNat),
      (32, t.period.toNat)]
  | 0x318 => t.capture
  | 0x400 => t.markBeat
  | 0x408 => t.markTs
  | _ =>
    if 0x100 ≤ o ∧ o < 0x180 then
      let c := (o - 0x100) / 16 % 8
      if o % 16 = 0 then t.strBeats[c]'(Nat.mod_lt _ (by decide)) else t.strNs[c]'(Nat.mod_lt _ (by decide))
    else 0

/-- The 64-bit registers of the TALLY block, whose low-word read latches the high word (R62). -/
def tallyWide (o : Nat) : Bool :=
  o == 0x10 || o == 0x210 || o == 0x300 || o == 0x308 || o == 0x318 || o == 0x400 || o == 0x408 ||
    (0x100 ≤ o && o < 0x180)

/-- One word of ADMIT_DOMAIN_i. -/
def Domain.word (d : Domain) : Nat :=
  d.state.num + boolBit d.forced * 2 ^ 2 + d.fvalid.toNat * 2 ^ 4 + d.lframes[0].toNat * 2 ^ 8 +
    d.lframes[1].toNat * 2 ^ 14 + d.lframes[2].toNat * 2 ^ 20 + d.lframes[3].toNat * 2 ^ 26

def State.admitSlot (s : State) (o : Nat) : BitVec 64 :=
  let a := s.adm
  match o with
  | 0x000 => pack [bitAt 0 a.fixed, bitAt 1 a.rampEn, bitAt 32 a.throttled, bitAt 33 a.crit, (34, a.lastP.toNat),
      bitAt 36 a.stale, (48, a.lastE.toNat)]
  | 0x008 => pack [(0, a.budget.toNat), (32, a.cap.toNat), (48, a.fallback.toNat)]
  | 0x010 => pack [(0, a.rampFloor.toNat), (16, a.gateWaitMs.toNat), (32, a.tjHot.toNat), (40, a.tjCrit.toNat),
      (48, a.throttleNum.toNat), (52, a.forceDrainUs.toNat)]
  | 0x018 => pack [(0, 16), (8, 20), (16, 8), (24, 6), (32, 6), (40, 2), (48, 2)]
  | 0x100 => a.phaseBeats[0]
  | 0x108 => a.phaseBeats[1]
  | 0x110 => a.phaseBeats[2]
  | 0x118 => a.phaseBeats[3]
  | 0x120 => a.throttleBeats
  | 0x128 => pack [(0, a.declPeak.toNat)]
  | 0x200 => pack [(0, a.domSel.toNat), (6, a.domTarget.toNat), bitAt 8 s.domBusy, (9, a.domResult.toNat)]
  | 0x400 => pack [(0, a.targetMv[0].toNat), (16, a.readMv[0].toNat), (32, a.targetMv[1].toNat), (48, a.readMv[1].toNat)]
  | 0x408 => pack [(0, a.vmin.toNat), (16, a.vmax.toNat)]
  | _ =>
    if 0x300 ≤ o ∧ o < 0x390 then
      let d := (o - 0x300) / 4
      pack [(0, (s.domain d).word), (32, (s.domain (d + 1)).word)]
    else 0

/-! ## HOSTQ (chapter 13) -/

def State.hostqSlot (s : State) (n : FuncNo) (o : Nat) : BitVec 64 :=
  let u := s.global.funcs[n]
  let h := s.hostq.fns[n]
  match o with
  | 0x00 => pack [bitAt 0 u.enable, bitAt 1 u.resetting, bitAt 2 u.wiping, bitAt 8 h.qerr, (16, h.qerrSq.toNat)]
  | 0x08 => u.frames
  | 0x10 => pack [(0, u.streamFirst.toNat), (20, u.streamCount.toNat)]
  | 0x18 => pack [(28, u.memSize.toNat)]
  | 0x4000 => h.records
  | 0x4008 => h.completions
  | 0x4010 => h.launches
  | 0x4018 => h.frameBeats
  | 0x4020 => h.cqFull
  | _ =>
    if 0x1000 ≤ o ∧ o < 0x1800 then
      let q := h.sqs[(o - 0x1000) / 32 % 64]'(Nat.mod_lt _ (by decide))
      match o % 32 with
      | 0 => pack [(12, q.base.toNat)]
      | 8 => pack [(0, q.sizeM1.toNat), (16, q.cqid.toNat), bitAt 24 q.enable, (32, q.head.toNat),
          bitAt 48 q.error, (49, q.cause.toNat)]
      | _ => 0
    else if 0x2000 ≤ o ∧ o < 0x2800 then
      let q := h.cqs[(o - 0x2000) / 32 % 64]'(Nat.mod_lt _ (by decide))
      match o % 32 with
      | 0 => pack [(12, q.base.toNat)]
      | 8 => pack [(0, q.sizeM1.toNat), bitAt 16 q.enable, bitAt 17 q.ien, (18, q.vector.toNat),
          (32, q.coalCount.toNat), (40, q.coalTimeUs.toNat)]
      | 16 => pack [(0, q.tail.toNat), bitAt 16 q.phase, bitAt 17 q.full]
      | _ => 0
    else 0

/-! ## MEMC and MAS (chapter 11) -/

/-- A wipe runs at a memory port: one of the lines it covers lies there (R361, R370). -/
def State.portWiping (s : State) (p : Fin 16) : Bool :=
  s.memc.wipes.any fun w => spanAt s.granule p.val w.base w.size != 0

def State.memcSlot (s : State) (p : Fin 16) (o : Nat) : BitVec 64 :=
  let m := s.memc.ports[p]
  let c := s.memc
  match o with
  | 0x00 => pack [(0, m.rate.toNat), (3, m.density.toNat), bitAt 5 m.ranks, (6, m.granule.toNat), bitAt 32 m.trained,
      bitAt 33 m.retraining, (34, m.refresh.toNat), bitAt 37 (s.portWiping p), bitAt 38 m.scrubbing]
  | 0x08 => pack [(0, m.p0max.toNat), (8, m.p3min.toNat), (16, m.w1.toNat), (20, m.w2.toNat)]
  | 0x10 => pack [(0, m.ce.toNat), (32, m.ue.toNat)]
  | 0x18 => pack [(11, m.eccLine.toNat)]
  | 0x20 => pack [(0, m.periodH.toNat), (16, m.passes.toNat)]
  | 0x28 => m.bytes[0]
  | 0x30 => m.bytes[1]
  | 0x38 => m.bytes[2]
  | 0x40 => m.bytes[3]
  | _ =>
    if p.val ≠ 0 then 0 else
    match o with
    | 0x8000 => pack [(11, c.wipeBase.toNat)]
    | 0x8008 => pack [(11, c.wipeSize.toNat)]
    | 0x8010 => pack [bitAt 1 (!c.wipes.isEmpty), (2, c.wipeResult.toNat), (16, c.holdLimit.toNat)]
    | 0x8018 => c.wipeDone
    | _ => 0

/-- A shape in the format of MAS_L_SHAPE. -/
def Shape.slot (h : Shape) : BitVec 64 :=
  pack [(0, h.logN.toNat), (8, h.level.toNat), (16, h.capacity.toNat), (24, h.comps.toNat), (28, h.scheme.toNat),
    (32, h.pset.toNat), (48, h.objects.toNat)]

def State.masSlot (s : State) (o : Nat) : BitVec 64 :=
  if o = 0 then pack [(0, s.mas.voteTimeout.toNat), (32, s.mas.irqVector.toNat), bitAt 43 s.mas.irqIen]
  else if 0x1000 ≤ o ∧ o < 0x3000 then
    let l := s.mas.layers[(o - 0x1000) / 128 % 64]'(Nat.mod_lt _ (by decide))
    match o % 128 with
    | 0x00 => pack [(11, l.wBase.toNat)]
    | 0x08 => pack [(11, l.mBase.toNat)]
    | 0x10 => l.shape.slot
    | 0x18 => pack [(0, l.scaleW.toNat), (32, l.scaleM.toNat), (52, l.cfrac.toNat)]
    | 0x20 => l.beta
    | 0x28 => l.eta
    | 0x30 => l.steps
    | 0x38 => pack [(0, l.shards.toNat), (16, l.rset.toNat)]
    | 0x40 => pack [(0, l.state.num), bitAt 3 l.etaValid, (4, l.result.toNat), (16, l.lastCode.toNat)]
    | 0x48 => l.linesIn
    | 0x50 => l.dropped
    | 0x58 => l.lastC
    | _ => 0
  else 0

/-! ## CARRY (chapter 12) -/

def State.portSlot (s : State) (p : Fin 8) (o : Nat) : BitVec 64 :=
  let q := s.carry.ports[p]
  match o with
  | 0x000 => pack [(0, q.role.toNat), bitAt 4 q.enable, bitAt 5 (q.spareArm || s.profL), bitAt 6 q.fullOnly,
      (32, q.state.num), bitAt 36 q.width16, (37, q.sparesUsed.toNat), bitAt 39 s.profL, (40, q.peerRole.toNat),
      (44, q.peerDev.toNat), bitAt 56 q.identFail]
  | 0x008 => pack [(0, q.lanes.toNat)]
  | 0x010 => pack [(0, q.lanesFailed.toNat)]
  | 0x018 => pack [bitAt 2 q.pingDone]
  | 0x100 => q.flitsTx
  | 0x108 => q.flitsRx
  | 0x110 => q.fecCorr
  | 0x118 => q.fecUncorr
  | 0x120 => q.checkFail
  | 0x128 => q.replays
  | 0x130 => q.retrains
  | 0x138 => q.laneSwaps
  | 0x140 => q.dropped
  | 0x200 => q.times[0]
  | 0x208 => q.times[1]
  | 0x210 => q.times[2]
  | 0x218 => q.times[3]
  | _ => 0

/-- One slot of the registers of instance 0 (Table 12.13). -/
def State.carrySlot (s : State) (o : Nat) : BitVec 64 :=
  let c := s.carry
  match o with
  | 0x10000 => pack [(0, c.dxM1.toNat), (4, c.dyM1.toNat), (8, c.dzM1.toNat), (12, c.closed.toNat), (16, c.expDim.toNat),
      (20, c.expStride.toNat), (32, c.devnum.toNat)]
  | 0x10008 => pack [bitAt 0 c.bypass, bitAt 1 s.inBypass, (8, c.ackTimeoutUs.toNat), (32, c.linkHoldMs.toNat),
      (48, c.redTimeoutUs.toNat)]
  | _ =>
    if 0x11000 ≤ o ∧ o < 0x12000 then
      let r := c.sets[(o - 0x11000) / 64 % 64]'(Nat.mod_lt _ (by decide))
      match o % 64 with
      | 0x00 => pack [bitAt 0 r.vote, (1, r.parent.toNat), (5, r.children.toNat), (13, r.locals.toNat),
          (20, r.doneFrame.toNat), (26, r.doneFlag.toNat), bitAt 34 r.doneEn]
      | 0x08 => r.shape.slot
      | 0x10 => pack [(11, r.contrib.toNat)]
      | 0x18 => pack [(11, r.deliver.toNat)]
      | 0x20 => pack [(11, r.area.toNat)]
      | 0x28 => pack [bitAt 2 r.armed, (4, r.result.toNat)]
      | 0x30 => r.rounds
      | 0x38 => pack [(0, (r.lines.filter (·.started)).length)]
      | _ => 0
    else 0

/-! ## LNE and MGMT (chapter 16) -/

def State.lneSlot (s : State) (o : Nat) : BitVec 64 :=
  let l := s.lne
  match o with
  | 0x0 => pack [(0, l.op.toNat), (8, l.lenW.toNat), (16, l.msgLen.toNat), bitAt 32 l.busy, bitAt 33 l.pending,
      bitAt 34 l.done, (35, l.result.toNat), bitAt 38 l.valid, bitAt 39 l.loaded]
  | 0x8 => pack [(0, l.tNs.toNat), (32, l.mcVersion.toNat), (48, l.mcSvn.toNat)]
  | _ =>
    if 0x1000 ≤ o ∧ o < 0x3000 then
      ((l.bank[(o - 0x1000) / 1024 % 8]'(Nat.mod_lt _ (by decide))) >>> (o % 1024 * 8)).setWidth 64
    else if 0x4000 ≤ o ∧ o < 0x4400 then
      let x := l.sessions[(o - 0x4000) / 16 % 64]'(Nat.mod_lt _ (by decide))
      if o % 16 = 0 then pack [bitAt 0 x.valid, bitAt 1 x.role, (2, x.owner.toNat)] else x.counter
    else 0

/-- One word of MGMT_SENSOR_i: VALUE is the low 16 bits of the reading. -/
def Sensor.word (x : Sensor) : Nat := (x.value % 65536).toNat + boolBit x.valid * 2 ^ 16 + boolBit x.warn * 2 ^ 17

def State.sensorWord (s : State) (i : Nat) : Nat := if h : i < 189 then (s.sensor ⟨i, h⟩).word else 0

/-- The bytes of the mailbox buffer; bytes past the end of the data are zero. -/
def Mailbox.byte (b : Mailbox) (i : Nat) : Byte := b.data.getD i 0

def State.mgmtSlot (s : State) (o : Nat) : BitVec 64 :=
  let m := s.mgmt
  let b := m.mb[0]
  match o with
  | 0x00 => pack [(0, b.opcode.toNat), (8, b.len.toNat), bitAt 24 b.ien, bitAt 32 b.busy, bitAt 33 b.done,
      (34, b.result.toNat), (40, b.rlen.toNat)]
  | 0x08 => pack [(0, m.mbVector.toNat)]
  | 0x10 => pack [bitAt 0 m.alive, bitAt 1 s.global.fault.restarting, bitAt 2 m.fwSlot, bitAt 3 m.trial]
  | 0x18 => pack [(0, m.minSeverity.toNat), bitAt 2 m.logIen, (16, m.logVector.toNat), (32, m.logSeq.toNat)]
  | _ =>
    if 0x1000 ≤ o ∧ o < 0x1400 then
      let i := (o - 0x1000) / 4
      pack [(0, s.sensorWord i), (32, s.sensorWord (i + 1))]
    else if 0x2000 ≤ o ∧ o < 0x3000 then
      BitVec.ofNat 64 (bytesToNat ((List.range 8).map fun k => b.byte (o - 0x2000 + k)))
    else 0

/-! ## FRM (chapters 5, 7, 9, 10, 11, 15) -/

/-- The releases of a Feeder of a frame whose update is not yet applied (FRM_ORDER_STATUS). -/
def State.relPend (s : State) (f : FrameNo) (k : Nat) : Nat :=
  (s.xfers.filter fun x => x.kind == .rel && x.frame == f.val && x.feeder == k).length

/-- FRM_SEQ_PC: the ring word offset of the next word to issue (R251). -/
def Frame.pc (fr : Frame) : Nat :=
  let len := fr.seq.qringSize.toNat * 4096
  if len = 0 then 0 else (fr.rn.qoffset + fr.rn.word) % len

/-- The region in slot `i` of a frame. -/
def Frame.inSlot (fr : Frame) (i : Nat) : Option Region := fr.regions.find? (·.slot == i)

/-- One slot of FRM_REGION_i. -/
def regionSlot (r : Region) (hi : Bool) : BitVec 64 :=
  if hi then pack [(0, r.tail.toNat), (32, r.originRow), (48, r.sizeRows)]
  else pack [(0, r.number), bitAt 8 true, bitAt 9 r.resident, bitAt 10 r.isSealed, bitAt 11 r.keyring, bitAt 12 r.remote,
    bitAt 13 r.overrun, (16, r.owner), (32, r.head.toNat)]

def State.frmSlot (s : State) (f : FrameNo) (o : Nat) : BitVec 64 :=
  let fr := s.frame f
  let q := fr.seq
  let r := fr.reg
  match o with
  | 0x00000 => pack [(16, q.qringBase.toNat)]
  | 0x00008 => pack [(0, q.qringSize.toNat)]
  | 0x00010 => pack [(0, q.state.num), bitAt 3 q.floating, (8, q.waitFlag.toNat)]
  | 0x00018 => pack [(0, fr.pc)]
  | 0x00020 => q.pbeat
  | 0x00028 => pack [(0, q.stopBeat.toNat), bitAt 48 q.stopArm, bitAt 49 q.stopHit, bitAt 50 q.stopMissed]
  | 0x00030 => pack [(0, q.phys.toNat), (6, q.domain.toNat)]
  | 0x01000 => pack [(0, r.laneSticky.toNat), (8, r.laneLast.toNat)]
  | 0x08000 => pack [(0, r.regNumber.toNat), bitAt 9 r.regBusy, (10, r.regResult.toNat)]
  | 0x0A000 => pack [(11, r.xferAddr.toNat)]
  | 0x0A008 => pack [(0, r.xferFirst.toNat), (16, r.xferRows.toNat), bitAt 29 r.xferDir]
  | 0x0A010 => pack [bitAt 0 r.spadBusy, bitAt 1 r.wiping, (2, r.spadResult.toNat)]
  | 0x0B000 => r.rrcHits
  | 0x0B008 => r.rrcMisses
  | 0x0B010 => pack [(0, s.relPend f 0), (5, s.relPend f 1), (10, s.relPend f 2), (15, s.relPend f 3), bitAt 20 r.suppressed]
  | 0x0B018 => pack [(0, r.flagRefused.toNat)]
  | 0x0C000 => pack [(0, r.splitRead.toNat), (4, r.splitWrite.toNat), (8, r.splitRemote.toNat)]
  | 0x0D000 => pack [(0, r.checkFails.toNat), bitAt 6 r.remapBusy, (7, r.remapResult.toNat), (10, r.fenceCause.toNat),
      (12, r.spadCe.toNat)]
  | _ =>
    if 0x2000 ≤ o ∧ o < 0x2100 then
      let x := fr.scalars[(o - 0x2000) / 8 % 32]'(Nat.mod_lt _ (by decide))
      pack [(0, x.value.toNat), bitAt 32 x.poison.isSome]
    else if 0x4000 ≤ o ∧ o < 0x4400 then
      let i := (o - 0x4000) / 4 % 256
      pack [(0, (fr.flags[i]'(Nat.mod_lt _ (by decide))).toNat), (32, (fr.flags[(i + 1) % 256]'(Nat.mod_lt _ (by decide))).toNat)]
    else if 0x8100 ≤ o ∧ o < 0x8500 then
      match fr.inSlot ((o - 0x8100) / 16) with
      | some g => regionSlot g (o % 16 == 8)
      | none => 0
    else if 0x9000 ≤ o ∧ o < 0x9800 then
      match fr.inSlot ((o - 0x9000) / 32) with
      | some g =>
        match g.credits[(o - 0x9000) / 8 % 4]? with
        | some c => pack [(0, c.dev), (12, c.frame), bitAt 24 true, (32, c.rows)]
        | none => 0
      | none => 0
    else if 0x10000 ≤ o ∧ o < 0x18000 then
      match fr.rn.dtab[(o - 0x10000) / 64]? with
      | some d => BitVec.ofNat 64 (encodeDesc d / 2 ^ (o % 64 * 8))
      | none => 0
    else 0

/-! ## The whole of PF BAR0 (R33, Table 1.5) -/

/-- The block an offset of PF BAR0 lies in, with the offset within it. -/
inductive Blk where
  | global (o : Nat) | tally (o : Nat) | adm (o : Nat) | hostq (n : FuncNo) (o : Nat) | memc (p : Fin 16) (o : Nat)
  | mas (o : Nat) | port (p : Fin 8) (o : Nat) | carry (o : Nat) | lne (o : Nat) | mgmt (o : Nat) | frm (f : FrameNo) (o : Nat)
  | none
deriving DecidableEq, Repr

def blkOf (o : Nat) : Blk :=
  if o < 0x100000 then .global o
  else if o < 0x200000 then .tally (o - 0x100000)
  else if o < 0x300000 then .adm (o - 0x200000)
  else if 0x400000 ≤ o ∧ o < 0x800000 then
    let r := (o - 0x400000) % 0x10000
    if r < 0x8000 then .hostq ⟨(o - 0x400000) / 0x10000 % 64, Nat.mod_lt _ (by decide)⟩ r else .none
  else if 0x800000 ≤ o ∧ o < 0x900000 then
    .memc ⟨(o - 0x800000) / 0x10000 % 16, Nat.mod_lt _ (by decide)⟩ ((o - 0x800000) % 0x10000)
  else if 0xA00000 ≤ o ∧ o < 0xB00000 then .mas (o - 0xA00000)
  else if 0xC00000 ≤ o ∧ o < 0xD00000 then
    let r := (o - 0xC00000) % 0x20000
    let p := (o - 0xC00000) / 0x20000 % 8
    if r < 0x10000 then .port ⟨p, Nat.mod_lt _ (by decide)⟩ r else if p = 0 then .carry r else .none
  else if 0xE00000 ≤ o ∧ o < 0xF00000 then .lne (o - 0xE00000)
  else if 0xF00000 ≤ o ∧ o < 0x1000000 then .mgmt (o - 0xF00000)
  else if 0x1000000 ≤ o ∧ o < 0x5000000 then
    .frm ⟨(o - 0x1000000) / 0x100000 % 64, Nat.mod_lt _ (by decide)⟩ ((o - 0x1000000) % 0x100000)
  else .none

/-- What the slot at an offset of PF BAR0, a multiple of 8, reads. -/
def State.slotVal (s : State) (o : Nat) : BitVec 64 :=
  match blkOf o with
  | .global o => s.globalSlot o
  | .tally o => s.tallySlot o
  | .adm o => s.admitSlot o
  | .hostq n o => s.hostqSlot n o
  | .memc p o => s.memcSlot p o
  | .mas o => s.masSlot o
  | .port p o => s.portSlot p o
  | .carry o => s.carrySlot o
  | .lne o => s.lneSlot o
  | .mgmt o => s.mgmtSlot o
  | .frm f o => s.frmSlot f o
  | .none => 0

end Sys2Proof.Machine
end

