-- ==== Sys2Proof/Machine/RegWrite.lean ====
section
/-!
DEFINITION. What a write does to the fields of each register that have no command of their own (R8 to R11), by
64-bit slot; and what a read clears (RC fields) or latches (R62).
-/

namespace Sys2Proof.Machine

open Sys2Proof

/-- A write of part of a slot: the bits written and their values. -/
structure Wr where
  m : BitVec 64
  v : BitVec 64
deriving DecidableEq, Repr

/-- A RW field at bit `lo`: the bits the write does not cover keep their value. -/
def Wr.fld {w : Nat} (x : Wr) (lo : Nat) (old : BitVec w) : BitVec w :=
  ((((old.setWidth 64) <<< lo &&& ~~~x.m) ||| (x.v &&& x.m)) >>> lo).setWidth w

/-- A RW field that keeps its value on a write of an encoding it reserves (R11). -/
def Wr.ok {w : Nat} (x : Wr) (lo : Nat) (old : BitVec w) (allowed : Nat → Bool) : BitVec w :=
  if allowed (x.fld lo old).toNat then x.fld lo old else old

/-- A RW bit. -/
def Wr.bit (x : Wr) (lo : Nat) (old : Bool) : Bool := if x.m.getLsbD lo then x.v.getLsbD lo else old

/-- A bit written as 1. -/
def Wr.one (x : Wr) (lo : Nat) : Bool := x.m.getLsbD lo && x.v.getLsbD lo

/-- A W1C bit. -/
def Wr.w1c (x : Wr) (lo : Nat) (old : Bool) : Bool := old && !x.one lo

/-- Not zero: the encoding 0 is reserved. -/
def nonzero (n : Nat) : Bool := n != 0

/-- A value in a range. -/
def between (lo hi n : Nat) : Bool := lo ≤ n && n ≤ hi

/-! ## GLOBAL -/

/-- GLOBAL_FUNC_n: FRAMES, MEM_BASE, MEM_SIZE, STREAMS and LIMITS are writable only while ENABLE is 0 (R423). -/
def Func.write (u : Func) (o : Nat) (x : Wr) : Func :=
  if u.enable then u else
  match o with
  | 0x00 => { u with frames := x.fld 0 u.frames }
  | 0x08 => { u with memBase := x.fld 28 u.memBase }
  | 0x10 => { u with memSize := x.fld 28 u.memSize }
  | 0x18 => { u with streamFirst := x.fld 0 u.streamFirst, streamCount := x.fld 20 u.streamCount }
  | 0x20 => { u with
      sqMax := x.fld 0 u.sqMax, cqMax := x.fld 8 u.cqMax, progMax := x.fld 16 u.progMax
      carryAccept := x.ok 28 u.carryAccept (· != 3) }
  | _ => u

/-- The fault registers. ENABLE written to 1 sets head and tail to 0 and starts notices; the base is writable
only while ENABLE is 0 (Table 15.5, R491). -/
def FaultRegs.write (r : FaultRegs) (o : Nat) (x : Wr) : FaultRegs :=
  match o with
  | 0x08 => if r.ringEn then r else { r with ringBase := x.fld 12 r.ringBase }
  | 0x10 =>
    let r := { r with sizeM1 := x.ok 0 r.sizeM1 nonzero, vector := x.fld 17 r.vector, ien := x.bit 28 r.ien, ringEn := x.bit 16 r.ringEn }
    if x.one 16 then { r with head := 0, tail := 0, phase := true } else r
  | 0x28 => { r with checkLimit := x.fld 0 r.checkLimit }
  | _ => r

/-- The staging registers of the prime table and the seal windows; the prime registers ignore writes while a commit
runs (R83). A window's SIZE 0, which its field calls reserved and has SET refuse with RANGE, is stored (log entry 38). -/
def Global.tableWrite (g : Global) (o : Nat) (x : Wr) : Global :=
  match o with
  | 0x60000 => { g with sealBase := x.fld 16 g.sealBase }
  | 0x60008 => { g with
      sealIndex := x.fld 0 g.sealIndex, sealOwner := x.fld 8 g.sealOwner, sealOp := x.bit 16 g.sealOp
      sealSize := x.fld 32 g.sealSize }
  | 0x70000 => if g.primeBusy then g else { g with stageQ := x.fld 0 g.stageQ, stageRoot := x.fld 32 g.stageRoot }
  | 0x70008 => if g.primeBusy then g else { g with primeIndex := x.fld 0 g.primeIndex, primeRootLog := x.fld 8 g.primeRootLog }
  | _ => g

/-- A write to a function's MSI-X table. A vector unmasked with its pending bit set is signalled, and the bit clears
(the MSI-X rules of R445). -/
def State.msixWrite (s : State) (n : FuncNo) (o : Nat) (x : Wr) : State :=
  let h := s.hostq.fns[n]
  let k := o / 16
  let e := (alGet h.msix k).getD {}
  let e' : Msix := if o % 16 = 0 then { e with addr := x.fld 0 e.addr &&& ~~~3 }
    else { e with data := x.fld 0 e.data, mask := x.bit 32 e.mask }
  let s := s.updHostFn n fun h => { h with msix := if e' = {} then alErase h.msix k else alSet h.msix k e' }
  if !e'.mask && h.pba.contains k then
    (s.updHostFn n fun h => { h with pba := h.pba.filter (· != k) }).signal n k
  else s

def State.globalWrite (s : State) (o : Nat) (x : Wr) : State :=
  let g := s.global
  if o = 0x18 then { s with global := { g with bar2Base := x.fld 28 g.bar2Base } }
  else if 0x10000 ≤ o ∧ o < 0x11000 then
    let n : FuncNo := ⟨(o - 0x10000) / 64 % 64, Nat.mod_lt _ (by decide)⟩
    { s with global := { g with funcs := g.funcs.set n (g.funcs[n].write (o % 64) x) } }
  else if o = 0x20000 then
    if g.funcs.toList.any (·.enable) then s else { s with global := { g with streamBase := x.fld 26 g.streamBase } }
  else if 0x50000 ≤ o ∧ o < 0x50140 then { s with global := { g with fault := g.fault.write (o - 0x50000) x } }
  else if 0xC0000 ≤ o ∧ o < 0xC8000 then s.msixWrite 0 (o - 0xC0000) x
  else { s with global := g.tableWrite o x }

/-! ## TALLY and ADMIT -/

def State.tallyWrite (s : State) (o : Nat) (x : Wr) : State :=
  let t := s.tally
  let free := t.gstate == .none
  let t : Tally := match o with
    | 0x000 => { t with
        markDone := x.w1c 36 t.markDone, markMissed := x.w1c 37 t.markMissed
        watchdogFired := x.w1c 38 t.watchdogFired, junctionExpired := x.w1c 39 t.junctionExpired }
    | 0x008 => { t with beatFloor := x.ok 0 t.beatFloor (24 ≤ ·) }
    | 0x200 => if free then { t with
        j := x.ok 0 t.j (between 16 4096), memberIndex := x.fld 32 t.memberIndex, membersM1 := x.fld 36 t.membersM1
        groupId := x.fld 40 t.groupId, portUp := x.fld 48 t.portUp, portDown := x.fld 52 t.portDown
        closed := x.bit 56 t.closed } else t
    | 0x218 => { t with timeoutUs := x.ok 0 t.timeoutUs nonzero }
    | 0x308 => { t with tbSet := x.fld 0 t.tbSet }
    | 0x310 => { t with
        syncMode := x.ok 0 t.syncMode (· < 2), syncOutMode := x.ok 4 t.syncOutMode (· < 3)
        period := x.ok 32 t.period nonzero
        lastPulse := if x.m.getLsbD 4 || x.m.getLsbD 32 then t.tb else t.lastPulse }
    -- bits [63:32] are MARK_ARM's
    | 0x400 => { t with markBeat := { x with m := x.m &&& 0xFFFFFFFF : Wr }.fld 0 t.markBeat }
    | _ => t
  { s with tally := t }

/-- ADMIT_THERMAL: a write that would put TJ_CRIT outside TJ_HOT + 1 to 112 is ignored as a whole. -/
def Admit.thermalWrite (a : Admit) (x : Wr) : Admit :=
  let hot := x.ok 32 a.tjHot (between 85 105)
  let crit := x.fld 40 a.tjCrit
  if hot.toNat < crit.toNat ∧ crit.toNat ≤ 112 then
    { a with tjHot := hot, tjCrit := crit, throttleNum := x.ok 48 a.throttleNum nonzero, forceDrainUs := x.ok 52 a.forceDrainUs nonzero }
  else a

def State.admitWrite (s : State) (o : Nat) (x : Wr) : State :=
  let a := s.adm
  let a : Admit := match o with
    | 0x000 => { a with fixed := x.bit 0 a.fixed, rampEn := x.bit 1 a.rampEn, crit := x.w1c 33 a.crit }
    | 0x008 => { a with cap := x.ok 32 a.cap (256 ≤ ·), fallback := x.ok 48 a.fallback (256 ≤ ·) }
    | 0x010 => ({ a with rampFloor := x.ok 0 a.rampFloor nonzero, gateWaitMs := x.ok 16 a.gateWaitMs nonzero } : Admit).thermalWrite x
    | 0x200 => { a with domSel := x.ok 0 a.domSel (· < 36), domTarget := x.ok 6 a.domTarget (· < 3) }
    | 0x408 =>
      let lo := x.fld 0 a.vmin
      let hi := x.fld 16 a.vmax
      if 600 ≤ lo.toNat ∧ lo.toNat ≤ hi.toNat ∧ hi.toNat ≤ 850 then { a with vmin := lo, vmax := hi } else a
    | _ => a
  { s with adm := a }

/-! ## HOSTQ: fields other than ENABLE and the doorbells are writable only while the queue is disabled (R430) -/

def Sq.write (q : Sq) (o : Nat) (x : Wr) : Sq :=
  if q.enable then q else
  match o with
  | 0 => { q with base := x.fld 12 q.base }
  | 8 => { q with sizeM1 := x.ok 0 q.sizeM1 nonzero, cqid := x.fld 16 q.cqid }
  | _ => q

def Cq.write (q : Cq) (pf : Bool) (o : Nat) (x : Wr) : Cq :=
  if q.enable then q else
  match o with
  | 0 => { q with base := x.fld 12 q.base }
  | 8 => { q with
      sizeM1 := x.ok 0 q.sizeM1 nonzero, ien := x.bit 17 q.ien, vector := x.ok 18 q.vector fun v => pf || v < 32
      coalCount := x.fld 32 q.coalCount, coalTimeUs := x.fld 40 q.coalTimeUs }
  | _ => q

def State.hostqWrite (s : State) (n : FuncNo) (o : Nat) (x : Wr) : State :=
  if o = 0 then s.updHostFn n fun h => { h with qerr := x.w1c 8 h.qerr }
  else if 0x1000 ≤ o ∧ o < 0x1800 then
    let q : Fin 64 := ⟨(o - 0x1000) / 32 % 64, Nat.mod_lt _ (by decide)⟩
    s.updSq n q fun y => y.write (o % 32) x
  else if 0x2000 ≤ o ∧ o < 0x2800 then
    let q : Fin 64 := ⟨(o - 0x2000) / 32 % 64, Nat.mod_lt _ (by decide)⟩
    s.updCq n q fun y => y.write (n == 0) (o % 32) x
  else s

/-! ## MEMC and MAS -/

def MemPort.write (m : MemPort) (o : Nat) (x : Wr) : MemPort :=
  match o with
  | 0x08 => { m with
      p0max := x.ok 0 m.p0max (between 1 64), p3min := x.ok 8 m.p3min (· ≤ 16), w1 := x.ok 16 m.w1 nonzero
      w2 := x.ok 20 m.w2 nonzero }
  | 0x20 => { m with periodH := x.fld 0 m.periodH }
  | _ => m

def State.memcWrite (s : State) (p : Fin 16) (o : Nat) (x : Wr) : State :=
  let c := s.memc
  if o < 0x8000 then { s with memc := { c with ports := c.ports.set p (c.ports[p].write o x) } }
  else if p.val ≠ 0 then s
  else { s with memc := match o with
    | 0x8000 => { c with wipeBase := x.fld 11 c.wipeBase }
    | 0x8008 => { c with wipeSize := x.fld 11 c.wipeSize }
    | 0x8010 => { c with holdLimit := x.ok 16 c.holdLimit nonzero }
    | _ => c }

/-- A write in the format of MAS_L_SHAPE, whose zero-reserved fields keep their value on a zero (R11, R17). -/
def Shape.write (h : Shape) (x : Wr) : Shape := {
  logN := x.ok 0 h.logN nonzero, level := x.ok 8 h.level nonzero, capacity := x.ok 16 h.capacity nonzero
  comps := x.fld 24 h.comps, scheme := x.fld 28 h.scheme, pset := x.ok 32 h.pset nonzero
  objects := x.ok 48 h.objects nonzero }

/-- A layer's registers: all but MAS_L_ETA and MAS_L_STEPS are writable only while it is IDLE (R373). -/
def Layer.write (l : Layer) (o : Nat) (x : Wr) : Layer :=
  if l.state ≠ .idle then l else
  match o with
  | 0x00 => { l with wBase := x.fld 11 l.wBase }
  | 0x08 => { l with mBase := x.fld 11 l.mBase }
  | 0x10 => { l with shape := l.shape.write x }
  | 0x18 => { l with scaleW := x.fld 0 l.scaleW, scaleM := x.fld 32 l.scaleM, cfrac := x.fld 52 l.cfrac }
  | 0x20 => { l with beta := x.fld 0 l.beta }
  | 0x38 => { l with shards := x.ok 0 l.shards nonzero, rset := x.fld 16 l.rset }
  | _ => l

def State.masWrite (s : State) (o : Nat) (x : Wr) : State :=
  let m := s.mas
  if o = 0 then { s with mas := { m with
    voteTimeout := x.ok 0 m.voteTimeout nonzero, irqVector := x.fld 32 m.irqVector, irqIen := x.bit 43 m.irqIen } }
  else if 0x1000 ≤ o ∧ o < 0x3000 then
    let i : Fin 64 := ⟨(o - 0x1000) / 128 % 64, Nat.mod_lt _ (by decide)⟩
    s.updLayer i fun l => l.write (o % 128) x
  else s

/-! ## CARRY -/

def State.portWrite (s : State) (p : Fin 8) (o : Nat) (x : Wr) : State :=
  match o with
  | 0x00 => s.updPort p fun q => { q with
      spareArm := if s.profL then q.spareArm else x.bit 5 q.spareArm, fullOnly := x.bit 6 q.fullOnly }
  | 0x10 => s.updPort p fun q => { q with lanesFailed := q.lanesFailed &&& ~~~((x.m &&& x.v).setWidth 34) }
  | 0x18 => s.updPort p fun q => { q with pingDone := x.w1c 2 q.pingDone }
  | _ => s

/-- A reduction set's registers are writable only while it is IDLE. -/
def RSet.write (r : RSet) (o : Nat) (x : Wr) : RSet :=
  if r.armed then r else
  match o with
  | 0x00 => { r with
      vote := x.bit 0 r.vote, parent := x.ok 1 r.parent (· < 9), children := x.fld 5 r.children, locals := x.fld 13 r.locals
      doneFrame := x.fld 20 r.doneFrame, doneFlag := x.fld 26 r.doneFlag, doneEn := x.bit 34 r.doneEn }
  | 0x08 => { r with shape := { r.shape.write x with scheme := r.shape.scheme } }
  | 0x10 => { r with contrib := x.fld 11 r.contrib }
  | 0x18 => { r with deliver := x.fld 11 r.deliver }
  | 0x20 => { r with area := x.fld 11 r.area }
  | _ => r

def State.carryWrite (s : State) (o : Nat) (x : Wr) : State :=
  let c := s.carry
  if o = 0x10008 then { s with carry := { c with
    ackTimeoutUs := x.ok 8 c.ackTimeoutUs nonzero, linkHoldMs := x.ok 32 c.linkHoldMs nonzero
    redTimeoutUs := x.ok 48 c.redTimeoutUs nonzero } }
  else if 0x11000 ≤ o ∧ o < 0x12000 then s.updSet ((o - 0x11000) / 64) fun r => r.write (o % 64) x
  else s

/-! ## LNE and MGMT -/

/-- The LNE's registers; the operand bank ignores writes while BUSY or PENDING (R524). -/
def State.lneWrite (s : State) (o : Nat) (x : Wr) : State :=
  let l := s.lne
  if o = 0 then { s with lne := { l with
    op := x.fld 0 l.op, lenW := x.fld 8 l.lenW, msgLen := x.fld 16 l.msgLen, done := x.w1c 34 l.done } }
  else if 0x1000 ≤ o ∧ o < 0x3000 ∧ !l.busy ∧ !l.pending then
    let k : Fin 8 := ⟨(o - 0x1000) / 1024 % 8, Nat.mod_lt _ (by decide)⟩
    let sh := o % 1024 * 8
    let m := x.m.setWidth 8192 <<< sh
    { s with lne := { l with bank := l.bank.set k ((l.bank[k] &&& ~~~m) ||| (x.v.setWidth 8192 <<< sh &&& m)) } }
  else s

/-- Eight bytes of the mailbox buffer as a write leaves them. -/
def Mailbox.write (b : Mailbox) (o : Nat) (x : Wr) : Mailbox :=
  let all := b.data ++ List.replicate (o + 8 - b.data.length) 0
  let new := (List.range 8).map fun k => x.fld (8 * k) (all.getD (o + k) 0)
  { b with data := all.take o ++ new ++ all.drop (o + 8) }

/-- The MGMT registers; MGMT_MB_CTRL and MGMT_MB_DATA ignore writes while BUSY (R512). GO starts the command
(R510). -/
def State.mgmtWrite (s : State) (o : Nat) (x : Wr) : State :=
  let m := s.mgmt
  let b := m.mb[0]
  if o = 0 then
    let b := if b.busy then b else { b with opcode := x.fld 0 b.opcode, len := x.fld 8 b.len, ien := x.bit 24 b.ien }
    let s := { s with mgmt := { m with mb := m.mb.set 0 { b with done := x.w1c 33 b.done } } }
    if x.one 31 then s.go 0 else s
  else if o = 0x08 then { s with mgmt := { m with mbVector := x.fld 0 m.mbVector } }
  else if o = 0x18 then { s with mgmt := { m with
    minSeverity := x.fld 0 m.minSeverity, logIen := x.bit 2 m.logIen, logVector := x.fld 16 m.logVector } }
  else if 0x2000 ≤ o ∧ o < 0x3000 ∧ !b.busy then
    { s with mgmt := { m with mb := m.mb.set 0 (b.write (o - 0x2000) x) } }
  else s

/-! ## FRM -/

/-- A frame's registers. The queue-ring registers ignore writes while a program is loaded on the frame; a write of
FRM_BEAT_STOP without ARM disarms; weights that are not all zero and do not sum to 16 are ignored as a whole. -/
def Frame.write (fr : Frame) (loaded : Bool) (o : Nat) (x : Wr) : Frame :=
  let q := fr.seq
  let r := fr.reg
  match o with
  | 0x00000 => if loaded then fr else { fr with seq := { q with qringBase := x.fld 16 q.qringBase } }
  | 0x00008 => if loaded then fr else { fr with seq := { q with qringSize := x.ok 0 q.qringSize (between 1 4096) } }
  | 0x00028 => { fr with seq := { q with
      stopBeat := x.fld 0 q.stopBeat, stopArm := x.bit 48 q.stopArm && q.stopArm, stopHit := x.w1c 49 q.stopHit
      stopMissed := x.w1c 50 q.stopMissed } }
  | 0x08000 => { fr with reg := { r with regNumber := x.fld 0 r.regNumber } }
  | 0x0A000 => { fr with reg := { r with xferAddr := x.fld 11 r.xferAddr } }
  | 0x0A008 => { fr with reg := { r with
      xferFirst := x.fld 0 r.xferFirst, xferRows := x.fld 16 r.xferRows, xferDir := x.bit 29 r.xferDir } }
  | 0x0C000 =>
    let a := x.fld 0 r.splitRead
    let b := x.fld 4 r.splitWrite
    let c := x.fld 8 r.splitRemote
    let sum := a.toNat + b.toNat + c.toNat
    if sum = 0 ∨ sum = 16 then { fr with reg := { r with splitRead := a, splitWrite := b, splitRemote := c } } else fr
  | _ => fr

def State.frmSlotWrite (s : State) (f : FrameNo) (o : Nat) (x : Wr) : State :=
  let t := s.updFrame f fun fr => fr.write (s.frameLoaded f) o x
  -- disarming a stop takes it from the program it waits on (R253)
  if o = 0x28 ∧ x.m.getLsbD 48 ∧ !x.v.getLsbD 48 then
    match s.runOf f with
    | some r => t.updRun r.id fun r => { r with stopBeat := none }
    | none => t
  else t

/-! ## The whole of PF BAR0 -/

/-- A write to a slot of PF BAR0: the fields with no command of their own. -/
def State.slotWrite (s : State) (o : Nat) (x : Wr) : State :=
  match blkOf o with
  | .global o => s.globalWrite o x
  | .tally o => s.tallyWrite o x
  | .adm o => s.admitWrite o x
  | .hostq n o => s.hostqWrite n o x
  | .memc p o => s.memcWrite p o x
  | .mas o => s.masWrite o x
  | .port p o => s.portWrite p o x
  | .carry o => s.carryWrite o x
  | .lne o => s.lneWrite o x
  | .mgmt o => s.mgmtWrite o x
  | .frm f o => s.frmSlotWrite f o x
  | .none => s

/-- A read of a slot of PF BAR0, of the bits of a mask: RC fields clear what was read (R8, R9). -/
def State.slotRead (s : State) (o : Nat) (m : BitVec 64) : State :=
  let x : Wr := { m, v := 0 }
  let rc {w : Nat} (lo : Nat) (old : BitVec w) : BitVec w := x.fld lo old
  let g := s.global
  match blkOf o with
  | .global 0x10 => { s with global := { g with pfErrCount := rc 32 g.pfErrCount } }
  | .global 0x20008 => { s with global := { g with streamHits := rc 0 g.streamHits } }
  | .global 0x20010 => { s with global := { g with streamMisses := rc 0 g.streamMisses } }
  | .global 0x50020 => { s with global := { g with fault := { g.fault with lost := rc 0 g.fault.lost } } }
  | .adm 0x128 => { s with adm := { s.adm with declPeak := rc 0 s.adm.declPeak } }
  | .hostq n o => s.updHostFn n fun h =>
      match o with
      | 0x4000 => { h with records := rc 0 h.records }
      | 0x4008 => { h with completions := rc 0 h.completions }
      | 0x4010 => { h with launches := rc 0 h.launches }
      | 0x4018 => { h with frameBeats := rc 0 h.frameBeats }
      | 0x4020 => { h with cqFull := rc 0 h.cqFull }
      | _ => h
  | .memc p 0x10 =>
      let q := s.memc.ports[p]
      { s with memc := { s.memc with ports := s.memc.ports.set p { q with ce := rc 0 q.ce, ue := rc 32 q.ue } } }
  | .mas o =>
      if 0x1000 ≤ o ∧ o < 0x3000 then
        s.updLayer ⟨(o - 0x1000) / 128 % 64, Nat.mod_lt _ (by decide)⟩ fun l =>
          match o % 128 with
          | 0x48 => { l with linesIn := rc 0 l.linesIn }
          | 0x50 => { l with dropped := rc 0 l.dropped }
          | _ => l
      else s
  | .port p o => s.updPort p fun q =>
      match o with
      | 0x100 => { q with flitsTx := rc 0 q.flitsTx }
      | 0x108 => { q with flitsRx := rc 0 q.flitsRx }
      | 0x110 => { q with fecCorr := rc 0 q.fecCorr }
      | 0x118 => { q with fecUncorr := rc 0 q.fecUncorr }
      | 0x120 => { q with checkFail := rc 0 q.checkFail }
      | 0x128 => { q with replays := rc 0 q.replays }
      | 0x130 => { q with retrains := rc 0 q.retrains }
      | 0x138 => { q with laneSwaps := rc 0 q.laneSwaps }
      | 0x140 => { q with dropped := rc 0 q.dropped }
      | _ => q
  | .frm f 0xB018 => s.updFrame f fun fr => { fr with reg := { fr.reg with flagRefused := rc 0 fr.reg.flagRefused } }
  | _ => s

/-- What a read finds that no event of the table settles, as free values (log entry 12): MEMC_STATUS.REFRESH, the code
the DRAMs last requested through MR4, and MEMC_WIPE_DONE while a wipe is in progress, which never goes back. -/
def State.sampleRefresh (s : State) (o : Nat) (m : BitVec 64) : State :=
  match blkOf o with
  | .memc p 0x00 =>
    if !m.getLsbD 34 then s else
    let q := s.memc.ports[p]
    { s.openVal.2 with memc := { s.memc with ports := s.memc.ports.set p { q with refresh := s.openVal.1.setWidth 3 } } }
  | .memc p 0x8018 =>
    match s.memc.wipes.getLast? with
    | some w =>
      let left := w.size - s.memc.wipeDone.toNat
      if p.val ≠ 0 then s
      else { s.openVal.2 with memc := { s.memc with
        wipeDone := s.memc.wipeDone + BitVec.ofNat 64 (s.openVal.1.toNat % (left / 2048 + 1) * 2048) } }
    | none => s
  | _ => s

end Sys2Proof.Machine
end

