-- ==== Sys2Proof/Machine/Registers.lean ====
section
/-!
DEFINITION. REGISTER_WRITE and REGISTER_READ through the BAR0 of a function (R8 to R12, R33, R422, R427, R429,
Tables 1.5 and 13.5), the PF's write of a flag (R351), and the accesses of a PF program through the register
alias window (R30).
-/

namespace Sys2Proof.Machine

open Sys2Proof

/-! ## PF_FLAG_WRITE -/

/-- A write of FRM_FLAG_i by the PF: a SET at the flag's home, whichever function holds the frame; refused at a
fenced or unavailable frame (R351). -/
def State.pfFlag (s : State) (f : FrameNo) (flag : BitVec 8) (value : Word) : State :=
  if (s.frame f).gone then s.refuseFlag f
  else if !s.powered f then s.offAccess f
  else s.putFlag f flag.toNat false value

/-- PF_FLAG_WRITE (R351): the PF's earlier BAR2 writes are committed when they are made. -/
def execPfFlagWrite (f : FrameNo) (flag : BitVec 8) (value : Word) (s : State) : Host.Outcome State Fault Refusal :=
  guardStep s.hostOk s (s.pfFlag f flag value)

/-! ## Where an access goes -/

/-- Where a 32-bit word of a BAR0 lies: at an offset of PF BAR0, in a VF's MSI-X table or pending bits, or
nowhere. -/
inductive Loc where
  | bar0 (o : Nat) | msix (n : FuncNo) (o : Nat) | pba (n : FuncNo) (o : Nat) | none
deriving DecidableEq, Repr

/-- The unprivileged view (Table 13.5): U registers of the function and of the frames it holds (R425). -/
def State.vfLoc (s : State) (n : FuncNo) (o : Nat) : Loc :=
  if o = 0x100 ∨ o = 0x104 then .bar0 (0x100200 + o)
  else if o = 0x108 then .bar0 0
  else if o < 0x8000 then .bar0 (0x400000 + n.val * 0x10000 + o)
  else if o < 0xC000 then
    match frameNo? ((o - 0x8000) / 0x100) with
    | some f =>
      if !hasFrame s.global.funcs[n].frames f then .none else
      let base := 0x1000000 + f.val * 0x100000
      match o % 0x100 with
      | 0x0 => .bar0 (base + 0x10)
      | 0x4 => .bar0 (base + 0x1000)
      | 0x8 => .bar0 (base + 0x8000)
      | 0xC => .bar0 (base + 0xB010)
      | _ => .none
    | none => .none
  else if 0xE000 ≤ o ∧ o < 0xE200 then .msix n (o - 0xE000)
  else if 0xF000 ≤ o ∧ o < 0xF008 then .pba n (o - 0xF000)
  else .none

def State.locate (s : State) (n : FuncNo) (o : Nat) : Loc := if n.val = 0 then .bar0 o else s.vfLoc n o

/-- The offset of a place, within its table. -/
def Loc.off : Loc → Nat
  | .bar0 o => o
  | .msix _ o => o
  | .pba _ o => o
  | .none => 0

/-- One part of an access: a place, the bits of its slot, and where they stand in the access. -/
structure Part where
  loc : Loc
  m : BitVec 64
  sh : Nat
  at_ : Nat

/-- One 32-bit part. -/
def wordPart (l : Loc) (at_ : Nat) : Part :=
  let sh := l.off % 8 / 4 * 32
  { loc := l, m := 0xFFFFFFFF <<< sh, sh, at_ }

/-- The parts of an access: a 64-bit access to one slot is one part, and so one action (R62). -/
def State.parts (s : State) (n : FuncNo) (o width : Nat) : List Part :=
  if width = 32 then [wordPart (s.locate n o) 0]
  else
    let a := s.locate n o
    let b := s.locate n (o + 4)
    match a, b with
    | .bar0 x, .bar0 y => if x % 8 = 0 ∧ y = x + 4 then [{ loc := a, m := ~~~0, sh := 0, at_ := 0 }] else [wordPart a 0, wordPart b 32]
    | .msix m x, .msix _ _ => if x % 8 = 0 then [{ loc := .msix m x, m := ~~~0, sh := 0, at_ := 0 }] else [wordPart a 0, wordPart b 32]
    | _, _ => [wordPart a 0, wordPart b 32]

/-- The state after an access to a block whose domain is off, where the block of an offset of PF BAR0 is one (R39):
the FRM block of a frame or the block of a Carry port. -/
def State.blockOff (s : State) (n : FuncNo) (o : Nat) : Option State :=
  match blkOf o with
  | .frm f _ => if s.powered f then none else some (s.offAccess f n.val)
  | .port p _ => if s.portPowered p then none else some (s.portOffAccess p n.val)
  | _ => none

/-! ## Reads -/

/-- The key under which a function's low-word read of a Tally register latches the high word (R62). -/
def latchKey (n : FuncNo) (o : Nat) : Nat := n.val * 0x8000000 + o

/-- One part of a read: its bits, and the state after it. -/
def State.readPart (s : State) (n : FuncNo) (p : Part) : BitVec 64 × State :=
  match p.loc with
  | .none => (0, s)
  | .msix m o => ((s.msixSlot m (o / 8 * 8) &&& p.m) >>> p.sh, s)
  | .pba m o => ((s.pbaSlot m (o / 8 * 8) &&& p.m) >>> p.sh, s)
  | .bar0 o =>
    match s.blockOff n o with
    | some t => (0, t)
    | none =>
      let b := o / 8 * 8
      let s := s.sampleRefresh b p.m
      let v := s.slotVal b
      let t := s.slotRead b p.m
      let key := latchKey n b
      let wide := match blkOf b with | .tally k => tallyWide k | _ => false
      let hi : Word := (v >>> 32).setWidth 32
      if !wide || p.m == ~~~0 then ((v &&& p.m) >>> p.sh, t)
      else if p.sh = 0 then
        (v &&& p.m, { t with tally := { t.tally with latch := alSet t.tally.latch key hi } })
      else match alGet t.tally.latch key with
        | some h => (h.setWidth 64, { t with tally := { t.tally with latch := alErase t.tally.latch key } })
        | none => (hi.setWidth 64, t)

/-- A read of `width` bits, part by part. -/
def State.readParts (s : State) (n : FuncNo) : List Part → BitVec 64 × State
  | [] => (0, s)
  | p :: ps =>
    let r := s.readPart n p
    let q := State.readParts r.2 n ps
    (r.1 <<< p.at_ ||| q.1, q.2)

/-- Offsets of PF BAR0 that reads answer in orphan mode (R496). -/
def orphanServes (o : Nat) : Bool := o < 8 || (0x50000 ≤ o && o < 0x50008) || (0x50100 ≤ o && o < 0x50140)

/-- Offsets of PF BAR0 that recovery mode serves (Table 17.9). -/
def recoveryServes (o : Nat) : Bool :=
  o < 8 || (0x50000 ≤ o && o < 0x50008) || (0x30000 ≤ o && o < 0x30010) ||
    (0xF00000 ≤ o && o < 0xF0000C) || (0xF02000 ≤ o && o < 0xF03000)

/-- A register access the interface can carry: 32 or 64 bits, aligned. -/
def accessOk (offset width : Nat) : Bool := (width == 32 && offset % 4 == 0) || (width == 64 && offset % 8 == 0)

/-- REGISTER_READ. -/
def execRegisterRead (func : FuncNo) (offset width tag : Nat) (s : State) : Host.Outcome State Fault Refusal :=
  if !accessOk offset width then .fault (.illFormed "register access")
  else if s.boot.resetWait.isSome then .next s
  else if s.global.fault.orphan && !(func == 0 && orphanServes offset) then .next (s.emit (.unsupported tag))
  else if func.val ≠ 0 ∧ !(s.global.funcs[func].enable && s.present func) then .next (s.emit (.unsupported tag))
  else if s.boot.state = .recovery ∧ !recoveryServes offset then .next (s.emit (.regData tag 0))
  else
    let r := s.readParts func (s.parts func offset width)
    .next (r.2.emit (.regData tag r.1))

/-! ## Fields that have a command of their own

A write of a whole register by the host, or by a program of the PF, gives the commands that its bits ask for (R8). -/

/-- The state of an outcome that goes on. -/
def afterCmd (s : State) (o : Host.Outcome State Fault Refusal) : State :=
  match o with
  | .next t => t
  | _ => s

/-- Run a command's meaning where a bit asks for it. -/
def State.when (s : State) (b : Bool) (e : State → Host.Outcome State Fault Refusal) : State :=
  if b then afterCmd s (e s) else s

def State.globalAct (s : State) (o : Nat) (x : Wr) : State :=
  if 0x10000 ≤ o ∧ o < 0x11000 ∧ o % 64 = 0x20 then
    let n : FuncNo := ⟨(o - 0x10000) / 64 % 64, Nat.mod_lt _ (by decide)⟩
    (s.when (x.one 32) (execFuncEnable n)).when (x.m.getLsbD 32 && !x.v.getLsbD 32 && s.global.funcs[n].enable)
      (if n = 0 then execPfFunctionReset else execFunctionReset n)
  else match o with
    | 0x30000 => s.when (x.one 16 && x.m.getLsbD 0 && x.v.setWidth 16 == (0x7909 : BitVec 16)) (execDeviceReset 3)
    | 0x50000 => s.when (x.one 5) execAlertClr
    | 0x50028 => if x.m.getLsbD 0 then s.checkFences else s
    | 0x50018 => s.when (x.m.getLsbD 0) (execFaultRingHead (x.v.setWidth 16))
    | 0x60008 => s.when (x.one 31) (if s.global.sealOp then execSealRelease else execSealSet)
    | 0x70008 => s.when (x.one 31) (execPrimeCommit s.global.primeIndex s.global.primeRootLog)
    | _ => s

def State.tallyAct (s : State) (o : Nat) (x : Wr) : State :=
  match o with
  | 0x000 => (s.when (x.m.getLsbD 0) (execTallyRun (x.v.getLsbD 0))).when (x.one 1) execStrClear
  | 0x208 => (s.when (x.one 0) execForm).when (x.one 1) execLeave
  | 0x310 => (s.when (x.one 2) execLoadNow).when (x.one 3) execLoadArm
  | 0x400 => s.when (x.m.getLsbD 32) (execMarkArm ((x.v >>> 32).setWidth 32))
  | _ => s

def State.admitAct (s : State) (o : Nat) (x : Wr) : State :=
  match o with
  | 0x000 => s.when (x.one 2) execCntClear
  | 0x200 =>
    if h : s.adm.domSel.toNat < 36 then
      s.when (x.one 31) (if s.adm.domTarget = 0 then execDomainOn ⟨_, h⟩
        else if s.adm.domTarget = 1 then execDomainRetain ⟨_, h⟩ else execDomainOff ⟨_, h⟩)
    else s
  | _ => s

def State.hostqAct (s : State) (n : FuncNo) (o : Nat) (x : Wr) : State :=
  if 0x1000 ≤ o ∧ o < 0x1800 ∧ o % 32 = 8 then
    s.when (x.m.getLsbD 24) (execQueueEnable n false ⟨(o - 0x1000) / 32 % 64, Nat.mod_lt _ (by decide)⟩ (x.v.getLsbD 24))
  else if 0x2000 ≤ o ∧ o < 0x2800 ∧ o % 32 = 8 then
    s.when (x.m.getLsbD 16) (execQueueEnable n true ⟨(o - 0x2000) / 32 % 64, Nat.mod_lt _ (by decide)⟩ (x.v.getLsbD 16))
  else if 0x3000 ≤ o ∧ o < 0x3200 then
    let q : Fin 64 := ⟨(o - 0x3000) / 8 % 64, Nat.mod_lt _ (by decide)⟩
    (s.when (x.m.getLsbD 0) (execSqTail n q (x.v.setWidth 16))).when (x.m.getLsbD 32) (execCqHead n q ((x.v >>> 32).setWidth 16))
  else s

def State.masAct (s : State) (o : Nat) (x : Wr) : State :=
  if o < 0x1000 ∨ 0x3000 ≤ o then s else
  let i : Fin 64 := ⟨(o - 0x1000) / 128 % 64, Nat.mod_lt _ (by decide)⟩
  let l := s.mas.layers[i]
  match o % 128 with
  | 0x28 => afterCmd s (execEtaWrite i (x.fld 0 l.eta) s)
  | 0x30 => afterCmd s (execStepsWrite i (x.fld 0 l.steps) s)
  | 0x38 =>
    if !x.m.getLsbD 32 then s else
    match ((x.v >>> 32).setWidth 3 : BitVec 3).toNat with
    | 1 => afterCmd s (execMasDefine i s)
    | 2 => afterCmd s (execMasOpen i s)
    | 3 => afterCmd s (execMasClose i s)
    | 4 => afterCmd s (execMasStep i (x.v.getLsbD 35) (x.v.getLsbD 36) s)
    | 5 => afterCmd s (execMasRelease i s)
    | _ => s
  | _ => s

def State.carryAct (s : State) (o : Nat) (x : Wr) : State :=
  if o = 0x10008 then s.when (x.m.getLsbD 0) (execBypass (x.v.getLsbD 0))
  else if 0x11000 ≤ o ∧ o < 0x12000 ∧ o % 64 = 0x28 ∧ x.m.getLsbD 0 then
    let i : Fin 64 := ⟨(o - 0x11000) / 64 % 64, Nat.mod_lt _ (by decide)⟩
    match (x.v.setWidth 2 : BitVec 2).toNat with
    | 1 => afterCmd s (execRsArm i s)
    | 2 => afterCmd s (execRsDisarm i s)
    | _ => s
  else s

def State.frmAct (s : State) (f : FrameNo) (o : Nat) (x : Wr) : State :=
  let r := (s.frame f).reg
  match o with
  | 0x00028 => (s.when (x.one 48) (execBeatStopArm f (s.frame f).seq.stopBeat)).when (x.one 51) (execBeatStopRelease f)
  | 0x08000 => s.when (x.one 8) (execRegionFree f r.regNumber)
  | 0x0A008 => s.when (x.one 31) (execSpadXferGo f r.xferFirst r.xferRows (!r.xferDir))
  | 0x0D000 => (s.when (x.one 4) (execHealthClear f)).when (x.one 5) (execRemap f)
  | _ =>
    if 0x4000 ≤ o ∧ o < 0x4400 then
      let i := (o - 0x4000) / 4
      (s.when (x.m.getLsbD 0) (execPfFlagWrite f (BitVec.ofNat 8 i) (x.v.setWidth 32))).when (x.m.getLsbD 32)
        (execPfFlagWrite f (BitVec.ofNat 8 (i + 1)) ((x.v >>> 32).setWidth 32))
    else s

/-- The commands that a write of a slot gives. -/
def State.slotAct (s : State) (o : Nat) (x : Wr) : State :=
  match blkOf o with
  | .global o => s.globalAct o x
  | .tally o => s.tallyAct o x
  | .adm o => s.admitAct o x
  | .hostq n o => s.hostqAct n o x
  | .memc p o => s.when (p == 0 && o == 0x8010 && x.one 0) execMemcWipeGo
  | .mas o => s.masAct o x
  | .port p o =>
    if o = 0 then s.when (x.m.getLsbD 4) (execPortEnable p (x.v.getLsbD 4))
    else if o = 0x18 then (s.when (x.one 0) (execRetrain p)).when (x.one 1) (execPing p)
    else s
  | .carry o => s.carryAct o x
  | .lne o => if o = 0 ∧ x.one 31 then s.lneGo s.lne.op.toNat s.lne.lenW s.lne.msgLen else s
  | .mgmt _ => s
  | .frm f o => s.frmAct f o x
  | .none => s

/-! ## Writes -/

/-- One part of a write, of the value of an access: fields are set, and WO, W1S and W1C bits act (R8). -/
def State.writePart (s : State) (n : FuncNo) (v : BitVec 64) (p : Part) : State :=
  let x : Wr := { m := p.m, v := (v >>> p.at_) <<< p.sh }
  match p.loc with
  | .none => s
  | .pba _ _ => s
  | .msix m o => s.msixWrite m (o / 8 * 8) x
  | .bar0 o =>
    match s.blockOff n o with
    | some t => t
    | none => (s.slotWrite (o / 8 * 8) x).slotAct (o / 8 * 8) x

/-- A write, part by part. -/
def State.writeParts (s : State) (n : FuncNo) (v : BitVec 64) (ps : List Part) : State :=
  ps.foldl (fun (t : State) p => t.writePart n v p) s

/-- A host write that arrives with EP set is logged (R422). -/
def State.aerIf (s : State) (ep : Bool) (n : FuncNo) : State := if ep then s.emit (.aerPoisoned n.val) else s

/-- Lanes of a width. -/
def pcieLanes : PcieWidth → Nat
  | .x4 => 4 | .x8 => 8 | .x16 => 16

/-- The lanes in use under L0p are no more than the link has (Table 13.1). -/
def fitLink (l : HostLink) : HostLink := if pcieLanes l.width < pcieLanes l.active then { l with active := l.width } else l

/-- A write of configuration space, over a link that is trained, sizes BARs, enables VFs and sets the link (R421, R427;
log entry 86). VFs that it takes away are reset first (R446). -/
def State.configure (s : State) (l : HostLink) : State :=
  if !s.boot.linkUp then s
  else
    let gone := (List.finRange 64).filter fun n => l.numVfs.val < n.val && s.present n
    let s := if s.hostOk then gone.foldl (fun (s : State) n => afterCmd s (execFunctionReset n s)) s else s
    { s with global := { s.global with link := fitLink l } }

/-- REGISTER_WRITE. -/
def execRegisterWrite (func : FuncNo) (offset width : Nat) (value : HostWrite) (s : State) :
    Host.Outcome State Fault Refusal :=
  if !accessOk offset width then .fault (.illFormed "register access")
  else if let some l := value.config then .next (s.configure l)
  else if s.global.fault.orphan || s.boot.resetWait.isSome then .next s
  else if func.val ≠ 0 ∧ !(s.global.funcs[func].enable && s.present func) then .next (s.emit (.unsupported 0))
  else if s.boot.state = .recovery ∧ !recoveryServes offset then .next s
  else .next ((s.writeParts func value.bits (s.parts func offset width)).aerIf value.ep func)

/-! ## The register alias window (R30) -/

/-- A 32-bit write of a PF program through the alias window. -/
def State.aliasWrite (s : State) (o : Nat) (v : Word) : State :=
  let sh := o % 8 / 4 * 32
  let x : Wr := { m := 0xFFFFFFFF <<< sh, v := v.setWidth 64 <<< sh }
  let b := o / 8 * 8
  match s.blockOff 0 b with
  | some t => t
  | none => (s.slotWrite b x).slotAct b x

/-- A 32-bit read of a PF program through the alias window. -/
def State.aliasRead (s : State) (o : Nat) : Word × State :=
  let r := s.readPart 0 (wordPart (.bar0 o) 0)
  (r.1.setWidth 32, r.2)

end Sys2Proof.Machine
end

