-- ==== Sys2Proof/Machine/FeederMove.lean ====
section
/-!
DEFINITION. What a transfer reads and what it will write (R302, R311 to R321), and the tiles of a KSTREAM (R192 to
R206). A transfer reads its source when its Feeder accepts it, or, where an earlier transfer of the same Feeder has
still to write there, as soon as that has landed (R345; log entry 40).
-/

namespace Sys2Proof.Machine

open Sys2Proof

/-! ## What an iteration moves (R312, R313) -/

/-- The clamp to the edge (R313). -/
def clampIdx (k : Int) (e : Nat) : Nat := (min (max k 0) ((e : Int) - 1)).toNat

/-- One iteration: its destination element and the source element it reads, or the constant it writes: FILL, or
zero from an empty source (R313). -/
structure Item where
  p : Int := 0
  src : Option Nat := none
  const : Nat := 0

def XRec.items (x : XRec) (es : Nat) (ix : List Int) : List Item :=
  x.iters.map fun i =>
    let p := x.dstIndex ix i
    if x.pads i && x.mode.getLsbD 2 then { p, const := x.fill.toNat }
    else if es = 0 then { p }
    else { p, src := some (clampIdx (x.srcIndex ix i) es) }

/-! ## Reads at the home (R31, R39, R174, R338) -/

/-- The offset of an address in the register alias window. -/
def aliasOff (a : Nat) : Nat := a - 0x020000000000

/-- The class in which a transfer reads device memory (Table 11.2). -/
def Xfer.readClass (x : Xfer) : Fin 4 := if x.kind == .kstream && x.critical then 0 else 1

/-- As `access`, where a register of the alias window can lie in a block whose domain is off (R39). -/
def State.homeAccess (s : State) (n : FuncNo) (isSealed write : Bool) (a : Nat) : Access :=
  match s.access n isSealed false write a, s.place a with
  | .ok, .regs o => if (s.blockOff 0 o).isSome then .domainOff else .ok
  | r, _ => r

/-- The poison of a read of an unmapped address has no recorded cause (R476), and the transfer that reads it is not told of
it: only what consumes it is (R31). While that transfer holds it, it stands as poison that its own run knows. -/
def Mark.plain (m : Mark) : Mark := if m.cause = 0 then {} else m

/-- `k` bytes read at their home: what stands there, and its poison. -/
def State.homeRead (s : State) (x : Xfer) (a k : Nat) : State × Nat × Option Mark :=
  match s.homeAccess (funcNo x.func) x.isSealed false a with
  | .ok =>
    match s.place a with
    | .regs o =>
      let r := s.aliasRead (o / 4 * 4)
      (r.2, r.1.toNat / 2 ^ (8 * (o % 4)) % 2 ^ (8 * k), none)
    | .mem =>
      let s := s.lineRead x.readClass a k
      (s, memReadNat s.mem a k, poisonAt s.poison a)
    | _ =>
      let s := s.checkSpad a k
      (s, memReadNat s.mem a k, poisonAt s.poison a)
  | .unmapped => (s, 0, some { run := x.run })
  | .sealViolation => (s, 0, some { cause := Codes.sealViolation, run := x.run })
  | .domainOff => (s, 0, none)

/-- Reads that were refused are told of, once for a transfer (R39, R174). -/
def State.tellReads (s : State) (x : Xfer) (addrs : List Nat) : State :=
  let is (c : Access) : Bool := addrs.any fun a => s.homeAccess (funcNo x.func) x.isSealed false a == c
  let s' := if is .sealViolation then s.fault x.run Codes.sealViolation x.frame else s
  if is .domainOff then s'.report x.run Codes.domainOffAccess x.frame else s'

/-- Element `k` of an object of frame `f`, raw. -/
def State.readElem (s : State) (x : Xfer) (f : FrameNo) (d : Desc) (k : Nat) : State × Nat × Option Mark :=
  let bits := d.ebits
  let r := s.homeRead x (s.objAddr f d (k * bits / 8)) (max 1 (bits / 8))
  (r.1, if bits = 4 then r.2.1 / (if k % 2 = 0 then 1 else 16) % 16 else r.2.1, r.2.2)

/-- The elements of index tensor `b` that a record uses, with the poison met; a poisoned one is used as zero (R107,
R314). -/
def State.readIndices (s : State) (x : Xfer) (f : FrameNo) (b : Desc) (n : Nat) : State × List Int × List Mark :=
  (List.range n).foldl (fun (r : State × List Int × List Mark) j =>
    let e := r.1.readElem x f b j
    let m := b.mark.orElse fun _ => e.2.2.map Mark.plain
    let v : Int := if m.isSome then 0 else if b.etype = 3 then signed 32 e.2.1 else (e.2.1 : Int)
    (e.1, r.2.1 ++ [v], r.2.2 ++ m.toList)) (s, [], [])

/-- The items with the values they move and the poison they carry. -/
def State.readItems (s : State) (x : Xfer) (f : FrameNo) (a : Desc) (is : List Item) :
    State × List (Item × Nat × Option Mark) :=
  is.foldl (fun (r : State × List (Item × Nat × Option Mark)) i =>
    match i.src with
    | none => (r.1, r.2 ++ [(i, i.const, none)])
    | some k =>
      let e := r.1.readElem x f a k
      (e.1, r.2 ++ [(i, e.2.1, e.2.2)])) (s, [])

/-! ## What a transfer writes -/

/-- The prime-table index whose prime an ACC add into element `p` works under; none where it wraps (R315). -/
def State.accIndex (s : State) (d : Desc) (x : XRec) (p : Nat) : Option Nat :=
  if d.kind = kTensor then (if d.etype = 1 then some x.prime else none)
  else if d.intPlain then none
  else
    let ps := s.pset d.pset
    let sl := if d.layout = 2 then p / (d.n * d.ccap) else p / d.n % d.capacity
    (slotPos d ps sl).bind ps.index

/-- How an ACC row adds: the prime-table index with bit 8 set, or wrapping, at 32, 16, 8 or 4 bits (log entry 20). -/
def accHow (ix : Option Nat) (bits : Nat) : Nat :=
  (match ix with | some i => i % 256 + 256 | none => 0) +
    (if bits = 16 then 1 else if bits = 8 then 2 else if bits = 4 then 3 else 0) * 512

/-- The device a destination lies on, if another names it, and the address of byte `b`. -/
def State.destAddr (s : State) (f : FrameNo) (d : Desc) (b : Nat) : Option Nat × Nat :=
  if d.location = 2 then (some (d.base / 2 ^ 48 % 4096), d.base % 2 ^ 48 + b) else (none, s.objAddr f d b)

/-- A destination on this device, which a LOCATION SYSTEM address can name too. -/
def State.stays (s : State) (dev : Option Nat) : Bool := match dev with | some d => d == s.carry.self | none => true

/-- A write that lies in another frame's scratchpad, or on another device (R302). -/
def State.isRemote (s : State) (f : FrameNo) (dev : Option Nat) (addr : Nat) : Bool :=
  dev.isSome || (match s.place addr with | .spad g _ => g != f | _ => false)

/-- Each row or line takes the poison of every element that reached it (R321): `force` for the whole transfer,
an alias of SCATTER's, or what its elements carry. A poisoned row's values are unspecified (R106). -/
def markRows (ctr run : Nat) (force : Option Mark) (alias_ : List Nat) (ws : List PWrite) : List PWrite :=
  ws.map fun (w : PWrite) =>
    let row := w.addr / 2048
    let ms := (ws.filter fun v => v.addr / 2048 == row).filterMap (·.mark)
    let m : Option Mark := force.orElse fun _ =>
      if alias_.contains row then some { cause := Codes.writeAlias, run }
      else if ms.isEmpty then none
      else some (markFrom (let told := ms.filter (· != { run }); if told.isEmpty then ms else told) run).plain
    match m with
    | none => { w with mark := none }
    | some m =>
      let bytes := (List.range (max 1 w.size)).map fun k => Config.openByte ctr (w.addr + k)
      { w with mark := some m, value := bytesToNat bytes }

/-- Both nibbles of a byte, where both are written, as a write of the byte. -/
def joinNibs (ws : List PWrite) : List PWrite :=
  ws.filterMap fun (w : PWrite) =>
    if w.size ≠ 0 then some w
    else
      match ws.find? fun v => v.size == 0 && v.addr == w.addr && v.hi != w.hi with
      | some v => if w.hi then none else some { w with size := 1, value := w.value % 16 + 16 * (v.value % 16) }
      | none => some w

/-- The bytes of whole writes. -/
def cellsOf (ws : List PWrite) : List Host.Cell := ws.flatMap fun w => cellsFrom w.addr (natToBytes w.size w.value)

def nibsOf (ws : List PWrite) : List PWrite := ws.filter (·.size == 0)

/-- The remote rows of writes, each a run of bytes in one row or line (R319, R392). -/
def remoteRows (dev : Option Nat) (acc : Bool) (how : Nat → Nat) (ws : List PWrite) : List RRow :=
  let rows := dedup (ws.map fun w => w.addr / 2048)
  rows.flatMap fun row =>
    let mine := ws.filter fun w => w.addr / 2048 == row
    let bytes := joinNibs mine |>.map fun (w : PWrite) => { w with size := max 1 w.size }
    (runsOf (sortCells (cellsOf bytes))).map fun r =>
      { addr := r.1, bytes := r.2, mark := mine.head?.bind (·.mark), dev, acc, how := if acc then how r.1 else 0 }

/-- The writes of the items that lie inside the destination (R312, R314). -/
def State.itemWrites (s : State) (f : FrameNo) (d : Desc) (x : XRec) (vs : List (Item × Nat × Option Mark)) : List PWrite :=
  let bits := d.ebits
  vs.map fun v =>
    let p := v.1.p.toNat
    let q : Nat := if x.isAcc then (match s.accIndex d x p with | some i => (s.prime i).q.toNat | none => 0) else 0
    { addr := (s.destAddr f d (p * bits / 8)).2, value := v.2.1 % 2 ^ bits, size := bits / 8
      hi := bits == 4 && p % 2 == 1, mark := v.2.2, q }

/-- Rows that hold an element two iterations write (R316). -/
def aliasRows (ws : List PWrite) : List Nat :=
  dedup ((ws.zipIdx.filter fun w => ws.zipIdx.any fun v =>
    v.2 != w.2 && v.1.addr == w.1.addr && v.1.hi == w.1.hi).map fun w => w.1.addr / 2048)

/-- A move of a TRIPLE: the source rows and lines that a transfer has read are spent (R180). -/
def State.spendRead (s : State) (x : Xfer) (a : Desc) (addrs : List Nat) : State :=
  if a.kind = kTriple then
    (addrs.filter fun v => s.access (funcNo x.func) x.isSealed false false v == .ok).foldl
      (fun (s : State) v => s.mark (v / 2048) { cause := Codes.tripleSpent }) s
  else s

/-- A COPY, GATHER or SCATTER reads its source; what it will write stands in the transfer from then on. Its destination
descriptor takes the POISON of what it writes, or loses it, an ACC's adds as any other write (R106, R108, R318; log entry
70). -/
def State.stageData (s : State) (x : Xfer) (f : FrameNo) (r : XRec) (slot_ : Nat) (d a b : Desc) (mark : Option Mark) : State :=
  let ixs := s.readIndices x f b r.indices
  let s := ixs.1.consume x.run f ixs.2.2
  let items := r.items a.elems ixs.2.1
  let read := s.readItems x f a items
  let addrs := (items.filterMap (·.src)).map fun k => s.objAddr f a (k * a.ebits / 8)
  let iaddrs := (List.range r.indices).map fun j => s.objAddr f b (j * b.ebits / 8)
  let s := if mark.isSome then read.1 else (read.1.tellReads x (addrs ++ iaddrs)).spendRead x a addrs
  let inside (i : Item) : Bool := decide (0 ≤ i.p) && decide (i.p < (d.elems : Int))
  let base := s.destAddr f d 0
  let out := read.2.filter fun v => !inside v.1
  let s := out.foldl (fun (s : State) _ => (s.report x.run Codes.writeOob x.frame).dropOf x base.1 base.2) s
  let ws := s.itemWrites f d r (read.2.filter fun v => inside v.1)
  let ms := if mark.isSome then [] else ws.filterMap (·.mark)
  let al := if r.kind = 3 && !r.isAcc then aliasRows ws else []
  let s := s.consume x.run f ms
  let s := if al.isEmpty || mark.isSome then s
    else (s.fault x.run Codes.writeAlias x.frame).log Codes.writeAlias .frame { index := f.val, frame := some f.val }
  let ws := markRows s.freeCtr x.run mark al ws
  let s := { s with freeCtr := s.freeCtr + 1 }
  let far (w : PWrite) : Bool := s.isRemote f base.1 w.addr
  let how (addr : Nat) : Nat := accHow (s.accIndex d r ((addr - base.2) * 8 / d.ebits)) d.ebits
  let rows := remoteRows base.1 r.isAcc how (ws.filter far)
  let near := ws.filter fun w => !far w
  let foot := dedup (near.map (fun w => w.addr / 2048) ++ (rows.filter fun r => s.stays r.dev).map fun w => w.addr / 2048)
  let s := s.updXfer x.id fun y => { y with
    move := none, reads := [], rows, foot
    writes := if r.isAcc then [] else near
    accs := if r.isAcc then near else []
    remTail := match y.remTail, rows.getLast? with | some t, some w => some (w.addr, t.2) | t, _ => t }
  if mark.isSome then s
  else s.pend f [match ws.findSome? (·.mark) with | some m => .descPoison slot_ m | none => .descClean slot_]

/-! ## Key tiles (R192 to R206) -/

/-- The header checks of Table 6.4 on a digit block's header, as a number of 2,048 bytes. -/
def State.headerCause (s : State) (d : Desc) (digit h : Nat) : Option Code :=
  let p := s.pset d.pset
  if bitsAt h 0 64 ≠ d.keyTag then some Codes.keyTagMismatch
  else if bitsAt h 64 18 ≠ d.galois ∨ bitsAt h 82 14 ≠ 0 ∨ bitsAt h 96 8 ≠ digit ∨ bitsAt h 104 2 ≠ d.keyform ∨
      bitsAt h 106 2 ≠ d.keytype ∨ bitsAt h 108 4 ≠ 0 ∨ bitsAt h 112 8 ≠ d.logN ∨ bitsAt h 120 8 ≠ p.ndig ∨
      bitsAt h 128 8 ≠ d.capacity ∨ bitsAt h 136 8 ≠ p.np ∨ bitsAt h 144 112 ≠ 0 ∨ h >>> 512 ≠ 0 then
    some Codes.keyHeaderInvalid
  else none

/-- The words of the tiles of a KSTREAM: tile, component and index, with their places in a digit block (R203). -/
def keyWords (d : Desc) (np first count : Nat) : List (Nat × Nat × Nat × Nat) :=
  (List.range count).flatMap fun k => (if d.keyform = 1 then [0] else [0, 1]).flatMap fun c =>
    (List.range d.n).map fun j => (k, c, j, coefOff { d with location := 1 } c (limbSlot d np (first + k)) j)

/-- The rows and lines that a KSTREAM reads. -/
def keyReads (d : Desc) (np digit first count : Nat) : List Nat :=
  let blk := d.base + digit * d.dstride
  dedup (blk / 2048 :: (keyWords d np first count).map fun t => (blk + 2048 + t.2.2.2) / 2048)

/-- A KSTREAM reads its header and tiles, and takes the slots at the tail of every receiving ring. A poisoned key line
poisons the tile rows it feeds, and the KSIP that meets them is told of it (R206, R214). -/
def State.stageKeys (s : State) (x : Xfer) (key : Nat) (d : Desc) (digit first count ring : Nat)
    (mark : Option Mark) : State :=
  let p := s.pset d.pset
  let blk := d.base + digit * d.dstride
  let words := keyWords d p.np first count
  let hd := s.homeRead x blk 2048
  let s := hd.1
  let lines := dedup (words.map fun t => (blk + 2048 + t.2.2.2) / 2048)
  let s := lines.foldl (fun (s : State) l => (s.homeRead x (l * 2048) 2048).1) s
  let vals := words.map fun t => s.homeRead x (blk + 2048 + t.2.2.2) 4
  let s := if mark.isSome then s else s.tellReads x (blk :: words.map fun t => blk + 2048 + t.2.2.2)
  let hmark : Option Mark := match hd.2.2 with
    | some m => some (markFrom [m] 0)
    | none => (s.headerCause d digit hd.2.1).map fun c => { cause := c }
  let force := mark.orElse fun _ => hmark
  let ts := s.keyTiles key d digit first count ((natToBytes 64 hd.2.1).drop 32)
  let rings := s.keyRings x.mask ring
  let ws := rings.flatMap fun q => (words.zip vals).map fun w =>
    ({ addr := ringTile d q w.1.1 + w.1.2.1 * (4 * d.n) + 4 * w.1.2.2.1, value := w.2.2.1, mark := w.2.2.2 } : PWrite)
  let pends := keyPends rings ring ts
  let ws := markRows s.freeCtr 0 force [] ws
  { s with freeCtr := s.freeCtr + 1 }.updXfer x.id fun y => { y with
    move := none, reads := [], writes := ws, pends, foot := dedup (ws.map fun (w : PWrite) => w.addr / 2048) }

/-! ## When a transfer reads -/

/-- The rows and lines of this device that a transfer has still to reach, through the Carry switch too. -/
def State.touch (s : State) (x : Xfer) : List Nat :=
  match x.kind with
  | .rel | .grant => []
  | .atom | .sld => if x.result.isSome || !s.stays x.device then [] else [x.addr / 2048]
  | _ => if x.move.isSome then x.foot ++ x.reads
    else dedup ((x.writes ++ x.accs).map (fun w => w.addr / 2048) ++
      (x.rows.filter fun r => s.stays r.dev).map fun r => r.addr / 2048)

/-- A transfer goes on to rows and lines: it is not cancelled or abandoned, and no earlier transfer of the same Feeder has
still to reach one of them (R58, R306, R345). -/
def State.inOrder (s : State) (x : Xfer) (rows : List Nat) : Bool :=
  !s.relCancelled x && !x.abandoned &&
    s.xfers.all fun y => !(y.id < x.id && y.frame == x.frame && y.feeder == x.feeder && (s.touch y).any (rows.contains ·))

/-- A transfer reads its source where nothing on its Feeder comes before. -/
def State.tryStage (s : State) (id : Nat) : State :=
  match s.xfer? id with
  | none => s
  | some x =>
    match frameNo? x.frame, x.move with
    | some f, some (.data r k d a b m) => if s.inOrder x x.reads then s.stageData x f r k d a b m else s
    | some _, some (.keys k d g e n r m) => if s.inOrder x x.reads then s.stageKeys x k d g e n r m else s
    | _, _ => s

/-- What Feeders can do of themselves: transfers read, and packets leave. -/
def State.runFeeders (s : State) : State :=
  (s.xfers.foldl (fun (s : State) x => s.tryStage x.id) s).sendAll

end Sys2Proof.Machine
end

