-- ==== Sys2Proof/Machine/Feeder.lean ====
section
/-!
DEFINITION. Feeder words at their issue (Table 7.4, R244, R245, R320): XFER, KSTREAM, FLAG.REL, ATOM and SLD, and the
words held for a full Feeder.
-/

namespace Sys2Proof.Machine

open Sys2Proof

/-! ## Places (R244) -/

/-- A transfer that holds one of its Feeder's places: accepted, and neither landed nor abandoned. -/
def Xfer.holdsPlace (x : Xfer) : Bool := x.result.isNone && !x.abandoned

/-- Feeder `k` of frame `f` holds 16 transfers. -/
def State.feederFull (s : State) (f : FrameNo) (k : Nat) : Bool :=
  16 ≤ (s.xfers.filter fun x => x.frame == f.val && x.feeder == k && x.holdsPlace).length

/-- The Feeder that a word names. -/
def wFeeder (w : BcWord) : Nat := wEngine w - 8

/-- The schedule has a Feeder busy to a due beat (R451, R452). -/
def State.feedTo (s : State) (f : FrameNo) (k : Nat) (due : Option Nat) : State :=
  match due with
  | some d => s.updFrame f fun fr => { fr with rn := { fr.rn with feeds := fr.rn.feeds ++ [(k, d)] } }
  | none => s

/-- A transfer enters its Feeder. -/
def State.accept (s : State) (f : FrameNo) (i : Iss) (x : Xfer) : State :=
  let x : Xfer := { x with
    id := s.nextXfer, frame := f.val, feeder := wFeeder i.w, run := i.r.id, func := i.r.func
    issue := s.tally.count.toNat }
  ({ s with xfers := s.xfers ++ [x], nextXfer := s.nextXfer + 1 }.feedTo f x.feeder x.due).runFeeders

/-- The junction window in progress, in a running group (R70). -/
def State.windowNow (s : State) : Option Nat :=
  if s.tally.gstate = .running then some s.tally.window.toNat else none

/-- The due beat of a word with an offset (R245). -/
def State.dueAt (s : State) (off : Nat) : Option Nat := some (s.tally.count.toNat + off)

/-! ## XFER (R311 to R322) -/

/-- A descriptor with its region's counter added to BASE where the record anchors it (R312). -/
def Frame.anchor (fr : Frame) (d : Desc) (on tail : Bool) : Desc :=
  if on && d.location == 1 then
    match fr.region? d.region with
    | some r => { d with base := d.base + (if tail then r.tail else r.head).toNat }
    | none => d
  else d

/-- A COPY between ring objects of one KIND, which passes on the derived fields (R318). -/
def derives (kind : Nat) (d a : Desc) : Bool := kind == 1 && d.ring && a.ring && d.kind == a.kind

/-- What R97 to R103 make of the descriptors of a transfer of a kind: the destination's as the word leaves it, and the
code of a check that failed. -/
def State.xferDesc (s : State) (i : Iss) (kind : Nat) (d a : Desc) : Desc × Option Code :=
  let pre := [(d.ring && a.ring && ringDiff d a, Codes.operandMismatch), (tagBad [a] i.r.keyTag, Codes.keyTagMismatch)]
  if derives kind d a then s.checkAll i.p pre (deriveFrom d a) a.scale [a] none
  else (d, firstBad pre)

/-- What an XFER leaves of its destination descriptor at the launch after its issue, and the poison that it puts on all
it writes: of a poisoned source descriptor (R106), or of a failed check (R97). The derived fields of a COPY are in place at
that launch; its POISON follows when its source has been read (R100, R318). -/
def State.xferPoison (s : State) (f : FrameNo) (i : Iss) (kind slot_ : Nat) (d a : Desc) : State × Option Mark :=
  match a.mark with
  | some m =>
    let m := markFrom [m] i.r.id
    ((s.consume i.r.id f a.mark.toList).pend f [.descPoison slot_ m], some m)
  | none =>
    match s.xferDesc i kind d a with
    | (nd, none) => (if derives kind d a then s.pend f [.desc slot_ { nd with mark := d.mark }] else s, none)
    | (nd, some c) =>
      let m : Mark := { cause := c, run := i.r.id }
      let nd := if c = Codes.scaleRange ∨ c = Codes.noiseExhausted then { nd with mark := some m } else failDesc c d a i.r.id
      ((s.fault i.r.id c f.val).pend f [.desc slot_ nd], some m)

/-- An object at a destination of this device: a LOCATION SYSTEM address of its own is one of DEVICE. -/
def Desc.here (d : Desc) (base : Nat) : Desc := if d.location = 2 then { d with location := 0, base } else d

/-- The issue of a COPY, GATHER or SCATTER. One to another device has no due beat outside a running beat group, which is
read as: while GROUP_STATUS.STATE is not RUNNING (R50, R70; log entry 97). -/
def State.moveIssue (s : State) (f : FrameNo) (i : Iss) (x : XRec) : State :=
  let w := i.w
  let fr := s.frame f
  let dt := fr.rn.dtab
  let d0 := slot dt (wD w)
  let a0 := slot dt (wA w)
  let b := if flag1 w 101 then slot dt (wB w) else {}
  let d := fr.anchor d0 (x.mode.getLsbD 4) true
  let a := fr.anchor a0 (x.mode.getLsbD 3) false
  let r := s.xferPoison f i x.kind (wD w) d0 a0
  let base := s.destAddr f d 0
  let far := !s.stays base.1
  let adv := x.advrows * 2048
  let head : List (Nat × Pend) := if x.mode.getLsbD 5 && a.location == 1 then [(f.val, .head a.region adv)] else []
  let tail : List (Nat × Pend) := if x.mode.getLsbD 6 && d.location == 1 then [(f.val, .tail d.region adv)] else []
  r.1.accept f i {
    kind := if x.kind = 2 then .gather else if x.kind = 3 then .scatter else .copy
    due := if flag1 w 100 || (far && s.windowNow.isNone) then none else s.dueAt (fld w 84 16)
    window := if far then s.windowNow else none
    isSealed := s.objSealed f a || (flag1 w 101 && s.objSealed f b)
    dests := [base]
    move := some (.data x (wD w) d a b r.2)
    reads := s.footRows f a ++ (if flag1 w 101 then s.footRows f b else [])
    foot := if far then [] else s.footRows f (d.here base.2)
    pends := head ++ tail
    remTail := if x.mode.getLsbD 6 && d.location != 1 then some (base.2, x.advrows) else none }

/-- The issue of an XFER. A record with a zero COUNT, or a GRANT of no rows, lands at once and does nothing (R16,
R311). -/
def State.xferIssue (s : State) (f : FrameNo) (i : Iss) : State :=
  match (s.frame f).rn.xtab[fld i.w 76 8]? with
  | none => s
  | some x =>
    if x.kind = 4 then
      if x.gRows = 0 then s
      else s.accept f i {
        kind := .grant, due := if flag1 i.w 100 then none else s.dueAt (fld i.w 84 16)
        grant := some (x.gRegion, { dev := x.gDev, frame := x.gFrame, rows := x.gRows }) }
    else if (List.range 4).any fun k => x.cnt k == 0 then s
    else s.moveIssue f i x

/-! ## KSTREAM (R202 to R206) -/

/-- The issue of a KSTREAM: a COUNT of zero does nothing. A key of another tag than the bound one poisons its tiles (R99).
Whatever else the key's descriptor says, its BASE is taken as a device address (log entry 99). -/
def State.kstreamIssue (s : State) (f : FrameNo) (i : Iss) : State :=
  let w := i.w
  let n := fld w 86 7
  if n = 0 then s else
  let key := slot (s.frame f).rn.dtab (wA w)
  let mask := (i.p.msets.getD []).getD (fld w 101 4) 0
  let mark : Option Mark := match key.mark with
    | some m => some (markFrom [m] i.r.id)
    | none => if tagBad [key] i.r.keyTag then some { cause := Codes.keyTagMismatch, run := i.r.id } else none
  let s := s.consume i.r.id f key.mark.toList
  let s := if key.mark.isNone && mark.isSome then s.fault i.r.id Codes.keyTagMismatch f.val else s
  s.accept f i {
    kind := .kstream, due := s.dueAt (fld w 106 16), isSealed := s.objSealed f key, mask
    critical := flag1 w 105
    dests := (framesOf mask).map fun g => (none, spadAddr g 0)
    move := some (.keys (wA w) key (fld w 76 3) (fld w 79 7) n (fld w 93 8) mark)
    reads := keyReads key (s.pset key.pset).np (fld w 76 3) (fld w 79 7) n }

/-! ## FLAG.REL, ATOM and SLD -/

/-- The issue of a FLAG.REL: its value is as at the launch (R334). -/
def State.relIssue (s : State) (f : FrameNo) (i : Iss) : State :=
  let w := i.w
  let v := (s.frame f).flagValue (flag1 w 86) (fld w 87 16)
  let remote := flag1 w 103
  (s.useX f i.r.id (flagReads (flag1 w 86) (fld w 87 16))).accept f i {
    kind := .rel, flag := fld w 76 8, fop := fld w 84 2, value := v.toNat, tframe := fld w 104 6
    device := if remote then some (fld w 110 12) else none, scope := fld w 122 3
    window := if remote then s.windowNow else none }

/-- The issue of an ATOM: its operands are as at the launch, poisoned ones zero (R343). A poisoned descriptor
poisons XD, and changes no word (R97). -/
def State.atomIssue (s : State) (f : FrameNo) (i : Iss) : State :=
  let w := i.w
  let fr := s.frame f
  let a := slot fr.rn.dtab (wA w)
  let dest := s.destAddr f a 0
  let far := !s.stays dest.1
  let cas := fld w 76 3 == 4
  let mark := a.mark.map fun m => markFrom [m] i.r.id
  let s := (s.consume i.r.id f a.mark.toList).useX f i.r.id (fld w 84 5 :: (if cas then [fld w 89 5] else []))
  s.accept f i {
    kind := .atom, device := dest.1, addr := dest.2, dests := [dest]
    due := if far then none else s.dueAt (fld w 102 16), window := if far then s.windowNow else none
    isSealed := s.objSealed f a, foot := if far then [] else [dest.2 / 2048], mark
    result := if far then mark.map fun m => { poison := some m } else none
    aop := fld w 76 3, xd := fld w 79 5, opa := (fr.xUse (fld w 84 5)).toNat
    opc := if cas then (fr.xUse (fld w 89 5)).toNat else 0, prime := fld w 94 8 }

/-- The issue of an SLD (R230). An object of another tag than the bound one poisons XD (R99). -/
def State.sldIssue (s : State) (f : FrameNo) (i : Iss) : State :=
  let a := slot (s.frame f).rn.dtab (wA i.w)
  let tag := a.mark.isNone && tagBad [a] i.r.keyTag
  let s := s.consume i.r.id f a.mark.toList
  let s := if tag then s.fault i.r.id Codes.keyTagMismatch f.val else s
  s.accept f i {
    kind := .sld, addr := s.objAddr f a 0, due := s.dueAt (fld i.w 81 16), isSealed := s.objSealed f a
    xd := fld i.w 76 5
    mark := if tag then some { cause := Codes.keyTagMismatch, run := i.r.id } else a.mark.map fun m => markFrom [m] i.r.id }

/-! ## The commands -/

/-- What each Feeder word does when its Feeder accepts it. -/
def State.feederIssue (s : State) (f : FrameNo) (op : Op) (i : Iss) : State :=
  match op with
  | .xfer => s.xferIssue f i
  | .kstream => s.kstreamIssue f i
  | .flagRel => s.relIssue f i
  | .atom => s.atomIssue f i
  | _ => s.sldIssue f i

/-- A Feeder word issues: a full Feeder makes the sequencer hold it (R244). -/
def feederStep (s : State) (f : FrameNo) (op : Op) : Host.Outcome State Fault Refusal :=
  match s.iss? f op with
  | some i =>
    if (s.frame f).rn.held then .next s
    else if s.feederFull f (wFeeder i.w) then
      .next (s.updFrame f fun fr => { fr with rn := { fr.rn with held := true, lastHeld := true } })
    else .next ((s.feederIssue f op i).next f i.w)
  | none => .next s

def execXfer (f : FrameNo) (s : State) : Host.Outcome State Fault Refusal := feederStep s f .xfer

def execKstream (f : FrameNo) (s : State) : Host.Outcome State Fault Refusal := feederStep s f .kstream

def execFlagRel (f : FrameNo) (s : State) : Host.Outcome State Fault Refusal := feederStep s f .flagRel

def execAtom (f : FrameNo) (s : State) : Host.Outcome State Fault Refusal := feederStep s f .atom

def execSld (f : FrameNo) (s : State) : Host.Outcome State Fault Refusal := feederStep s f .sld

/-- FEEDER_ACCEPT: the word a frame holds is accepted, its Feeder having a place again (R244). -/
def execFeederAccept (f : FrameNo) (s : State) : Host.Outcome State Fault Refusal :=
  match ([.xfer, .kstream, .flagRel, .atom, .sld] : List Op).findSome? fun op => (s.iss? f op).map fun i => (op, i) with
  | some (op, i) =>
    guardStep ((s.frame f).rn.held && !s.feederFull f (wFeeder i.w)) s ((s.feederIssue f op i).next f i.w)
  | none => .next s

/-- RRC_FILL: a line of device memory is filled into the remote-read cache of a frame that runs a program (R339), its
sectors as `line.upsets` leave them. -/
def execRrcFill (f : FrameNo) (line : Met Nat) (s : State) : Host.Outcome State Fault Refusal :=
  let upsets := line.upsets
  let line := line.place
  guardStep (s.hosts f && s.powered f && line * 2048 < s.usable && !(s.frame f).rrc.any (·.line == line)) s
    ((s.upset upsets).fillLine f line true)

end Sys2Proof.Machine
end

