-- ==== Sys2Proof/Machine/FeederLand.lean ====
section
/-!
DEFINITION. Transfers at their homes (chapters 9, 10, 12): landing, remote rows and their credits, grants, ACC adds,
atomics, single loads, releases and their flag updates, and requests that reach this device.
-/

namespace Sys2Proof.Machine

open Sys2Proof

/-! ## Writes at their homes -/

/-- A write of a transfer is dropped at its home: told to its program, with the event log, and kept for its release
(R31, R332). -/
def State.dropWrite (s : State) (x : Xfer) (c : Code) (addr : Nat) : State :=
  (s.report x.run c x.frame).dropOf x none addr

/-- As `dropWrite`, of a code its home has logged. -/
def State.dropLogged (s : State) (x : Xfer) (c : Code) (addr : Nat) : State :=
  (s.event x.run c x.frame).dropOf x none addr

/-- A row of scratchpad takes writes: poisoned, or, where they cover it wholly, cleared (R108, R321). -/
def State.putSpad (s : State) (row : Nat) (ws : List PWrite) (mark : Option Mark) : State :=
  let bits := (ws.map fun (w : PWrite) => if w.size = 0 then 4 else w.size * 8).sum
  let s := { s with mem := writeNibs (memWriteCells s.mem (cellsOf ws)) (nibsOf ws) }
  match mark with
  | some m => s.mark row m
  | none => if bits = 2048 * 8 then s.unmark row else s

/-- A PF program's write of a register, one 32-bit word (R30). -/
def State.putReg (s : State) (x : Xfer) (w : PWrite) : State :=
  if w.size = 4 ∧ w.addr % 4 = 0 then s.aliasWrite (aliasOff w.addr) (BitVec.ofNat 32 w.value)
  else s.dropWrite x Codes.writeOob w.addr

/-- The writes of a transfer to one row or line commit at its home (R301). -/
def State.commitRow (s : State) (x : Xfer) (row : Nat) (ws : List PWrite) : State :=
  let mark := ws.head?.bind (·.mark)
  match dropCode (s.homeAccess (funcNo x.func) x.isSealed true (row * 2048)) with
  | some c => s.dropWrite x c (row * 2048)
  | none =>
    match s.place (row * 2048) with
    | .regs _ => ws.foldl (fun (s : State) w => s.putReg x w) s
    | .mem =>
      let ws := joinNibs ws
      let r := s.lineArrive (cellsOf ws) (nibsOf ws) mark
      if r.2.isEmpty then r.1.forget x.frame row
      else r.2.foldl (fun (s : State) c => s.dropLogged x c (row * 2048)) r.1
    | _ => s.putSpad row ws mark

def State.commitWrites (s : State) (x : Xfer) (ws : List PWrite) : State :=
  (dedup (ws.map fun w => w.addr / 2048)).foldl (fun (s : State) row =>
    s.commitRow x row (ws.filter fun w => w.addr / 2048 == row)) s

/-! ## Advances (R291, R292, R319) -/

/-- A counter of a region as the advances made so far leave it, those not yet visible included. -/
def Frame.counterNow (fr : Frame) (r : Region) (isTail : Bool) : BitVec 32 :=
  fr.rn.pend.foldl (fun (v : BitVec 32) p =>
    match p with
    | .head n b => if !isTail && n == r.number then v + BitVec.ofNat 32 b else v
    | .tail n b => if isTail && n == r.number then v + BitVec.ofNat 32 b else v
    | _ => v) (if isTail then r.tail else r.head)

/-- Does an advance leave the fill above SIZE, or move HEAD by more than the fill (R292)? -/
def Frame.overruns (fr : Frame) (r : Region) (isTail : Bool) (bytes : Nat) : Bool :=
  let h := fr.counterNow r false
  let t := fr.counterNow r true
  let fill := (t - h).toNat
  let after := if isTail then (t + BitVec.ofNat 32 bytes - h).toNat else (t - (h + BitVec.ofNat 32 bytes)).toNat
  decide (r.sizeRows * 2048 < after) || (!isTail && decide (fill < bytes))

/-- A region overrun: OVERRUN is set, and the region's program is told once (R292). -/
def State.overrun (s : State) (g : FrameNo) (n : Nat) : State :=
  let s := s.updFrame g fun fr => fr.updRegion n fun (r : Region) => { r with overrun := true }
  match s.runOf g with
  | some r =>
    if r.overrunSeen then s
    else (s.updRun r.id fun r => { r with overrunSeen := true }).report r.id Codes.regionOverrun g.val
  | none => s

/-- An advance of a region of frame `g`, visible from the next launch. -/
def State.advance (s : State) (g : FrameNo) (n : Nat) (isTail : Bool) (bytes : Nat) : State :=
  let past : Bool := match (s.frame g).region? n with
    | some r => (s.frame g).overruns r isTail bytes
    | none => false
  (if past then s.overrun g n else s).pend g [if isTail then .tail n bytes else .head n bytes]

/-- What a landing leaves for a frame's next launch. -/
def State.landPend (s : State) (p : Nat × Pend) : State :=
  match frameNo? p.1, p.2 with
  | some g, .head n b => s.advance g n false b
  | some g, .tail n b => s.advance g n true b
  | some g, e => s.pend g [e]
  | none, _ => s

/-- DADV on a remote write: the TAIL of the REMOTE region that an address lies in (R319). -/
def State.advanceAt (s : State) (addr rows : Nat) : State :=
  match s.place addr with
  | .spad g off =>
    match s.openRemote g off with
    | some r => s.advance g r.number true (rows * 2048)
    | none => s
  | _ => s

/-! ## TRANSFER_LANDED -/

/-- A transfer of data with nothing left to arrive elsewhere, whose lines hold no earlier round (R405). -/
def State.canLand (s : State) (x : Xfer) : Bool :=
  (x.kind == .copy || x.kind == .gather || x.kind == .scatter || x.kind == .kstream) &&
    x.move.isNone && x.accs.isEmpty && x.rows.isEmpty && s.inOrder x (s.touch x) &&
    !(x.writes.any fun w => s.place w.addr == .mem && s.lineHeld w.addr)

/-- A transfer lands: its writes commit, its place is freed, its advances are made. -/
def State.land (s : State) (x : Xfer) : State :=
  let s := (s.commitWrites x x.writes).dropXfer x.id
  let s := x.pends.foldl (fun (s : State) p => s.landPend p) s
  let s := match x.remTail, x.dests with
    | some t, [(none, _)] => s.advanceAt t.1 t.2
    | _, _ => s
  s.runFeeders

/-- TRANSFER_LANDED (R301). -/
def execTransferLanded (id : Nat) (s : State) : Host.Outcome State Fault Refusal :=
  match s.xfer? id with
  | some x => guardStep (s.canLand x) s (s.land x)
  | none => .next s

/-! ## Remote rows (R302 to R305) -/

/-- Elements added to bytes: under the prime of a prime-table index, or wrapping at their width (R315). -/
def State.addBytes (s : State) (how : Nat) (old new : List Byte) : List Byte :=
  let q := if how / 256 % 2 = 1 then (s.prime (how % 256)).q.toNat else 0
  match how / 512 with
  | 0 => addWords q (new.length / 4) old new
  | 1 => (List.range (new.length / 2)).flatMap fun i =>
      natToBytes 2 (bytesToNat ((old.drop (2 * i)).take 2) + bytesToNat ((new.drop (2 * i)).take 2))
  | 2 => (old.zip new).map fun p => p.1 + p.2
  | _ => (old.zip new).map fun p => BitVec.ofNat 8
      ((p.1.toNat + p.2.toNat) % 16 + 16 * ((p.1.toNat / 16 + p.2.toNat / 16) % 16))

/-- A row is written at its home, where every check has passed. An unpoisoned ACC row clears no poison: it writes sums of
what stood there (log entry 70). -/
def State.putRow (s : State) (r : RRow) : State :=
  let s := if r.acc then s.sumAt r.addr r.bytes.length else s
  let v := if r.acc then s.addBytes r.how (memReadN s.mem r.addr r.bytes.length) r.bytes else r.bytes
  let s := { s with mem := memWriteN s.mem r.addr v }
  match r.mark with
  | some m => s.mark (r.addr / 2048) m
  | none => if !r.acc ∧ r.bytes.length = 2048 ∧ r.addr % 2048 = 0 then s.unmark (r.addr / 2048) else s

/-- A remote row arrives at its bank controller from a frame of a device (R304), or as a late write (R463): the
code is 0 where it is written. A frame's own row is no remote write, and takes no credit (R302); a frame that is not
powered takes none (R39), but for a late write on its way to RETAIN. -/
def State.rowArrive (s : State) (dev frame : Nat) (r : RRow) : State × Code :=
  match s.place r.addr with
  | .spad g off =>
    let spent (reg : Region) : State := s.updFrame g fun fr => fr.updRegion reg.number fun q => q.spend dev frame
    if !s.powered g && !(s.frame g).lateWrite then (s, Codes.domainOffAccess)
    else if dev = s.carry.self ∧ frame = g.val then (s.putRow r, 0)
    else match s.openRemote g off, (s.frame g).remoteAt off with
      | some reg, _ => if reg.hasCredit dev frame then ((spent reg).putRow r, 0) else (s, Codes.creditUnderflow)
      | none, some reg =>
        if reg.hasCredit dev frame && !s.hosts g && (s.frame g).lateWrite then
          (((spent reg).mark (r.addr / 2048) {}).log Codes.lostWrite .frame { index := g.val, frame := some g.val }, Codes.lostWrite)
        else (s, Codes.creditUnderflow)
      | none, none => (s, Codes.creditUnderflow)
  | _ => (s, Codes.writeOob)

/-- The first row of a transfer for another frame of this device. -/
def Xfer.localRow (x : Xfer) : Option RRow := x.rows.find? (·.dev.isNone)

/-- The frame of an address waits to enter RETAIN by a forced gate (R463). -/
def State.lateAt (s : State) (a : Nat) : Bool := match s.place a with | .spad g _ => (s.frame g).lateWrite | _ => false

/-- A row of a transfer of this device arrives, and is told of where it is dropped. -/
def State.takeRow (s : State) (x : Xfer) (r : RRow) : State :=
  let a := s.access (funcNo x.func) x.isSealed false true r.addr
  match dropCode (if a = .domainOff ∧ s.lateAt r.addr then .ok else a) with
  | some c => s.dropWrite x c r.addr
  | none =>
    let t := s.rowArrive s.carry.self x.frame r
    if t.2 = 0 then t.1
    else if t.2 = Codes.lostWrite then t.1.event x.run t.2 x.frame
    else t.1.dropWrite x t.2 r.addr

/-- REMOTE_ROW_ARRIVAL (R304). -/
def execRemoteRowArrival (id : Nat) (s : State) : Host.Outcome State Fault Refusal :=
  match s.xfer? id with
  | some x =>
    match x.localRow with
    | some r =>
      guardStep (s.inOrder x [r.addr / 2048]) s
        ((s.updXfer id fun y => { y with rows := y.rows.erase r }).takeRow x r)
    | none => .next s
  | none => .next s

/-- GRANT_APPLY: rows are added to a source's credit entry, and the GRANT lands (R303, R320). -/
def execGrantApply (id : Nat) (s : State) : Host.Outcome State Fault Refusal :=
  match s.xfer? id with
  | some x =>
    match x.grant, frameNo? x.frame with
    | some g, some f =>
      guardStep (s.inOrder x []) s
        ((s.updFrame f fun fr => fr.updRegion g.1 fun r => if r.remote then r.addCredit g.2 else r).dropXfer id).runFeeders
    | _, _ => .next s
  | none => .next s

/-! ## ACC (R315) -/

/-- One element's sum: modulo its prime, or wrapping at its width. -/
def PWrite.sum (w : PWrite) (old : Nat) : Nat :=
  if w.q ≠ 0 then (old % w.q + w.value % w.q) % w.q else (old + w.value) % 2 ^ (if w.size = 0 then 4 else 8 * w.size)

/-- An add at the home of plain memory, as one action. -/
def State.addMem (s : State) (w : PWrite) : State :=
  let s := s.sumAt w.addr (max 1 w.size)
  let b := (memRead s.mem w.addr).toNat
  let old := if w.size = 0 then (if w.hi then b / 16 else b % 16) else memReadNat s.mem w.addr w.size
  let v := { w with value := w.sum old }
  let s := { s with mem := writeNibs (memWriteCells s.mem (cellsOf [v])) (nibsOf [v]) }
  match w.mark with
  | some m => s.mark (w.addr / 2048) m
  | none => s

/-- What a layer counts of lines is as in `was`, for a write that is not the last of its line (R375, R376). -/
def State.uncounted (s was : State) (a : Nat) : State :=
  match was.layerAt a with
  | some i => s.updLayer i fun k => { k with linesIn := was.mas.layers[i].linesIn, dropped := was.mas.layers[i].dropped }
  | none => s

/-- An ACC add of a transfer arrives at its home. In an open layer every write adds, and a line counts with the last of
its adds (R375); `more` says that others follow. -/
def State.addAt (s : State) (x : Xfer) (w : PWrite) (more : Bool) : State :=
  match dropCode (s.homeAccess (funcNo x.func) x.isSealed true w.addr) with
  | some c => s.dropWrite x c w.addr
  | none =>
    match s.place w.addr with
    | .regs o =>
      let r := s.aliasRead (o / 4 * 4)
      r.2.putReg x { w with value := w.sum r.1.toNat }
    | .mem =>
      if (s.layerAt w.addr).isSome then
        let r := s.lineArrive (cellsOf [w]) (nibsOf [w]) w.mark
        let t := if more then r.1.uncounted s w.addr else r.1
        if r.2.isEmpty then t.forget x.frame (w.addr / 2048)
        else r.2.foldl (fun (s : State) c => s.dropLogged x c w.addr) t
      else (s.addMem w).forget x.frame (w.addr / 2048)
    | _ => s.addMem w

/-- ACC_WRITE_APPLY: the next add of a transfer, or, in a contribution window, its writes to the line, which the
round itself adds (R405). -/
def execAccWriteApply (id : Nat) (s : State) : Host.Outcome State Fault Refusal :=
  match s.xfer? id with
  | some x =>
    match x.accs with
    | [] => .next s
    | w :: rest =>
      let row := w.addr / 2048
      if s.place w.addr = .mem ∧ (s.contribAt w.addr).isSome then
        guardStep (s.inOrder x [row] && !s.lineHeld w.addr) s
          ((s.updXfer id fun y => { y with accs := y.accs.filter fun v => v.addr / 2048 != row }).commitRow x row
            (x.accs.filter fun v => v.addr / 2048 == row))
      else guardStep (s.inOrder x [row]) s ((s.updXfer id fun y => { y with accs := rest }).addAt x w (rest.any fun v => v.addr / 2048 == row))
  | none => .next s

/-! ## ATOM and SLD (R230, R343 to R347) -/

/-- Does an ATOM that found this word there write it? A poisoned word stays (R347), and so does one that a CAS does not
match. -/
def atomWrites (aop : Nat) (old : Scalar) (c : Nat) : Bool :=
  old.poison.isNone && (aop < 4 || old.value.toNat == c)

/-- An ATOM dropped in an M buffer that is not open counts as a dropped write (R376). -/
def State.countDrop (s : State) (a : Nat) : State :=
  match s.contribAt a, s.layerAt a with
  | none, some i => s.updLayer i fun l => { l with dropped := satInc l.dropped }
  | _, _ => s

/-- An ATOM at its home: the state, and what XD receives. A sealed word reaches no scalar: the ATOM is refused (R2, R173,
R174; log entry 71). -/
def State.atomHome (s : State) (x : Xfer) : State × Scalar :=
  let lost : Scalar := { poison := some {} }
  match (if x.isSealed then .sealViolation else s.homeAccess (funcNo x.func) false true x.addr) with
  | .sealViolation =>
    ((s.fault x.run Codes.sealViolation x.frame).dropOf x none x.addr, { poison := some { cause := Codes.sealViolation, run := x.run } })
  | .unmapped => (s.dropWrite x Codes.writeOob x.addr, lost)
  | .domainOff => (s.dropWrite x Codes.domainOffAccess x.addr, {})
  | .ok =>
    let q := (s.prime x.prime).q.toNat
    let home (s : State) : State × Scalar :=
      match x.mark with
      | some m => (s, { value := BitVec.ofNat 32 (memReadNat s.mem x.addr 4), poison := some m })
      | none =>
        let r := s.atomAt x.addr x.aop x.opa x.opc q
        (r.1, { value := BitVec.ofNat 32 r.2.1, poison := r.2.2 })
    match s.place x.addr with
    | .regs o =>
      let r := s.aliasRead o
      match x.mark with
      | some m => (r.2, { value := r.1, poison := some m })
      | none => (if atomWrites x.aop { value := r.1 } x.opc then
          r.2.aliasWrite o (BitVec.ofNat 32 (atomValue x.aop r.1.toNat x.opa x.opc q)) else r.2, { value := r.1 })
    | .spad g off =>
      if g.val ≠ x.frame ∧ (s.openRemote g off).isNone then
        (s.dropWrite x Codes.creditUnderflow x.addr, lost)
      else home s
    | _ =>
      match s.memDrop x.addr 4 with
      | some c => ((s.countDrop x.addr).dropWrite x c x.addr, lost)
      | none =>
        let r := home s
        (if atomWrites x.aop r.2 x.opc then r.1.forget x.frame (x.addr / 2048) else r.1, r.2)

/-- ATOM_APPLY: the operation is made at the word's home as one action; its Feeder holds the old value for the due
beat (R343, R344). -/
def execAtomApply (id : Nat) (s : State) : Host.Outcome State Fault Refusal :=
  match s.xfer? id with
  | some x =>
    let r := s.atomHome x
    guardStep (x.kind == .atom && x.device.isNone && x.result.isNone && s.inOrder x [x.addr / 2048]) s
      ((r.1.updXfer id fun y => { y with result := some r.2 }).runFeeders)
  | none => .next s

/-- The word an SLD reads at its home. A sealed word reaches no scalar: the read is refused (R2, R173, R174; log entry
71). -/
def State.sldHome (s : State) (x : Xfer) : State × Scalar :=
  if x.isSealed then
    (s.fault x.run Codes.sealViolation x.frame, { poison := some { cause := Codes.sealViolation, run := x.run } })
  else
    let r := (s.tellReads x [x.addr]).homeRead x x.addr 4
    (r.1, { value := BitVec.ofNat 32 r.2.1, poison := x.mark.orElse fun _ => r.2.2.map Mark.plain })

/-- SLD_HOME_READ: the word that stands at its home (R230, R338). -/
def execSldHomeRead (id : Nat) (s : State) : Host.Outcome State Fault Refusal :=
  match s.xfer? id with
  | some x =>
    let r := s.sldHome x
    guardStep (x.kind == .sld && x.result.isNone && s.inOrder x [x.addr / 2048]) s
      ((r.1.updXfer id fun y => { y with result := some r.2 }).runFeeders)
  | none => .next s

/-! ## Releases (R329 to R334) -/

/-- Does an address of a device lie in a scope of frame `f` (Table 10.2)? -/
def State.inScope (s : State) (f : FrameNo) (scope : Nat) (device : Option Nat) (addr : Nat) : Bool :=
  if !s.stays device then scope == 4 || (scope == 3 && s.groupHolds (device.getD 0))
  else
    match s.place addr with
    | .spad g _ => 2 ≤ scope || g == f || (scope == 1 && dieOf g == dieOf f)
    | _ => 2 ≤ scope

/-- The writes of a release's own Feeder and of the frame's finished operations that it still waits for (R330). A due
transfer of another Feeder has landed by the launch of its due beat. -/
def State.relWaits (s : State) (f : FrameNo) (x : Xfer) : Bool :=
  (s.xfers.any fun y => y.frame == x.frame && y.feeder == x.feeder && y.run == x.run && y.id < x.id && y.result.isNone &&
    y.dests.any fun d => s.inScope f x.scope d.1 d.2) ||
  (s.frame f).rn.ops.any fun o => o.lastBeat < x.issue && o.foot.any fun row => s.inScope f x.scope none (row * 2048)

/-- A dropped write that a release covers and whose destination its scope holds (R329, R332). -/
def State.relCovers (s : State) (f : FrameNo) (x : Xfer) (d : Drop) : Bool :=
  s.inScope f x.scope d.device d.addr &&
    (match d.feeder, d.beat with
      | some k, b => if k = x.feeder then d.id < x.id else (match b with | some b => b ≤ x.issue | none => false)
      | none, some b => b < x.issue
      | none, none => false)

/-- An earlier release of the same Feeder whose update is under way to the same flag of this device, whether its
REMOTE bit is set or not (R331). -/
def State.flagAhead (s : State) (x : Xfer) : Bool :=
  let here (y : Xfer) : Bool := match y.device with | some d => d == s.carry.self | none => true
  here x && s.xfers.any fun y => y.kind == .rel && y.sent && here y && y.frame == x.frame && y.feeder == x.feeder &&
    y.tframe == x.tframe && y.flag == x.flag && y.id < x.id

/-- A release is not before its turn: no earlier one of its Feeder waits, and no FLAG of its Feeder to the same flag
of that device is unanswered, whatever its operation (R331, R397). -/
def State.relTurn (s : State) (x : Xfer) : Bool :=
  (s.xfers.all fun y => !(y.kind == .rel && y.frame == x.frame && y.feeder == x.feeder && y.id < x.id && !y.sent)) &&
    (match x.device with
      | some d => !s.flagAhead x &&
          !(s.asked x d fun k => k.ptype == tFlag && k.addr % 2 ^ 16 == (flagPacket x d).addr % 2 ^ 16)
      | none => true)

/-- The release sends its update, or is suppressed (R330, R332). -/
def State.sendRelease (s : State) (f : FrameNo) (x : Xfer) : State :=
  if (s.frame f).rn.drops.any (s.relCovers f x) then
    let t := s.updFrame f fun fr => { fr with
      rn := { fr.rn with drops := fr.rn.drops.filter fun d => !s.relCovers f x d }
      reg := { fr.reg with suppressed := true } }
    ((t.report x.run Codes.releaseSuppressed f.val).dropXfer x.id).runFeeders
  else
    let t := s.updXfer x.id fun y => { y with sent := true }
    match x.device with
    | some d => (t.sendReq (.flag x.id) x.feeder (flagPacket x d)).pumpAll
    | none => t

/-- RELEASE_UPDATE_SEND. -/
def execReleaseUpdateSend (id : Nat) (s : State) : Host.Outcome State Fault Refusal :=
  match s.xfer? id with
  | some x =>
    match frameNo? x.frame with
    | some f => guardStep (x.kind == .rel && !x.sent && !s.relCancelled x && !s.relWaits f x && s.relTurn x) s (s.sendRelease f x)
    | none => .next s
  | none => .next s

/-- A flag update of this device reaches its home (R241, R349). -/
def State.flagHome (s : State) (x : Xfer) (g : FrameNo) : State :=
  if (s.frame g).gone ∨ (s.holder g).map (·.val) ≠ some x.func then
    (s.refuseFlag g).event x.run Codes.flagRefused x.frame
  else if !s.powered g then s.report x.run Codes.domainOffAccess x.frame
  else s.putFlag g x.flag (x.fop == 1) (BitVec.ofNat 32 x.value)

/-- FLAG_UPDATE_APPLY: a sent update is applied at the flag's home, those of one Feeder in order (R331, R336). -/
def execFlagUpdateApply (id : Nat) (s : State) : Host.Outcome State Fault Refusal :=
  match s.xfer? id with
  | some x =>
    match frameNo? x.tframe with
    | some g => guardStep (x.kind == .rel && x.sent && x.device.isNone && !s.flagAhead x) s (((s.flagHome x g).dropXfer id).runFeeders)
    | none => .next s
  | none => .next s

/-! ## Requests that reach this device (R400, R426, Table 12.9) -/

/-- CARRY_ACCEPT of the function that owns a target (Table 13.3). -/
def State.accepts (s : State) (owner func : Nat) : Bool :=
  match s.global.funcs[funcNo owner].carryAccept.toNat with
  | 1 => func == owner
  | 2 => true
  | _ => false

/-- The owner of a frame's words and flags. -/
def State.frameOwner (s : State) (g : FrameNo) : Nat := ((s.holder g).map (·.val)).getD 0

/-- The owner of a word of device memory: the VF whose partition holds it, or the PF. -/
def State.memOwner (s : State) (a : Nat) : Nat :=
  (((List.finRange 64).find? fun (n : FuncNo) =>
    n != 0 && s.global.funcs[n].enable && (s.partition n).1 ≤ a && a < (s.partition n).1 + (s.partition n).2).map (·.val)).getD 0

/-- The owner of a request's target, where it has one. -/
def State.targetOwner (s : State) (a : Nat) : Option Nat :=
  match s.place a with
  | .mem => some (s.memOwner a)
  | .spad g _ => some (s.frameOwner g)
  | _ => none

/-- A FLAG at its home. One from a frame of this device answers to the frame's function, any other to CARRY_ACCEPT
(R349). -/
def State.serveFlag (s : State) (k : Packet) : State × Code :=
  match frameNo? (k.addr % 64) with
  | none => (s, Codes.writeOob)
  | some g =>
    let taken : Bool := if k.src = s.carry.self then (s.holder g).map (·.val) == some k.func
      else s.accepts (s.frameOwner g) k.func
    if !taken || (s.frame g).gone then (s.refuseFlag g, Codes.flagRefused)
    else if !s.powered g then (s.offLog g, Codes.domainOffAccess)
    else (s.putFlag g (k.addr / 2 ^ 8 % 256) (k.addr / 2 ^ 16 % 2 == 1) (BitVec.ofNat 32 k.arg), 0)

/-- The row a WRITE carries. -/
def rowOfPacket (k : Packet) : RRow :=
  { addr := k.addr, bytes := k.data, mark := if k.poison then some {} else none, acc := k.acc, how := k.arg / 2 ^ 16 }

/-- A request of a frame of this device has written a line (R340). -/
def State.forgetOwn (s : State) (k : Packet) : State :=
  if k.src = s.carry.self then s.forget k.sframe (k.addr / 2048) else s

/-- A WRITE at its home. -/
def State.serveWrite (s : State) (k : Packet) : State × Code :=
  let r := rowOfPacket k
  match s.place k.addr with
  | .mem =>
    match s.memDrop k.addr k.data.length with
    | some c => (s.memArrive k.addr k.data r.mark, c)
    | none =>
      let t := if k.acc && (s.layerAt k.addr).isNone && (s.contribAt k.addr).isNone then s.putRow r
        else s.memArrive k.addr k.data r.mark
      (t.forgetOwn k, 0)
  | .spad _ _ =>
    let t := s.rowArrive k.src k.sframe r
    if t.2 = 0 then (if k.adv then t.1.advanceAt k.addr (k.arg % 2 ^ 13) else t.1, 0)
    else if t.2 = Codes.lostWrite then t
    else (t.1.log t.2 .carry {}, t.2)
  | _ => (s, Codes.writeOob)

/-- An ATOM at its home, with the old value and its poison. -/
def State.serveAtom (s : State) (k : Packet) : State × Code × Nat × Bool :=
  let a := bytesToNat (k.ext.take 4)
  let c := bytesToNat (k.ext.drop 4)
  let go (s : State) : State × Code × Nat × Bool :=
    let r := s.atomAt k.addr (k.arg % 8) a c (s.prime (k.arg / 2 ^ 8 % 2 ^ 8)).q.toNat
    (r.1, 0, r.2.1, r.2.2.isSome)
  let no (c : Code) : State × Code × Nat × Bool := (s.log c .carry {}, c, 0, false)
  match s.place k.addr with
  | .mem =>
    match s.memDrop k.addr 4 with
    | some c => ((s.countDrop k.addr).log c .carry {}, c, 0, false)
    | none =>
      let r := go s
      let old : Scalar := { value := BitVec.ofNat 32 r.2.2.1, poison := if r.2.2.2 then some {} else none }
      (if atomWrites (k.arg % 8) old c then r.1.forgetOwn k else r.1, r.2)
  | .spad g off =>
    if !s.powered g then no Codes.domainOffAccess
    else if (k.src = s.carry.self ∧ k.sframe = g.val) ∨ (s.openRemote g off).isSome then go s
    else no Codes.creditUnderflow
  | _ => no Codes.writeOob

/-- A request at its destination, the first row of Table 12.9 that applies: the state, the status, and an ATOM's old
value and poison. -/
def State.serveRequest (s : State) (k : Packet) : State × Code × Nat × Bool :=
  if s.inBypass then (s.log Codes.targetBypassed .carry {}, Codes.targetBypassed, 0, false)
  else if k.ptype = tFlag then
    let r := s.serveFlag k
    (r.1, r.2, 0, false)
  else
    match s.targetOwner k.addr with
    | none => (s.log Codes.writeOob .carry {}, Codes.writeOob, 0, false)
    | some o =>
      if !s.accepts o k.func then (s.log Codes.remoteRefused .carry {}, Codes.remoteRefused, 0, false)
      else if (s.sealOwner k.addr).isSome then (s, Codes.sealViolation, 0, false)
      else if k.ptype = tAtom then s.serveAtom k
      else
        let r := s.serveWrite k
        (r.1, r.2, 0, false)

/-- A contribution that the line's home holds back (R405). -/
def State.requestHeld (s : State) (k : Packet) : Bool :=
  k.ptype == tWrite && s.place k.addr == .mem && s.lineHeld k.addr

/-- REQUEST_ARRIVAL: the first request that is not held back is handled at its home and answered (R392, R400). -/
def execRequestArrival (s : State) : Host.Outcome State Fault Refusal :=
  match s.carry.atHome.find? fun k => !s.requestHeld k with
  | none => .next s
  | some k =>
    let t := { s with carry := { s.carry with atHome := s.carry.atHome.erase k } }
    let r := t.serveRequest k
    .next (r.1.route (response s.carry.self k r.2.1 r.2.2.1 r.2.2.2) none)

end Sys2Proof.Machine
end

