-- ==== Sys2Proof/Machine/BeatLaunch.lean ====
section
/-!
DEFINITION. The launch of a beat (R48 to R55): what becomes visible, the aborts and stops it makes (R252, R254, R480),
and the parts of programs that end and start.
-/

namespace Sys2Proof.Machine

open Sys2Proof

/-! ## Stops (R254) -/

/-- A destination word of what a stop cuts short holds its final value, or its old one, as a free value chooses (R254). -/
def cutWord (ctr a : Nat) : Bool := (Config.openByte ctr (a / 4 * 4)).getLsbD 0

/-- An operation that a stop cuts short: the words that hold their final values arrive at their homes. -/
def State.cutOp (s : State) (f : FrameNo) (o : EngOp) : State :=
  let cells := o.cells.filter fun c => cutWord s.freeCtr c.1
  let nibs := o.nibs.filter fun w => cutWord s.freeCtr w.addr
  let rows := cells.map (·.1 / 2048) ++ nibs.map (·.addr / 2048)
  { s with freeCtr := s.freeCtr + 1 }.commitOp f { o with
    cells, nibs, clears := [], foot := o.foot.filter (rows.contains ·)
    marks := o.marks.filter fun m => rows.contains m.1 || !o.foot.contains m.1 }

/-- ACC adds of a transfer arrive at their homes, in order; in a contribution window they are writes (R405). -/
def State.addAll (s : State) (x : Xfer) : List PWrite → State
  | [] => s
  | w :: ws =>
    let t := if s.place w.addr = .mem ∧ (s.contribAt w.addr).isSome then s.commitRow x (w.addr / 2048) [w]
      else s.addAt x w (ws.any fun v => v.addr / 2048 == w.addr / 2048)
    t.addAll x ws

/-- A row that a stop lets arrive, at its home in device memory or in a scratchpad of this device. -/
def State.cutRow (s : State) (x : Xfer) (r : RRow) : State :=
  if s.place r.addr ≠ .mem then s.takeRow x r
  else if r.acc && (s.layerAt r.addr).isNone && (s.contribAt r.addr).isNone then
    match dropCode (s.homeAccess (funcNo x.func) x.isSealed true r.addr) with
    | some c => s.dropWrite x c r.addr
    | none => (s.putRow r).forget x.frame (r.addr / 2048)
  else s.commitRow x (r.addr / 2048)
    (r.bytes.mapIdx fun k b => { addr := r.addr + k, value := b.toNat, size := 1, mark := r.mark })

/-- A transfer that a stop cancels: the words and rows that hold the transferred values arrive at their homes; rows for
other devices have not left. -/
def State.cutXfer (s : State) (x : Xfer) : State :=
  let keep (a : Nat) : Bool := cutWord s.freeCtr a
  let s := { s with freeCtr := s.freeCtr + 1 }
  let s := s.commitWrites x (x.writes.filter fun w => keep w.addr)
  let s := s.addAll x (x.accs.filter fun w => keep w.addr)
  (x.rows.filter fun r => s.stays r.dev && !r.sent && keep r.addr).foldl (fun (s : State) r => s.cutRow x r) s

/-- A stop takes effect on a run (R254): its engines halt, its other transfers are cancelled, and its frames
enter STOPPED. -/
def State.stopRun (s : State) (r : Run) : State :=
  let s := (framesOf r.frames).foldl (fun (s : State) f => (s.frame f).rn.ops.foldl (fun (s : State) o => s.cutOp f o) s) s
  let mine := s.xfers.filter fun x => x.run == r.id && !x.flying
  let s := mine.foldl (fun (s : State) x => s.cutXfer x) { s with xfers := s.xfers.filter fun x => x.run != r.id || x.flying }
  let s := s.mapFrames fun f fr =>
    if hasFrame r.frames f then
      { fr with
        seq := { fr.seq with state := .stopped, stopHit := fr.seq.stopHit || fr.seq.stopArm, stopArm := false }
        rn := { fr.rn with ops := [], wait := none, issued := true, held := false, stopped := true }
        done := fr.active }
    else fr
  s.updRun r.id fun r => { r with stopped := true, stopBeat := none }

/-- The stops that the launch makes (R254). -/
def State.takeStops (s : State) : State :=
  s.runs.foldl (fun (s : State) r =>
    match r.stopBeat with
    | some b => if r.live && r.startBeat + b + 1 == s.tally.count.toNat then s.stopRun r else s
    | none => s) s

/-! ## The launch -/

/-- What a launch does (R51 to R55, R218, R239, R246, R254, R480). -/
def State.launch (s : State) (ns : Nat) (last : BitVec 8) : State :=
  let window := s.closing
  let groupRuns := (s.runs.filter s.groupDue).map (·.id)
  let send := s.tally.formSend && !s.inBypass
  let s := s.gatherLanes
  let s := { s with tally := s.launchTally ns last, adm := s.launchAdmit }
  let s := s.logSplit
  let s := if send then s.sendTokens (-1) else s
  let count := s.tally.count.toNat
  let s := { s with
    vis := memSlice s.mem spadBase (64 * 0x1000000)
    visPoison := s.poison.filter fun p => spadBase ≤ p.1 * 2048 }
  let s := { s with frames := Vector.ofFn fun f => s.launchFrame window f }
  let s := { s with xfers := s.xfers.filter fun x =>
    (x.resultAt count window).isNone || (x.abandoned && x.kind == FKind.atom && x.sent) }
  let s := s.gateRuns.takeAborts
  let s := s.takeStops
  let s := (s.recheck).takeAborts
  ((s.markEnds).markStarts groupRuns).markIdle

/-- BEAT_LAUNCH: the Tally launches the next beat, `ns` after the last launch; `last` is the set of
conditions its arbiter recorded as met last (R48, R53). -/
def execBeatLaunch (ns : Nat) (last : BitVec 8) (s : State) : Host.Outcome State Fault Refusal :=
  guardStep (s.canLaunch ns) s (s.launch ns last)

end Sys2Proof.Machine
end

