-- ==== Sys2Proof/Machine/Protocols.lean ====
section
/-!
DEFINITION. The management port's protocols (R513): MCTP control, PLDM base, monitoring and firmware update, SPDM,
and the Drenil vendor messages of mailbox channel 1. The spec names the messages and cites the DMTF documents for
them; command numbers, completion codes and the order of a response's fields are PRESUMED (log entry 32). A response
is held as its message type, its command, its completion code and its payload.
-/

namespace Sys2Proof.Machine

open Sys2Proof

/-- The message is for this endpoint: its EID, or the null EID. -/
def State.mine (s : State) (dest : BitVec 8) : Bool := dest == s.mgmt.port.eid || dest == 0

/-- Firmware answers every protocol. -/
def State.answersAll (s : State) : Bool := s.mgmt.alive && !s.global.fault.orphan

/-- From B2 on the boot ROM answers MCTP control and Drenil messages (R550); nothing answers during a restart
(R502) or in orphan mode (R496). -/
def State.answersControl (s : State) : Bool :=
  !s.global.fault.orphan && !s.global.fault.restarting && (s.mgmt.alive || (2 ≤ s.boot.stage.toNat && !s.mgmt.activating))

/-- A response goes out. -/
def State.respond (s : State) (mtype cmd cc : Byte) (payload : List Byte) : State :=
  s.emit (.mctp s.mgmt.port.eid.toNat ([mtype, cmd, cc] ++ payload))

def State.updPort' (s : State) (g : MgmtPort → MgmtPort) : State :=
  { s with mgmt := { s.mgmt with port := g s.mgmt.port } }

/-! ## MCTP control (type 0x00) -/

/-- In orphan mode the hardwired responder answers the read that would fetch a response, at the port's address, with the
orphan record (R496); otherwise a message that the device answers, as `ok` says, makes `t` of the state. -/
def State.portAnswer (s : State) (ok : Bool) (t : State) : Host.Outcome State Fault Refusal :=
  let fr := s.global.fault
  .next (if fr.orphan && fr.orphanWait.isNone then s.emit (.orphanRecord (natToBytes 64 fr.orphanRec.toNat))
    else if ok then t else s)

/-- A control message is answered by what `t` makes of the state. -/
def State.control (s : State) (dest : BitVec 8) (t : State) : Host.Outcome State Fault Refusal :=
  s.portAnswer (s.mine dest && s.answersControl) t

/-- SET_ENDPOINT_ID: EIDs 0 and 0xFF are refused. -/
def execSetEndpointId (dest : BitVec 8) (eid : BitVec 8) (s : State) : Host.Outcome State Fault Refusal :=
  s.control dest
    (if eid = 0 ∨ eid = 255 then s.respond 0x00 0x01 0x02 []
     else (s.updPort' fun p => { p with eid }).respond 0x00 0x01 0x00 [0, eid, 0])

/-- GET_ENDPOINT_ID. -/
def execGetEndpointId (dest : BitVec 8) (s : State) : Host.Outcome State Fault Refusal :=
  s.control dest (s.respond 0x00 0x02 0x00 [s.mgmt.port.eid, 0, 0])

/-- GET_ENDPOINT_UUID. -/
def execGetEndpointUuid (dest : BitVec 8) (s : State) : Host.Outcome State Fault Refusal :=
  s.control dest (s.respond 0x00 0x03 0x00 (natToBytes 16 Config.endpointUuid.toNat))

/-- The message types of Table 16.5. -/
def mctpTypes : List Byte := [0x00, 0x01, 0x05, 0x7E]

/-- GET_MCTP_VERSION_SUPPORT: version 1.3 for the types supported. -/
def execGetMctpVersionSupport (dest : BitVec 8) (mtype : BitVec 8) (s : State) : Host.Outcome State Fault Refusal :=
  s.control dest
    (if mctpTypes.contains mtype || mtype == 255 then s.respond 0x00 0x04 0x00 [1, 0xF1, 0xF3, 0xF0, 0x00]
     else s.respond 0x00 0x04 0x80 [])

/-- GET_MESSAGE_TYPE_SUPPORT: every type but control. -/
def execGetMessageTypeSupport (dest : BitVec 8) (s : State) : Host.Outcome State Fault Refusal :=
  s.control dest (s.respond 0x00 0x05 0x00 [3, 0x01, 0x05, 0x7E])

/-- GET_VENDOR_DEFINED_MESSAGE_SUPPORT: one set, PCI vendor 0x1DE7. -/
def execGetVendorDefinedMessageSupport (dest : BitVec 8) (selector : BitVec 8) (s : State) :
    Host.Outcome State Fault Refusal :=
  s.control dest
    (if selector = 0 then s.respond 0x00 0x06 0x00 [0xFF, 0x00, 0x1D, 0xE7, 0x00, 0x00] else s.respond 0x00 0x06 0x02 [])

/-! ## PLDM base (DSP0240) -/

/-- A PLDM or SPDM message is answered by the firmware alone. -/
def State.managed (s : State) (dest : BitVec 8) (t : State) : Host.Outcome State Fault Refusal :=
  s.portAnswer (s.mine dest && s.answersAll) t

/-- The commands of a PLDM type: 0 base, 2 monitoring, 5 firmware update. -/
def pldmCommands (ptype : Nat) : List Nat :=
  if ptype = 0 then [0x02, 0x03, 0x04, 0x05]
  else if ptype = 2 then [0x0B, 0x11, 0x21, 0x51]
  else if ptype = 5 then [0x01, 0x02, 0x10, 0x13, 0x14, 0x15, 0x16, 0x17, 0x18, 0x1A, 0x1B, 0x1C, 0x1D]
  else []

/-- A bit for each number of a list, in `n` bytes. -/
def bitMap (n : Nat) (l : List Nat) : List Byte := natToBytes n ((l.map (2 ^ ·)).sum)

/-- GET_TID. -/
def execGetTid (dest : BitVec 8) (s : State) : Host.Outcome State Fault Refusal :=
  s.managed dest (s.respond 0x01 0x02 0x00 [Config.terminusId])

/-- GET_PLDM_VERSION. -/
def execGetPldmVersion (dest : BitVec 8) (ptype : BitVec 8) (s : State) : Host.Outcome State Fault Refusal :=
  s.managed dest
    (if (pldmCommands ptype.toNat).isEmpty then s.respond 0x01 0x03 0x83 []
     else s.respond 0x01 0x03 0x00 (natToBytes 4 (Config.pldmVersion ptype.toNat).toNat))

/-- GET_PLDM_TYPES. -/
def execGetPldmTypes (dest : BitVec 8) (s : State) : Host.Outcome State Fault Refusal :=
  s.managed dest (s.respond 0x01 0x04 0x00 (bitMap 8 [0, 2, 5]))

/-- GET_PLDM_COMMANDS. -/
def execGetPldmCommands (dest : BitVec 8) (ptype : BitVec 8) (s : State) : Host.Outcome State Fault Refusal :=
  s.managed dest
    (if (pldmCommands ptype.toNat).isEmpty then s.respond 0x01 0x05 0x83 []
     else s.respond 0x01 0x05 0x00 (bitMap 32 (pldmCommands ptype.toNat)))

/-! ## PLDM monitoring (DSP0248) -/

/-- Records 1 to 189 are the numeric sensors of Table 16.2; 190 to 192 the state sensors for lifecycle, RESTARTING
and ORPHAN. Sensor n is record n + 1. -/
def pdrCount : Nat := 192

/-- The fixed entity of a sensor's PDR: the device itself. -/
def pdrEntity : List Byte := natToBytes 2 45 ++ natToBytes 2 1 ++ natToBytes 2 0

/-- A numeric sensor PDR after its header (DSP0248): unit, resolution, tolerance, hysteresis, interval and full range by
the sensor's kind (Table 16.2, R505; log entry 32). -/
def numericPdr (i : Nat) : List Byte :=
  let thermal := i < 96
  let kind := if thermal then 0 else if i < 120 then 1 else if i < 121 then 2 else 3
  let unit : List Byte := [([2, 5, 6, 1] : List Byte).getD kind 0, ([0, 0xFD, 0xFF, 6] : List Byte).getD kind 0, if kind = 3 then 3 else 0]
  let tol : Byte := if thermal then 16 else 0
  let full := if thermal then natToBytes 2 0x7FFF ++ natToBytes 2 0x8000 else natToBytes 2 0xFFFF ++ natToBytes 2 0
  natToBytes 2 0 ++ natToBytes 2 i ++ pdrEntity ++ [0, 0] ++ unit ++ List.replicate 7 0 ++ [1, if thermal then 3 else 2] ++
    natToBytes 4 (if thermal then 0x3E000000 else 0x3F800000) ++ natToBytes 4 0 ++ natToBytes 2 0 ++ [tol, tol] ++
    natToBytes 2 (sensorMargin i).toNat ++ [0x09, 0] ++ natToBytes 4 0 ++
    natToBytes 4 (([0x3727C5AC, 0x3727C5AC, 0x38D1B717, 0x358637BD] : List Nat).getD kind 0) ++ full ++
    [if thermal then 3 else 2, 0] ++ natToBytes 6 0 ++ full ++ natToBytes 8 0

/-- A state sensor PDR after its header: one state set, of lifecycle's five states or of two. -/
def statePdr (i : Nat) : List Byte :=
  natToBytes 2 0 ++ natToBytes 2 i ++ pdrEntity ++ [0, 0, 1] ++ natToBytes 2 0x8000 ++ [1, if i = 189 then 0x1F else 0x03]

/-- The record of sensor `i`: its handle, version 1, its type, no change number, its length and its data. -/
def pdr (i : Nat) : List Byte :=
  let data := if i < 189 then numericPdr i else statePdr i
  natToBytes 4 (i + 1) ++ [1, if i < 189 then 2 else 4] ++ natToBytes 2 0 ++ natToBytes 2 data.length ++ data

/-- GET_PDR: a record, whole, and the handle of the next. -/
def execGetPdr (dest : BitVec 8) (record : Word) (s : State) : Host.Outcome State Fault Refusal :=
  let r := if record = 0 then 1 else record.toNat
  s.managed dest
    (if pdrCount < r then s.respond 0x01 0x51 0x82 []
     else s.respond 0x01 0x51 0x00
      (natToBytes 4 (if r = pdrCount then 0 else r + 1) ++ natToBytes 4 0 ++ [5] ++
        natToBytes 2 (pdr (r - 1)).length ++ pdr (r - 1)))

/-- GET_SENSOR_READING: whether a reading stands, WARN, and VALUE. -/
def execGetSensorReading (dest : BitVec 8) (sensor : BitVec 16) (s : State) : Host.Outcome State Fault Refusal :=
  s.managed dest
    (if h : sensor.toNat < 189 then
      let x := s.sensor ⟨sensor.toNat, h⟩
      s.respond 0x01 0x11 0x00 ([if x.valid then 0 else 2, BitVec.ofNat 8 (boolBit x.warn)] ++ natToBytes 4 (unsignedOf 32 x.value))
     else s.respond 0x01 0x11 0x80 [])

/-- GET_STATE_SENSOR_READINGS: lifecycle, RESTARTING or ORPHAN. -/
def execGetStateSensorReadings (dest : BitVec 8) (sensor : BitVec 16) (s : State) : Host.Outcome State Fault Refusal :=
  let state : Option Nat :=
    if sensor = 189 then some s.boot.fuses.lifecycle
    else if sensor = 190 then some (boolBit s.global.fault.restarting)
    else if sensor = 191 then some (boolBit s.global.fault.orphan) else none
  s.managed dest
    (match state with
     | some v => s.respond 0x01 0x21 0x00 [1, BitVec.ofNat 8 v]
     | none => s.respond 0x01 0x21 0x80 [])

/-- POLL_FOR_PLATFORM_EVENT_MESSAGE: the oldest event, which leaves the queue. -/
def execPollForPlatformEventMessage (dest : BitVec 8) (s : State) : Host.Outcome State Fault Refusal :=
  s.managed dest
    (match s.mgmt.port.events with
     | (n, c) :: rest =>
       (s.updPort' fun p => { p with events := rest }).respond 0x01 0x0B 0x00
         ([Config.terminusId] ++ natToBytes 4 n.toNat ++ natToBytes 2 c.toNat)
     | [] => s.respond 0x01 0x0B 0x00 ([Config.terminusId] ++ natToBytes 4 0 ++ natToBytes 2 0))

/-! ## PLDM firmware update (DSP0267) -/

/-- QUERY_DEVICE_IDENTIFIERS: the PCI vendor and device IDs. -/
def execQueryDeviceIdentifiers (dest : BitVec 8) (s : State) : Host.Outcome State Fault Refusal :=
  s.managed dest (s.respond 0x01 0x01 0x00 (natToBytes 2 0x1DE7 ++ natToBytes 2 0x7909))

/-- GET_FIRMWARE_PARAMETERS: VERSION and SVN of each component's committed slot, and its trial slot. -/
def execGetFirmwareParameters (dest : BitVec 8) (s : State) : Host.Outcome State Fault Refusal :=
  s.managed dest (s.respond 0x01 0x02 0x00 (([1, 2, 3] : List Nat).flatMap fun c =>
    let v := s.slotVersion c (s.slots c).committed
    natToBytes 2 c ++ natToBytes 4 v.1 ++ natToBytes 4 v.2 ++ natToBytes 1 (s.slots c).trial))

/-- REQUEST_UPDATE: an update session begins, in a state that allows FW_BEGIN. -/
def execRequestUpdate (dest : BitVec 8) (s : State) : Host.Outcome State Fault Refusal :=
  s.managed dest
    (if s.mgmt.port.pldm ≠ .idle then s.respond 0x01 0x10 0x81 []
     else if !mbAllowed 0x10 s.boot.fuses.lifecycle then s.mbLocked.2.2.respond 0x01 0x10 0x8A []
     else (s.updPort' fun p => { p with pldm := .learn, table := [], ready := [] }).respond 0x01 0x10 0x00 [])

/-- The answer to an update command out of its state. -/
def State.wrongState (s : State) (cmd : Byte) : State :=
  s.respond 0x01 cmd (if s.mgmt.port.pldm = .idle then 0x80 else 0x84) []

/-- PASS_COMPONENT_TABLE: the components of the session, 1 to 3. -/
def execPassComponentTable (dest : BitVec 8) (comps : List (BitVec 16)) (s : State) : Host.Outcome State Fault Refusal :=
  let table := (comps.map (·.toNat)).filter fun c => 1 ≤ c && c ≤ 3
  s.managed dest
    (if s.mgmt.port.pldm = .learn then
      (s.updPort' fun p => { p with pldm := .readyXfer, table }).respond 0x01 0x13 0x00 []
     else s.wrongState 0x13)

/-- The device asks for a component's next bytes. -/
def State.pull (s : State) : State :=
  s.emit (.mctp s.mgmt.port.eid.toNat ([0x01, 0x15] ++ natToBytes 4 s.mgmt.port.offset ++ natToBytes 4 1024))

/-- UPDATE_COMPONENT: staging begins, and the device pulls the image (R528). -/
def execUpdateComponent (dest : BitVec 8) (comp : BitVec 16) (size : Word) (s : State) : Host.Outcome State Fault Refusal :=
  s.managed dest
    (if s.mgmt.port.pldm ≠ .readyXfer then s.wrongState 0x14
     else match (if s.mgmt.port.table.contains comp.toNat then s.stage comp.toNat size.toNat else none) with
      | some t =>
        ((t.updPort' fun p => { p with pldm := .download, comp := comp.toNat, offset := 0 }).respond 0x01 0x14 0x00 [0]).pull
      | none => s.respond 0x01 0x14 0x00 [1])

/-- TransferComplete, VerifyComplete and ApplyComplete, which the device sends (R528). -/
def State.endTransfer (s : State) (g : Staging) : State :=
  let note (s : State) (cmd : Byte) (r : Nat) : State := s.emit (.mctp s.mgmt.port.eid.toNat [0x01, cmd, BitVec.ofNat 8 r])
  let s := note s 0x16 0
  let r := s.verifyStaged g
  let s := note r.2 0x17 r.1
  let s := if r.1 = 0 then note s 0x18 0 else s
  s.updPort' fun p => { p with pldm := .readyXfer, ready := if r.1 = 0 then p.ready ++ [g.comp] else p.ready }

/-- REQUEST_FIRMWARE_DATA: the response to the device's request brings bytes of the image. -/
def execRequestFirmwareData (bytes : List Byte) (transferDone : Bool) (s : State) : Host.Outcome State Fault Refusal :=
  match s.mgmt.staging with
  | some g =>
    let p := s.mgmt.port
    let data := bytes.take (g.size - p.offset)
    let t := s.flashWrite ((s.slotSpan g.comp g.slot).1 + p.offset) data
    let t := t.updPort' fun p => { p with offset := p.offset + data.length }
    guardStep (p.pldm == .download && s.answersAll) s (if transferDone then t.endTransfer g else t.pull)
  | none => .next s

/-- ACTIVATE_FIRMWARE: components verified become TRIAL for the next device reset (R529). -/
def execActivateFirmware (dest : BitVec 8) (s : State) : Host.Outcome State Fault Refusal :=
  s.managed dest
    (if s.mgmt.port.pldm = .readyXfer then
      let s := s.mgmt.port.ready.foldl (fun (t : State) c => t.activate { comp := c, slot := t.freeSlot c, verified := true } false) s
      (s.updPort' fun p => { p with pldm := .idle, table := [], ready := [] }).respond 0x01 0x1A 0x00 []
     else s.wrongState 0x1A)

/-- The number of an update state. -/
def PldmState.num : PldmState → Nat
  | .idle => 0 | .learn => 1 | .readyXfer => 2 | .download => 3 | .verify => 4 | .apply => 5 | .activate => 6

/-- GET_STATUS. -/
def execGetStatus (dest : BitVec 8) (s : State) : Host.Outcome State Fault Refusal :=
  s.managed dest (s.respond 0x01 0x1B 0x00 [BitVec.ofNat 8 s.mgmt.port.pldm.num])

/-- CANCEL_UPDATE: the session ends. -/
def execCancelUpdate (dest : BitVec 8) (s : State) : Host.Outcome State Fault Refusal :=
  s.managed dest
    (if s.mgmt.port.pldm = .idle then s.wrongState 0x1D
     else
      let s := { s with mgmt := { s.mgmt with staging := none } }
      (s.updPort' fun p => { p with pldm := .idle, table := [], ready := [] }).respond 0x01 0x1D 0x00 [])

/-- CANCEL_UPDATE_COMPONENT: the component being staged is given up. -/
def execCancelUpdateComponent (dest : BitVec 8) (s : State) : Host.Outcome State Fault Refusal :=
  s.managed dest
    (if s.mgmt.port.pldm = .download then
      let s := { s with mgmt := { s.mgmt with staging := none } }
      (s.updPort' fun p => { p with pldm := .readyXfer }).respond 0x01 0x1C 0x00 []
     else s.wrongState 0x1C)

/-! ## SPDM (type 0x05, DSP0274) -/

/-- An SPDM error response. -/
def State.spdmError (s : State) (code : Byte) : State := s.respond 0x05 0x7F code []

/-- An SPDM request is answered; once the device is RETIRED, with an error (R516). -/
def State.spdm (s : State) (dest : BitVec 8) (ready : Bool) (t : State) : Host.Outcome State Fault Refusal :=
  s.managed dest (if s.boot.fuses.killed then s.spdmError 0x05 else if ready then t else s.spdmError 0x04)

/-- GET_VERSION: version 1.2; a connection begins. -/
def execGetVersion (dest : BitVec 8) (s : State) : Host.Outcome State Fault Refusal :=
  s.spdm dest true ((s.updPort' fun p => { p with spdmVersion := true, spdmCaps := false, spdmAlgs := false }).respond 0x05 0x04 0x00 [0x00, 0x12])

/-- GET_CAPABILITIES: certificates, challenge and signed measurements. -/
def execGetCapabilities (dest : BitVec 8) (s : State) : Host.Outcome State Fault Refusal :=
  s.spdm dest s.mgmt.port.spdmVersion ((s.updPort' fun p => { p with spdmCaps := true }).respond 0x05 0x61 0x00 (natToBytes 4 0x16))

/-- NEGOTIATE_ALGORITHMS: only ECDSA P-384 with SHA-384 (Table 16.5). -/
def execNegotiateAlgorithms (dest : BitVec 8) (p384 sha384 : Bool) (s : State) : Host.Outcome State Fault Refusal :=
  s.spdm dest s.mgmt.port.spdmCaps
    (if p384 && sha384 then (s.updPort' fun p => { p with spdmAlgs := true }).respond 0x05 0x63 0x00 [0x80, 0x02] else s.spdmError 0x01)

/-- The certificate chain of slot 0. -/
def State.certChain (s : State) : List Byte := s.flashRead s.certSpan.1 s.certSpan.2

/-- GET_DIGESTS. -/
def execGetDigests (dest : BitVec 8) (s : State) : Host.Outcome State Fault Refusal :=
  s.spdm dest s.mgmt.port.spdmAlgs (s.respond 0x05 0x01 0x00 (sha384 s.certChain))

/-- GET_CERTIFICATE: bytes of the chain; only slot 0. -/
def execGetCertificate (dest : BitVec 8) (slot : BitVec 8) (offset length : BitVec 16) (s : State) :
    Host.Outcome State Fault Refusal :=
  s.spdm dest s.mgmt.port.spdmAlgs
    (if slot = 0 ∧ offset.toNat < s.certSpan.2 then
      s.respond 0x05 0x02 0x00 (s.flashRead (s.certSpan.1 + offset.toNat) (min length.toNat (s.certSpan.2 - offset.toNat)))
     else s.spdmError 0x01)

/-- An answer signed over the requester's nonce, a nonce of the device and what it says (R514). -/
def State.signedAnswer (s : State) (cmd : Byte) (nonce : BitVec 256) (said : List Byte) : State :=
  match s.security with
  | (some x, t) =>
    let own := natToBytes 32 (x.toNat % 2 ^ 256)
    (match t.identitySign (natToBytes 32 nonce.toNat ++ own ++ said) with
     | some sig => t.respond 0x05 cmd 0x00 (own ++ said ++ sig)
     | none => t.spdmError 0x05)
  | (none, t) => t.spdmError 0x03

/-- CHALLENGE: the chain's digest, signed. -/
def execChallenge (dest : BitVec 8) (slot : BitVec 8) (nonce : BitVec 256) (s : State) : Host.Outcome State Fault Refusal :=
  s.spdm dest s.mgmt.port.spdmAlgs
    (if slot = 0 then s.signedAnswer 0x03 nonce (sha384 s.certChain) else s.spdmError 0x01)

/-- SPDM_GET_MEASUREMENTS: index 0 asks for their number, 1 to 6 for one, 0xFF for all (R514). -/
def execSpdmGetMeasurements (dest : BitVec 8) (index : BitVec 8) (nonce : BitVec 256) (s : State) :
    Host.Outcome State Fault Refusal :=
  let blocks := s.measureBlocks
  s.spdm dest s.mgmt.port.spdmAlgs
    (if index = 0 then s.respond 0x05 0x60 0x00 [6]
     else if index = 255 then s.signedAnswer 0x60 nonce blocks.flatten
     else match blocks[index.toNat - 1]? with
      | some b => s.signedAnswer 0x60 nonce b
      | none => s.spdmError 0x01)

/-! ## Drenil vendor messages, and what is not supported -/

/-- DRENIL_VENDOR_MESSAGE: a command on channel 1; one that comes while it is BUSY is ignored (R510). -/
def execDrenilVendorMessage (dest : BitVec 8) (opcode : BitVec 8) (request : List Byte) (s : State) :
    Host.Outcome State Fault Refusal :=
  let b := s.mgmt.mb[(1 : Fin 2)]
  let t := { s with mgmt := { s.mgmt with
    mb := s.mgmt.mb.set 1 { b with opcode, len := BitVec.ofNat 13 request.length, data := request } } }
  s.portAnswer (s.mine dest && s.answersControl && !b.busy && request.length ≤ 4096) (t.go 1)

/-- A type and command of Table 16.5; a PLDM command has its PLDM type above it. -/
def supportedMessage (mtype : Nat) (command : BitVec 16) : Bool :=
  let pldm := command.toNat / 256
  let command := command.toNat % 256
  match mtype with
  | 0x00 => 1 ≤ command && command ≤ 6
  | 0x01 => (pldmCommands pldm).contains command
  | 0x05 => [0x84, 0xE1, 0xE3, 0x81, 0x82, 0x83, 0xE0].contains command
  | 0x7E => true
  | _ => false

/-- UNSUPPORTED_MCTP_MESSAGE: control and PLDM commands are answered ERROR_UNSUPPORTED_CMD, SPDM requests with an
error; a message of another type is dropped. -/
def execUnsupportedMctpMessage (dest mtype : BitVec 8) (command : BitVec 16) (s : State) : Host.Outcome State Fault Refusal :=
  let cmd : Byte := command.setWidth 8
  let t :=
    if mtype = 0x00 then s.respond 0x00 cmd 0x05 []
    else if mtype = 0x01 ∧ s.answersAll then s.respond 0x01 cmd 0x05 []
    else if mtype = 0x05 ∧ s.answersAll then s.spdmError 0x07
    else s
  s.portAnswer (s.mine dest && s.answersControl && !supportedMessage mtype.toNat command) t

end Sys2Proof.Machine
end

