-- ==== Sys2Proof/Machine/Dispatch.lean ====
section
/-!
DEFINITION. One arm for each command: its meaning, or its rejection by name.
-/

namespace Sys2Proof.Machine

open Sys2Proof

def exec (i : Instr) (s : State) : Host.Outcome State Fault Refusal :=
  match i with
  | .beatLaunch ns last => Sys2Proof.Machine.execBeatLaunch ns last s
  | .frameBeatComplete f => Sys2Proof.Machine.execFrameBeatComplete f s
  | .phaseGroupStart => Sys2Proof.Machine.execPhaseGroupStart s
  | .admissionGrant => Sys2Proof.Machine.execAdmissionGrant s
  | .beatWatchdog => Sys2Proof.Machine.execBeatWatchdog s
  | .tallyRun run => Sys2Proof.Machine.execTallyRun run s
  | .strClear => Sys2Proof.Machine.execStrClear s
  | .markArm high => Sys2Proof.Machine.execMarkArm high s
  | .timebaseEdge => Sys2Proof.Machine.execTimebaseEdge s
  | .tbHoldover => Sys2Proof.Machine.execTbHoldover s
  | .syncInEdge => Sys2Proof.Machine.execSyncInEdge s
  | .loadNow => Sys2Proof.Machine.execLoadNow s
  | .loadArm => Sys2Proof.Machine.execLoadArm s
  | .syncOutPeriodic => Sys2Proof.Machine.execSyncOutPeriodic s
  | .form => Sys2Proof.Machine.execForm s
  | .leave => Sys2Proof.Machine.execLeave s
  | .junctionTokenSend => Sys2Proof.Machine.execJunctionTokenSend s
  | .junctionTokenReceive => Sys2Proof.Machine.execJunctionTokenReceive s
  | .junctionExpired => Sys2Proof.Machine.execJunctionExpired s
  | .primeCommit index rootLog => Sys2Proof.Machine.execPrimeCommit index rootLog s
  | .primeCommitComplete => Sys2Proof.Machine.execPrimeCommitComplete s
  | .nop f => Sys2Proof.Machine.execNop f s
  | .endWord f => Sys2Proof.Machine.execEndWord f s
  | .br f => Sys2Proof.Machine.execBr f s
  | .loop f => Sys2Proof.Machine.execLoop f s
  | .sop f => Sys2Proof.Machine.execSop f s
  | .flagSet f => Sys2Proof.Machine.execFlagSet f s
  | .flagWait f => Sys2Proof.Machine.execFlagWait f s
  | .flagAcq f => Sys2Proof.Machine.execFlagAcq f s
  | .waitExpired f => Sys2Proof.Machine.execWaitExpired f s
  | .ldrop f => Sys2Proof.Machine.execLdrop f s
  | .nttF f => Sys2Proof.Machine.execNttF f s
  | .nttI f => Sys2Proof.Machine.execNttI f s
  | .bconv f => Sys2Proof.Machine.execBconv f s
  | .ksip f => Sys2Proof.Machine.execKsip f s
  | .pmat f => Sys2Proof.Machine.execPmat f s
  | .lchain f => Sys2Proof.Machine.execLchain f s
  | .lexp f => Sys2Proof.Machine.execLexp f s
  | .lred f => Sys2Proof.Machine.execLred f s
  | .smulOpen f => Sys2Proof.Machine.execSmulOpen f s
  | .smulClose f => Sys2Proof.Machine.execSmulClose f s
  | .sreshare f => Sys2Proof.Machine.execSreshare f s
  | .nflood f => Sys2Proof.Machine.execNflood f s
  | .encPk f => Sys2Proof.Machine.execEncPk f s
  | .sexport f => Sys2Proof.Machine.execSexport f s
  | .simport f => Sys2Proof.Machine.execSimport f s
  | .aut f => Sys2Proof.Machine.execAut f s
  | .trp f => Sys2Proof.Machine.execTrp f s
  | .kregen f => Sys2Proof.Machine.execKregen f s
  | .xfer f => Sys2Proof.Machine.execXfer f s
  | .kstream f => Sys2Proof.Machine.execKstream f s
  | .flagRel f => Sys2Proof.Machine.execFlagRel f s
  | .atom f => Sys2Proof.Machine.execAtom f s
  | .sld f => Sys2Proof.Machine.execSld f s
  | .feederAccept f => Sys2Proof.Machine.execFeederAccept f s
  | .wordFetch f => Sys2Proof.Machine.execWordFetch f s
  | .engineOperationEnd f te fail => Sys2Proof.Machine.execEngineOperationEnd f te fail s
  | .transferLanded id => Sys2Proof.Machine.execTransferLanded id s
  | .remoteRowArrival id => Sys2Proof.Machine.execRemoteRowArrival id s
  | .grantApply id => Sys2Proof.Machine.execGrantApply id s
  | .accWriteApply id => Sys2Proof.Machine.execAccWriteApply id s
  | .atomApply id => Sys2Proof.Machine.execAtomApply id s
  | .sldHomeRead id => Sys2Proof.Machine.execSldHomeRead id s
  | .rrcFill f line => Sys2Proof.Machine.execRrcFill f line s
  | .releaseUpdateSend id => Sys2Proof.Machine.execReleaseUpdateSend id s
  | .flagUpdateApply id => Sys2Proof.Machine.execFlagUpdateApply id s
  | .pfFlagWrite f flag value => Sys2Proof.Machine.execPfFlagWrite f flag value s
  | .programStart run => Sys2Proof.Machine.execProgramStart run s
  | .framePartEnd f => Sys2Proof.Machine.execFramePartEnd f s
  | .programAbort run => Sys2Proof.Machine.execProgramAbort run s
  | .beatStopArm f beat => Sys2Proof.Machine.execBeatStopArm f beat s
  | .beatStopRelease f => Sys2Proof.Machine.execBeatStopRelease f s
  | .sealSet => Sys2Proof.Machine.execSealSet s
  | .sealRelease => Sys2Proof.Machine.execSealRelease s
  | .sealOpComplete => Sys2Proof.Machine.execSealOpComplete s
  | .regionFree f number => Sys2Proof.Machine.execRegionFree f number s
  | .regionFreeComplete f => Sys2Proof.Machine.execRegionFreeComplete f s
  | .spadXferGo f first rows toMem => Sys2Proof.Machine.execSpadXferGo f first rows toMem s
  | .spadXferComplete f => Sys2Proof.Machine.execSpadXferComplete f s
  | .frameWipeComplete f => Sys2Proof.Machine.execFrameWipeComplete f s
  | .memcWipeGo => Sys2Proof.Machine.execMemcWipeGo s
  | .wipeComplete k => Sys2Proof.Machine.execWipeComplete k s
  | .heldAccessRelease => Sys2Proof.Machine.execHeldAccessRelease s
  | .wipePending => Sys2Proof.Machine.execWipePending s
  | .scrubRead port ce ue => Sys2Proof.Machine.execScrubRead port ce ue s
  | .memRetrain port => Sys2Proof.Machine.execMemRetrain port s
  | .hostBar2Read func offset len tag => Sys2Proof.Machine.execHostBar2Read func offset len tag s
  | .hostBar2Write func offset bytes ep => Sys2Proof.Machine.execHostBar2Write func offset bytes ep s
  | .masDefine layer => Sys2Proof.Machine.execMasDefine layer s
  | .masOpen layer => Sys2Proof.Machine.execMasOpen layer s
  | .masClose layer => Sys2Proof.Machine.execMasClose layer s
  | .closingDone layer => Sys2Proof.Machine.execClosingDone layer s
  | .masStep layer clearM solo => Sys2Proof.Machine.execMasStep layer clearM solo s
  | .masRelease layer => Sys2Proof.Machine.execMasRelease layer s
  | .etaWrite layer eta => Sys2Proof.Machine.execEtaWrite layer eta s
  | .stepsWrite layer steps => Sys2Proof.Machine.execStepsWrite layer steps s
  | .ingestAdd layer addr bytes poison => Sys2Proof.Machine.execIngestAdd layer addr bytes poison s
  | .voteResult layer => Sys2Proof.Machine.execVoteResult layer s
  | .stepVoteExpired layer => Sys2Proof.Machine.execStepVoteExpired layer s
  | .stepComplete layer => Sys2Proof.Machine.execStepComplete layer s
  | .flitReceive port decodes flit => Sys2Proof.Machine.execFlitReceive port decodes flit s
  | .packetRoute => Sys2Proof.Machine.execPacketRoute s
  | .requestArrival => Sys2Proof.Machine.execRequestArrival s
  | .responseArrival => Sys2Proof.Machine.execResponseArrival s
  | .ackTimeout tag => Sys2Proof.Machine.execAckTimeout tag s
  | .portEnable port enable => Sys2Proof.Machine.execPortEnable port enable s
  | .equalizeDone port => Sys2Proof.Machine.execEqualizeDone port s
  | .alignDone port good => Sys2Proof.Machine.execAlignDone port good s
  | .ident port peerRole peerDev peerProfile => Sys2Proof.Machine.execIdent port peerRole peerDev peerProfile s
  | .retrain port => Sys2Proof.Machine.execRetrain port s
  | .linkHoldExpiry port => Sys2Proof.Machine.execLinkHoldExpiry port s
  | .downRetry port => Sys2Proof.Machine.execDownRetry port s
  | .laneLockLoss port lane spareTrained => Sys2Proof.Machine.execLaneLockLoss port lane spareTrained s
  | .laneSwap port lane spare => Sys2Proof.Machine.execLaneSwap port lane spare s
  | .bypass on => Sys2Proof.Machine.execBypass on s
  | .ping port => Sys2Proof.Machine.execPing port s
  | .timePingReceive => Sys2Proof.Machine.execTimePingReceive s
  | .timeEchoReceive => Sys2Proof.Machine.execTimeEchoReceive s
  | .rsArm set => Sys2Proof.Machine.execRsArm set s
  | .rsDisarm set => Sys2Proof.Machine.execRsDisarm set s
  | .contribution set addr bytes poison => Sys2Proof.Machine.execContribution set addr bytes poison s
  | .redReceive => Sys2Proof.Machine.execRedReceive s
  | .reddownReceive => Sys2Proof.Machine.execReddownReceive s
  | .redLineTimeout set line => Sys2Proof.Machine.execRedLineTimeout set line s
  | .sqTail func q tail => Sys2Proof.Machine.execSqTail func q tail s
  | .cqHead func q head => Sys2Proof.Machine.execCqHead func q head s
  | .queueEnable func cq q enable => Sys2Proof.Machine.execQueueEnable func cq q enable s
  | .recordFetch func q records dmaFault => Sys2Proof.Machine.execRecordFetch func q records dmaFault s
  | .load => Sys2Proof.Machine.execLoad s
  | .unload => Sys2Proof.Machine.execUnload s
  | .bind => Sys2Proof.Machine.execBind s
  | .unbind => Sys2Proof.Machine.execUnbind s
  | .launch => Sys2Proof.Machine.execLaunch s
  | .hcopy => Sys2Proof.Machine.execHcopy s
  | .hcopyComplete rec data ep dmaFault => Sys2Proof.Machine.execHcopyComplete rec data ep dmaFault s
  | .launchAdmit => Sys2Proof.Machine.execLaunchAdmit s
  | .completionRecordWrite k => Sys2Proof.Machine.execCompletionRecordWrite k s
  | .coalTimeExpiry func q => Sys2Proof.Machine.execCoalTimeExpiry func q s
  | .funcEnable func => Sys2Proof.Machine.execFuncEnable func s
  | .functionReset func => Sys2Proof.Machine.execFunctionReset func s
  | .pfFunctionReset => Sys2Proof.Machine.execPfFunctionReset s
  | .budgetWrite budget => Sys2Proof.Machine.execBudgetWrite budget s
  | .budgetStale => Sys2Proof.Machine.execBudgetStale s
  | .cntClear => Sys2Proof.Machine.execCntClear s
  | .thermalScan => Sys2Proof.Machine.execThermalScan s
  | .forceDrainExpiry domain => Sys2Proof.Machine.execForceDrainExpiry domain s
  | .domainOn domain => Sys2Proof.Machine.execDomainOn domain s
  | .domainRetain domain => Sys2Proof.Machine.execDomainRetain domain s
  | .domainOff domain => Sys2Proof.Machine.execDomainOff domain s
  | .domainTransitionComplete => Sys2Proof.Machine.execDomainTransitionComplete s
  | .gateWaitExpiry => Sys2Proof.Machine.execGateWaitExpiry s
  | .vcoreSet rail point => Sys2Proof.Machine.execVcoreSet rail point s
  | .remap f => Sys2Proof.Machine.execRemap f s
  | .remapComplete f => Sys2Proof.Machine.execRemapComplete f s
  | .healthClear f => Sys2Proof.Machine.execHealthClear f s
  | .faultRingHead head => Sys2Proof.Machine.execFaultRingHead head s
  | .alertClr => Sys2Proof.Machine.execAlertClr s
  | .reckonerWatchdog lockstep => Sys2Proof.Machine.execReckonerWatchdog lockstep s
  | .watchdogKick => Sys2Proof.Machine.execWatchdogKick s
  | .alive => Sys2Proof.Machine.execAlive s
  | .budgetUpdate meanAu pkgMw => Sys2Proof.Machine.execBudgetUpdate meanAu pkgMw s
  | .sensorSample sensor value => Sys2Proof.Machine.execSensorSample sensor value s
  | .logFlush => Sys2Proof.Machine.execLogFlush s
  | .drbgReseed die => Sys2Proof.Machine.execDrbgReseed die s
  | .entropyHealth => Sys2Proof.Machine.execEntropyHealth s
  | .getInfo => Sys2Proof.Machine.execGetInfo s
  | .readSensors => Sys2Proof.Machine.execReadSensors s
  | .setThreshold => Sys2Proof.Machine.execSetThreshold s
  | .readLog => Sys2Proof.Machine.execReadLog s
  | .setPower => Sys2Proof.Machine.execSetPower s
  | .fwBegin => Sys2Proof.Machine.execFwBegin s
  | .fwWrite => Sys2Proof.Machine.execFwWrite s
  | .fwVerify => Sys2Proof.Machine.execFwVerify s
  | .fwActivate => Sys2Proof.Machine.execFwActivate s
  | .fwCommitSvn => Sys2Proof.Machine.execFwCommitSvn s
  | .trialCommit => Sys2Proof.Machine.execTrialCommit s
  | .lcNonce => Sys2Proof.Machine.execLcNonce s
  | .lcSet => Sys2Proof.Machine.execLcSet s
  | .sessionAgree => Sys2Proof.Machine.execSessionAgree s
  | .sessionClear => Sys2Proof.Machine.execSessionClear s
  | .getCert => Sys2Proof.Machine.execGetCert s
  | .getMeasurements => Sys2Proof.Machine.execGetMeasurements s
  | .drenilVendorMessage dest opcode request => Sys2Proof.Machine.execDrenilVendorMessage dest opcode request s
  | .setEndpointId dest eid => Sys2Proof.Machine.execSetEndpointId dest eid s
  | .getEndpointId dest => Sys2Proof.Machine.execGetEndpointId dest s
  | .getEndpointUuid dest => Sys2Proof.Machine.execGetEndpointUuid dest s
  | .getMctpVersionSupport dest mtype => Sys2Proof.Machine.execGetMctpVersionSupport dest mtype s
  | .getMessageTypeSupport dest => Sys2Proof.Machine.execGetMessageTypeSupport dest s
  | .getVendorDefinedMessageSupport dest selector => Sys2Proof.Machine.execGetVendorDefinedMessageSupport dest selector s
  | .getTid dest => Sys2Proof.Machine.execGetTid dest s
  | .getPldmVersion dest ptype => Sys2Proof.Machine.execGetPldmVersion dest ptype s
  | .getPldmTypes dest => Sys2Proof.Machine.execGetPldmTypes dest s
  | .getPldmCommands dest ptype => Sys2Proof.Machine.execGetPldmCommands dest ptype s
  | .getPdr dest record => Sys2Proof.Machine.execGetPdr dest record s
  | .getSensorReading dest sensor => Sys2Proof.Machine.execGetSensorReading dest sensor s
  | .getStateSensorReadings dest sensor => Sys2Proof.Machine.execGetStateSensorReadings dest sensor s
  | .pollForPlatformEventMessage dest => Sys2Proof.Machine.execPollForPlatformEventMessage dest s
  | .queryDeviceIdentifiers dest => Sys2Proof.Machine.execQueryDeviceIdentifiers dest s
  | .getFirmwareParameters dest => Sys2Proof.Machine.execGetFirmwareParameters dest s
  | .requestUpdate dest => Sys2Proof.Machine.execRequestUpdate dest s
  | .passComponentTable dest comps => Sys2Proof.Machine.execPassComponentTable dest comps s
  | .updateComponent dest comp size => Sys2Proof.Machine.execUpdateComponent dest comp size s
  | .requestFirmwareData bytes transferDone => Sys2Proof.Machine.execRequestFirmwareData bytes transferDone s
  | .activateFirmware dest => Sys2Proof.Machine.execActivateFirmware dest s
  | .getStatus dest => Sys2Proof.Machine.execGetStatus dest s
  | .cancelUpdate dest => Sys2Proof.Machine.execCancelUpdate dest s
  | .cancelUpdateComponent dest => Sys2Proof.Machine.execCancelUpdateComponent dest s
  | .getVersion dest => Sys2Proof.Machine.execGetVersion dest s
  | .getCapabilities dest => Sys2Proof.Machine.execGetCapabilities dest s
  | .negotiateAlgorithms dest p384 sha384 => Sys2Proof.Machine.execNegotiateAlgorithms dest p384 sha384 s
  | .getDigests dest => Sys2Proof.Machine.execGetDigests dest s
  | .getCertificate dest slot offset length => Sys2Proof.Machine.execGetCertificate dest slot offset length s
  | .challenge dest slot nonce => Sys2Proof.Machine.execChallenge dest slot nonce s
  | .spdmGetMeasurements dest index nonce => Sys2Proof.Machine.execSpdmGetMeasurements dest index nonce s
  | .modmul lenW => Sys2Proof.Machine.execModmul lenW s
  | .modexp lenW => Sys2Proof.Machine.execModexp lenW s
  | .modinv lenW => Sys2Proof.Machine.execModinv lenW s
  | .ecPub lenW p384 => Sys2Proof.Machine.execEcPub lenW p384 s
  | .ecdh lenW p384 => Sys2Proof.Machine.execEcdh lenW p384 s
  | .ecdsaSign lenW p384 => Sys2Proof.Machine.execEcdsaSign lenW p384 s
  | .ecdsaVerify lenW p384 => Sys2Proof.Machine.execEcdsaVerify lenW p384 s
  | .x25519 lenW => Sys2Proof.Machine.execX25519 lenW s
  | .ed25519Pub lenW => Sys2Proof.Machine.execEd25519Pub lenW s
  | .ed25519Sign lenW msgLen => Sys2Proof.Machine.execEd25519Sign lenW msgLen s
  | .ed25519Verify lenW msgLen => Sys2Proof.Machine.execEd25519Verify lenW msgLen s
  | .lnePendingStart => Sys2Proof.Machine.execLnePendingStart s
  | .lneDone => Sys2Proof.Machine.execLneDone s
  | .powerOn => Sys2Proof.Machine.execPowerOn s
  | .deviceReset cause => Sys2Proof.Machine.execDeviceReset cause s
  | .hostReset => Sys2Proof.Machine.execHostReset s
  | .bootStageAdvance ms ok => Sys2Proof.Machine.execBootStageAdvance ms ok s
  | .hostLinkTraining => Sys2Proof.Machine.execHostLinkTraining s
  | .supplyFault sensor => Sys2Proof.Machine.execSupplyFault sensor s
  | .brownOut rail => Sys2Proof.Machine.execBrownOut rail s
  | .refclkLinkLoss => Sys2Proof.Machine.execRefclkLinkLoss s
  | .refclkPcieLoss => Sys2Proof.Machine.execRefclkPcieLoss s
  | .bypassInstruction code tdi => Sys2Proof.Machine.execBypassInstruction code tdi s
  | .samplePreload pins => Sys2Proof.Machine.execSamplePreload pins s
  | .extest resetLow => Sys2Proof.Machine.execExtest resetLow s
  | .highz resetLow => Sys2Proof.Machine.execHighz resetLow s
  | .clamp resetLow => Sys2Proof.Machine.execClamp resetLow s
  | .registerWrite func offset width value => Sys2Proof.Machine.execRegisterWrite func offset width value s
  | .registerRead func offset width tag => Sys2Proof.Machine.execRegisterRead func offset width tag s
  | .lneReservedOp op lenW msgLen => Sys2Proof.Machine.execLneReservedOp op lenW msgLen s
  | .mailboxUndefinedOpcode => Sys2Proof.Machine.execMailboxUndefinedOpcode s
  | .unsupportedMctpMessage dest mtype command => Sys2Proof.Machine.execUnsupportedMctpMessage dest mtype command s
  | .tapReset => Sys2Proof.Machine.execTapReset s

end Sys2Proof.Machine
end

