-- ==== Sys2Proof/Safety.lean ====
section
/-!
DEFINITION. What counts as a safe run, and the terms the statements use: a command that completes, what it leaves
alone, and a beat-code word that issues.
-/

namespace Sys2Proof.Machine

open Sys2Proof

/-- Device memory with the scratchpads, and the scratchpads as last committed, are in canonical form. -/
def State.memOk (s : State) : Prop := memWf s.mem = true ∧ memWf s.vis = true

/-- No two operations in progress on a frame occupy one engine (R299). -/
def State.enginesApart (s : State) : Prop :=
  ∀ f : FrameNo, (s.frame f).rn.ops.Pairwise fun a b => ∀ e ∈ a.engines, e ∉ b.engines

/-- Each transfer in progress has a number of its own, below the next one. -/
def State.xfersNumbered (s : State) : Prop :=
  (∀ x ∈ s.xfers, x.id < s.nextXfer) ∧ (s.xfers.map (·.id)).Nodup

/-- No Feeder holds more than 16 transfers (R244). -/
def State.feedersHold (s : State) : Prop :=
  ∀ (f : FrameNo) (k : Nat), (s.xfers.filter fun x => x.frame == f.val && x.feeder == k && x.holdsPlace).length ≤ 16

/-- Head and tail of each enabled queue lie inside it (R430, R431). -/
def State.queuesInside (s : State) : Prop :=
  ∀ (f : FuncNo) (q : Fin 64),
    (s.hostq.fns[f].sqs[q].enable = true → s.hostq.fns[f].sqs[q].head.toNat ≤ s.hostq.fns[f].sqs[q].sizeM1.toNat ∧
      s.hostq.fns[f].sqs[q].tail.toNat ≤ s.hostq.fns[f].sqs[q].sizeM1.toNat) ∧
    (s.hostq.fns[f].cqs[q].enable = true → s.hostq.fns[f].cqs[q].head.toNat ≤ s.hostq.fns[f].cqs[q].sizeM1.toNat ∧
      s.hostq.fns[f].cqs[q].tail.toNat ≤ s.hostq.fns[f].cqs[q].sizeM1.toNat)

/-- The outcome is a next state, and that state's memories are in canonical form. -/
def SafeOutcome : Host.Outcome State Fault Refusal → Prop
  | .next t => t.memOk
  | .fault _ => False
  | .refused _ => False

/-- A command answers a next state, of which `P` holds. -/
def Completes (c : Instr) (s : State) (P : State → Prop) : Prop := ∃ t, exec c s = .next t ∧ P t

/-! ## Frames: what is as it was -/

/-- Nothing outside the Tally's registers differs. -/
def OnlyTally (s t : State) : Prop := { t with tally := s.tally } = s

/-- Nothing outside the admission controller's registers differs. -/
def OnlyAdmit (s t : State) : Prop := { t with adm := s.adm } = s

/-- Nothing outside the GLOBAL block differs. -/
def OnlyGlobal (s t : State) : Prop := { t with global := s.global } = s

/-- Nothing outside device memory's registers differs. -/
def OnlyMemc (s t : State) : Prop := { t with memc := s.memc } = s

/-- Nothing outside the MAS block differs. -/
def OnlyMas (s t : State) : Prop := { t with mas := s.mas } = s

/-- Nothing outside the links and reduction sets differs. -/
def OnlyCarry (s t : State) : Prop := { t with carry := s.carry } = s

/-- Nothing outside the host port differs. -/
def OnlyHostq (s t : State) : Prop := { t with hostq := s.hostq } = s

/-- Nothing outside one SQ of function `f` differs, but for the function's queue error. -/
def OnlySq (f : FuncNo) (q : Fin 64) (s t : State) : Prop :=
  OnlyHostq s t ∧ (∀ g, g ≠ f → t.hostq.fns[g] = s.hostq.fns[g]) ∧ t.hostq.fns[f].cqs = s.hostq.fns[f].cqs ∧
    ∀ r : Fin 64, r ≠ q → t.hostq.fns[f].sqs[r] = s.hostq.fns[f].sqs[r]

/-- Nothing outside one CQ of function `f` differs, but for the function's queue error and its counts. -/
def OnlyCq (f : FuncNo) (q : Fin 64) (s t : State) : Prop :=
  OnlyHostq s t ∧ (∀ g, g ≠ f → t.hostq.fns[g] = s.hostq.fns[g]) ∧ t.hostq.fns[f].sqs = s.hostq.fns[f].sqs ∧
    ∀ r : Fin 64, r ≠ q → t.hostq.fns[f].cqs[r] = s.hostq.fns[f].cqs[r]

/-- Nothing outside frame `f` differs. -/
def OnlyFrame (f : FrameNo) (s t : State) : Prop :=
  (∀ g, g ≠ f → t.frame g = s.frame g) ∧ { t with frames := s.frames } = s

/-- Every byte of memory reads as before, as homes read it and as engines see it. -/
def SameMemory (s t : State) : Prop :=
  (∀ a, memRead t.mem a = memRead s.mem a) ∧ ∀ a, memRead t.vis a = memRead s.vis a

/-- The words that a frame's sequencer holds as registers are as before: scalars by value, flags, regions,
descriptors. -/
def SameRegisters (f : FrameNo) (s t : State) : Prop :=
  (∀ i : Fin 32, (t.frame f).scalars[i].value = (s.frame f).scalars[i].value) ∧
    (t.frame f).flags = (s.frame f).flags ∧ (t.frame f).regions = (s.frame f).regions ∧
    (t.frame f).rn.dtab = (s.frame f).rn.dtab

/-- All frames but `f` are as before. -/
def SameOthers (f : FrameNo) (s t : State) : Prop := ∀ g, g ≠ f → t.frame g = s.frame g

/-- No transfer has a write or an add to make in the register window (R30): cut short by a stop, it would act as the
register's write. -/
def State.NoRegisterWrites (s : State) : Prop := ∀ x ∈ s.xfers, ∀ w ∈ x.writes ++ x.accs, ∀ o, s.place w.addr ≠ .regs o

/-- One completion more waits, of which `P` holds, which does not look at the count of waits; those before it are as they
were but for that count (R433). -/
def Answers (s t : State) (P : Comp → Prop) : Prop :=
  ∃ c : Comp, P c ∧ t.hostq.comps.map (fun x : Comp => { x with waited := false }) =
    (s.hostq.comps ++ [c]).map fun x : Comp => { x with waited := false }

/-! ## Issue -/

/-- Frame `f` has gone on to the word after `w` in stream order, loops and arms observed, which issues the nominal
length of `w` later (R216, R233, R235). -/
def MovesOn (s t : State) (f : FrameNo) (w : BcWord) : Prop :=
  let p := normalize (s.frame f).rn.ctx ((s.frame f).rn.word + 1)
  (t.frame f).rn.word = p.2.1 ∧ (t.frame f).rn.ctx = p.1 ∧
    (t.frame f).rn.nextBeat = s.tally.count.toNat + nominal w ∧ (t.frame f).rn.held = false

/-- The operations of frame `f` are those it had and one more: it occupies the engines of its opcode from the beat in
progress for COST beats, a COST of 0 counting as 1 (R43, R299). -/
def StartsOp (s t : State) (f : FrameNo) (op : Op) (i : Iss) : Prop :=
  ∃ o : EngOp, (t.frame f).rn.ops = (s.frame f).rn.ops ++ [o] ∧ o.engines = op.engines ∧ o.run = i.r.id ∧
    o.lastBeat = s.tally.count.toNat + max 1 (wCost i.w) - 1

/-- All frames but `f` are as before, but for their counts of corrected errors (R485). -/
def SameButCorrected (f : FrameNo) (s t : State) : Prop :=
  ∀ g, g ≠ f → t.frame g = { s.frame g with reg := { (s.frame g).reg with spadCe := (t.frame g).reg.spadCe } }

/-- An engine word, where it issues, completes: its operation starts, its frame goes on, and no register of the frame and
no other frame changes at its issue, nor, with no wipe in progress, whose lines its reads would reach (R371), a byte of
memory. -/
def EngineWordIssues (op : Op) (c : FrameNo → Instr) : Prop :=
  ∀ s f i, s.iss? f op = some i → Completes (c f) s fun t =>
    MovesOn s t f i.w ∧ StartsOp s t f op i ∧ (s.memc.wipes = [] → SameMemory s t) ∧ SameRegisters f s t ∧
      SameButCorrected f s t

/-- A Feeder word that does nothing and lands at once: an XFER of a zero COUNT, of a GRANT of no rows or of a record past
the table, or a KSTREAM of COUNT 0 (R16, R311). -/
def State.LandsAtOnce (s : State) (f : FrameNo) (op : Op) (i : Iss) : Prop :=
  (op = .xfer ∧ ∀ x, (s.frame f).rn.xtab[fld i.w 76 8]? = some x →
    (if x.kind = 4 then x.gRows = 0 else ∃ k < 4, x.cnt k = 0)) ∨ (op = .kstream ∧ fld i.w 86 7 = 0)

/-- A word has entered its Feeder: the transfers there before are there still, and one more of the frame, the Feeder, the
launch and the beat in progress, unless it lands at once. -/
def Accepts (s t : State) (f : FrameNo) (op : Op) (i : Iss) : Prop :=
  (∀ y ∈ s.xfers, ∃ x ∈ t.xfers, x.id = y.id) ∧
    (s.LandsAtOnce f op i → t.nextXfer = s.nextXfer) ∧
    (¬ s.LandsAtOnce f op i → t.nextXfer = s.nextXfer + 1 ∧ ∃ x ∈ t.xfers, x.id = s.nextXfer ∧ x.frame = f.val ∧
      x.feeder = wFeeder i.w ∧ x.run = i.r.id ∧ x.issue = s.tally.count.toNat)

/-- A Feeder word, where it issues into a Feeder with a free place, completes: it is accepted, and its frame goes on, its
flags and its descriptors as they were until the next launch. A Feeder that is full makes the sequencer hold the word
(R244). -/
def FeederWordIssues (op : Op) (c : FrameNo → Instr) : Prop :=
  ∀ s f i, s.iss? f op = some i → (s.frame f).rn.held = false →
    (s.feederFull f (wFeeder i.w) = false → Completes (c f) s fun t =>
      MovesOn s t f i.w ∧ Accepts s t f op i ∧
      (t.frame f).flags = (s.frame f).flags ∧ (t.frame f).rn.dtab = (s.frame f).rn.dtab) ∧
    (s.feederFull f (wFeeder i.w) = true → Completes (c f) s fun t =>
      (t.frame f).rn.held = true ∧ (t.frame f).rn.word = (s.frame f).rn.word ∧ OnlyFrame f s t)

/-! ## The mailbox -/

/-- The command at the front of the mailbox is OPCODE `op` on channel `c` with the request `req`, the Reckoner serves
it now, not the boot ROM in recovery mode, the lifecycle state allows it, and neither a device reset nor the orphan sequence
waits for the LNE (R495, R502, R510, R511, R524, R535). -/
def State.MbServes (s : State) (op : Nat) (c : Fin 2) (req : List Byte) : Prop :=
  s.mbFront = some (c, op) ∧ s.serving op = true ∧ s.boot.state ≠ .recovery ∧
    s.boot.resetWait = none ∧ s.global.fault.orphanWait = none ∧
    mbAllowed op s.boot.fuses.lifecycle = true ∧ req.length = s.mgmt.mb[c].len.toNat ∧
    req = (s.mgmt.mb[c].data ++ List.replicate s.mgmt.mb[c].len.toNat 0).take s.mgmt.mb[c].len.toNat

/-- Channel `c` has been answered: BUSY 0, DONE 1, the RESULT, and the response in its data registers (R510). -/
def State.MbAnswered (t : State) (c : Fin 2) (result : Nat) (bytes : List Byte) : Prop :=
  t.mgmt.mb[c].busy = false ∧ t.mgmt.mb[c].done = true ∧ t.mgmt.mb[c].result = BitVec.ofNat 4 result ∧
    t.mgmt.mb[c].rlen = BitVec.ofNat 13 bytes.length ∧ t.mgmt.mb[c].data.take bytes.length = bytes

/-! ## Answers to the outside -/

/-- One response of the management port went out, and neither memory nor frames changed (R513). -/
def State.Replied (s t : State) (mtype cmd cc : Byte) (payload : List Byte) : Prop :=
  t.outbox = s.outbox ++ [.mctp s.mgmt.port.eid.toNat ([mtype, cmd, cc] ++ payload)] ∧ SameMemory s t ∧
    t.frames = s.frames

end Sys2Proof.Machine
end

