-- ==== Sys2Proof/Certificates/Slice0/Obligations.lean ====
section
/-!
DEFINITION. The statements for the provers. Each docstring names the rules of spec/ it formalises, or says that it is
the model's own choice and where that is logged.
-/

open Sys2Proof Sys2Proof.Machine

/-- A step runs the command in front. What a step does on an empty queue is the model's own choice (log entries 4, 64
and 96). -/
def Obligations.StepRunsTheCommandInFront : Prop :=
  (∀ (s : State) (c : Instr) (rest : List Instr), s.pending = c :: rest → step s = exec c { s with pending := rest }) ∧
  (∀ s : State, s.pending = [] → ∃ t, step s = .next t ∧ t.tally.count = s.tally.count ∧
    (∀ p : Fin 8, t.carry.ports[p] = if s.carry.ports[p].state = .retrain
      then { s.carry.ports[p] with state := .equalize } else s.carry.ports[p]) ∧
    { t.carry with ports := s.carry.ports } = s.carry ∧
    { t.boot with slotTorn := s.boot.slotTorn } = s.boot ∧ t.boot.slotTorn = false ∧
    (s.adm.domQueue = [] → t.adm = s.adm) ∧
    { t.adm with
      domains := s.adm.domains, domQueue := s.adm.domQueue, forcedPend := s.adm.forcedPend, crit := s.adm.crit } = s.adm ∧
    { t with tally := s.tally, carry := s.carry, boot := s.boot, adm := s.adm, freeCtr := s.freeCtr } = s)

/-- Reset values as the register tables of chapters 2, 7, 11, 14 and 15 give them. That domain 35 alone is ON is read
from R545 against the table's reset column (log entry 3, DEDUCED); that every byte of memory reads zero, unpoisoned, is
the model's choice (log entry 5). -/
def Obligations.ResetValuesOfTheSpec : Prop :=
  State.reset.tally.run = false ∧ State.reset.tally.count = 0 ∧ State.reset.tally.beatFloor = 36 ∧
  State.reset.tally.j = 256 ∧ State.reset.tally.timeoutUs = 1000 ∧ State.reset.tally.period = 1000000 ∧
  State.reset.adm.budget = 1600 ∧ State.reset.adm.fallback = 1600 ∧ State.reset.adm.cap = 65535 ∧
  State.reset.adm.rampEn = true ∧ State.reset.adm.rampFloor = 512 ∧ State.reset.adm.stale = true ∧
  State.reset.global.fault.checkLimit = 4 ∧ State.reset.global.fault.phase = true ∧
  State.reset.memc.holdLimit = 8000 ∧ State.reset.mas.voteTimeout = 1000 ∧
  (∀ (f : FrameNo) (i : Fin 32), (State.reset.frame f).scalars[i] = {}) ∧
  (∀ (f : FrameNo) (i : Fin 256), (State.reset.frame f).flags[i] = 0) ∧
  (∀ f : FrameNo, (State.reset.frame f).seq.state = .idle) ∧
  (∀ i : Fin 36, State.reset.adm.domains[i].state = .on ↔ i = 35) ∧
  State.reset.boot.stage = 0 ∧
  State.reset.programs = [] ∧ State.reset.runs = [] ∧ State.reset.xfers = [] ∧
  (∀ i : Fin 64, State.reset.global.seals[i].valid = false) ∧
  (∀ a, memRead State.reset.mem a = 0) ∧ (∀ a, poisonAt State.reset.poison a = none)

/-- R48, R51, R53, R55, R56, R218, R230, R239, R254, R298, R453, R458. What a launch does where its condition does not hold
is the model's choice: nothing (log entry 1). -/
def Obligations.LaunchBeginsTheNextBeat : Prop :=
  ∀ (s : State) (ns : Nat) (last : BitVec 8),
    (s.canLaunch ns = true → s.NoRegisterWrites → Completes (.beatLaunch ns last) s fun t =>
      t.tally.count = s.tally.count + 1 ∧ t.tally.floorNow = s.tally.beatFloor ∧
      t.tally.lastCause = BitVec.ofNat 3 (s.chargeTo last) ∧
      (∀ k : Fin 8,
        t.tally.strBeats[k] = (if s.tally.strClear then 0 else s.tally.strBeats[k]) + (if k.val = s.chargeTo last then 1 else 0) ∧
        t.tally.strNs[k] = (if s.tally.strClear then 0 else s.tally.strNs[k]) +
          (if k.val = s.chargeTo last then BitVec.ofNat 64 (ns - s.tally.floorNow.toNat) else 0)) ∧
      t.adm.cur = s.adm.grant.getD {} ∧ t.adm.grant = none ∧ t.adm.budgetNow = s.adm.budget ∧
      t.vis = memSlice s.mem spadBase (64 * 0x1000000) ∧
      (∀ f, (t.frame f).rn.pend = []) ∧
      ((∀ r ∈ s.runs, r.stopBeat = none) → ∀ f,
        (∀ (ps qs : List Pend) (i : Fin 32) (v : Scalar), i ≠ 0 → (s.frame f).rn.pend = ps ++ .scalar i.val v :: qs →
          (∀ u, Pend.scalar i.val u ∉ qs) → (∀ x ∈ s.xfers, x.frame = f.val → x.result = none) →
          (t.frame f).scalars[i] = v) ∧
        (∀ (ps qs : List Pend) (i : Fin 256) (v : Word), (s.frame f).rn.wait = none →
          (s.frame f).rn.pend = ps ++ .flag i.val v :: qs → (∀ u, Pend.flag i.val u ∉ qs) → (t.frame f).flags[i] = v) ∧
        (∀ (ps qs : List Pend) (i : Nat) (d : Desc), (s.frame f).rn.ops = [] → i < (s.frame f).rn.dtab.length →
          (s.frame f).rn.pend = ps ++ .desc i d :: qs →
          (∀ p ∈ qs, (∀ e, p ≠ .desc i e) ∧ (∀ m, p ≠ .descPoison i m) ∧ p ≠ .descClean i) →
          (t.frame f).rn.dtab[i]? = some d) ∧
        (∀ (x : Xfer) (v : Scalar) (i : Fin 32), i ≠ 0 → x ∈ s.xfers → x.frame = f.val → x.run = (s.frame f).rn.run →
          x.xd = i.val → x.result = some v → x.due = some (s.tally.count + 1).toNat →
          (∀ y ∈ s.xfers, y ≠ x → y.frame = f.val → y.result = none) → (t.frame f).scalars[i] = v) ∧
        (∀ (r : Run) (w : Wait) (i : Fin 256), s.runOf f = some r → r.live = true → (s.frame f).rn.wait = some w →
          w.flag = i.val → (∀ u, Pend.flag i.val u ∉ (s.frame f).rn.pend) →
          (w.target ≤ (s.frame f).flags[i].toNat → (t.frame f).rn.wait = none ∧ (t.frame f).seq.state = .running ∧
            (t.frame f).flags[i] = if w.dec then (s.frame f).flags[i] - BitVec.ofNat 32 w.target else (s.frame f).flags[i]) ∧
          ((s.frame f).flags[i].toNat < w.target → (t.frame f).flags[i] = (s.frame f).flags[i] ∧
            ∀ u, (t.frame f).rn.wait = some u → { u with expired := w.expired } = w ∧
              (u.expired = true → w.expired = true ∨ w.issue + w.timeout ≤ (s.tally.count + 1).toNat)))) ∧
      (∀ r ∈ s.runs, s.adm.forcedPend = [] → r.live = true → r.aborts = [] → r.stopBeat = some (s.tally.count.toNat - r.startBeat) →
        r.startBeat ≤ s.tally.count.toNat → (s.tally.count + 1).toNat = s.tally.count.toNat + 1 →
        (∃ q ∈ t.runs, q.id = r.id ∧ q.stopped = true) ∧
        ∀ f, hasFrame r.frames f = true → (t.frame f).seq.state = .stopped ∧ (t.frame f).rn.ops = [] ∧
          (t.frame f).rn.wait = none)) ∧
    (s.canLaunch ns = false → exec (.beatLaunch ns last) s = .next s)

/-- R44, R58, R75, R452, R454, R455. -/
def Obligations.BeatCommandsComplete : Prop :=
  (∀ (s : State) (f : FrameNo), s.beatDone f = true → Completes (.frameBeatComplete f) s fun t =>
    (t.frame f).done = true ∧ SameOthers f s t ∧ { t with frames := s.frames, tally := s.tally } = s ∧
    t.tally.count = s.tally.count ∧
    (s.tally.leavePend = true → (∀ g, g ≠ f → (s.frame g).active = true → (s.frame g).done = true) →
      t.tally.gstate = .none ∧ t.tally.leavePend = false)) ∧
  (∀ s : State, s.adm.grant = none → s.launchWork = false → s.suppliedAll = true → (∀ f, s.canDeclare f = true) →
    Completes .admissionGrant s fun t =>
      t.adm.grant = some (grantFor ((List.finRange 64).map s.declOf) s.adm.effective) ∧
      (∀ f, (t.frame f).decl = s.declOf f) ∧ t.adm.lastE = BitVec.ofNat 16 s.adm.effective ∧
      { t with frames := s.frames, adm := s.adm } = s) ∧
  (∀ (s : State) (k : Nat), nextGroup s.adm.cur.sums s.adm.group = some k →
    (∀ f : FrameNo, (s.frame f).active = false ∨ (s.frame f).done = true ∨ s.adm.group < f.val % s.adm.cur.phases) →
    Completes .phaseGroupStart s fun t => t.adm.group = k ∧ { t with adm := { t.adm with group := s.adm.group } } = s) ∧
  (∀ s : State, s.tally.run = true → s.tally.wdActed = false → s.completed = false → Completes .beatWatchdog s fun t =>
    t.tally.watchdogFired = true ∧ t.tally.wdActed = true ∧ t.tally.count = s.tally.count) ∧
  (∀ s : State, s.tally.wdActed = true → exec .beatWatchdog s = .next s)

/-- R454: P is the smallest of 1, 2, 4 and 8 whose phase sums all fit; 8 where none does. -/
def Obligations.GrantIsTheSmallestSplitThatFits : Prop :=
  ∀ (decls : List Nat) (e : Nat),
    (grantFor decls e).phases ∈ [1, 2, 4, 8] ∧
    ((grantFor decls e).phases < 8 → ∀ x ∈ (grantFor decls e).sums, x ≤ e) ∧
    (∀ p ∈ [1, 2, 4], p < (grantFor decls e).phases → ∃ x ∈ phaseSums decls p, e < x) ∧
    (grantFor decls e).sums = phaseSums decls (grantFor decls e).phases ∧
    (grantFor decls e).sums.sum = decls.sum

/-- R55, R60, R66, R67 and R571. -/
def Obligations.TallyControlsComplete : Prop :=
  (∀ (s : State) (high : Word), s.hostOk = true → Completes (.markArm high) s fun t =>
    t.tally.markBeat.toNat = high.toNat * 2 ^ 32 + s.tally.markBeat.toNat % 2 ^ 32 ∧
    (s.tally.count.toNat < t.tally.markBeat.toNat → t.tally.markArmed = true ∧ t.tally.markMissed = s.tally.markMissed) ∧
    (t.tally.markBeat.toNat ≤ s.tally.count.toNat → t.tally.markArmed = false ∧ t.tally.markMissed = true) ∧
    t.tally.markTs = s.tally.markTs ∧ t.tally.markDone = s.tally.markDone ∧ OnlyTally s t) ∧
  (∀ (s : State) (ns : Nat) (last : BitVec 8), s.canLaunch ns = true → s.NoRegisterWrites →
    Completes (.beatLaunch ns last) s fun t =>
      t.tally.markBeat = s.tally.markBeat ∧ t.tally.markMissed = s.tally.markMissed ∧
      (s.tally.markArmed = true → s.tally.markBeat = s.tally.count + 1 →
        t.tally.markTs = s.tally.tb ∧ t.tally.markDone = true ∧ t.tally.markArmed = false) ∧
      (s.tally.markArmed = false ∨ s.tally.markBeat ≠ s.tally.count + 1 →
        t.tally.markTs = s.tally.markTs ∧ t.tally.markDone = s.tally.markDone ∧ t.tally.markArmed = s.tally.markArmed)) ∧
  (∀ (s : State) (run : Bool), s.hostOk = true → Completes (.tallyRun run) s fun t =>
    t.tally = { s.tally with run := run, heldInBeat := s.tally.heldInBeat || !run } ∧ OnlyTally s t) ∧
  (∀ s : State, s.hostOk = true → Completes .strClear s fun t =>
    t.tally = { s.tally with strClear := true } ∧ OnlyTally s t) ∧
  (∀ (s : State) (ns : Nat) (last : BitVec 8), s.canLaunch ns = true → s.NoRegisterWrites → s.tally.strClear = true →
    Completes (.beatLaunch ns last) s fun t => t.tally.strClear = false ∧
      ∀ k : Fin 8, k.val ≠ s.chargeTo last → t.tally.strBeats[k] = 0 ∧ t.tally.strNs[k] = 0) ∧
  (∀ s : State, s.hostOk = true → Completes .loadNow s fun t =>
    t.tally.tb = s.tally.tbSet ∧ t.tally.count = s.tally.count ∧ t.tally.capture = s.tally.capture ∧
    t.tally.loadArm = s.tally.loadArm ∧ { t with tally := s.tally, freeCtr := s.freeCtr } = s) ∧
  (∀ s : State, s.hostOk = true → Completes .loadArm s fun t =>
    t.tally = { s.tally with loadArm := true } ∧ OnlyTally s t) ∧
  (∀ s : State, s.tally.syncOutMode = 2 → s.tally.period ≠ 0 →
    s.tally.lastPulse.toNat / (s.tally.period.toNat * 1000) < s.tally.tb.toNat / (s.tally.period.toNat * 1000) →
    Completes .syncOutPeriodic s fun t =>
      t.outbox = s.outbox ++ [.syncOut] ∧ t.tally = { s.tally with lastPulse := s.tally.tb } ∧
      { t with tally := s.tally, outbox := s.outbox } = s)

/-- R64, R65, R66, R571. -/
def Obligations.TimebaseCommandsComplete : Prop :=
  (∀ s : State, s.tally.tbHoldover = false → s.tally.tbOff = 0 → Completes .timebaseEdge s fun t =>
    t.tally.tb + BitVec.ofNat 64 s.tally.tbFine = s.tally.tb + 40 ∧ t.tally.tbFine = 0 ∧ t.tally.tbLocked = true ∧
    t.tally.tbHoldover = false ∧ t.tally.count = s.tally.count ∧
    { t with tally := s.tally, freeCtr := s.freeCtr } = s) ∧
  (∀ s : State, s.tally.tbHoldover = true → Completes .timebaseEdge s fun t =>
    t.tally.tb = s.tally.tb ∧ t.tally.tbHoldover = false ∧ t.tally.count = s.tally.count ∧
    { t with tally := s.tally, freeCtr := s.freeCtr } = s) ∧
  (∀ s : State, s.tally.tbHoldover = false → s.tally.tbFine ≤ 160 → Completes .tbHoldover s fun t =>
    t.tally.tbLocked = false ∧ t.tally.tbHoldover = true ∧ t.tally.count = s.tally.count ∧
    t.tally.tb + BitVec.ofNat 64 s.tally.tbFine = s.tally.tb + 160 ∧
    { t with tally := s.tally, freeCtr := s.freeCtr } = s) ∧
  (∀ s : State, (∀ e, s.tally.lastSync = some e → e + 1000 ≤ s.tally.up) → Completes .syncInEdge s fun t =>
    t.tally.syncCount = s.tally.syncCount + 1 ∧
    (s.tally.syncMode = 1 → t.tally.capture = s.tally.tb) ∧
    (s.tally.syncMode ≠ 1 → t.tally.capture = s.tally.capture) ∧
    (s.tally.loadArm = true → t.tally.tb = s.tally.tbSet) ∧ (s.tally.loadArm = false → t.tally.tb = s.tally.tb) ∧
    t.tally.loadArm = false ∧ { t with tally := s.tally, outbox := s.outbox, freeCtr := s.freeCtr } = s) ∧
  (∀ (s : State) (e : Nat), s.tally.lastSync = some e → s.tally.up < e + 1000 →
    exec .syncInEdge s = .next s)

/-- R69, R70, R73, R75, R414. -/
def Obligations.GroupCommandsComplete : Prop :=
  (∀ s : State, s.hostOk = true → s.tally.gstate = .none → Completes .form s fun t =>
    t.tally.formSend = true ∧ t.tally.formReady = false ∧ t.tally.gstate = .forming ∧
    t.tally.count = s.tally.count ∧ OnlyTally s t) ∧
  (∀ s : State, s.hostOk = true → s.tally.gstate ≠ .none → Completes .leave s fun t =>
    (s.completed = false → t.tally = { s.tally with leavePend := true }) ∧
    (s.completed = true → t.tally.gstate = .none ∧ t.tally.leavePend = false ∧ t.tally.count = s.tally.count) ∧
    SameMemory s t ∧ t.frames = s.frames) ∧
  (∀ (s : State) (w : Nat), s.closing = some w → s.completed = true →
    (∀ x ∈ s.xfers, ∀ v, x.window = some v → v ≤ w → x.result ≠ none) →
    s.openLines = false → s.tally.tokenSent = false → s.inBypass = false →
    Completes .junctionTokenSend s fun t =>
      t.tally = { s.tally with tokenSent := true } ∧ SameMemory s t ∧ t.frames = s.frames) ∧
  (∀ (s : State) (i : Inbound) (rest : List Inbound), s.carry.tokens = i :: rest →
    Completes .junctionTokenReceive s fun t =>
      t.carry.tokens = rest ∧ t.tally = (if s.inBypass then s.tally else s.tally.takeToken i.pkt) ∧
      { t with carry := s.carry, tally := s.tally, outbox := s.outbox } = s) ∧
  (∀ s : State, (s.tally.gstate = .forming ∨ ((∃ w, s.closing = some w) ∧ s.completed = true)) → s.tally.tokensIn = false →
    Completes .junctionExpired s fun t =>
      t.tally.gstate = .broken ∧ t.tally.junctionExpired = true ∧
      t.tally.missing = s.tally.others &&& ~~~s.tally.tokens ∧ t.tally.count = s.tally.count ∧
      (∀ r ∈ s.runs, r.group = true → r.aborted = none → r.endBeat = none →
        ∃ q ∈ t.runs, q.id = r.id ∧ ∃ g, (g, Codes.junctionExpired) ∈ q.aborts) ∧
      (∀ q ∈ t.runs, ∃ r ∈ s.runs, q.id = r.id ∧ ((∀ p ∈ s.runs, p.id = r.id → p.group = false) → q = r)) ∧
      SameMemory s t ∧ t.frames = s.frames) ∧
  (∀ s : State, s.tally.tokensIn = true → exec .junctionExpired s = .next s)

/-- R83 with Table 3.2, and R84. LOG2Q is L where 2^(2L − 1) ≤ Q^512 < 2^(2L + 1), which is 256 log2 Q between L − 1/2
and L + 1/2. A base b passes where, Q − 1 being 2^k d with d odd, b^d is 1 or some b^(2^j d) with j < k is Q − 1. -/
def Obligations.PrimeCommitsComplete : Prop :=
  (∀ (s : State) (i : BitVec 8) (l : BitVec 5), s.hostOk = true →
    (s.global.primeBusy = false → Completes (.primeCommit i l) s fun t =>
      t.global.primeIndex = i ∧ t.global.primeRootLog = l ∧ t.global.primeBusy = true ∧
      t.global.primes = s.global.primes ∧ OnlyGlobal s t) ∧
    (s.global.primeBusy = true → exec (.primeCommit i l) s = .next s)) ∧
  (∀ s : State, s.global.primeBusy = true →
    (let q := s.global.stageQ.toNat
     let root := s.global.stageRoot.toNat
     let l := s.global.primeRootLog.toNat
     let i := s.global.primeIndex.toNat
     let inRange : Prop := 2 ^ 21 < q ∧ q < 2 ^ 31 ∧ q % 2 = 1 ∧ 11 ≤ l ∧ l ≤ 18 ∧ q % 2 ^ l = 1
     let passes (b : Nat) : Prop := ∀ k d, q - 1 = 2 ^ k * d → d % 2 = 1 →
       b ^ d % q = 1 ∨ ∃ j < k, b ^ (2 ^ j * d) % q = q - 1
     let probable : Prop := passes 2 ∧ passes 7 ∧ passes 61
     let rootOk : Prop := root < q ∧ root ^ 2 ^ (l - 1) % q = q - 1
     (Nat.Prime q → inRange → probable) ∧
     Completes .primeCommitComplete s fun t =>
       t.global.primeBusy = false ∧ t.global.primeLast = s.global.primeIndex ∧
       (∀ j : Fin 256, j.val ≠ i → t.global.primes[j] = s.global.primes[j]) ∧
       (t.global.primeResult ≠ 0 → t.global.primes = s.global.primes) ∧
       (s.primeInUse i = true → t.global.primeResult = 4) ∧
       (s.primeInUse i = false → q = 0 → t.global.primeResult = 0 ∧ t.prime i = {}) ∧
       (s.primeInUse i = false → q ≠ 0 → ¬ inRange → t.global.primeResult = 1) ∧
       (s.primeInUse i = false → inRange → ¬ probable → t.global.primeResult = 2) ∧
       (s.primeInUse i = false → inRange → probable → ¬ rootOk → t.global.primeResult = 3) ∧
       (s.primeInUse i = false → inRange → probable → rootOk → t.global.primeResult = 0 ∧
         (t.prime i).valid = true ∧ (t.prime i).q = s.global.stageQ ∧ (t.prime i).root = s.global.stageRoot ∧
         (t.prime i).rootLog = s.global.primeRootLog ∧ (q * (t.prime i).qneg.toNat + 1) % 2 ^ 32 = 0 ∧
         (t.prime i).rModQ.toNat = 2 ^ 32 % q ∧ (t.prime i).rrModQ.toNat = 2 ^ 64 % q ∧
         2 ^ (2 * (t.prime i).log2q.toNat - 1) ≤ q ^ 512 ∧ q ^ 512 < 2 ^ (2 * (t.prime i).log2q.toNat + 1)) ∧
       OnlyGlobal s t))

/-- R80: the multipliers' product, step by step, and what it is. -/
def Obligations.MontgomeryProductIsExact : Prop :=
  ∀ q : Nat, q % 2 = 1 → 1 < q → q < 2 ^ 31 →
    (q * qnegOf q + 1) % 2 ^ 32 = 0 ∧ qnegOf q < 2 ^ 32 ∧
    ∀ a b : Nat, a < q → b < q →
      (let t := a * b
       let m := t % 2 ^ 32 * qnegOf q % 2 ^ 32
       let u := (t + m * q) / 2 ^ 32
       t < 2 ^ 62 ∧ (t + m * q) % 2 ^ 32 = 0 ∧ u < 2 * q ∧ mont a b q = (if q ≤ u then u - q else u) ∧
       mont a b q < q ∧ mont a b q * 2 ^ 32 % q = a * b % q)

/-- R216, R219, R239, R240, R254, R455, R480: the issue condition, in both directions. -/
def Obligations.WordIssuesExactlyWhenItsBeatComes : Prop :=
  (∀ (s : State) (f : FrameNo) (op : Op) (i : Iss), s.iss? f op = some i ↔
    s.runOf f = some i.r ∧ s.program? i.r.func i.r.handle = some i.p ∧
    (s.frame f).wordAt (s.frame f).rn.word = some i.w ∧ opOf i.w = some op ∧
    i.r.started = true ∧ i.r.starting = false ∧ i.r.aborted = none ∧ i.r.endBeat = none ∧ i.r.stopped = false ∧
    (s.frame f).seq.state = .running ∧ (s.frame f).rn.wait = none ∧ (s.frame f).rn.issued = false ∧
    (s.frame f).rn.ended = false ∧ (s.frame f).rn.endIssued = false ∧
    (s.frame f).rn.nextBeat = s.tally.count.toNat ∧ f.val % s.adm.cur.phases ≤ s.adm.group ∧ s.waitsExpired i.r = false ∧
    (∀ e ∈ op.engines, ∀ o ∈ (s.frame f).rn.ops, e ∉ o.engines)) ∧
  (∀ (s : State) (f : FrameNo) (o₁ o₂ : Op) (i₁ i₂ : Iss),
    s.iss? f o₁ = some i₁ → s.iss? f o₂ = some i₂ → o₁ = o₂ ∧ i₁ = i₂)

/-- R216, R228, R238, R239, R246, R335. -/
def Obligations.SequencerWordsComplete : Prop :=
  (∀ s f i, s.iss? f .nop = some i → Completes (.nop f) s fun t =>
    MovesOn s t f i.w ∧ nominal i.w = wCost i.w ∧ (t.frame f).rn.ops = (s.frame f).rn.ops ∧
    (t.frame f).rn.pend = (s.frame f).rn.pend ∧ SameRegisters f s t ∧ OnlyFrame f s t) ∧
  (∀ s f i, s.iss? f .endWord = some i → Completes (.endWord f) s fun t =>
    (t.frame f).rn.endIssued = true ∧ MovesOn s t f i.w ∧ SameRegisters f s t ∧ OnlyFrame f s t) ∧
  (∀ s f i, s.iss? f .sop = some i → Completes (.sop f) s fun t =>
    (t.frame f).rn.pend = (s.frame f).rn.pend ++ [.scalar (fld i.w 80 5) ((s.frame f).sop i.w)] ∧
    MovesOn s t f i.w ∧ SameRegisters f s t ∧ OnlyFrame f s t) ∧
  (∀ s f i, s.iss? f .flagSet = some i → Completes (.flagSet f) s fun t =>
    (t.frame f).rn.pend = (s.frame f).rn.pend ++
      [.flag (fld i.w 76 8) ((s.frame f).flagValue (flag1 i.w 84) (fld i.w 85 32))] ∧
    MovesOn s t f i.w ∧ SameRegisters f s t ∧ SameMemory s t ∧ SameOthers f s t) ∧
  (∀ s f i, s.iss? f .flagWait = some i → Completes (.flagWait f) s fun t =>
    (t.frame f).rn.wait = some {
      flag := fld i.w 76 8, target := ((s.frame f).flagValue (flag1 i.w 84) (fld i.w 85 16)).toNat
      dec := flag1 i.w 101, acq := false, issue := s.tally.count.toNat, timeout := fld i.w 102 25 } ∧
    (t.frame f).seq.state = .waiting ∧ MovesOn s t f i.w ∧ SameRegisters f s t ∧ SameMemory s t ∧ SameOthers f s t) ∧
  (∀ s f i, s.iss? f .flagAcq = some i → Completes (.flagAcq f) s fun t =>
    (t.frame f).rn.wait = some {
      flag := fld i.w 76 8, target := ((s.frame f).flagValue (flag1 i.w 84) (fld i.w 85 16)).toNat
      dec := flag1 i.w 101, acq := true, issue := s.tally.count.toNat, timeout := fld i.w 102 25 } ∧
    (t.frame f).seq.state = .waiting ∧ MovesOn s t f i.w ∧ SameRegisters f s t ∧ SameMemory s t ∧ SameOthers f s t)

/-- R107, R233 to R236, R239, R240. -/
def Obligations.ControlWordsComplete : Prop :=
  (∀ s f i, s.iss? f .br = some i → Completes (.br f) s fun t =>
    SameRegisters f s t ∧ SameMemory s t ∧ SameOthers f s t ∧ (t.frame f).rn.ops = (s.frame f).rn.ops ∧
    (let pc := (s.frame f).rn.word + 1
     let w0 := fld i.w 91 11
     let w1 := fld i.w 102 11
     let start := if brCond (s.frame f) i.w then pc + w0 else pc
     let n := if brCond (s.frame f) i.w then w1 else w0
     (n ≠ 0 → (t.frame f).rn.word = start ∧ (t.frame f).rn.nextBeat = s.tally.count.toNat + 2 ∧
       ∃ c : ArmCtx, (t.frame f).rn.ctx = .arm c :: (s.frame f).rn.ctx ∧ c.endPc = start + n ∧ c.joinPc = pc + w0 + w1) ∧
     (n = 0 → (t.frame f).rn.word = (normalize (s.frame f).rn.ctx (pc + w0 + w1)).2.1 ∧
       (t.frame f).rn.nextBeat = s.tally.count.toNat + 2 + fld i.w 113 15))) ∧
  (∀ s f i, s.iss? f .loop = some i → Completes (.loop f) s fun t =>
    SameRegisters f s t ∧ SameMemory s t ∧ SameOthers f s t ∧ (t.frame f).rn.ops = (s.frame f).rn.ops ∧
    (t.frame f).rn.nextBeat = s.tally.count.toNat + 1 ∧
    (let pc := (s.frame f).rn.word + 1
     let n := fld i.w 97 11
     let c := (s.frame f).loopCount i.w
     (c ≠ 0 → n ≠ 0 → (t.frame f).rn.word = pc ∧
       (t.frame f).rn.ctx = .loop { bodyPc := pc, bodyW := n, left := c - 1, index := 0 } :: (s.frame f).rn.ctx) ∧
     (c = 0 ∨ n = 0 → (t.frame f).rn.word = (normalize (s.frame f).rn.ctx (pc + n)).2.1))) ∧
  (∀ (s : State) (f : FrameNo) (wt : Wait) (r : Run), (s.frame f).rn.wait = some wt → wt.expired = true →
    s.runOf f = some r → hasFrame r.frames f = true → r.aborted = none → r.endBeat = none →
    Completes (.waitExpired f) s fun t =>
      (t.frame f).rn.wait = none ∧ (∃ q ∈ t.runs, q.id = r.id ∧ q.aborted ≠ none) ∧ SameMemory s t)

/-- R97, R99, R102, R106, R232. -/
def Obligations.LdropLowersTheLevel : Prop :=
  ∀ s f i, s.iss? f .ldrop = some i → Completes (.ldrop f) s fun t =>
    MovesOn s t f i.w ∧ SameRegisters f s t ∧ SameMemory s t ∧ SameOthers f s t ∧
    (let d := slot (s.frame f).rn.dtab (wD i.w)
     let a := slot (s.frame f).rn.dtab (wA i.w)
     let target := fld i.w 76 7
     (∀ m, a.mark = some m → ∃ m', (t.frame f).rn.pend = (s.frame f).rn.pend ++ [.descPoison (wD i.w) m']) ∧
     (a.mark = none → tagBad [a] i.r.keyTag = true → (t.frame f).rn.pend = (s.frame f).rn.pend ++
       [.desc (wD i.w) { d with mark := some { cause := Codes.keyTagMismatch, run := i.r.id } }]) ∧
     (a.mark = none → tagBad [a] i.r.keyTag = false → a.level < target → (t.frame f).rn.pend = (s.frame f).rn.pend ++
       [.desc (wD i.w) { d with mark := some { cause := Codes.levelExhausted, run := i.r.id }, level := a.level }]) ∧
     (a.mark = none → tagBad [a] i.r.keyTag = false → target ≤ a.level →
       (let top : Int := (s.log2Sum (s.pset d.pset) target : Int) - 256
        (d.scaled = false ∨ ((a.scale : Int) ≤ 1048575 ∧ (a.scale : Int) ≤ top) → (t.frame f).rn.pend = (s.frame f).rn.pend ++
          [.desc (wD i.w) { deriveFrom d a with level := target, mark := none }]) ∧
        (d.scaled = true → 1048575 < (a.scale : Int) ∨ top < (a.scale : Int) → ∃ e : Desc, e.level = target ∧
          e.mark = some { cause := Codes.scaleRange, run := i.r.id } ∧
          (t.frame f).rn.pend = (s.frame f).rn.pend ++ [.desc (wD i.w) e]))))

/-- R228 and Table 7.10. -/
def Obligations.ScalarOperationsFollowTheTable : Prop :=
  (∀ (s : State) (f : FrameNo) (i : Iss), s.iss? f .sop = some i → Completes (.sop f) s fun t =>
    ∃ v : Scalar, (t.frame f).rn.pend = (s.frame f).rn.pend ++ [.scalar (fld i.w 80 5) v] ∧
      v.value = sopResult (fld i.w 76 4) ((s.frame f).x (fld i.w 85 5)).value
        (if flag1 i.w 95 then BitVec.ofNat 32 (fld i.w 96 32) else ((s.frame f).x (fld i.w 90 5)).value)
        (BitVec.ofNat 32 (fld i.w 96 32)) (BitVec.ofNat 32 (lidxOf (s.frame f).rn.ctx (fld i.w 96 32))) ∧
      (v.poison ≠ none ↔ ((s.frame f).x (fld i.w 85 5)).poison ≠ none ∨
        (flag1 i.w 95 = false ∧ ((s.frame f).x (fld i.w 90 5)).poison ≠ none))) ∧
  (∀ a b imm lidx : Word,
    (sopResult 0 a b imm lidx).toNat = (a.toNat + b.toNat) % 2 ^ 32 ∧
    (sopResult 1 a b imm lidx).toInt = (a.toInt - b.toInt).bmod (2 ^ 32) ∧
    (∀ i < 32, (sopResult 2 a b imm lidx).getLsbD i = (a.getLsbD i && b.getLsbD i) ∧
      (sopResult 3 a b imm lidx).getLsbD i = (a.getLsbD i || b.getLsbD i) ∧
      (sopResult 4 a b imm lidx).getLsbD i = (a.getLsbD i ^^ b.getLsbD i)) ∧
    (sopResult 5 a b imm lidx).toNat = a.toNat * 2 ^ (b.toNat % 32) % 2 ^ 32 ∧
    (sopResult 6 a b imm lidx).toInt = a.toInt / 2 ^ (b.toNat % 32) ∧
    (sopResult 7 a b imm lidx).toInt = min a.toInt b.toInt ∧
    (sopResult 8 a b imm lidx).toInt = max a.toInt b.toInt ∧
    sopResult 9 a b imm lidx = (if a.toInt < b.toInt then 1 else 0) ∧
    sopResult 10 a b imm lidx = (if a.toNat = b.toNat then 1 else 0) ∧
    (sopResult 11 a b imm lidx).toNat = a.toNat * b.toNat % 2 ^ 32 ∧
    sopResult 12 a b imm lidx = imm ∧ sopResult 13 a b imm lidx = lidx) ∧
  (∀ (c : LoopCtx) (rest : List Ctx) (d : Nat), lidxOf (.loop c :: rest) 0 = c.index ∧
    lidxOf (.loop c :: rest) (d + 1) = lidxOf rest d)

/-- R16, R43, R216, R299 for the words of chapter 4. -/
def Obligations.TransformWordsIssue : Prop :=
  EngineWordIssues .nttF .nttF ∧ EngineWordIssues .nttI .nttI ∧ EngineWordIssues .bconv .bconv ∧
  EngineWordIssues .ksip .ksip ∧ EngineWordIssues .pmat .pmat ∧ EngineWordIssues .aut .aut ∧ EngineWordIssues .trp .trp

/-- R16, R43, R216, R299 for LCHAIN, LEXP and LRED; R181, R216, R299 for the share, randomness, session and key words. -/
def Obligations.LaneAndShareWordsIssue : Prop :=
  EngineWordIssues .lchain .lchain ∧ EngineWordIssues .lexp .lexp ∧ EngineWordIssues .lred .lred ∧
  EngineWordIssues .smulOpen .smulOpen ∧ EngineWordIssues .smulClose .smulClose ∧
  EngineWordIssues .sreshare .sreshare ∧ EngineWordIssues .nflood .nflood ∧ EngineWordIssues .encPk .encPk ∧
  EngineWordIssues .sexport .sexport ∧ EngineWordIssues .simport .simport ∧ EngineWordIssues .kregen .kregen

/-- R97 to R106 for NTT.F, NTT.I and AUT; R114, R130, R145 and R146 as arithmetic. -/
def Obligations.EnginesComputeWhatTheirRulesSay : Prop :=
  (∀ (q m g psi : Nat) (pw ipw : Nat → Nat) (a : List Nat), Nat.Prime q → q % 2 = 1 → q < 2 ^ 31 →
    psi ^ 2 ^ m % q = q - 1 → (∀ x < 2 * 2 ^ m, pw x = psi ^ x * 2 ^ 32 % q) →
    (∀ x < 2 * 2 ^ m, ipw x < q ∧ ipw x * psi ^ x % q = 2 ^ 32 % q) → a.length = 2 ^ m → (∀ v ∈ a, v < q) →
    (∀ j < 2 ^ m, (nttF a m pw q)[j]? =
      some (((List.range (2 ^ m)).map fun i => a.getD i 0 * psi ^ ((2 * brv m j + 1) * i)).sum % q)) ∧
    nttI (nttF a m pw q) m ipw q = a ∧
    (g % 2 = 1 → 1 ≤ m → autSlot (nttF a m pw q) m g = nttF (autCoef a m g q) m pw q ∧
      ∀ i < 2 ^ m,
        (i * g % (2 * 2 ^ m) < 2 ^ m → (autCoef a m g q)[i * g % (2 * 2 ^ m)]? = some (a.getD i 0)) ∧
        (2 ^ m ≤ i * g % (2 * 2 ^ m) →
          (autCoef a m g q)[i * g % (2 * 2 ^ m) - 2 ^ m]? = some ((q - a.getD i 0) % q)))) ∧
  (∀ (p : Nat) (ys cs : List Nat), Nat.Prime p → p % 2 = 1 →
    bconvVal p ys cs < p ∧ bconvVal p ys cs * 2 ^ 32 % p = (List.zipWith (· * ·) ys cs).sum % p) ∧
  (∀ (s : State) (f : FrameNo) (i : Iss) (fwd : Bool), s.iss? f (if fwd then .nttF else .nttI) = some i →
    fld i.w 94 8 ≠ 0 → Completes (if fwd then .nttF f else .nttI f) s fun t =>
      (let a := slot (s.frame f).rn.dtab (wA i.w)
       let d := slot (s.frame f).rn.dtab (wD i.w)
       let n := if fwd && flag1 i.w 102 then 1 else fld i.w 94 8
       let leaves (p : Pend) : Prop := (t.frame f).rn.pend = (s.frame f).rn.pend ++ [p]
       (a.mark ≠ none → ∃ m, leaves (.descPoison (wD i.w) m)) ∧
       (a.mark = none → a.domain ≠ (if fwd then 0 else 1) →
         leaves (.desc (wD i.w) { d with mark := some { cause := Codes.operandMismatch, run := i.r.id } })) ∧
       (a.mark = none → a.domain = (if fwd then 0 else 1) → ringDiff d a = false → tagBad [a] i.r.keyTag = false →
         ¬(fwd = true ∧ flag1 i.w 102 = true ∧ a.form = 1) → fld i.w 80 7 + n ≤ a.level + a.special →
         fld i.w 87 7 + fld i.w 94 8 ≤ a.level + a.special → a.comps ≤ 1 ∨ fld i.w 76 2 < a.comps → d.scaled = false →
         ∃ m, leaves (.desc (wD i.w) { deriveFrom d a with domain := if fwd then 1 else 0, mark := m })))) ∧
  (∀ (s : State) (f : FrameNo) (i : Iss), s.iss? f .aut = some i → fld i.w 87 8 ≠ 0 → fld i.w 78 2 ≠ 0 →
    Completes (.aut f) s fun t =>
      (let a := slot (s.frame f).rn.dtab (wA i.w)
       let d := slot (s.frame f).rn.dtab (wD i.w)
       let leaves (p : Pend) : Prop := (t.frame f).rn.pend = (s.frame f).rn.pend ++ [p]
       (a.mark ≠ none → ∃ m, leaves (.descPoison (wD i.w) m)) ∧
       (a.mark = none → ringDiff d a = false → tagBad [a] i.r.keyTag = false →
         fld i.w 80 7 + fld i.w 87 8 ≤ a.level + a.special → a.comps ≤ 1 ∨ fld i.w 76 2 + fld i.w 78 2 ≤ a.comps →
         d.scaled = false → ∃ m, leaves (.desc (wD i.w) { deriveFrom d a with mark := m }))))

/-- R203, R230, R244, R312, R329, R343. -/
def Obligations.FeederWordsIssue : Prop :=
  FeederWordIssues .xfer .xfer ∧ FeederWordIssues .kstream .kstream ∧ FeederWordIssues .flagRel .flagRel ∧
  FeederWordIssues .atom .atom ∧ FeederWordIssues .sld .sld ∧
  (∀ s f i, ∀ op ∈ ([.xfer, .kstream, .flagRel, .atom, .sld] : List Op), s.iss? f op = some i →
    (s.frame f).rn.held = true → s.feederFull f (wFeeder i.w) = false →
    Completes (.feederAccept f) s fun t => MovesOn s t f i.w ∧ Accepts s t f op i)

/-- R111, R123, R251, R299, R300, R455. That a program's tables are held with the first line of its words is the
model's choice (log entry 83). -/
def Obligations.SupplyAndOperationEnd : Prop :=
  (∀ (s : State) (f : FrameNo), (s.frame f).rn.run ≠ 0 → (s.frame f).rn.ended = false →
    (let fr := s.frame f
     let keep := keepFrom fr.rn.ctx fr.rn.word
     let window := fr.rn.window.drop (keep - fr.rn.winBase)
     let base := max keep fr.rn.winBase
     let more := s.ringWords fr (base + window.length)
     more ≠ [] → window.length + more.length ≤ 4096 → ∀ ups, Completes (.wordFetch ⟨f, ups⟩) s fun t =>
       (∃ ws, (t.frame f).rn.window = window ++ ws ∧ ws.length = more.length ∧ (s.memc.wipes = [] → ws = more)) ∧
       (t.frame f).rn.winBase = base ∧ (t.frame f).rn.tables = true ∧ SameRegisters f s t ∧ SameOthers f s t ∧
       (s.memc.wipes = [] → SameMemory s t))) ∧
  (∀ (s : State) (f : FrameNo) (te : Bool) (o : EngOp), s.powered f = true → (∀ r, s.runOf f = some r → r.aborted = none) →
    (s.frame f).rn.ops.find? (fun o => (o.engines == [.te]) == te && (decide (o.lastBeat < s.tally.count.toNat) ||
      (o.lastBeat == s.tally.count.toNat && decide (f.val % s.adm.cur.phases ≤ s.adm.group)))) = some o →
    (o.checked = true → ∀ fail, fail = true ∨ o.badLimb ≠ none → Completes (.engineOperationEnd f te fail) s fun t =>
      (t.frame f).rn.ops.length + 1 = (s.frame f).rn.ops.length ∧
      (∀ l ∈ o.foot, alGet t.poison l = some { cause := Codes.transformCheckFail, run := o.run }) ∧
      (t.frame f).reg.checkFails = satInc (s.frame f).reg.checkFails) ∧
    (o.execFault = none → o.badLimb = none → (∀ l ∈ o.foot, s.usable ≤ l * 2048) → (∀ c ∈ o.cells, s.usable ≤ c.1 / 2048 * 2048) → o.nibs = [] →
    Completes (.engineOperationEnd f te false) s fun t =>
      (t.frame f).rn.ops.length + 1 = (s.frame f).rn.ops.length ∧
      (t.frame f).rn.pend = (s.frame f).rn.pend ++ o.pend ∧
      (∀ a, (∀ c ∈ o.cells, c.1 ≠ a) → memRead t.mem a = memRead s.mem a) ∧
      (s.memOk → o.cells.Pairwise (fun c d => c.1 ≠ d.1) → ∀ c ∈ o.cells, memRead t.mem c.1 = c.2) ∧
      t.vis = s.vis ∧ SameRegisters f s t ∧ SameOthers f s t))

/-- R302 to R304 and R108, for rows that do not add. Memory is in canonical form by the invariant of this package. -/
def Obligations.RemoteRowsSpendCredits : Prop :=
  (∀ (s : State) (id : Nat) (x : Xfer) (r : RRow) (g : FrameNo) (off : Nat) (reg : Region),
    s.memOk → s.xfer? id = some x → x.localRow = some r → s.inOrder x [r.addr / 2048] = true → r.acc = false →
    s.access (funcNo x.func) x.isSealed false true r.addr = .ok → s.place r.addr = .spad g off → x.frame ≠ g.val →
    (s.openRemote g off = some reg → reg.hasCredit s.carry.self x.frame = true → Completes (.remoteRowArrival id) s fun t =>
      (∀ k (h : k < r.bytes.length), memRead t.mem (r.addr + k) = r.bytes[k]) ∧
      (∀ a, (a < r.addr ∨ r.addr + r.bytes.length ≤ a) → memRead t.mem a = memRead s.mem a) ∧ t.vis = s.vis ∧
      (t.frame g).regions = (s.frame g).regions.map (fun p =>
        if p.number = reg.number then p.spend s.carry.self x.frame else p) ∧
      (∀ y, t.xfer? id = some y → y.rows = x.rows.erase r)) ∧
    ((∀ q, s.openRemote g off = some q → q.hasCredit s.carry.self x.frame = false) → Completes (.remoteRowArrival id) s fun t =>
      SameMemory s t ∧ ∀ y, t.xfer? id = some y → y.rows = x.rows.erase r)) ∧
  (∀ (s : State) (id : Nat) (x : Xfer) (f : FrameNo) (n : Nat) (c : Credit) (r : Region),
    s.xfer? id = some x → x.grant = some (n, c) → x.frame = f.val → s.inOrder x [] = true →
    (s.frame f).region? n = some r → r.remote = true →
    (∀ e ∈ r.credits, e.dev ≠ c.dev ∨ e.frame ≠ c.frame) → r.credits.length < 4 →
    Completes (.grantApply id) s fun t =>
      (∃ q, (t.frame f).region? n = some q ∧ q.credits = r.credits ++ [{ c with rows := min r.sizeRows c.rows }]) ∧
      (∀ y ∈ t.xfers, y.id ≠ id) ∧ (s.memc.wipes = [] → SameMemory s t))

/-- R230, R301, R315, R338, R343, R345 at plain device memory: no contribution window and no layer's buffer. That an ATOM
or SLD on a sealed word is refused is the model's reading of R2, R173 and R174 (log entry 71). -/
def Obligations.TransfersActAtTheHome : Prop :=
  (∀ (s : State) (id : Nat) (x : Xfer), s.xfer? id = some x → s.canLand x = true →
    Completes (.transferLanded id) s fun t => (∀ y ∈ t.xfers, y.id ≠ id) ∧
      (s.memOk → s.memc.wipes = [] → x.writes.Pairwise (fun v w => v.addr ≠ w.addr) →
        (∀ w ∈ x.writes, w.size = 4 ∧ w.addr % 4 = 0 ∧ (∃ g off, s.place (w.addr / 2048 * 2048) = .spad g off) ∧
          s.access (funcNo x.func) x.isSealed false true (w.addr / 2048 * 2048) = .ok) →
        (∀ w ∈ x.writes, memReadNat t.mem w.addr 4 = w.value % 2 ^ 32) ∧
        (∀ a, (∀ w ∈ x.writes, a < w.addr ∨ w.addr + 4 ≤ a) → memRead t.mem a = memRead s.mem a) ∧ t.vis = s.vis)) ∧
  (∀ (s : State) (id : Nat) (x : Xfer) (w : PWrite) (rest : List PWrite), s.memOk → s.xfer? id = some x →
    x.accs = w :: rest → w.size = 4 → s.access (funcNo x.func) x.isSealed false true w.addr = .ok →
    s.place w.addr = .mem → s.contribAt w.addr = none → s.layerAt w.addr = none → s.inOrder x [w.addr / 2048] = true →
    s.memc.wipes = [] →
    Completes (.accWriteApply id) s fun t =>
      memReadNat t.mem w.addr 4 =
        (if w.q = 0 then (memReadNat s.mem w.addr 4 + w.value) % 2 ^ 32
          else (memReadNat s.mem w.addr 4 + w.value) % w.q % 2 ^ 32) ∧
      (∀ a, (a < w.addr ∨ w.addr + 4 ≤ a) → memRead t.mem a = memRead s.mem a) ∧ t.vis = s.vis ∧
      (∀ y, t.xfer? id = some y → y.accs = rest)) ∧
  (∀ (s : State) (id : Nat) (x : Xfer), s.memOk → s.xfer? id = some x → x.kind = .atom → x.device = none →
    x.result = none → x.mark = none → x.isSealed = false → x.aop < 5 → s.inOrder x [x.addr / 2048] = true →
    s.access (funcNo x.func) x.isSealed false true x.addr = .ok → s.place x.addr = .mem →
    s.contribAt x.addr = none → s.layerAt x.addr = none → poisonAt s.poison x.addr = none → s.memc.wipes = [] →
    (∀ y ∈ s.badSectors x.addr 4, y.2 = .single) → Completes (.atomApply id) s fun t =>
      memReadNat t.mem x.addr 4 =
        atomValue x.aop (memReadNat s.mem x.addr 4) x.opa x.opc (s.prime x.prime).q.toNat % 2 ^ 32 ∧
      (∀ a, (a < x.addr ∨ x.addr + 4 ≤ a) → memRead t.mem a = memRead s.mem a) ∧ t.vis = s.vis ∧
      ∃ y, t.xfer? id = some y ∧ y.result = some { value := BitVec.ofNat 32 (memReadNat s.mem x.addr 4) }) ∧
  (∀ (s : State) (id : Nat) (x : Xfer), s.xfer? id = some x → x.kind = .sld → x.result = none → x.mark = none →
    x.isSealed = false → s.memc.wipes = [] → (∀ y ∈ s.badSectors x.addr 4, y.2 = .single) → s.inOrder x [x.addr / 2048] = true → s.access (funcNo x.func) x.isSealed false false x.addr = .ok →
    s.place x.addr = .mem → poisonAt s.poison x.addr = none →
    Completes (.sldHomeRead id) s fun t =>
      SameMemory s t ∧
      ∃ y, t.xfer? id = some y ∧ y.result = some { value := BitVec.ofNat 32 (memReadNat s.mem x.addr 4) }) ∧
  (∀ (s : State) (id : Nat) (x : Xfer), s.xfer? id = some x → x.isSealed = true → x.result = none →
    s.inOrder x [x.addr / 2048] = true → s.memc.wipes = [] →
    ((x.kind = .atom → x.device = none → Completes (.atomApply id) s fun t => SameMemory s t ∧
      ∃ y, t.xfer? id = some y ∧ y.result = some { poison := some { cause := Codes.sealViolation, run := x.run } }) ∧
    (x.kind = .sld → Completes (.sldHomeRead id) s fun t => SameMemory s t ∧
      ∃ y, t.xfer? id = some y ∧ y.result = some { poison := some { cause := Codes.sealViolation, run := x.run } })))

/-- R241, R330 to R332, R336, R339, R349, R351. -/
def Obligations.FlagsAndReleases : Prop :=
  (∀ (s : State) (id : Nat) (x : Xfer) (f : FrameNo), s.xfer? id = some x → x.frame = f.val → x.kind = .rel →
    x.sent = false → s.relWaits f x = false → s.relTurn x = true →
    ((∃ r, s.run? x.run = some r ∧ r.aborted ≠ none) → exec (.releaseUpdateSend id) s = .next s) ∧
    ((∀ r, s.run? x.run = some r → r.aborted = none) →
    ((s.frame f).rn.drops.any (s.relCovers f x) = false → x.device = none → Completes (.releaseUpdateSend id) s fun t =>
      (∃ y, t.xfer? id = some y ∧ y.sent = true) ∧ t.frames = s.frames ∧ SameMemory s t) ∧
    ((s.frame f).rn.drops.any (s.relCovers f x) = true → Completes (.releaseUpdateSend id) s fun t =>
      (∀ y ∈ t.xfers, y.id ≠ id) ∧ (t.frame f).reg.suppressed = true ∧ ∀ g, (t.frame g).flags = (s.frame g).flags))) ∧
  (∀ (s : State) (id : Nat) (x : Xfer) (g : FrameNo), s.xfer? id = some x → x.kind = .rel → x.sent = true →
    x.device = none → x.tframe = g.val → (∀ y ∈ s.xfers, y.kind = .rel → y.sent = true → y.frame = x.frame →
      y.feeder = x.feeder → (∀ d, y.device = some d → d = s.carry.self) → y.tframe = x.tframe → y.flag = x.flag → x.id ≤ y.id) →
    (∀ h : x.flag < 256, (s.frame g).gone = false → (s.holder g).map (·.val) = some x.func → s.powered g = true →
      Completes (.flagUpdateApply id) s fun t =>
        (x.fop = 1 → (t.frame g).flags[x.flag] = (s.frame g).flags[x.flag] + BitVec.ofNat 32 x.value) ∧
        (x.fop ≠ 1 → (t.frame g).flags[x.flag] = BitVec.ofNat 32 x.value) ∧
        (∀ (i : Nat) (hi : i < 256), i ≠ x.flag → (t.frame g).flags[i] = (s.frame g).flags[i]) ∧
        (∀ y ∈ t.xfers, y.id ≠ id)) ∧
    (((s.frame g).gone = true ∨ (s.holder g).map (·.val) ≠ some x.func) →
      Completes (.flagUpdateApply id) s fun t =>
        (t.frame g).flags = (s.frame g).flags ∧ (t.frame g).reg.flagRefused = satInc (s.frame g).reg.flagRefused)) ∧
  (∀ (s : State) (f : FrameNo) (i : BitVec 8) (v : Word), s.hostOk = true → (s.frame f).gone = false → s.powered f = true →
    Completes (.pfFlagWrite f i v) s fun t =>
      (t.frame f).flags = (s.frame f).flags.set i.toNat v i.isLt ∧ OnlyFrame f s t) ∧
  (∀ (s : State) (f : FrameNo) (l : Nat) (ups : List Upset), s.hosts f = true → s.powered f = true →
    l * 2048 < s.usable → (∀ c ∈ (s.frame f).rrc, c.line ≠ l) → s.memc.wipes = [] →
    Completes (.rrcFill f ⟨l, ups⟩) s fun t =>
      (let bad := (s.upset ups).badSectors (l * 2048) 2048
       ∃ c, (t.frame f).rrc.head? = some c ∧ c.line = l ∧ c.fresh = true ∧ c.cells = memSlice s.mem (l * 2048) 2048 ∧
        ((∀ y ∈ bad, y.2 = .single) → c.mark = alGet s.poison l) ∧ ((∃ y ∈ bad, y.2 ≠ .single) → c.mark ≠ none)) ∧
      (t.frame f).reg.rrcMisses = (s.frame f).reg.rrcMisses + 1 ∧ SameMemory s t ∧ SameRegisters f s t ∧ SameOthers f s t)

/-- R75, R219, R227, R246, R247, R253, R255, R294, R480. -/
def Obligations.ProgramLifeCompletes : Prop :=
  (∀ (s : State) (id : Nat) (r : Run) (p : Program), s.run? id = some r → s.program? r.func r.handle = some p →
    r.starting = true → Completes (.programStart id) s fun t =>
      (∀ (f : FrameNo) (a : FramePart), hasFrame r.frames f = true → p.part? f = some a →
        (t.frame f).rn.word = 0 ∧ (t.frame f).seq.state = .running ∧ (t.frame f).scalars = Vector.replicate 32 {} ∧
        (t.frame f).rrc = [] ∧ (t.frame f).rn.kcount = 0 ∧ (t.frame f).rn.words = a.words) ∧
      (∀ f, hasFrame r.frames f = false → (t.frame f).scalars = (s.frame f).scalars ∧ (t.frame f).flags = (s.frame f).flags) ∧
      (s.memc.wipes = [] →
        (let p' := p.reload ((s.readSpans 1 (s.tableSpans p.hdr)).program r.func p.hdr)
         let new (a : Nat) : Prop := ∃ f part, ∃ e ∈ part.rtab, hasFrame r.frames f = true ∧ p'.part? f = some part ∧
           (s.frame f).creates e = true ∧ spadAddr f e.origin ≤ a ∧ a < spadAddr f e.origin + e.size
         ∀ a, (new a → memRead t.mem a = 0 ∧ memRead t.vis a = 0) ∧
           (¬ new a → memRead t.mem a = memRead s.mem a ∧ memRead t.vis a = memRead s.vis a)))) ∧
  (∀ (s : State) (f : FrameNo) (r : Run), s.runOf f = some r → (s.frame f).rn.endMark = true →
    ((∃ g ∈ framesOf r.frames, g ≠ f ∧ (s.frame g).rn.ended = false ∧ (s.frame g).rn.run = r.id) →
      Completes (.framePartEnd f) s fun t =>
        (t.frame f).rn.ended = true ∧ (t.frame f).rn.endMark = false ∧ SameOthers f s t ∧
        { t with frames := s.frames, tally := s.tally } = s ∧ (s.tally.leavePend = false → t.tally = s.tally) ∧
        (s.tally.leavePend = true → (∀ g, g ≠ f → (s.frame g).active = true → (s.frame g).done = true) →
          t.tally.gstate = .none)) ∧
    ((∀ g ∈ framesOf r.frames, g = f ∨ (s.frame g).rn.ended = true ∨ (s.frame g).rn.run ≠ r.id) → r.aborted = none →
      Completes (.framePartEnd f) s fun t =>
        (∀ q ∈ t.runs, q.id ≠ r.id) ∧
        (r.silent = false → t.hostq.comps.length = s.hostq.comps.length + 1 ∧ ∃ c, t.hostq.comps.getLast? = some c ∧
          c.func = r.func ∧ c.index = r.index ∧ c.rkind = 4 ∧ (r.fault = none → r.event = none → c.status = Codes.ok)))) ∧
  (∀ (s : State) (id : Nat) (r : Run), s.run? id = some r → r.residue = true → Completes (.programAbort id) s fun t =>
    (∀ q ∈ t.runs, q.id ≠ r.id) ∧ ∀ c, r.aborted = some c →
      (∀ x ∈ t.xfers, x.run = r.id → x.flying = true) ∧
      (∀ f, hasFrame r.frames f = true → (s.frame f).rn.run = r.id → (t.frame f).rn.run = 0 ∧ (t.frame f).rn.ops = []) ∧
      (r.silent = false → ∃ x, t.hostq.comps.getLast? = some x ∧ x.func = r.func ∧ x.index = r.index ∧ x.status = c)) ∧
  (∀ (s : State) (f : FrameNo) (b : BitVec 48), s.hostOk = true → s.powered f = true →
    ((∀ r, s.runOf f = some r → r.started = true → r.endBeat = none → s.progBeat r ≤ b.toNat) →
      Completes (.beatStopArm f b) s fun t =>
        (t.frame f).seq.stopBeat = b ∧ (t.frame f).seq.stopArm = true ∧ SameRegisters f s t ∧ SameMemory s t ∧
        (∀ g, g ≠ f → { t.frame g with seq := (s.frame g).seq } = s.frame g) ∧
        ∀ r, s.runOf f = some r → (∀ g, g ≠ f → hasFrame r.frames g = true → (t.frame g).seq.stopArm = false) ∧
          ∀ q ∈ t.runs, q.id = r.id → q.stopBeat = some b.toNat) ∧
    ((∃ r, s.runOf f = some r ∧ r.started = true ∧ r.endBeat = none ∧ b.toNat < s.progBeat r) →
      Completes (.beatStopArm f b) s fun t => (t.frame f).seq.stopMissed = true ∧ OnlyFrame f s t)) ∧
  (∀ (s : State) (f : FrameNo) (r : Run), s.hostOk = true → s.powered f = true → s.runOf f = some r →
    r.stopped = true → r.aborted = none → r.endBeat = none → Completes (.beatStopRelease f) s fun t =>
      t.frames = s.frames ∧ SameMemory s t ∧ ∃ q ∈ t.runs, q.id = r.id ∧ (f.val, Codes.beatStopped) ∈ q.aborts)

/-- R296, R297, R324. That a copy takes effect at GO is read from R324 (log entry 49, DEDUCED), and that freed rows read
zero from FREE on is the same choice of a moment (log entry 50). -/
def Obligations.RegionAndScratchpadCommandsComplete : Prop :=
  (∀ (s : State) (f : FrameNo) (n : BitVec 8) (r : Region), s.hostOk = true → s.powered f = true →
    (s.frame f).reg.regBusy = false →
    (s.regionDeclared f n.toNat = true → Completes (.regionFree f n) s fun t =>
      (t.frame f).reg.regResult = 1 ∧ (t.frame f).regions = (s.frame f).regions ∧ OnlyFrame f s t) ∧
    (s.regionDeclared f n.toNat = false →
      (s.frame f).regions.find? (fun r => r.resident && r.number == n.toNat) = some r →
      (s.holder f).map (·.val) = some r.owner → Completes (.regionFree f n) s fun t =>
        (t.frame f).reg.regBusy = true ∧ (t.frame f).reg.regResult = 0 ∧
        (∀ q ∈ (t.frame f).regions, q.number ≠ n.toNat) ∧
        (∀ a, spadAddr f (r.originRow * 2048) ≤ a → a < spadAddr f (r.originRow * 2048) + r.sizeRows * 2048 →
          memRead t.mem a = 0) ∧
        (∀ a, (a < spadAddr f (r.originRow * 2048) ∨ spadAddr f (r.originRow * 2048) + r.sizeRows * 2048 ≤ a) →
          memRead t.mem a = memRead s.mem a))) ∧
  (∀ (s : State) (f : FrameNo), Completes (.regionFreeComplete f) s fun t =>
    (t.frame f).reg = { (s.frame f).reg with regBusy := false } ∧ SameRegisters f s t ∧ OnlyFrame f s t) ∧
  (∀ (s : State) (f : FrameNo) (first : BitVec 12) (rows : BitVec 13) (d : Bool), s.hostOk = true → s.powered f = true →
    (s.frame f).reg.spadBusy = false →
    ((s.frame f).seq.state.copies d = false → Completes (.spadXferGo f first rows d) s fun t =>
      (t.frame f).reg.spadResult = 1 ∧ (t.frame f).reg.spadBusy = false ∧ OnlyFrame f s t) ∧
    ((s.frame f).seq.state.copies d = true → first.toNat + rows.toNat ≤ 4096 →
      (s.frame f).reg.xferAddr.toNat * 2048 + rows.toNat * 2048 ≤ s.usable → rows ≠ 0 →
      Completes (.spadXferGo f first rows d) s fun t =>
        (t.frame f).reg.spadBusy = true ∧ (t.frame f).reg.xferFirst = first ∧ (t.frame f).reg.xferRows = rows ∧
        ((t.frame f).reg.spadResult = 0 ∨ (t.frame f).reg.spadResult = 3) ∧
        (d = false → s.memOk → s.memc.wipes = [] → (∀ a, s.sealOwner a = none) →
          (∀ k < rows.toNat * 2048, memRead t.mem (spadAddr f (first.toNat * 2048) + k) =
            memRead s.mem ((s.frame f).reg.xferAddr.toNat * 2048 + k)) ∧
          ∀ a, (a < spadAddr f (first.toNat * 2048) ∨ spadAddr f (first.toNat * 2048) + rows.toNat * 2048 ≤ a) →
            memRead t.mem a = memRead s.mem a))) ∧
  (∀ (s : State) (f : FrameNo), Completes (.spadXferComplete f) s fun t =>
    (t.frame f).reg = { (s.frame f).reg with spadBusy := false } ∧ SameRegisters f s t ∧ OnlyFrame f s t) ∧
  (∀ (s : State) (f : FrameNo), (s.frame f).reg.wiping = true → Completes (.frameWipeComplete f) s fun t =>
    (t.frame f).reg.wiping = false ∧ SameRegisters f s t ∧ SameMemory s t ∧ SameOthers f s t)

/-- R171, R172, R370 to R372. That memory reads zero from the start of a wipe, and that a wipe of SIZE 0 clears RESULT,
are read from them (log entry 50, DEDUCED). -/
def Obligations.SealsAndWipesComplete : Prop :=
  (∀ s : State, s.hostOk = true → s.global.sealBusy = false → s.global.sealOp = false → Completes .sealSet s fun t =>
    t.global.sealBusy = true ∧ t.global.sealPend = some (false, s.global.sealIndex, s.global.stagedWin, 0) ∧
    t.global.seals = s.global.seals ∧ OnlyGlobal s t) ∧
  (∀ s : State, s.hostOk = true → s.global.sealBusy = false → s.global.sealOp = true →
    s.sealReleaseResult s.global.sealIndex = 0 → Completes .sealRelease s fun t =>
      t.global.sealBusy = true ∧ t.global.seals = s.global.seals ∧
      (let w := s.global.seals[s.global.sealIndex.toNat]
       (∀ a, w.span.1 ≤ a → a < w.span.1 + w.span.2 → memRead t.mem a = 0) ∧
       (∀ a, (a < w.span.1 ∨ w.span.1 + w.span.2 ≤ a) → memRead t.mem a = memRead s.mem a))) ∧
  (∀ (s : State) (i : BitVec 6) (w : SealWin) (j : BitVec 3), s.global.sealPend = some (true, i, w, j) →
    (s.memc.wipes.any fun x => x.kind == .sealed i.toNat) = false → Completes .sealOpComplete s fun t =>
    t.global.sealBusy = false ∧ t.global.sealLast = i ∧ t.global.sealResult = j ∧
    (j = 0 → t.global.seals[i.toNat] = {}) ∧ (j ≠ 0 → t.global.seals = s.global.seals) ∧
    (∀ (k : Nat) (h : k < 64), k ≠ i.toNat → t.global.seals[k] = s.global.seals[k]) ∧ OnlyGlobal s t) ∧
  (∀ (s : State) (i : BitVec 6) (w : SealWin) (x : BitVec 3), s.global.sealPend = some (false, i, w, x) →
    Completes .sealOpComplete s fun t =>
    t.global.sealBusy = false ∧ t.global.sealLast = i ∧ t.global.sealResult = BitVec.ofNat 3 (s.sealSetResult i w) ∧
    (s.sealSetResult i w = 0 → t.global.seals[i.toNat] = w) ∧
    (s.sealSetResult i w ≠ 0 → t.global.seals = s.global.seals) ∧
    (∀ (j : Nat) (h : j < 64), j ≠ i.toNat → t.global.seals[j] = s.global.seals[j]) ∧ OnlyGlobal s t) ∧
  (∀ s : State, s.hostOk = true → s.memc.wipes = [] →
    (s.memc.wipeSize = 0 → Completes .memcWipeGo s fun t => t.memc.wipeResult = 0 ∧ OnlyMemc s t) ∧
    (let a := s.memc.wipeBase.toNat * 2048
     let n := s.memc.wipeSize.toNat * 2048
     a + n ≤ s.usable → s.meetsSeal a n = false → (∀ i : Fin 64, s.mas.layers[i].state = .idle) →
     Completes .memcWipeGo s fun t =>
       t.memc.wipeResult = 0 ∧ (∀ b, a ≤ b → b < a + n → memRead t.mem b = 0) ∧
       (∀ b, (b < a ∨ a + n ≤ b) → memRead t.mem b = memRead s.mem b) ∧ t.frames = s.frames)) ∧
  (∀ (s : State) (k : Nat) (w : Wipe), s.memc.wipes[k]? = some w → Completes (.wipeComplete k) s fun t =>
    t.memc.wipes = s.memc.wipes.eraseIdx k ∧ t.memc.wipeDone = BitVec.ofNat 64 w.size ∧
    (w.kind ≠ .span → SameMemory s t) ∧
    (∀ a, (a / 2048 * 2048 < w.base ∨ w.base + w.size ≤ a / 2048 * 2048) → memRead t.mem a = memRead s.mem a)) ∧
  (∀ (s : State) (h : HeldRead) (rest : List HeldRead), s.memc.held = h :: rest →
    Completes .wipePending s (fun t => t.memc.held = rest ∧ t.outbox.getLast? = some (.completerAbort h.tag) ∧
      t.global.pfErrCode = Codes.wipePending ∧ SameMemory s t ∧ t.frames = s.frames) ∧
    Completes .heldAccessRelease s fun t => t.memc.held = rest ∧ t.outbox = s.outbox ++ [.readData h.tag h.bytes h.ep] ∧
      { t with memc := s.memc, outbox := s.outbox } = s)

/-- R175, R357, R369, R422, R428, R496, R551. That a retraining is over within its command is read from R357 (log entry 51,
DEDUCED). -/
def Obligations.HostMemoryAccessesComplete : Prop :=
  (∀ (s : State) (n : FuncNo) (o len tag : Nat) (ups : List Upset), s.served n = true →
    (∃ x ∈ s.openBytes (s.bar2Span n o len), s.lineFree (x.2 / 2048) = false) →
    Completes (.hostBar2Read n ⟨o, ups⟩ len tag) s fun t => t.frames = s.frames ∧
      ∃ h, t.memc.held = s.memc.held ++ [h] ∧ h.func = n.val ∧ h.tag = tag ∧ h.bytes.length = len) ∧
  (∀ (s : State) (n : FuncNo) (o len tag : Nat) (ups : List Upset), s.served n = true →
    (∀ x ∈ s.openBytes (s.bar2Span n o len), s.lineFree (x.2 / 2048) = true) →
    Completes (.hostBar2Read n ⟨o, ups⟩ len tag) s fun t =>
      SameMemory s t ∧ t.frames = s.frames ∧ t.memc.held = s.memc.held ∧
      ∃ bytes ep, t.outbox.getLast? = some (.readData tag bytes ep) ∧ bytes.length = len ∧
        (ep = true ↔ ∃ x ∈ s.openBytes (s.bar2Span n o len), poisonAt t.poison x.2 ≠ none) ∧
        ∀ k, (h : k < bytes.length) →
          (∀ a, s.bar2Addr n (o + k) = some a → s.sealWindow a = none → bytes[k] = memRead s.mem a) ∧
          (s.bar2Addr n (o + k) = none → bytes[k] = 0) ∧
          (∀ a, s.bar2Addr n (o + k) = some a → s.sealWindow a ≠ none → bytes[k] = 0)) ∧
  (∀ (s : State) (n : FuncNo) (o tag len : Nat) (ups : List Upset) (bytes : List Byte) (ep : Bool), s.served n = false →
    (s.boot.state = .recovery ∧ n = 0 ∧ s.global.fault.orphan = false →
      exec (.hostBar2Read n ⟨o, ups⟩ len tag) s = .next (s.emit (.readData tag (List.replicate len 0) false))) ∧
    (¬(s.boot.state = .recovery ∧ n = 0 ∧ s.global.fault.orphan = false) →
      exec (.hostBar2Read n ⟨o, ups⟩ len tag) s = .next (s.emit (.unsupported tag))) ∧
    (s.hostOk = true → exec (.hostBar2Write n o bytes ep) s = .next (s.emit (.unsupported 0))) ∧
    (s.hostOk = false → exec (.hostBar2Write n o bytes ep) s = .next s)) ∧
  (∀ (s : State) (n : FuncNo) (o a : Nat) (bytes : List Byte), s.memOk → s.served n = true → bytes ≠ [] →
    (∀ k < bytes.length, s.bar2Addr n (o + k) = some (a + k) ∧ s.sealWindow (a + k) = none) →
    a % 2048 + bytes.length ≤ 2048 → s.contribAt a = none → s.layerAt a = none → s.memc.wipes = [] → ∀ ep,
    Completes (.hostBar2Write n o bytes ep) s fun t =>
      (∀ k (h : k < bytes.length), memRead t.mem (a + k) = bytes[k]) ∧
      (∀ b, (b < a ∨ a + bytes.length ≤ b) → memRead t.mem b = memRead s.mem b) ∧ t.vis = s.vis ∧ t.frames = s.frames ∧
      (ep = true → poisonAt t.poison a ≠ none ∧ t.outbox.getLast? = some (.aerPoisoned n.val))) ∧
  (∀ (s : State) (p : Fin 16) (ce ue : List Nat), s.memc.ports[p].trained = true → s.memc.ports[p].periodH ≠ 0 →
    s.memc.selfRefresh = false → s.memc.wipes = [] → Completes (.scrubRead p ce ue) s fun t =>
      (let a := portAddr s.granule p.val (s.memc.ports[p].scrubNext * 2048)
       let bad := (s.upset (sectorUpsets ce ue)).badSectors a 2048
       t.memc.ports[p].ce = (bad.filter (·.2 == .single)).foldl (fun c _ => satInc c) s.memc.ports[p].ce ∧
       ((∃ y ∈ bad, y.2 ≠ .single) → poisonAt t.poison a ≠ none)) ∧
      SameMemory s t ∧ t.frames = s.frames ∧
      t.memc.ports[p].scrubNext = (if s.usable / 16 / 2048 ≤ s.memc.ports[p].scrubNext + 1 then 0 else s.memc.ports[p].scrubNext + 1)) ∧
  (∀ (s : State) (p : Fin 16), Completes (.memRetrain p) s fun t =>
    t.memc.ports[p] = { s.memc.ports[p] with retraining := false } ∧ OnlyMemc s t)

/-- R373, R374, R377, R380, R381. -/
def Obligations.LayerCommandsComplete : Prop :=
  (∀ (s : State) (i : Fin 64), s.hostOk = true → s.mas.layers[i].state = .idle → s.defineResult i = 0 →
    Completes (.masDefine i) s fun t =>
      t.mas.layers[i] = { s.mas.layers[i] with state := .closed, steps := 0, result := 0 } ∧
      (∀ j, j ≠ i → t.mas.layers[j] = s.mas.layers[j]) ∧ OnlyMas s t) ∧
  (∀ (s : State) (i : Fin 64), s.hostOk = true → s.mas.layers[i].state = .closed →
    Completes (.masOpen i) s (fun t => t.mas.layers[i] = { s.mas.layers[i] with state := .opened, result := 0 } ∧
      (∀ j, j ≠ i → t.mas.layers[j] = s.mas.layers[j]) ∧ OnlyMas s t) ∧
    Completes (.masRelease i) s (fun t => t.mas.layers[i] = { s.mas.layers[i] with state := .idle, result := 0 } ∧
      (∀ j, j ≠ i → t.mas.layers[j] = s.mas.layers[j]) ∧ OnlyMas s t) ∧
    (∀ v, Completes (.stepsWrite i v) s fun t => t.mas.layers[i] = { s.mas.layers[i] with steps := v } ∧
      (∀ j, j ≠ i → t.mas.layers[j] = s.mas.layers[j]) ∧ OnlyMas s t)) ∧
  (∀ (s : State) (i : Fin 64), s.hostOk = true → s.mas.layers[i].state = .opened →
    Completes (.masClose i) s fun t => t.mas.layers[i] = { s.mas.layers[i] with state := .closing, result := 0 } ∧
      (∀ j, j ≠ i → t.mas.layers[j] = s.mas.layers[j]) ∧ OnlyMas s t) ∧
  (∀ (s : State) (i : Fin 64), s.mas.layers[i].state = .closing →
    Completes (.closingDone i) s fun t => t.mas.layers[i] = { s.mas.layers[i] with state := .closed } ∧
      (∀ j, j ≠ i → t.mas.layers[j] = s.mas.layers[j]) ∧ OnlyMas s t) ∧
  (∀ (s : State) (i : Fin 64) (v : BitVec 64), s.hostOk = true →
    (s.mas.layers[i].state = .opened ∨ s.mas.layers[i].state = .closed) →
    Completes (.etaWrite i v) s fun t => t.mas.layers[i] = { s.mas.layers[i] with eta := v, etaValid := true } ∧
      (∀ j, j ≠ i → t.mas.layers[j] = s.mas.layers[j]) ∧ OnlyMas s t) ∧
  (∀ (s : State) (i : Fin 64), s.hostOk = true → s.mas.layers[i].state = .idle → s.defineResult i ≠ 0 →
    Completes (.masDefine i) s fun t =>
      t.mas.layers[i] = { s.mas.layers[i] with result := BitVec.ofNat 4 (s.defineResult i) } ∧
      (∀ j, j ≠ i → t.mas.layers[j] = s.mas.layers[j]) ∧ OnlyMas s t) ∧
  (∀ (s : State) (i : Fin 64) (cl solo : Bool) (v : BitVec 64), s.hostOk = true →
    (∀ p ∈ ([(.masDefine i, .idle), (.masOpen i, .closed), (.masClose i, .opened), (.masRelease i, .closed),
        (.masStep i cl solo, .closed)] : List (Instr × LState)), s.mas.layers[i].state ≠ p.2 →
      Completes p.1 s fun t => t.mas.layers[i] = { s.mas.layers[i] with result := 1 } ∧
        (∀ j, j ≠ i → t.mas.layers[j] = s.mas.layers[j]) ∧ OnlyMas s t) ∧
    (s.mas.layers[i].state = .closed → s.mas.layers[i].etaValid = false → Completes (.masStep i cl solo) s fun t =>
      t.mas.layers[i] = { s.mas.layers[i] with result := 7 } ∧ (∀ j, j ≠ i → t.mas.layers[j] = s.mas.layers[j]) ∧ OnlyMas s t) ∧
    (s.mas.layers[i].state ≠ .opened → s.mas.layers[i].state ≠ .closed → exec (.etaWrite i v) s = .next s) ∧
    (s.mas.layers[i].state ≠ .closed → exec (.stepsWrite i v) s = .next s)) ∧
  (∀ (s : State) (i : Fin 64), s.mas.layers[i].state = .voting → Completes (.stepVoteExpired i) s fun t =>
    t.mas.layers[i].state = .closed ∧ t.mas.layers[i].lastCode = Codes.stepVoteExpired ∧
    t.mas.layers[i].etaValid = s.mas.layers[i].etaValid ∧ SameMemory s t ∧ t.frames = s.frames)

/-- R375, R377 to R379, R381. -/
def Obligations.MasStepsComplete : Prop :=
  (∀ (s : State) (i : Fin 64) (cl solo : Bool), s.hostOk = true → s.mas.layers[i].state = .closed →
    s.mas.layers[i].etaValid = true →
    (let l := s.mas.layers[i]
     (∀ c, (l.shards = 1 ∨ solo = true) → stepCoef l.eta l.beta l.cfrac.toNat l.steps = some c →
       Completes (.masStep i cl solo) s fun t =>
         t.mas.layers[i].state = .stepping ∧ t.mas.layers[i].coef = c ∧ t.mas.layers[i].clearM = cl ∧
         t.mas.layers[i].result = 0 ∧ OnlyMas s t) ∧
     ((l.shards = 1 ∨ solo = true) → stepCoef l.eta l.beta l.cfrac.toNat l.steps = none →
       Completes (.masStep i cl solo) s fun t =>
         t.mas.layers[i].state = .closed ∧ t.mas.layers[i].lastCode = Codes.stepRange ∧ SameMemory s t) ∧
     (l.shards ≠ 1 → solo = false → Completes (.masStep i cl solo) s fun t =>
        t.mas.layers[i].state = .voting ∧ t.mas.layers[i].result = 0 ∧ SameMemory s t))) ∧
  (∀ (s : State) (i : Fin 64) (n : Nat) (rest : List (Nat × Option (List Nat))),
    s.mas.layers[i].awaits s.mas.layers[i].rset.toNat n = true →
    (s.set? s.mas.layers[i].rset.toNat).votes = (n, none) :: rest → Completes (.voteResult i) s fun t =>
      t.mas.layers[i].state = .closed ∧ t.mas.layers[i].lastCode = Codes.counterSkew ∧ SameMemory s t) ∧
  (∀ (s : State) (i : Fin 64) (n : Nat) (ws : List Nat) (rest : List (Nat × Option (List Nat))),
    s.mas.layers[i].awaits s.mas.layers[i].rset.toNat n = true →
    (s.set? s.mas.layers[i].rset.toNat).votes = (n, some ws) :: rest →
    (voteAgrees ws s.mas.layers[i].shards.toNat = false → Completes (.voteResult i) s fun t =>
      t.mas.layers[i].state = .closed ∧ t.mas.layers[i].lastCode = Codes.counterSkew ∧ SameMemory s t) ∧
    (∀ c, voteAgrees ws s.mas.layers[i].shards.toNat = true →
      stepCoef s.mas.layers[i].voteEta s.mas.layers[i].beta s.mas.layers[i].cfrac.toNat s.mas.layers[i].steps = some c →
      Completes (.voteResult i) s fun t => t.mas.layers[i].state = .stepping ∧ t.mas.layers[i].coef = c ∧ SameMemory s t)) ∧
  (∀ (s : State) (i : Fin 64), s.mas.layers[i].state = .stepping → Completes (.stepComplete i) s fun t =>
    (let l := s.mas.layers[i]
     let w := lineBase l.wBase
     let m := lineBase l.mBase
     let n := l.shape.size
     t.mas.layers[i].state = .closed ∧ t.mas.layers[i].steps = l.steps + 1 ∧ t.mas.layers[i].etaValid = false ∧
     t.mas.layers[i].lastC = BitVec.ofInt 64 l.coef ∧ t.frames = s.frames ∧
     (l.clearM = true → ∀ a, m ≤ a → a < m + n → memRead t.mem a = 0) ∧
     (n % 4 = 0 → s.memOk → w + n ≤ m ∨ m + n ≤ w → ∀ o, o < n → o % 4 = 0 →
       (s.shapeMod l.shape o ≠ 0 → (memReadNat t.mem (w + o) 4 : Int) =
         ((memReadNat s.mem (w + o) 4 : Int) + l.coef * (memReadNat s.mem (m + o) 4 : Int)) % (s.shapeMod l.shape o : Int)) ∧
       (s.shapeMod l.shape o = 0 → memReadNat t.mem (w + o) 4 = memReadNat s.mem (w + o) 4)) ∧
     (n % 4 = 0 → ∀ a, (a < w ∨ w + n ≤ a) → (l.clearM = false ∨ a < m ∨ m + n ≤ a) → memRead t.mem a = memRead s.mem a))) ∧
  (∀ (s : State) (i : Fin 64) (a : Nat) (bytes : List Byte) (p : Bool), s.memOk → s.layerAt a = some i →
    s.contribAt a = none → a % 2048 + bytes.length ≤ 2048 → bytes ≠ [] → a % 4 = 0 → bytes.length % 4 = 0 →
    s.mas.layers[i].state = .opened ∨ s.mas.layers[i].state = .closing → s.memc.wipes = [] →
    Completes (.ingestAdd i a bytes p) s fun t =>
      (let q := s.shapeMod s.mas.layers[i].shape (a - lineBase s.mas.layers[i].mBase)
       ∀ j, 4 * j < bytes.length →
        (let sum := memReadNat s.mem (a + 4 * j) 4 + bytesToNat ((bytes.drop (4 * j)).take 4)
         memReadNat t.mem (a + 4 * j) 4 = if q = 0 then sum % 2 ^ 32 else sum % q)) ∧
      (∀ b, (b < a ∨ a + bytes.length ≤ b) → memRead t.mem b = memRead s.mem b) ∧
      t.mas.layers[i].linesIn = satAdd s.mas.layers[i].linesIn 1 ∧ t.vis = s.vis ∧ t.frames = s.frames)

/-- R390, R391 and Tables 12.5 and 12.6. -/
def Obligations.PacketBytesReadBackAsThePacket : Prop :=
  ∀ (vote : Nat → Bool) (p : Packet) (rest : List Byte),
    p.ptype < 2 ^ 4 → p.dst < 2 ^ 12 → p.src < 2 ^ 12 → p.sframe < 2 ^ 6 → p.addr < 2 ^ 48 → p.len < 2 ^ 12 →
    p.tag < 2 ^ 12 → p.func < 2 ^ 6 → p.arg < 2 ^ 32 → p.ext.length = extLen p.ptype →
    p.data.length = dataLen vote p →
    takePacket vote (p.bytes ++ rest) = some (p, rest)

/-- R386 and Tables 12.2 and 12.3; the CRC's bit order and the filling are the model's choice (log entry 20). -/
def Obligations.FlitPassesItsOwnCheck : Prop :=
  ∀ (profL : Bool) (h : FlitHdr) (payload : List Byte),
    h.seq < 2 ^ 12 → h.ack < 2 ^ 12 → h.first < 2 ^ 8 → h.crvc < 2 ^ 3 → h.crcnt < 2 ^ 8 →
    payload.length ≤ payloadLen profL →
    (flitBytes profL h payload).length = 256 ∧ flitGood profL (flitBytes profL h payload) = true ∧
    flitHdr (bytesToNat ((flitBytes profL h payload).take 8)) = h ∧
    ((flitBytes profL h payload).drop 8).take payload.length = payload

/-- R386, R388, R393, R395, R401, R416. A flit that is no flit is the model's stop (log entry 1). -/
def Obligations.FlitsAndPacketsAreReceived : Prop :=
  (∀ (s : State) (p : Fin 8) (flit : List Byte), flit.length = 256 → s.carry.ports[p].state = .active →
    (flitGood s.profL flit = true → (flitHdr (bytesToNat (flit.take 8))).seq = s.carry.ports[p].rxSeq.toNat →
      Completes (.flitReceive p none flit) s fun t =>
        t.carry.ports[p].rxSeq = s.carry.ports[p].rxSeq + 1 ∧
        t.carry.ports[p].flitsRx = satInc s.carry.ports[p].flitsRx ∧ SameMemory s t ∧ t.frames = s.frames) ∧
    (flitGood s.profL flit = true → (flitHdr (bytesToNat (flit.take 8))).seq ≠ s.carry.ports[p].rxSeq.toNat →
      Completes (.flitReceive p none flit) s fun t =>
        t.carry.ports[p].rxSeq = s.carry.ports[p].rxSeq ∧ t.carry.inq = s.carry.inq ∧ SameMemory s t) ∧
    (flitGood s.profL flit = false → Completes (.flitReceive p none flit) s fun t =>
        t.carry.ports[p].rxSeq = s.carry.ports[p].rxSeq ∧
        t.carry.ports[p].checkFail = satInc s.carry.ports[p].checkFail ∧ t.carry.inq = s.carry.inq ∧ SameMemory s t) ∧
    (∀ n ≤ 34, Completes (.flitReceive p (some n) flit) s fun t =>
        t.carry.ports[p].rxSeq = s.carry.ports[p].rxSeq ∧
        t.carry.ports[p].fecUncorr = satAdd s.carry.ports[p].fecUncorr n ∧
        (16 < n → t.carry.ports[p].state = .retrain) ∧ t.carry.inq = s.carry.inq ∧ SameMemory s t)) ∧
  (∀ (s : State) (p : Fin 8) (d : Option Nat) (flit : List Byte), flit.length ≠ 256 →
    exec (.flitReceive p d flit) s = .fault (.illFormed "flit length")) ∧
  (∀ (s : State) (i : Inbound) (rest : List Inbound) (p : Fin 8), s.carry.inq = i :: rest → i.port = p.val →
    (let k := i.pkt
     let way := s.carry.route k s.carry.ports[p].role.toNat
     let u := ({ s with carry := { s.carry with inq := rest } } : State).giveBack p k
     Completes .packetRoute s fun t => t.carry.inq = rest ∧ SameMemory s t ∧ t.frames = s.frames ∧
       (way = .deliver → packetClass k.ptype = some .rsp →
         t.carry.resps = s.carry.resps ++ [k] ∧ t.carry.atHome = s.carry.atHome) ∧
       (way = .deliver → packetClass k.ptype ≠ some .rsp →
         t.carry.atHome = s.carry.atHome ++ [k] ∧ t.carry.resps = s.carry.resps) ∧
       (way = .drop → t.carry.atHome = s.carry.atHome ∧ t.carry.ports[p].dropped = satInc s.carry.ports[p].dropped ∧
         t.carry.resps = s.carry.resps ++ (if isRequest k ∧ k.src = s.carry.self then
           [response s.carry.self k Codes.routeUnreachable 0 false] else [])) ∧
       (∀ role det dl, way = .out role det dl → t.carry.atHome = s.carry.atHome ∧ t.carry.resps = s.carry.resps ∧
         ∀ q, u.carry.pickPort role k = some q → t = (u.queueAt q { k with det, dl }).pumpAll))) ∧
  (∀ (c : Carry) (p : Packet) (arr : Nat),
    (c.devices ≤ p.dst → c.route p arr = .drop) ∧
    (p.dst < c.devices → (c.route p arr = .deliver ↔ ∀ d < 3, c.coord p.dst d = c.coord c.self d)) ∧
    (∀ role det dl, c.route p arr = .out role det dl →
      ∃ d < 3, c.coord p.dst d ≠ c.coord c.self d ∧ (∀ e < d, c.coord p.dst e = c.coord c.self e) ∧
        (c.roleDim role).1 = d))

/-- R231, R241, R333, R343, R349, R392, R400, R401, R426. -/
def Obligations.RequestsAndResponsesSettle : Prop :=
  (∀ (s : State) (k : Packet), s.carry.atHome.find? (fun k => !s.requestHeld k) = some k →
    (Completes .requestArrival s fun t => t.carry.atHome = s.carry.atHome.erase k) ∧
    (s.memOk → s.memc.wipes = [] → s.inBypass = false → k.ptype = tWrite → k.acc = false → s.place k.addr = .mem →
      s.sealOwner k.addr = none → s.contribAt k.addr = none → s.layerAt k.addr = none →
      (s.accepts (s.memOwner k.addr) k.func = true → Completes .requestArrival s fun t =>
        (∀ j (h : j < k.data.length), memRead t.mem (k.addr + j) = k.data[j]) ∧
        (∀ a, (a < k.addr ∨ k.addr + k.data.length ≤ a) → memRead t.mem a = memRead s.mem a) ∧ t.vis = s.vis) ∧
      (s.accepts (s.memOwner k.addr) k.func = false → Completes .requestArrival s fun t => SameMemory s t)) ∧
    (s.memOk → s.memc.wipes = [] → s.inBypass = false → k.ptype = tAtom → s.place k.addr = .mem → k.arg % 8 < 5 →
      s.sealOwner k.addr = none → s.contribAt k.addr = none → s.layerAt k.addr = none →
      s.accepts (s.memOwner k.addr) k.func = true → poisonAt s.poison k.addr = none →
      (∀ y ∈ s.badSectors k.addr 4, y.2 = .single) → Completes .requestArrival s fun t =>
        memReadNat t.mem k.addr 4 = atomValue (k.arg % 8) (memReadNat s.mem k.addr 4) (bytesToNat (k.ext.take 4))
          (bytesToNat (k.ext.drop 4)) (s.prime (k.arg / 2 ^ 8 % 2 ^ 8)).q.toNat % 2 ^ 32 ∧
        (∀ a, (a < k.addr ∨ k.addr + 4 ≤ a) → memRead t.mem a = memRead s.mem a) ∧ t.vis = s.vis) ∧
    (∀ g : FrameNo, s.inBypass = false → k.ptype = tFlag → k.src ≠ s.carry.self → k.addr % 64 = g.val →
      (s.accepts (s.frameOwner g) k.func = true → (s.frame g).gone = false → s.powered g = true →
        Completes .requestArrival s fun t => SameMemory s t ∧ SameOthers g s t ∧
          ∀ i : Fin 256, (t.frame g).flags[i] =
            if i.val = k.addr / 2 ^ 8 % 256 then
              (if k.addr / 2 ^ 16 % 2 = 1 then (s.frame g).flags[i] + BitVec.ofNat 32 k.arg else BitVec.ofNat 32 k.arg)
            else (s.frame g).flags[i]) ∧
      (s.accepts (s.frameOwner g) k.func = false ∨ (s.frame g).gone = true → Completes .requestArrival s fun t =>
        SameMemory s t ∧ SameOthers g s t ∧ (t.frame g).flags = (s.frame g).flags ∧
        (t.frame g).reg.flagRefused = satInc (s.frame g).reg.flagRefused))) ∧
  (∀ (s : State) (k : Packet) (rest : List Packet) (q : Req) (id : Nat), s.carry.resps = k :: rest →
    s.carry.reqs.find? (·.pkt.tag == k.tag) = some q →
    (q.owner = .flag id → Completes .responseArrival s fun t => (∀ y ∈ t.xfers, y.id ≠ id) ∧ SameMemory s t) ∧
    (q.owner = .atom id → (∀ x ∈ s.xfers, x.id = id → x.abandoned = false) → k.ptype = tAtomr → bytesToNat ((k.ext.drop 4).take 2) = 0 → k.poison = false →
      Completes .responseArrival s fun t => SameMemory s t ∧
        ∀ y, t.xfer? id = some y → y.result = some { value := BitVec.ofNat 32 (bytesToNat (k.ext.take 4)) })) ∧
  (∀ (s : State) (k : Packet) (rest : List Packet), s.carry.resps = k :: rest →
    s.carry.reqs.find? (·.pkt.tag == k.tag) = none →
    exec .responseArrival s = .next { s with carry := { s.carry with resps := rest } }) ∧
  (∀ (s : State) (tag : BitVec 12) (q : Req) (id : Nat), s.carry.reqs.find? (·.pkt.tag == tag.toNat) = some q →
    (q.owner = .flag id → Completes (.ackTimeout tag) s fun t => (∀ y ∈ t.xfers, y.id ≠ id) ∧ SameMemory s t) ∧
    (q.owner = .atom id → (∀ x ∈ s.xfers, x.id = id → x.abandoned = false) → Completes (.ackTimeout tag) s fun t => SameMemory s t ∧
      ∀ y, t.xfer? id = some y → y.result = some { value := 0, poison := some {} }))

/-- R385, R394, R402, R416, R563 and Table 12.12. That EQUALIZE_DONE takes on a port that is still in RETRAIN is the
model's (log entry 64). -/
def Obligations.PortTrainingFollowsTheTable : Prop :=
  (∀ (s : State) (p : Fin 8), s.hostOk = true → s.portPowered p = true →
    (s.carry.ports[p].state = .disabled → s.carry.ports[p].role ≠ 0 → s.boot.lost.contains 3 = false → Completes (.portEnable p true) s fun t =>
      t.carry.ports[p].state = .equalize ∧ t.carry.ports[p].enable = true ∧ OnlyCarry s t) ∧
    Completes (.portEnable p false) s fun t =>
      t.carry.ports[p].state = .disabled ∧ t.carry.ports[p].enable = false ∧ t.carry.ports[p].identFail = false ∧ OnlyCarry s t) ∧
  (∀ (s : State) (p : Fin 8), s.carry.ports[p].state = .equalize ∨ s.carry.ports[p].state = .retrain →
    Completes (.equalizeDone p) s fun t => t.carry.ports[p] = { s.carry.ports[p] with state := .align } ∧ OnlyCarry s t) ∧
  (∀ (s : State) (p : Fin 8) (good : BitVec 34), s.carry.ports[p].state = .align →
    (32 ≤ laneCount good → Completes (.alignDone p good) s fun t =>
      t.carry.ports[p].state = .ident ∧ t.carry.ports[p].width16 = false) ∧
    (16 ≤ laneCount good → laneCount good < 32 → s.carry.ports[p].fullOnly = false → Completes (.alignDone p good) s fun t =>
      t.carry.ports[p].state = .ident ∧ t.carry.ports[p].width16 = true) ∧
    (laneCount good < 16 ∨ (laneCount good < 32 ∧ s.carry.ports[p].fullOnly = true) → Completes (.alignDone p good) s fun t =>
      t.carry.ports[p].state = .align ∧ OnlyCarry s t)) ∧
  (∀ (s : State) (p : Fin 8) (r : BitVec 4) (d : BitVec 12) (f : BitVec 2), s.carry.ports[p].state = .ident →
    ((r.toNat = oppositeRole s.carry.ports[p].role.toNat ∧ s.carry.neighbour s.carry.ports[p].role.toNat = some d.toNat ∧
        f = s.global.profile) → s.carry.ports[p].hold = false ∨ s.carry.ports[p].replayed < 7 →
      Completes (.ident p r d f) s fun t =>
        t.carry.ports[p].state = .active ∧ t.carry.ports[p].hold = false ∧ t.carry.ports[p].peerDev = d ∧ SameMemory s t ∧
        t.frames = s.frames) ∧
    (¬(r.toNat = oppositeRole s.carry.ports[p].role.toNat ∧ s.carry.neighbour s.carry.ports[p].role.toNat = some d.toNat ∧
        f = s.global.profile) → Completes (.ident p r d f) s fun t =>
      t.carry.ports[p].state = .down ∧ t.carry.ports[p].identFail = true ∧ SameMemory s t ∧ t.frames = s.frames ∧
      (s.carry.ports[p].hold = false → OnlyCarry s t))) ∧
  (∀ (s : State) (p : Fin 8), s.carry.ports[p].state = .active → Completes (.retrain p) s fun t =>
    t.carry.ports[p] = { s.carry.ports[p] with
      lanes := 0, width16 := false, sparesUsed := 0
      state := .retrain, hold := true, retrains := satInc s.carry.ports[p].retrains } ∧ OnlyCarry s t) ∧
  (∀ (s : State) (p : Fin 8), s.carry.ports[p].hold = true → s.carry.ports[p].state ≠ .active →
    Completes (.linkHoldExpiry p) s fun t =>
      t.carry.ports[p].state = .down ∧ t.carry.ports[p].hold = false ∧ t.carry.ports[p].replay = [] ∧
      (∀ k ∈ t.carry.ports[p].txq, k.ptype = tJunction) ∧ SameMemory s t) ∧
  (∀ (s : State) (p : Fin 8), s.carry.ports[p].state = .down → s.carry.ports[p].enable = true → s.portPowered p = true →
    s.boot.lost.contains 3 = false → Completes (.downRetry p) s fun t =>
      t.carry.ports[p] = { s.carry.ports[p] with state := .equalize, identFail := false } ∧ OnlyCarry s t)

/-- R399, R415, R418. -/
def Obligations.LanesBypassAndTimeComplete : Prop :=
  (∀ (s : State) (p : Fin 8) (l sp : Fin 34), s.carry.ports[p].state = .active → s.spareArmed p = true →
    s.carry.ports[p].lanes.getLsbD l = true →
    (32 ≤ sp.val → s.carry.ports[p].lanes.getLsbD sp = false → s.carry.ports[p].lanesFailed.getLsbD sp = false →
      Completes (.laneSwap p l sp) s fun t =>
        t.carry.ports[p].lanes.getLsbD l = false ∧ t.carry.ports[p].lanes.getLsbD sp = true ∧
        t.carry.ports[p].lanesFailed.getLsbD l = true ∧ t.carry.ports[p].state = .active ∧ SameMemory s t) ∧
    (s.carry.ports[p].freeLane = some sp → Completes (.laneLockLoss p l true) s fun t =>
        t.carry.ports[p].lanes.getLsbD l = false ∧ t.carry.ports[p].lanes.getLsbD sp = true ∧
        t.carry.ports[p].state = .active ∧ SameMemory s t) ∧
    Completes (.laneLockLoss p l false) s fun t => t.carry.ports[p].state = .retrain ∧ OnlyCarry s t) ∧
  (∀ s : State, s.hostOk = true →
    Completes (.bypass true) s (fun t => t.carry.bypass = true ∧ (∀ i : Fin 64, t.carry.sets[i].armed = false) ∧
      (∀ i : Fin 64, { t.mas.layers[i] with voteRound := s.mas.layers[i].voteRound } = s.mas.layers[i]) ∧
      { t with carry := s.carry, mas := s.mas } = s) ∧
    Completes (.bypass false) s fun t => t.carry = { s.carry with bypass := false } ∧ OnlyCarry s t) ∧
  (∀ (s : State) (p : Fin 8), s.hostOk = true → s.carry.ports[p].state = .active → s.carry.ports[p].pingOut = false →
    Completes (.ping p) s fun t => t.carry.ports[p].pingOut = true ∧ SameMemory s t ∧ t.frames = s.frames ∧
      (s.carry.ports[p].txq = [] → 1 ≤ s.carry.ports[p].credits[4] →
        ∃ lanes, t.outbox = s.outbox ++ [.flit p.val lanes])) ∧
  (∀ (s : State) (x : Fin 8 × Packet × BitVec 64 × State), s.takeTime false = some x →
    Completes .timePingReceive s fun t =>
      t.carry.timesIn.length + 1 = s.carry.timesIn.length ∧ SameMemory s t ∧ t.frames = s.frames ∧
      (s.carry.ports[x.1].state = .active → s.carry.ports[x.1].txq = [] → 1 ≤ s.carry.ports[x.1].credits[4] →
        ∃ lanes, t.outbox = s.outbox ++ [.flit x.1.val lanes])) ∧
  (∀ (s : State) (x : Fin 8 × Packet × BitVec 64 × State), s.takeTime true = some x →
    Completes .timeEchoReceive s fun t =>
      t.carry.ports[x.1].pingDone = true ∧ t.carry.ports[x.1].pingOut = false ∧ t.carry.ports[x.1].times[3] = x.2.2.1 ∧
      t.carry.timesIn.length + 1 = s.carry.timesIn.length ∧ OnlyCarry s t)

/-- R315 and R404 to R411. -/
def Obligations.ReductionSetsComplete : Prop :=
  (∀ (s : State) (i : Fin 64), s.hostOk = true → s.carry.sets[i].armed = false →
    (s.armResult i = 0 → Completes (.rsArm i) s fun t =>
      t.carry.sets[i].armed = true ∧ t.carry.sets[i].result = 0 ∧ t.carry.sets[i].rounds = 0 ∧
      t.carry.sets[i].lines = [] ∧ (∀ j, j ≠ i → t.carry.sets[j] = s.carry.sets[j]) ∧ OnlyCarry s t) ∧
    (s.armResult i ≠ 0 → Completes (.rsArm i) s fun t =>
      t.carry.sets[i] = { s.carry.sets[i] with result := BitVec.ofNat 4 (s.armResult i) } ∧ OnlyCarry s t)) ∧
  (∀ (s : State) (i : Fin 64), s.hostOk = true → s.carry.sets[i].armed = true → Completes (.rsDisarm i) s fun t =>
    t.carry.sets[i].armed = false ∧ t.carry.sets[i].lines = [] ∧ t.carry.sets[i].result = 0 ∧
    (∀ j, j ≠ i → t.carry.sets[j] = s.carry.sets[j]) ∧
    (∀ j : Fin 64, { t.mas.layers[j] with voteRound := s.mas.layers[j].voteRound } = s.mas.layers[j]) ∧
    { t with carry := s.carry, mas := s.mas } = s) ∧
  (∀ (s : State) (i : Fin 64) (a : Nat) (bytes : List Byte), s.memOk → s.contribAt a = some i.val → a % 2048 = 0 →
    bytes.length = 2048 →
    (let r := s.carry.sets[i]
     let l := (a - lineBase r.contrib) / 2048
     (r.line l).started = false → (r.line l).data = false → (r.line l).locals + 1 < r.locals.toNat → s.memc.wipes = [] →
     Completes (.contribution i a bytes false) s fun t =>
       (∀ j (h : j < bytes.length), memRead t.mem (a + j) = bytes[j]) ∧
       (∀ b, (b < a ∨ a + 2048 ≤ b) → memRead t.mem b = memRead s.mem b) ∧
       (t.carry.sets[i].line l).locals = (r.line l).locals + 1 ∧ (t.carry.sets[i].line l).started = true ∧
       t.frames = s.frames)) ∧
  (∀ (s : State) (x : Inbound), s.carry.reds.find? (·.pkt.ptype == tRed) = some x → Completes .redReceive s fun t =>
    t.carry.reds = s.carry.reds.eraseP (·.pkt.ptype == tRed)) ∧
  (∀ (s : State) (x : Inbound), s.carry.reds.find? (·.pkt.ptype == tReddown) = some x → Completes .reddownReceive s fun t =>
    t.carry.reds = s.carry.reds.eraseP (·.pkt.ptype == tReddown)) ∧
  (∀ (s : State) (x : Inbound) (i : Fin 64), s.carry.reds.find? (·.pkt.ptype == tRed) = some x → x.pkt.arg % 64 = i.val →
    (let k := x.pkt
     let r := s.carry.sets[i]
     let l := k.addr / 2048
     let y := r.line l
     let a := lineBase r.contrib + l * 2048
     let d := lineBase r.deliver + l * 2048
     let q := s.shapeMod r.shape (l * 2048)
     let sum (j : Nat) : Nat :=
       let new := bytesToNat ((k.data.drop (4 * j)).take 4)
       if y.data then addMod q (memReadNat s.mem (a + 4 * j) 4) new else new
     let whole : Bool := y.locals == r.locals.toNat && r.childRoles.all ((y.reds ++ [s.inRole x]).contains ·)
     s.memOk → s.memc.wipes = [] → r.armed = true → r.vote = false → k.data.length = 2048 → l < r.count →
     y.round % 256 = k.arg / 2 ^ 24 → s.inRole x ∈ r.childRoles → s.inRole x ∉ y.reds → y.sent = false →
     s.redAgrees i.val l k = true →
     (whole = false ∨ r.parent ≠ 0 → Completes .redReceive s fun t =>
       (∀ j < 512, memReadNat t.mem (a + 4 * j) 4 = sum j) ∧
       (∀ b, (b < a ∨ a + 2048 ≤ b) → memRead t.mem b = memRead s.mem b) ∧
       (t.carry.sets[i].line l).reds = y.reds ++ [s.inRole x] ∧ (t.carry.sets[i].line l).sent = whole ∧
       (t.carry.sets[i].line l).round = y.round ∧ (t.carry.sets[i].line l).data = true) ∧
     (whole = true → r.parent = 0 → y.held = [] → s.contribAt d = none → s.layerAt d = none →
       Completes .redReceive s fun t =>
         (∀ j < 512, memReadNat t.mem (d + 4 * j) 4 = sum j) ∧
         (∀ b, (b < a ∨ a + 2048 ≤ b) → (b < d ∨ d + 2048 ≤ b) → memRead t.mem b = memRead s.mem b) ∧
         (t.carry.sets[i].line l).round = y.round + 1 ∧ (t.carry.sets[i].line l).started = false))) ∧
  (∀ (s : State) (x : Inbound) (i : Fin 64), s.carry.reds.find? (·.pkt.ptype == tReddown) = some x → x.pkt.arg % 64 = i.val →
    (let k := x.pkt
     let r := s.carry.sets[i]
     let l := k.addr / 2048
     let d := lineBase r.deliver + l * 2048
     s.memOk → s.memc.wipes = [] → r.armed = true → r.vote = false → k.data.length = 2048 → l < r.count →
     (r.line l).round % 256 = k.arg / 2 ^ 24 → s.inRole x = r.parent.toNat → (r.line l).held = [] →
     s.redAgrees i.val l k = true → s.contribAt d = none → s.layerAt d = none → Completes .reddownReceive s fun t =>
       (∀ j (h : j < k.data.length), memRead t.mem (d + j) = k.data[j]) ∧
       (∀ b, (b < d ∨ d + 2048 ≤ b) → memRead t.mem b = memRead s.mem b) ∧
       (t.carry.sets[i].line l).round = (r.line l).round + 1 ∧ (t.carry.sets[i].line l).started = false)) ∧
  (∀ (s : State) (i : Fin 64) (l : Nat), s.carry.sets[i].armed = true → (s.carry.sets[i].line l).started = true →
    (s.carry.sets[i].line l).held = [] →
    (s.carry.sets[i].vote = true ∨ s.contribAt (lineBase s.carry.sets[i].deliver + l * 2048) = none) →
    Completes (.redLineTimeout i l) s fun t =>
      (t.carry.sets[i].line l).round = (s.carry.sets[i].line l).round + 1 ∧ (t.carry.sets[i].line l).started = false)

/-- R430, R431. That enabling a queue past SQ_MAX or CQ_MAX changes nothing is the model's choice (log entry 46). -/
def Obligations.DoorbellsStayInsideTheirQueue : Prop :=
  (∀ (s : State) (f : FuncNo) (q : Fin 64) (v : BitVec 16), s.hostOk = true →
    (s.hostq.fns[f].sqs[q].enable = true → v.toNat ≤ s.hostq.fns[f].sqs[q].sizeM1.toNat →
      Completes (.sqTail f q v) s fun t =>
        t.hostq.fns[f].sqs[q] = { s.hostq.fns[f].sqs[q] with tail := v } ∧
        t.hostq.fns[f].sqs[q].pending < s.hostq.fns[f].sqs[q].sizeM1.toNat + 1 ∧
        (s.hostq.fns[f].sqs[q].head.toNat ≤ s.hostq.fns[f].sqs[q].sizeM1.toNat →
          (s.hostq.fns[f].sqs[q].head.toNat + t.hostq.fns[f].sqs[q].pending) %
            (s.hostq.fns[f].sqs[q].sizeM1.toNat + 1) = v.toNat) ∧
        t.hostq.fns[f].qerr = s.hostq.fns[f].qerr ∧ OnlySq f q s t) ∧
    (s.hostq.fns[f].sqs[q].enable = true → s.hostq.fns[f].sqs[q].sizeM1.toNat < v.toNat →
      Completes (.sqTail f q v) s fun t =>
        t.hostq.fns[f].sqs[q].tail = s.hostq.fns[f].sqs[q].tail ∧ t.hostq.fns[f].sqs[q].error = true ∧
        t.hostq.fns[f].sqs[q].cause = 1 ∧ t.hostq.fns[f].qerr = true ∧ t.hostq.fns[f].qerrSq = BitVec.ofNat 6 q.val ∧ OnlySq f q s t) ∧
    (s.hostq.fns[f].sqs[q].enable = false → exec (.sqTail f q v) s = .next s) ∧
    (s.hostq.fns[f].cqs[q].enable = true → v.toNat ≤ s.hostq.fns[f].cqs[q].sizeM1.toNat →
      Completes (.cqHead f q v) s fun t =>
        t.hostq.fns[f].cqs[q] = { s.hostq.fns[f].cqs[q] with head := v } ∧
        t.hostq.fns[f].qerr = s.hostq.fns[f].qerr ∧ OnlyCq f q s t) ∧
    (s.hostq.fns[f].cqs[q].enable = true → s.hostq.fns[f].cqs[q].sizeM1.toNat < v.toNat →
      Completes (.cqHead f q v) s fun t =>
        t.hostq.fns[f].cqs = s.hostq.fns[f].cqs ∧ t.hostq.fns[f].qerr = true ∧ OnlyCq f q s t) ∧
    (s.hostq.fns[f].cqs[q].enable = false → exec (.cqHead f q v) s = .next s)) ∧
  (∀ (s : State) (f : FuncNo) (q : Fin 64) (bs : List (BitVec 512)) (dma : Bool),
    s.hostq.fns[f].sqs[q].error = true → exec (.recordFetch f q bs dma) s = .next s) ∧
  (∀ (s : State) (f : FuncNo) (q : Fin 64), s.hostOk = true →
    (q.val < s.global.funcs[f].sqMax.toNat → s.hostq.fns[f].sqs[q].enable = false →
      Completes (.queueEnable f false q true) s fun t =>
        t.hostq.fns[f].sqs[q].enable = true ∧ t.hostq.fns[f].sqs[q].head = 0 ∧ t.hostq.fns[f].sqs[q].tail = 0 ∧
        t.hostq.fns[f].sqs[q].error = false ∧ OnlySq f q s t) ∧
    (q.val < s.global.funcs[f].cqMax.toNat → s.hostq.fns[f].cqs[q].enable = false →
      Completes (.queueEnable f true q true) s fun t =>
        t.hostq.fns[f].cqs[q].enable = true ∧ t.hostq.fns[f].cqs[q].head = 0 ∧ t.hostq.fns[f].cqs[q].tail = 0 ∧
        t.hostq.fns[f].cqs[q].phase = true ∧ OnlyCq f q s t) ∧
    (s.global.funcs[f].sqMax.toNat ≤ q.val → exec (.queueEnable f false q true) s = .next s) ∧
    (s.global.funcs[f].cqMax.toNat ≤ q.val → exec (.queueEnable f true q true) s = .next s) ∧
    (Completes (.queueEnable f true q false) s fun t =>
      t.hostq.fns[f].cqs[q] = { s.hostq.fns[f].cqs[q] with enable := false } ∧ OnlyCq f q s t) ∧
    Completes (.queueEnable f false q false) s fun t =>
      t.hostq.fns[f].sqs[q] = { s.hostq.fns[f].sqs[q] with enable := false } ∧ OnlySq f q s t)

/-- R432, R433, R435, R437, R438, R440, R441, R444, R515. That a malformed record fails at its fetch is log entry 46. -/
def Obligations.RecordsTakeTheirEffect : Prop :=
  (∀ (s : State) (f : FuncNo) (q : Fin 64) (bs : List (BitVec 512)), s.hostOk = true → s.turnOf = some (f, q) →
    (Completes (.recordFetch f q bs true) s fun t =>
      t.hostq.turn = (f.val + 1) % 64 ∧ t.hostq.fns[f].sqs[q].error = true ∧ t.hostq.fns[f].sqs[q].cause = 2 ∧
      t.hostq.accepted = s.hostq.accepted ∧ OnlyHostq s t) ∧
    (bs.length = min 8 s.hostq.fns[f].sqs[q].pending → Completes (.recordFetch f q bs false) s fun t =>
      t.hostq.turn = (f.val + 1) % 64 ∧ OnlyHostq s t ∧ ∃ k ≤ bs.length,
        (let rs := (bs.take k).zipIdx.map fun x : BitVec 512 × Nat =>
           ({ id := s.hostq.nextRec + x.2, func := f.val, sq := q.val, bits := x.1 } : Rec)
         t.hostq.accepted = s.hostq.accepted ++ rs.filter (!·.malformed) ∧ t.hostq.nextRec = s.hostq.nextRec + k ∧
         t.hostq.open_ = s.hostq.open_ ++ rs.map (fun r : Rec => (f.val, q.val, r.id)) ∧
         t.hostq.comps.length = s.hostq.comps.length + (rs.filter (·.malformed)).length ∧
         (s.hostq.fns[f].sqs[q].head.toNat ≤ s.hostq.fns[f].sqs[q].sizeM1.toNat → t.hostq.fns[f].sqs[q].head.toNat =
           (s.hostq.fns[f].sqs[q].head.toNat + k) % (s.hostq.fns[f].sqs[q].sizeM1.toNat + 1)) ∧
         ∀ b, bs[k]? = some b → bitsAt b.toNat 8 1 = 1 ∧ ∃ o ∈ t.hostq.open_, o.1 = f.val ∧ o.2.1 = q.val))) ∧
  (∀ (s : State) (r : Rec) (rest : List Rec), s.hostq.accepted = r :: rest → s.hostOk = true →
    (let u := { s with hostq := { s.hostq with accepted := rest } }
     let bindOk := u.inRange r.func r.index = true ∧ (u.program? r.func r.handle).isSome = true ∧
       r.cqid < s.global.funcs[funcNo r.func].cqMax.toNat
     (∀ c ∈ ([(.load, 1), (.launch, 4)] : List (Instr × Nat)), r.opc = c.2 → s.programsAllowed = false →
        Completes c.1 s fun t => t.hostq.accepted = rest ∧ Answers s t fun x => x.status = Codes.lifecycleLock ∧ x.recId = r.id) ∧
     (r.opc = 1 → s.programsAllowed = true → Completes .load s fun t =>
        t.hostq.accepted = rest ∧ t.frames = s.frames ∧
        (s.memc.wipes = [] → (u.tryLoad (funcNo r.func) r.arg).2.1 = 0 → SameMemory s t) ∧
        (s.memc.wipes = [] → (u.tryLoad (funcNo r.func) r.arg).2.1 ≠ 0 →
          let v := u.readSpans 1 (u.loadSpans (u.program (funcNo r.func).val r.arg))
          let sets := (v.loadScan (funcNo r.func) r.arg).2.2
          ∀ a, memRead t.mem a = memRead (sets.foldl (fun (s : State) x => s.installPset x.1 x.2) u).mem a) ∧
        (Answers s t fun c => c.recId = r.id ∧ c.status = (u.tryLoad (funcNo r.func) r.arg).1 ∧
          c.index = (u.tryLoad (funcNo r.func) r.arg).2.1) ∧
        ((u.tryLoad (funcNo r.func) r.arg).2.1 ≠ 0 → ∃ p : Program,
          t.programs = s.programs ++ [p] ∧ u.freeHandle = some p.handle ∧ p.func = (funcNo r.func).val) ∧
        ((u.tryLoad (funcNo r.func) r.arg).2.1 = 0 → t.programs = s.programs)) ∧
     (r.opc = 2 →
        (∀ p, u.program? r.func r.index = some p → p.bound = 0 → Completes .unload s fun t =>
          t.hostq.accepted = rest ∧ (∀ x ∈ t.programs, x.handle ≠ p.handle) ∧ SameMemory s t ∧
          Answers s t fun c => c.recId = r.id ∧ c.status = Codes.ok) ∧
        (∀ p, u.program? r.func r.index = some p → p.bound ≠ 0 → Completes .unload s fun t =>
          t.programs = s.programs ∧ OnlyHostq s t ∧ Answers s t fun c => c.recId = r.id ∧ c.status = Codes.loadStreamBusy) ∧
        (u.program? r.func r.index = none → Completes .unload s fun t =>
          OnlyHostq s t ∧ Answers s t fun c => c.recId = r.id ∧ c.status = Codes.loadRecordInvalid)) ∧
     (r.opc = 3 →
        (bindOk → s.memc.wipes = [] → (s.entry r.index).state = .free → Completes .bind s fun t =>
          t.hostq.accepted = rest ∧ (t.entry r.index).state = .bound ∧ (t.entry r.index).handle = r.handle ∧
          (t.entry r.index).func = r.func ∧ (t.entry r.index).cqid = r.cqid ∧ (t.entry r.index).keyTag = r.arg ∧
          Answers s t fun c => c.recId = r.id ∧ c.status = Codes.ok) ∧
        (bindOk → s.memc.wipes = [] → (s.entry r.index).state ≠ .free → Completes .bind s fun t =>
          (t.entry r.index) = s.entry r.index ∧ Answers s t fun c => c.recId = r.id ∧ c.status = Codes.loadStreamBusy) ∧
        (¬bindOk → Completes .bind s fun t => OnlyHostq s t ∧ t.hostq.entries = s.hostq.entries ∧
          Answers s t fun c => c.recId = r.id ∧ c.status = Codes.loadRecordInvalid)) ∧
     (r.opc = 5 →
        (u.inRange r.func r.index = true → s.memc.wipes = [] → (s.entry r.index).state = .bound → Completes .unbind s fun t =>
          t.hostq.accepted = rest ∧ (t.entry r.index).state = .free ∧
          Answers s t fun c => c.recId = r.id ∧ c.status = Codes.ok) ∧
        (u.inRange r.func r.index = true → s.memc.wipes = [] → (s.entry r.index).state ≠ .bound → Completes .unbind s fun t =>
          t.entry r.index = s.entry r.index ∧ Answers s t fun c => c.recId = r.id ∧
            c.status = if (s.entry r.index).state = .free then Codes.loadRecordInvalid else Codes.loadStreamBusy) ∧
        (u.inRange r.func r.index = false → Completes .unbind s fun t =>
          OnlyHostq s t ∧ Answers s t fun c => c.recId = r.id ∧ c.status = Codes.loadRecordInvalid)) ∧
     (r.opc = 4 → s.programsAllowed = true → u.inRange r.func r.index = true →
        ((u.lookup r.index).launchCode r = none → Completes .launch s fun t =>
          t.hostq.accepted = rest ∧ (t.entry r.index).state = .queued ∧ (t.entry r.index).cookie = r.cookie ∧
          (t.entry r.index).acceptSeq = s.hostq.acceptSeq ∧ t.hostq.comps = s.hostq.comps ∧
          t.hostq.acceptSeq = s.hostq.acceptSeq + 1 ∧
          ∃ l : Launch, t.hostq.launches = s.hostq.launches ++ [l] ∧ l.index = r.index ∧ l.recId = r.id ∧
            l.seq = s.hostq.acceptSeq ∧ l.taken = 0) ∧
        ∀ c, (u.lookup r.index).launchCode r = some c → Completes .launch s fun t =>
          t.hostq.launches = s.hostq.launches ∧ Answers s t fun x => x.recId = r.id ∧ x.status = c) ∧
     (r.opc = 6 →
        (bitsAt r.bits.toNat 320 32 ≠ 0 → u.hcopyCode r = none → Completes .hcopy s fun t =>
          t.hostq.accepted = rest ∧ t.hostq.comps = s.hostq.comps ∧
          (∃ h : HCopy, t.hostq.hcopies = s.hostq.hcopies ++ [h] ∧ h.recId = r.id ∧ h.len = bitsAt r.bits.toNat 320 32 ∧
            h.dev = bitsAt r.bits.toNat 256 48) ∧ OnlyHostq s t) ∧
        (∀ c, bitsAt r.bits.toNat 320 32 ≠ 0 → u.hcopyCode r = some c → Completes .hcopy s fun t =>
          t.hostq.hcopies = s.hostq.hcopies ∧ (Answers s t fun x => x.recId = r.id ∧ x.status = c) ∧ OnlyHostq s t) ∧
        (bitsAt r.bits.toNat 320 32 = 0 → Completes .hcopy s fun t =>
          t.hostq.hcopies = s.hostq.hcopies ∧ (Answers s t fun x => x.recId = r.id ∧ x.status = Codes.ok) ∧ OnlyHostq s t ∧
          ∀ q : Fin 64, q.val = s.recCq r → (∀ x ∈ s.hostq.comps, x.waited = true) →
            t.hostq.fns[funcNo r.func].cqFull = (if s.hostq.fns[funcNo r.func].cqs[q].stuck
              then satAdd s.hostq.fns[funcNo r.func].cqFull 1 else s.hostq.fns[funcNo r.func].cqFull)))))

/-- R219, R421, R433, R436, R440, R442, R444, R445, R480. -/
def Obligations.CopiesAndCompletionsEnd : Prop :=
  (∀ (s : State) (l : Launch) (p : Program), s.hostq.launches = [l] → l.taken = 0 → l.frames ≠ 0 →
    (∀ f : FrameNo, l.frames.getLsbD f = true → s.frameIdle f = true) → s.program? l.func l.handle = some p →
    s.windowMissed p l = false → Completes .launchAdmit s fun t =>
      t.hostq.launches = [] ∧ t.hostq.comps = s.hostq.comps ∧
      (∃ r : Run, t.runs = s.runs ++ [r] ∧ r.id = s.nextRun ∧ r.frames = l.frames ∧ r.handle = l.handle ∧
        r.func = l.func ∧ r.started = false) ∧
      (∀ f : FrameNo, (p.part? f).isSome = true → (t.frame f).rn.run = s.nextRun ∧ (t.frame f).seq.state = .assigned) ∧
      ∀ f : FrameNo, p.part? f = none → t.frame f = s.frame f) ∧
  (∀ s : State, s.hostq.launches = [] → exec .launchAdmit s = .next s) ∧
  (∀ (s : State) (l : Launch) (f : FrameNo), s.hostq.launches = [l] → l.frames.getLsbD f = true → l.taken = 0 →
    s.frameIdle f = false → Completes .launchAdmit s fun t =>
      (∃ m : Launch, t.hostq.launches = [m] ∧ m.seq = l.seq ∧ m.taken.getLsbD f = false) ∧
      t.runs = s.runs ∧ OnlyHostq s t) ∧
  (∀ (s : State) (rec : Nat) (h : HCopy) (data : List Byte) (ep : List (Nat × Nat)) (fault : Bool), s.hostOk = true →
    s.hostq.hcopies.find? (·.recId == rec) = some h →
    (s.hostq.hcopies.find? fun x => x.func == h.func && x.sq == h.sq).map (·.recId) = some rec →
    (let plain := s.memc.wipes = [] ∧ h.len ≠ 0 ∧ h.dev % 2048 + h.len ≤ 2048 ∧ s.place h.dev = .mem ∧
       s.contribAt h.dev = none ∧ s.layerAt h.dev = none
     (h.toHost = true → Completes (.hcopyComplete rec data ep fault) s fun t =>
       (∀ x ∈ t.hostq.hcopies, x.recId ≠ rec) ∧ (Answers s t fun c => c.status = Codes.ok ∧ c.recId = rec) ∧
       (s.memc.wipes = [] → SameMemory s t) ∧
       (plain → ∃ e pre, t.outbox = s.outbox ++ pre ++ (tlpsOf h.host (memReadN s.mem h.dev h.len)).map
          (fun y : Nat × List Byte => .hostWrite h.func y.1 y.2 e))) ∧
     (h.toHost = false → data.length = h.len → Completes (.hcopyComplete rec data ep false) s fun t =>
       (∀ x ∈ t.hostq.hcopies, x.recId ≠ rec) ∧ (Answers s t fun c => c.status = Codes.ok ∧ c.recId = rec) ∧
       (plain → s.memOk → (∀ k (i : k < data.length), memRead t.mem (h.dev + k) = data[k]) ∧
         ∀ a, (a < h.dev ∨ h.dev + h.len ≤ a) → memRead t.mem a = memRead s.mem a)) ∧
     (h.toHost = false → Completes (.hcopyComplete rec data ep true) s fun t =>
       (∀ x ∈ t.hostq.hcopies, x.recId ≠ rec) ∧ Answers s t fun c => c.status = Codes.hostDmaFault ∧ c.recId = rec))) ∧
  (∀ (s : State) (k : Nat) (c : Comp) (q : Fin 64), s.hostOk = true → s.hostq.comps[k]? = some c → c.cqid = q.val →
    (∀ j d, j < k → s.hostq.comps[j]? = some d → ¬(d.func = c.func ∧ d.cqid = c.cqid)) →
    (let cq := s.hostq.fns[funcNo c.func].cqs[q]
     (cq.stuck = false → c.after.all s.answered = true → Completes (.completionRecordWrite k) s fun t =>
        t.hostq.comps.map (fun x : Comp => { x with waited := false }) =
          (s.hostq.comps.eraseIdx k).map (fun x : Comp => { x with waited := false }) ∧
        (∃ bytes, OutEvt.hostWrite c.func (cq.base.toNat * 4096 + cq.tail.toNat * 32) bytes false ∈ t.outbox ∧
          bytes.length = 32) ∧
        t.hostq.fns[funcNo c.func].cqs[q].tail = BitVec.ofNat 16 ((cq.tail.toNat + 1) % (cq.sizeM1.toNat + 1)) ∧
        t.hostq.fns[funcNo c.func].cqs[q].phase =
          (if (cq.tail.toNat + 1) % (cq.sizeM1.toNat + 1) = 0 then !cq.phase else cq.phase) ∧
        (c.launch = false → SameMemory s t ∧ t.frames = s.frames ∧ t.hostq.entries = s.hostq.entries) ∧
        (c.launch = true → (s.entry c.index).state = .done → (t.entry c.index).state = .bound ∧
          (t.entry c.index).launches = (s.entry c.index).launches + 1)) ∧
     (cq.stuck = true → exec (.completionRecordWrite k) s = .next s) ∧
     (c.after.all s.answered = false → exec (.completionRecordWrite k) s = .next s))) ∧
  (∀ (s : State) (f : FuncNo) (q : Fin 64), s.hostq.fns[f].cqs[q].enable = true → s.hostq.fns[f].cqs[q].ien = true →
    s.hostq.fns[f].cqs[q].coalTimeUs ≠ 0 → s.hostq.fns[f].cqs[q].unsignalled ≠ 0 →
    Completes (.coalTimeExpiry f q) s fun t => t.hostq.fns[f].cqs[q].unsignalled = 0 ∧ SameMemory s t ∧
      t.frames = s.frames ∧ (((alGet s.hostq.fns[f].msix s.hostq.fns[f].cqs[q].vector.toNat).getD {}).mask = false →
        ∃ a d, t.outbox = s.outbox ++ [.msix f.val s.hostq.fns[f].cqs[q].vector.toNat a d]))

/-- R423, R446, R447, R527. The moments at which a reset takes effect and a wipe's memory reads zero are the model's choice
(log entries 48, 50 and 95). -/
def Obligations.FunctionsEnableAndReset : Prop :=
  (∀ (s : State) (n : FuncNo), s.hostOk = true → s.global.funcs[n].enable = false → s.global.funcs[n].busy = false →
    (s.enableResult n ≠ 0 → Completes (.funcEnable n) s fun t =>
      t.global.funcs[n] = { s.global.funcs[n] with result := BitVec.ofNat 2 (s.enableResult n) } ∧ OnlyGlobal s t) ∧
    (s.enableResult n = 0 → Completes (.funcEnable n) s fun t =>
      t.global.funcs[n].result = 0 ∧
      ((∀ f ∈ framesOf s.global.funcs[n].frames, (t.frame f).reg.wiping = false) → t.global.funcs[n].enable = true) ∧
      (n.val ≠ 0 → ∀ a, (s.partition n).1 ≤ a → a < (s.partition n).1 + (s.partition n).2 → memRead t.mem a = 0))) ∧
  (∀ (s : State) (n : FuncNo), s.hostOk = true → n.val ≠ 0 → s.global.funcs[n].resetting = false →
    s.global.funcs[n].enable = true → Completes (.functionReset n) s fun t =>
      t.global.funcs[n].enable = false ∧ (∀ q : Fin 64, t.hostq.fns[n].sqs[q].enable = false) ∧
      (∀ q : Fin 64, t.hostq.fns[n].cqs[q].enable = false) ∧ (∀ x ∈ t.hostq.launches, x.func ≠ n.val) ∧
      (∀ x ∈ t.hostq.comps, x.func ≠ n.val) ∧ (∀ x ∈ t.hostq.hcopies, x.func ≠ n.val) ∧
      (∀ x ∈ t.programs, x.func ≠ n.val) ∧
      ∀ a, (s.partition n).1 ≤ a → a < (s.partition n).1 + (s.partition n).2 → memRead t.mem a = 0) ∧
  (∀ (s : State) (n : FuncNo), s.hostOk = true → n.val ≠ 0 → s.global.funcs[n].resetting = false →
    s.global.funcs[n].enable = false → s.global.funcs[n].enabling = false → Completes (.functionReset n) s fun t =>
      (∀ i : Fin 64, t.lne.sessions[i] = if s.lne.sessions[i].valid ∧ s.lne.sessions[i].owner.toNat = n.val then {}
        else s.lne.sessions[i]) ∧ t.outbox = s.outbox ++ [.flr n.val] ∧ SameMemory s t ∧ t.frames = s.frames) ∧
  (∀ s : State, s.hostOk = true → s.global.funcs[(0 : FuncNo)].resetting = false → Completes .pfFunctionReset s fun t =>
      (∀ n : FuncNo, t.global.funcs[n].enable = false) ∧ (∀ a, a < s.usable → memRead t.mem a = 0) ∧ (∀ q : Fin 64, t.hostq.fns[(0 : FuncNo)].sqs[q].enable = false) ∧
      (∀ x ∈ t.hostq.launches, x.func ≠ 0) ∧ (∀ x ∈ t.hostq.comps, x.func ≠ 0) ∧ (∀ x ∈ t.programs, x.func ≠ 0) ∧
      t.lne.pending = false)

/-- R453, R458 to R460, R462, R463, R503. That FALLBACK stays in force to the next launch is the model's choice (log entry
23), and so are the moment of the AVSBus reads and the operand that carries the package's power (log entry 94). -/
def Obligations.PowerControlsComplete : Prop :=
  (∀ (s : State) (b : BitVec 16),
    (Completes (.budgetWrite b) s fun t => t.adm.budget = b ∧ t.adm.stale = false ∧
      t.adm.budgetNow = (if s.adm.stale then s.adm.fallback else s.adm.budgetNow) ∧ OnlyAdmit s t) ∧
    Completes .budgetStale s fun t => t.adm = { s.adm with stale := true } ∧ OnlyAdmit s t) ∧
  (∀ s : State, s.hostOk = true → Completes .cntClear s fun t =>
    t.adm = { s.adm with cntClear := true } ∧ OnlyAdmit s t) ∧
  (∀ (s : State) (got pkg : Nat), s.mgmt.alive = true → s.adm.targetMv[0] ≠ 0 → s.tally.tokenRate ≠ 0 →
    Completes (.budgetUpdate got pkg) s fun t =>
      (let v := max s.adm.targetMv[0].toNat s.adm.targetMv[1].toNat
       t.adm.budget = BitVec.ofNat 16 (budgetOf v s.tally.tokenRate.toNat s.mgmt.iccMax.toNat s.meanAu pkg)) ∧
      256 ≤ t.adm.budget.toNat ∧ t.adm.stale = false ∧ t.adm.avsStatus = got ∧
      t.outbox = s.outbox ++ [.avsRead 0 1, .avsRead 0 2, .avsRead 0 3, .avsRead 1 1, .avsRead 1 2, .avsRead 1 3] ∧
      OnlyAdmit s { t with outbox := s.outbox }) ∧
  (∀ (s : State) (r : Fin 2) (mv : BitVec 10) (answers : Bool),
    (max s.adm.vmin.toNat s.mgmt.railMin.toNat ≤ mv.toNat → mv.toNat ≤ min s.adm.vmax.toNat s.mgmt.railMax.toNat →
      Completes (.vcoreSet r (mv, answers)) s fun t =>
        t.adm.targetMv[r] = (if answers then mv else s.adm.targetMv[r]) ∧ (∀ q, q ≠ r → t.adm.targetMv[q] = s.adm.targetMv[q]) ∧
        (answers = false → t.adm = s.adm) ∧ SameMemory s t ∧ t.frames = s.frames) ∧
    (mv.toNat < max s.adm.vmin.toNat s.mgmt.railMin.toNat ∨ min s.adm.vmax.toNat s.mgmt.railMax.toNat < mv.toNat →
      exec (.vcoreSet r (mv, answers)) s = .next s)) ∧
  (∀ s : State,
    ((∃ x ∈ s.temps, ((8 * s.adm.tjHot.toNat : Nat) : Int) ≤ x) → Completes .thermalScan s fun t =>
      t.adm.throttled = true ∧ SameMemory s t) ∧
    ((∃ x ∈ s.temps, ((8 * s.adm.tjCrit.toNat : Nat) : Int) ≤ x) → Completes .thermalScan s fun t =>
      (∀ d < 20, isFrameDom d = true → (s.domain d).state = .on → t.adm.forcedPend.contains d = true) ∧ SameMemory s t) ∧
    ((∀ x ∈ s.temps, x < 8 * (s.adm.tjHot.toNat : Int) - 40) →
      (∀ x ∈ s.temps ++ s.lastTemps, x < 8 * (s.adm.tjCrit.toNat : Int)) →
      (∀ x ∈ s.temps, x < 920) → Completes .thermalScan s fun t =>
      t.adm = { s.adm with throttled := false } ∧ OnlyAdmit s t))

/-- R36, R296, R463, R465, R467, R470. -/
def Obligations.DomainsSwitchByRequest : Prop :=
  (∀ (s : State) (d : Fin 36), s.hostOk = true → s.domBusy = false →
    (∀ (c : Instr) (t : DomState) (n : BitVec 2),
      (c = .domainOn d ∧ t = .on ∧ n = 0) ∨ (c = .domainRetain d ∧ t = .retain ∧ n = 1) ∨
        (c = .domainOff d ∧ t = .off ∧ n = 2) →
      (s.switchCode d.val t = 0 → (s.domain d.val).state ≠ t → Completes c s fun u =>
        u.adm.domQueue = [{ dom := d.val, target := t }] ∧ u.adm.domSel = BitVec.ofNat 6 d.val ∧ u.adm.domResult = 0 ∧
        u.adm.domTarget = n ∧ (u.domain d.val).state =
          (if t = .on ∨ s.drained d.val = true then .switching else (s.domain d.val).state) ∧
        (∀ e, e ≠ d.val → u.domain e = s.domain e) ∧ OnlyAdmit s u) ∧
      (s.switchCode d.val t ≠ 0 ∨ (s.domain d.val).state = t → Completes c s fun u =>
        u.adm = { s.adm with domSel := BitVec.ofNat 6 d.val, domTarget := n, domResult := BitVec.ofNat 3 (s.switchCode d.val t) } ∧
        OnlyAdmit s u))) ∧
  (∀ (s : State) (d : Fin 36) (c : Instr), c ∈ [Instr.domainOn d, .domainRetain d, .domainOff d] → s.domBusy = true →
    exec c s = .next s) ∧
  (∀ (s : State) (x : DomTrans) (rest : List DomTrans), s.adm.domQueue = x :: rest → x.dom < 36 → x.target ≠ .switching →
    (s.domain x.dom).state = .switching →
    (rest = [] → Completes .domainTransitionComplete s fun u => (u.domain x.dom).state = x.target ∧ u.domBusy = false) ∧
    ∀ y more, rest = y :: more → y.dom ≠ x.dom → (s.domain y.dom).state ≠ y.target →
      Completes .domainTransitionComplete s fun u => (u.domain x.dom).state = x.target ∧ u.adm.domQueue = rest) ∧
  (∀ (s : State) (d : Nat), s.memOk → s.adm.domQueue = [{ dom := d, target := .on }] → d < 36 →
    (s.domain d).state = .switching → (s.domain d).cold = true → Completes .domainTransitionComplete s fun u =>
      ∀ f ∈ s.framesIn d, (u.frame f).reg.wiping = true ∧ (u.frame f).regions = [] ∧
        ∀ o < 0x800000, memRead u.mem (spadAddr f o) = 0) ∧
  (∀ (s : State) (x : DomTrans), s.adm.domQueue = [x] → x.target ≠ .on → x.forced = false →
    (s.domain x.dom).state ≠ .switching → s.drained x.dom = false → Completes .gateWaitExpiry s fun u =>
      u.adm = { s.adm with domQueue := [], domResult := 4 } ∧ OnlyAdmit s u) ∧
  (∀ (s : State) (d : Fin 36), s.adm.forcedPend.contains d.val = true → s.adm.domQueue = [] →
    (s.domain d.val).state = .on → (∀ f ∈ s.framesIn d.val, (s.frame f).rn.run = 0) →
    Completes (.forceDrainExpiry d) s fun u =>
      (u.domain d.val).state = .switching ∧ u.adm.domQueue = [{ dom := d.val, target := .retain, forced := true }] ∧
      OnlyAdmit s u) ∧
  (∀ (s : State) (d : Fin 36), s.adm.domQueue = [{ dom := d.val, target := .retain, forced := true }] →
    (s.domain d.val).state = .switching → Completes .domainTransitionComplete s fun u =>
      (u.domain d.val).state = .retain ∧ (u.domain d.val).forced = true ∧ u.adm.forcedPend.contains d.val = false ∧
      u.adm.domQueue = [] ∧ SameMemory s u)

/-- R483, R484, R487, R488, R491, R492, R494, R495. Which spare is taken, and that WATCHDOG_KICK changes nothing, is the
model's reading (log entry 53). -/
def Obligations.SparesAndWatchdogComplete : Prop :=
  (∀ (s : State) (f : FrameNo), s.hostOk = true → s.powered f = true →
    (s.frame f).reg.remapBusy = false →
    ((s.frame f).seq.state ≠ .fenced → Completes (.remap f) s fun t =>
      (t.frame f).reg.remapResult = 1 ∧ (t.frame f).seq = (s.frame f).seq ∧ OnlyFrame f s t) ∧
    (∀ p, (s.frame f).seq.state = .fenced → s.frameLoaded f = false → s.freeSpare (dieOf f) = some p →
      Completes (.remap f) s fun t =>
        (t.frame f).seq.phys = BitVec.ofNat 6 p ∧ (t.frame f).reg.remapBusy = true ∧ (t.frame f).reg.remapResult = 0 ∧
        (t.frame f).flags = Vector.replicate 256 0 ∧ (t.frame f).regions = [] ∧
        (∀ g, g ≠ f → t.frame g = s.frame g)) ∧
    ((s.frame f).seq.state = .fenced → s.frameLoaded f = true → Completes (.remap f) s fun t =>
      (t.frame f).reg.remapResult = 2 ∧ (t.frame f).seq = (s.frame f).seq ∧ OnlyFrame f s t) ∧
    ((s.frame f).seq.state = .fenced → s.frameLoaded f = false → s.freeSpare (dieOf f) = none →
      Completes (.remap f) s fun t =>
        (t.frame f).reg.remapResult = 3 ∧ (t.frame f).seq.state = .unavailable ∧ SameMemory s t ∧
        (∀ g, g ≠ f → t.frame g = s.frame g))) ∧
  (∀ (s : State) (f : FrameNo), (s.frame f).reg.remapBusy = true → (s.frame f).reg.wiping = false → s.powered f = true →
    Completes (.remapComplete f) s fun t =>
      (t.frame f).seq.state = .idle ∧ (t.frame f).reg.remapBusy = false ∧ OnlyFrame f s t) ∧
  (∀ (s : State) (f : FrameNo), s.hostOk = true → s.powered f = true → Completes (.healthClear f) s fun t =>
    t.frame f = { s.frame f with reg := { (s.frame f).reg with checkFails := 0, spadCe := 0 } } ∧ OnlyFrame f s t) ∧
  (∀ (s : State) (h : BitVec 16), s.hostOk = true →
    (h.toNat ≤ s.global.fault.sizeM1.toNat → Completes (.faultRingHead h) s fun t =>
      t.global.fault = { s.global.fault with head := h } ∧ OnlyGlobal s t) ∧
    (s.global.fault.sizeM1.toNat < h.toNat → exec (.faultRingHead h) s = .next s)) ∧
  (∀ s : State, s.global.fault.orphan = false →
    (Completes .alertClr s fun t => t.global.fault = { s.global.fault with alert := false } ∧ OnlyGlobal s t) ∧
    (∀ lock, Completes (.reckonerWatchdog lock) s fun t =>
      t.global.fault.alert = true ∧ t.mgmt.alive = false ∧ t.global.fault.restarting = true ∧
      t.global.fault.expiries = satInc s.global.fault.expiries) ∧
    (9 ≤ s.boot.stage.toNat → s.boot.state ≠ .recovery → s.boot.resetWait = none → s.mgmt.noFw = false →
      s.mgmt.alive = false → Completes .alive s fun t =>
      t.mgmt.alive = true ∧ t.mgmt.aliveUp = s.tally.up ∧ t.global.fault.restarting = false ∧ SameMemory s t ∧
      t.frames = s.frames)) ∧
  (∀ s : State, exec .watchdogKick s = .next s)

/-- R504, R505, R508, R517, R518, R519. Which of the two DRBG_RESEED does is the model's (log entry 31). -/
def Obligations.SensorsLogAndEntropyComplete : Prop :=
  (∀ (s : State) (i : Fin 189) (v : Int),
    ((s.domain (sensorDomain i.val)).state ≠ .on → Completes (.sensorSample i v) s fun t =>
      t.mgmt.sensors[i] = { s.mgmt.sensors[i] with valid := false } ∧ SameMemory s t ∧ t.frames = s.frames) ∧
    ((s.domain (sensorDomain i.val)).state = .on → Completes (.sensorSample i v) s fun t =>
      t.mgmt.sensors[i].value = v ∧ t.mgmt.sensors[i].valid = true ∧
      (v < s.mgmt.sensors[i].lo ∨ s.mgmt.sensors[i].hi < v → s.mgmt.sensors[i].warn = false → t.mgmt.sensors[i].warn = true) ∧
      (s.mgmt.sensors[i].lo + sensorMargin i.val ≤ v → v ≤ s.mgmt.sensors[i].hi - sensorMargin i.val →
        0 ≤ sensorMargin i.val → t.mgmt.sensors[i].warn = false) ∧
      (∀ j, j ≠ i → t.mgmt.sensors[j] = s.mgmt.sensors[j]) ∧ SameMemory s t ∧ t.frames = s.frames)) ∧
  (∀ s : State, s.mgmt.alive = true → s.boot.image.applied = true → Completes .logFlush s fun t =>
    t.mgmt.flashed = s.mgmt.logSeq ∧ t.mgmt.ring = s.mgmt.ring ∧
    (∀ x ∈ t.mgmt.flashLog, x ∈ s.mgmt.flashLog ∨ ∃ r ∈ s.mgmt.ring, r.seq = x.1 ∧ (2 ≤ r.severity ∨ r.persist = true)) ∧
    (memWf s.boot.flash = true → s.mgmt.flashLog.length + s.mgmt.ring.length ≤ 131072 → ∀ r ∈ s.mgmt.ring,
      s.mgmt.flashed.toNat < r.seq.toNat → (2 ≤ r.severity ∨ r.persist = true) →
        ∃ k, (r.seq, k) ∈ t.mgmt.flashLog ∧ t.flashRead (t.logBase + 32 * k) 32 = r.bytes) ∧
    { t with mgmt := s.mgmt, boot := { t.boot with flash := s.boot.flash } } = s) ∧
  (∀ s : State, Completes .entropyHealth s fun t => t.mgmt.entropyOk = false ∧
    (∀ e : Fin 3, s.mgmt.drbgs[e].instantiated = true → s.drbgDue s.mgmt.drbgs[e] = true → t.mgmt.drbgs[e].error = true) ∧
    SameMemory s t ∧ t.frames = s.frames) ∧
  (∀ (s : State) (d : Fin 3),
    (s.mgmt.entropyOk = true → s.mgmt.drbgs[d].instantiated = true → s.mgmt.drbgs[d].error = false →
      Completes (.drbgReseed d) s fun t => SameMemory s t ∧ t.frames = s.frames ∧
        (healthy s.raw.1 = true → t.mgmt.drbgs[d] =
            { s.mgmt.drbgs[d].update (condition s.raw.1) with error := false, requests := 0, seedUp := s.tally.up } ∧
          (∀ e, e ≠ d → t.mgmt.drbgs[e] = s.mgmt.drbgs[e]) ∧ { t with mgmt := s.mgmt, freeCtr := s.freeCtr } = s) ∧
        (healthy s.raw.1 = false → t.mgmt.entropyOk = false ∧ t.mgmt.drbgs[d].error = true)) ∧
    (s.mgmt.entropyOk = false → Completes (.drbgReseed d) s fun t => SameMemory s t ∧ t.frames = s.frames ∧
      (healthy s.raw.1 = true →
        t.mgmt.entropyOk = true ∧ (∀ e : Fin 3, t.mgmt.drbgs[e].instantiated = true → t.mgmt.drbgs[e].error = false) ∧
        { t with mgmt := s.mgmt, freeCtr := t.freeCtr } = { s with freeCtr := t.freeCtr }) ∧
      (healthy s.raw.1 = false → { t with freeCtr := s.freeCtr } = s)))

/-- R502, R509 to R511, R514 and Table 16.4; the places of the fields are the model's choice (log entry 30). -/
def Obligations.MailboxQueriesAnswer : Prop :=
  ∀ (s : State) (ch : Fin 2) (req : List Byte),
    (s.MbServes 0x01 ch req → req.length = 0 → Completes .getInfo s fun t =>
      t.MbAnswered ch 0 s.infoBytes ∧ SameMemory s t ∧ t.frames = s.frames) ∧
    (s.MbServes 0x02 ch req → req.length = 2 → reqNat req 0 1 + reqNat req 1 1 ≤ 189 → Completes .readSensors s fun t =>
      t.MbAnswered ch 0 ((((List.finRange 189).drop (reqNat req 0 1)).take (reqNat req 1 1)).flatMap fun i =>
        natToBytes 4 (s.sensor i).bits) ∧
      SameMemory s t ∧ t.frames = s.frames) ∧
    (s.MbServes 0x03 ch req → req.length = 6 → ∀ i : Fin 189, reqNat req 0 1 = i.val → 96 ≤ i.val →
      reqNat req 1 2 ≤ reqNat req 3 2 → reqNat req 5 1 ≤ 1 → Completes .setThreshold s fun t =>
        t.MbAnswered ch 0 [] ∧
        t.mgmt.sensors[i] = { s.mgmt.sensors[i] with lo := reqNat req 1 2, hi := reqNat req 3 2, alertEn := reqNat req 5 1 == 1 } ∧
        (∀ j, j ≠ i → t.mgmt.sensors[j] = s.mgmt.sensors[j]) ∧ SameMemory s t ∧ t.frames = s.frames) ∧
    (s.MbServes 0x04 ch req → req.length = 6 → reqNat req 0 1 ≤ 1 → 1 ≤ reqNat req 5 1 → reqNat req 5 1 ≤ 127 →
      Completes .readLog s fun t => SameMemory s t ∧ t.frames = s.frames ∧
        (reqNat req 0 1 = 0 → t.MbAnswered ch 0 (((s.mgmt.ring.filter fun r =>
          reqNat req 1 4 ≤ r.seq.toNat).take (reqNat req 5 1)).flatMap LogRec.bytes)) ∧
        (reqNat req 0 1 = 1 → t.MbAnswered ch 0 (((s.mgmt.flashLog.filter fun x =>
          reqNat req 1 4 ≤ x.1.toNat).take (reqNat req 5 1)).flatMap fun x => s.flashRead (s.logBase + 32 * x.2) 32))) ∧
    (s.MbServes 0x05 ch req → req.length = 7 → reqNat req 0 2 ≠ 0 → 24 ≤ reqNat req 2 1 → reqNat req 3 2 ≤ reqNat req 5 2 →
      s.adm.vmin.toNat ≤ reqNat req 3 2 → reqNat req 5 2 ≤ s.adm.vmax.toNat → Completes .setPower s fun t =>
        t.MbAnswered ch 0 [] ∧ t.mgmt.iccMax = BitVec.ofNat 16 (reqNat req 0 2) ∧
        t.mgmt.railMin = BitVec.ofNat 10 (reqNat req 3 2) ∧ t.mgmt.railMax = BitVec.ofNat 10 (reqNat req 5 2) ∧
        t.mgmt.floorReq = BitVec.ofNat 8 (reqNat req 2 1) ∧ SameMemory s t ∧ t.frames = s.frames) ∧
    (s.MbServes 0x40 ch req → req.length = 6 → reqNat req 4 2 ≤ 4096 → reqNat req 0 4 + reqNat req 4 2 ≤ s.certSpan.2 →
      Completes .getCert s fun t =>
        t.MbAnswered ch 0 (s.flashRead (s.certSpan.1 + reqNat req 0 4) (reqNat req 4 2)) ∧ SameMemory s t ∧ t.frames = s.frames) ∧
    (s.MbServes 0x41 ch req → req.length = 32 → s.boot.fuses.killed = false → s.boot.fuses.secret.isSome = true → s.lne.loaded = true →
      Completes .getMeasurements s fun t => SameMemory s t ∧ t.frames = s.frames ∧
        ∃ sig, t.MbAnswered ch 0 (s.measureBlocks.flatten ++ sig)) ∧
    (∀ op, [0x01, 0x02, 0x03, 0x04, 0x05, 0x10, 0x11, 0x12, 0x13, 0x14, 0x20, 0x21, 0x30, 0x31, 0x40, 0x41].contains op = false →
      s.MbServes op ch req → Completes .mailboxUndefinedOpcode s fun t =>
        t.MbAnswered ch 1 [] ∧ SameMemory s t ∧ t.frames = s.frames)

/-- R16, R511, R515, R516, R526 to R530; the places of the fields are the model's choice (log entry 30). -/
def Obligations.MailboxChangesTakeEffect : Prop :=
  ∀ (s : State) (ch : Fin 2) (req : List Byte),
    (s.MbServes 0x10 ch req → req.length = 5 → 1 ≤ reqNat req 0 1 → reqNat req 0 1 ≤ 3 → reqNat req 1 4 ≠ 0 →
      reqNat req 1 4 ≤ (s.slotSpan (reqNat req 0 1) (s.freeSlot (reqNat req 0 1))).2 → Completes .fwBegin s fun t =>
        t.MbAnswered ch 0 [] ∧ SameMemory s t ∧
        t.mgmt.staging = some { comp := reqNat req 0 1, slot := s.freeSlot (reqNat req 0 1), size := reqNat req 1 4 }) ∧
    (s.MbServes 0x10 ch req → req.length = 5 → 1 ≤ reqNat req 0 1 → reqNat req 0 1 ≤ 3 → reqNat req 1 4 = 0 →
      Completes .fwBegin s fun t => t.MbAnswered ch 0 [] ∧ SameMemory s t ∧ t.mgmt.staging = s.mgmt.staging) ∧
    (∀ (c : Instr) (op : Nat), (c, op) ∈ [(Instr.fwVerify, 0x12), (.lcSet, 0x21), (.sessionAgree, 0x30), (.getMeasurements, 0x41)] →
      s.mbFront = some (ch, op) → s.lneLate op = true → Completes c s fun t =>
        t.MbAnswered ch 8 [] ∧ t.boot = s.boot ∧ t.lne.sessions = s.lne.sessions ∧ SameMemory s t ∧ t.frames = s.frames) ∧
    (∀ g, s.MbServes 0x11 ch req → 5 ≤ req.length → req.length ≤ 4092 → s.mgmt.staging = some g →
      reqNat req 0 4 + (req.length - 4) ≤ g.size → Completes .fwWrite s fun t =>
        t.MbAnswered ch 0 [] ∧ t.mgmt.staging = some { g with verified := false } ∧ SameMemory s t ∧
        t.boot.flash = memWriteN s.boot.flash ((s.slotSpan g.comp g.slot).1 + reqNat req 0 4) ((req.drop 4).map (~~~ ·))) ∧
    (∀ g, s.MbServes 0x12 ch req → req.length = 0 → s.mgmt.staging = some g → Completes .fwVerify s fun t =>
      ∃ e bytes, e < 16 ∧ t.MbAnswered ch e bytes ∧ t.mgmt.staging = some { g with verified := decide (e = 0) } ∧ SameMemory s t) ∧
    (∀ g, s.MbServes 0x13 ch req → req.length = 1 → reqNat req 0 1 = 0 → s.mgmt.staging = some g → g.verified = true →
      Completes .fwActivate s fun t =>
        t.MbAnswered ch 0 [] ∧ t.mgmt.staging = none ∧ t.boot.slots[compIndex g.comp].trial = g.slot + 1 ∧ SameMemory s t) ∧
    (s.MbServes 0x14 ch req → req.length = 1 → reqNat req 0 1 = 1 → (s.slotVersion 1 (s.slots 1).committed).2 ≤ 64 →
      Completes .fwCommitSvn s fun t =>
        t.boot.fuses.fwCounter = max s.boot.fuses.fwCounter (s.slotVersion 1 (s.slots 1).committed).2 ∧
        t.MbAnswered ch 0 [BitVec.ofNat 8 t.boot.fuses.fwCounter] ∧ SameMemory s t) ∧
    (s.mgmt.trial = true → s.mgmt.alive = true → s.mgmt.aliveUp + 60000000000 ≤ s.tally.up →
      Completes .trialCommit s fun t => t.mgmt.trial = false ∧ t.boot.slots[(0 : Fin 3)].trial = 0 ∧
        t.boot.slots[(0 : Fin 3)].committed = boolBit s.mgmt.fwSlot ∧ SameMemory s t ∧ t.frames = s.frames) ∧
    (s.MbServes 0x20 ch req → req.length = 0 → (s.drbg 2).instantiated = true → (s.drbg 2).error = false →
      (s.drbgDue (s.drbg 2) = false ∨ (s.mgmt.entropyOk = true ∧ healthy s.raw.1 = true)) → Completes .lcNonce s fun t =>
        ∃ n, t.mgmt.nonce = some n ∧ t.MbAnswered ch 0 (natToBytes 32 n.toNat) ∧ SameMemory s t) ∧
    (s.MbServes 0x21 ch req → req.length = 97 → 4 < reqNat req 0 1 → Completes .lcSet s fun t =>
        t.MbAnswered ch 1 [] ∧ t.boot = s.boot ∧ t.mgmt.nonce = s.mgmt.nonce ∧ SameMemory s t) ∧
    (∀ n, s.MbServes 0x21 ch req → req.length = 97 → reqNat req 0 1 ≠ 2 → s.boot.fuses.lifecycle ≠ 0 →
      s.boot.fuses.mayEnter (reqNat req 0 1) = true → s.mgmt.nonce = some n → Completes .lcSet s fun t =>
        t.mgmt.nonce = none ∧ t.boot.fuses.lifecycle =
          (if (s.boot.fuses.lifecycle ≠ 2 ∨ s.boot.fuses.ownerIs s.lifecycleKey = true) ∧
              p384.verifyBytes s.lifecycleKey (sha384 (s.lcMessage (reqNat req 0 1) n ((req.drop 1).take 48)))
                ((req.drop 1).take 96) = true
           then reqNat req 0 1 else s.boot.fuses.lifecycle)) ∧
    (∀ k : Fin 64, s.MbServes 0x30 ch req → req.length = 67 → reqNat req 0 1 = k.val → reqNat req 1 1 < 64 →
      reqNat req 2 1 ≤ 1 → Completes .sessionAgree s fun t =>
        (∀ j, j ≠ k → t.lne.sessions[j] = s.lne.sessions[j]) ∧
        (∃ r bytes, r < 16 ∧ t.MbAnswered ch r bytes ∧ (r = 0 → t.lne.sessions[k].valid = true ∧
          t.lne.sessions[k].owner = BitVec.ofNat 6 (reqNat req 1 1))) ∧ SameMemory s t) ∧
    (∀ k : Fin 64, s.MbServes 0x31 ch req → req.length = 1 → reqNat req 0 1 = k.val → Completes .sessionClear s fun t =>
      t.MbAnswered ch 0 [] ∧ t.lne.sessions[k] = {} ∧ (∀ j, j ≠ k → t.lne.sessions[j] = s.lne.sessions[j]) ∧ SameMemory s t)

/-- R496, R510, R513, R550 and Table 16.5; layouts and codes are PRESUMED (log entry 32), and what stands for the orphan
record's read is the model's (log entry 66). -/
def Obligations.ControlMessagesAreAnswered : Prop :=
  ∀ (s : State) (d : BitVec 8), s.mine d = true →
    (s.answersControl = true →
      (∀ e : BitVec 8, e ≠ 0 → e ≠ 255 → Completes (.setEndpointId d e) s fun t =>
        t.mgmt.port.eid = e ∧ t.outbox = s.outbox ++ [.mctp e.toNat [0x00, 0x01, 0x00, 0, e, 0]] ∧
        { t with mgmt := s.mgmt, outbox := s.outbox } = s) ∧
      (∀ e : BitVec 8, e = 0 ∨ e = 255 → Completes (.setEndpointId d e) s fun t =>
        s.Replied t 0x00 0x01 0x02 [] ∧ t.mgmt = s.mgmt) ∧
      Completes (.getEndpointId d) s (fun t => s.Replied t 0x00 0x02 0x00 [s.mgmt.port.eid, 0, 0] ∧ t.mgmt = s.mgmt) ∧
      Completes (.getEndpointUuid d) s (fun t => (∃ u, u.length = 16 ∧ s.Replied t 0x00 0x03 0x00 u) ∧ t.mgmt = s.mgmt) ∧
      (∀ m : BitVec 8, Completes (.getMctpVersionSupport d m) s fun t => t.mgmt = s.mgmt ∧
        (m = 0 ∨ m = 1 ∨ m = 5 ∨ m = 0x7E → s.Replied t 0x00 0x04 0x00 [1, 0xF1, 0xF3, 0xF0, 0x00])) ∧
      Completes (.getMessageTypeSupport d) s (fun t => s.Replied t 0x00 0x05 0x00 [3, 0x01, 0x05, 0x7E] ∧ t.mgmt = s.mgmt) ∧
      Completes (.getVendorDefinedMessageSupport d 0) s (fun t =>
        s.Replied t 0x00 0x06 0x00 [0xFF, 0x00, 0x1D, 0xE7, 0x00, 0x00] ∧ t.mgmt = s.mgmt) ∧
      (∀ (op : BitVec 8) (req : List Byte), s.mgmt.mb[(1 : Fin 2)].busy = false → req.length ≤ 4096 →
        Completes (.drenilVendorMessage d op req) s fun t =>
          t.mgmt.mb[(1 : Fin 2)].busy = true ∧ t.mgmt.mb[(1 : Fin 2)].opcode = op ∧
          t.mgmt.mb[(1 : Fin 2)].data = req ∧ t.mgmt.mb[(1 : Fin 2)].len = BitVec.ofNat 13 req.length ∧
          t.mgmt.goQueue = s.mgmt.goQueue ++ [1] ∧ t.mgmt.mb[(0 : Fin 2)] = s.mgmt.mb[(0 : Fin 2)] ∧
          SameMemory s t ∧ t.frames = s.frames) ∧
      (∀ c : BitVec 16, 6 < c.toNat % 256 → Completes (.unsupportedMctpMessage d 0 c) s fun t =>
        s.Replied t 0x00 (c.setWidth 8) 0x05 [] ∧ t.mgmt = s.mgmt)) ∧
    (s.answersControl = false → s.global.fault.orphan = false →
      exec (.getEndpointId d) s = .next s ∧ ∀ e, exec (.setEndpointId d e) s = .next s) ∧
    (s.global.fault.orphan = true → s.global.fault.orphanWait = none → ∀ c : Instr,
      c ∈ [Instr.getEndpointId d, .getEndpointUuid d, .getMessageTypeSupport d, .getTid d, .getStatus d, .getVersion d] →
      exec c s = .next (s.emit (.orphanRecord (natToBytes 64 s.global.fault.orphanRec.toNat))))

/-- R505, R513, R514, R516, R528, R529; layouts and codes are PRESUMED (log entry 32). -/
def Obligations.PldmAndSpdmAreAnswered : Prop :=
  ∀ (s : State) (d : BitVec 8), s.mine d = true → s.answersAll = true →
    (Completes (.getTid d) s (fun t => ∃ p, s.Replied t 0x01 0x02 0x00 p) ∧
     (∀ p : BitVec 8, p = 0 ∨ p = 2 ∨ p = 5 → Completes (.getPldmVersion d p) s fun t => ∃ v, s.Replied t 0x01 0x03 0x00 v) ∧
     Completes (.getPldmTypes d) s (fun t => s.Replied t 0x01 0x04 0x00 [0x25, 0, 0, 0, 0, 0, 0, 0]) ∧
     (∀ p : BitVec 8, p = 0 ∨ p = 2 ∨ p = 5 → Completes (.getPldmCommands d p) s fun t =>
        s.Replied t 0x01 0x05 0x00 (bitMap 32 (pldmCommands p.toNat))) ∧
     (∀ r : Word, 1 ≤ r.toNat → r.toNat ≤ 192 → Completes (.getPdr d r) s fun t => ∃ head, head.length = 11 ∧
        head.take 4 = natToBytes 4 (if r.toNat = 192 then 0 else r.toNat + 1) ∧
        s.Replied t 0x01 0x51 0x00 (head ++ pdr (r.toNat - 1))) ∧
     (∀ (p c : BitVec 8), (pldmCommands p.toNat).contains c.toNat = false →
        Completes (.unsupportedMctpMessage d 1 (p ++ c)) s fun t => s.Replied t 0x01 c 0x05 []) ∧
     (∀ (i : BitVec 16) (h : i.toNat < 189), Completes (.getSensorReading d i) s fun t =>
        s.Replied t 0x01 0x11 0x00 ([if (s.sensor ⟨i.toNat, h⟩).valid then 0 else 2,
          BitVec.ofNat 8 (boolBit s.mgmt.sensors[i.toNat].warn)] ++ natToBytes 4 (unsignedOf 32 s.mgmt.sensors[i.toNat].value))) ∧
     Completes (.getStateSensorReadings d 189) s (fun t => s.Replied t 0x01 0x21 0x00 [1, BitVec.ofNat 8 s.boot.fuses.lifecycle]) ∧
     (∀ (e : BitVec 32 × Code) (rest : List (BitVec 32 × Code)), s.mgmt.port.events = e :: rest →
        Completes (.pollForPlatformEventMessage d) s fun t => t.mgmt.port.events = rest ∧ SameMemory s t) ∧
     Completes (.queryDeviceIdentifiers d) s (fun t => s.Replied t 0x01 0x01 0x00 [0xE7, 0x1D, 0x09, 0x79]) ∧
     Completes (.getFirmwareParameters d) s (fun t => ∃ p, s.Replied t 0x01 0x02 0x00 p) ∧
     Completes (.getStatus d) s (fun t => s.Replied t 0x01 0x1B 0x00 [BitVec.ofNat 8 s.mgmt.port.pldm.num])) ∧
    ((s.mgmt.port.pldm = .idle → mbAllowed 0x10 s.boot.fuses.lifecycle = true → Completes (.requestUpdate d) s fun t =>
        t.mgmt.port.pldm = .learn ∧ SameMemory s t) ∧
     (∀ cs, s.mgmt.port.pldm = .learn → Completes (.passComponentTable d cs) s fun t =>
        t.mgmt.port.pldm = .readyXfer ∧ (∀ c ∈ t.mgmt.port.table, 1 ≤ c ∧ c ≤ 3) ∧ SameMemory s t) ∧
     (∀ (c : BitVec 16) (n : Word), s.mgmt.port.pldm = .readyXfer → s.mgmt.port.table.contains c.toNat = true →
        1 ≤ c.toNat → c.toNat ≤ 3 → n ≠ 0 → n.toNat ≤ (s.slotSpan c.toNat (s.freeSlot c.toNat)).2 →
        Completes (.updateComponent d c n) s fun t =>
          t.mgmt.port.pldm = .download ∧ t.mgmt.port.offset = 0 ∧ SameMemory s t ∧
          t.mgmt.staging = some { comp := c.toNat, slot := s.freeSlot c.toNat, size := n.toNat }) ∧
     (∀ (g : Staging) (bytes : List Byte), s.mgmt.port.pldm = .download → s.mgmt.staging = some g →
        (Completes (.requestFirmwareData bytes false) s fun t =>
          t.mgmt.port.pldm = .download ∧
          t.mgmt.port.offset = s.mgmt.port.offset + (bytes.take (g.size - s.mgmt.port.offset)).length ∧
          t.boot.flash = memWriteN s.boot.flash ((s.slotSpan g.comp g.slot).1 + s.mgmt.port.offset)
            ((bytes.take (g.size - s.mgmt.port.offset)).map (~~~ ·)) ∧ SameMemory s t) ∧
        Completes (.requestFirmwareData bytes true) s fun t => t.mgmt.port.pldm = .readyXfer ∧ SameMemory s t) ∧
     (s.mgmt.port.pldm = .readyXfer → Completes (.activateFirmware d) s fun t =>
        t.mgmt.port.pldm = .idle ∧ t.mgmt.port.ready = [] ∧ SameMemory s t) ∧
     (s.mgmt.port.pldm ≠ .idle → Completes (.cancelUpdate d) s fun t =>
        t.mgmt.port.pldm = .idle ∧ t.mgmt.staging = none ∧ SameMemory s t) ∧
     (s.mgmt.port.pldm = .download → Completes (.cancelUpdateComponent d) s fun t =>
        t.mgmt.port.pldm = .readyXfer ∧ t.mgmt.staging = none ∧ SameMemory s t)) ∧
    (s.boot.fuses.killed = true → Completes (.getVersion d) s fun t => s.Replied t 0x05 0x7F 0x05 [] ∧ t.mgmt = s.mgmt) ∧
    (s.boot.fuses.killed = false →
      Completes (.getVersion d) s (fun t => s.Replied t 0x05 0x04 0x00 [0x00, 0x12] ∧ t.mgmt.port.spdmVersion = true) ∧
      (s.mgmt.port.spdmVersion = true → Completes (.getCapabilities d) s fun t =>
        s.Replied t 0x05 0x61 0x00 (natToBytes 4 0x16) ∧ t.mgmt.port.spdmCaps = true) ∧
      (s.mgmt.port.spdmCaps = true → Completes (.negotiateAlgorithms d true true) s fun t =>
        s.Replied t 0x05 0x63 0x00 [0x80, 0x02] ∧ t.mgmt.port.spdmAlgs = true) ∧
      (s.mgmt.port.spdmAlgs = true →
        Completes (.getDigests d) s (fun t => s.Replied t 0x05 0x01 0x00 (sha384 s.certChain)) ∧
        (∀ o n : BitVec 16, o.toNat < s.certSpan.2 → Completes (.getCertificate d 0 o n) s fun t =>
          s.Replied t 0x05 0x02 0x00 (s.flashRead (s.certSpan.1 + o.toNat) (min n.toNat (s.certSpan.2 - o.toNat)))) ∧
        (s.boot.fuses.secret.isSome = true → s.lne.loaded = true → (s.drbg 2).instantiated = true →
          (s.drbg 2).error = false → (s.drbgDue (s.drbg 2) = false ∨ (s.mgmt.entropyOk = true ∧ healthy s.raw.1 = true)) →
          ∀ n : BitVec 256,
          Completes (.challenge d 0 n) s (fun t => ∃ p, s.Replied t 0x05 0x03 0x00 p) ∧
          Completes (.spdmGetMeasurements d 0xFF n) s fun t => ∃ p, s.Replied t 0x05 0x60 0x00 p)))

/-- R502, R520, R521, R524, R525 and Tables 16.8 and 16.11. -/
def Obligations.LongNumbersAreComputed : Prop :=
  (∀ (s : State) (c : Instr) (op : Nat) (w : BitVec 8) (m : BitVec 9) (e : Bool), s.hostOk = true → s.lne.loaded = true →
    (c, op, m) ∈ [(Instr.modmul w, 0x01, 0), (.modexp w, 0x02, 0), (.modinv w, 0x03, 0),
      (.ecPub w e, if e then 0x18 else 0x10, 0), (.ecdh w e, if e then 0x19 else 0x11, 0),
      (.ecdsaSign w e, if e then 0x1A else 0x12, 0), (.ecdsaVerify w e, if e then 0x1B else 0x13, 0),
      (.x25519 w, 0x20, 0), (.ed25519Pub w, 0x21, 0), (.ed25519Sign w m, 0x22, m), (.ed25519Verify w m, 0x23, m),
      (.lneReservedOp 0x7F w m, 0x7F, m)] →
    (s.lne.busy = false → s.lne.pending = false → s.lne.running = none → s.lne.waiting = [] → Completes c s fun t =>
      t.lne.running = some { op, lenW := w.toNat, msgLen := m.toNat } ∧ t.lne.busy = true ∧ t.lne.bank = s.lne.bank ∧
      { t with lne := s.lne } = s) ∧
    (s.lne.busy = true ∨ s.lne.pending = true → Completes c s fun t =>
      t.lne.running = s.lne.running ∧ t.lne.waiting = s.lne.waiting ∧ t.lne.bank = s.lne.bank ∧ { t with lne := s.lne } = s)) ∧
  (∀ (s : State) (x : LneOp) (rest : List LneOp), s.lne.waiting = x :: rest → x.pf = true → s.lne.running = none →
    Completes .lnePendingStart s fun t => t.lne = { s.lne with running := some x, waiting := rest, busy := true, pending := false } ∧
      { t with lne := s.lne } = s) ∧
  (∀ (s : State) (x : LneOp), s.lne.running = some x → x.pf = false →
    (x.loose = true → s.boot.resetWait = none → s.global.fault.orphanWait = none → s.lne.waiting = [] →
      Completes .lneDone s fun t => t.lne = { s.lne with running := none } ∧ SameMemory s t ∧ t.frames = s.frames) ∧
    (x.loose = false → exec .lneDone s = .next s)) ∧
  (∀ (s : State) (x : LneOp), s.lne.running = some x → x.pf = true → s.boot.resetWait = none →
    s.global.fault.orphanWait = none →
    (Completes .lneDone s fun t => t.lne.busy = false ∧ t.lne.done = true ∧ SameMemory s t ∧ t.frames = s.frames ∧
      ∀ i : Fin 8, i ≠ 3 → t.lne.bank[i] = s.lne.bank[i]) ∧
    (let a := s.lne.bank[(0 : Fin 8)].toNat
     let b := s.lne.bank[(1 : Fin 8)].toNat
     let m := s.lne.bank[(2 : Fin 8)].toNat
     1 ≤ x.lenW → x.lenW ≤ 128 → x.msgLen ≤ 256 →
      (m % 2 = 1 → 3 ≤ m → m < 2 ^ (64 * x.lenW) → a < m →
        (x.op = 1 → b < m → Completes .lneDone s fun t => t.lne.result = 0 ∧ t.lne.bank[(3 : Fin 8)].toNat = a * b % m) ∧
        (x.op = 2 → b < 2 ^ (64 * x.lenW) → Completes .lneDone s fun t =>
          t.lne.result = 0 ∧ t.lne.bank[(3 : Fin 8)].toNat = a ^ b % m) ∧
        (x.op = 3 → Nat.gcd a m = 1 → Completes .lneDone s fun t =>
          t.lne.result = 0 ∧ a * t.lne.bank[(3 : Fin 8)].toNat % m = 1 ∧ t.lne.bank[(3 : Fin 8)].toNat < m) ∧
        (x.op = 3 → Nat.gcd a m ≠ 1 → Completes .lneDone s fun t => t.lne.result = 2 ∧ t.lne.bank[(3 : Fin 8)] = 0)) ∧
      (x.op = 1 ∨ x.op = 2 ∨ x.op = 3 → m % 2 = 0 → Completes .lneDone s fun t =>
        t.lne.result = 1 ∧ t.lne.bank[(3 : Fin 8)] = 0)) ∧
    (lneDefined x.op = false → Completes .lneDone s fun t => t.lne.result = 4))

/-- R533 to R536, R538, R540, R545, R549, R551. What a byte of memory reads as after a power-on, what the operand of
BOOT_STAGE_ADVANCE tells, what a device reset keeps of the always-on logic, and the slot-state entry's layout are the model's
choices (log entries 5, 35, 36 and 96). -/
def Obligations.ResetsAndBootComplete : Prop :=
  (∀ s : State,
    (Completes .powerOn s fun t => t.mem = [] ∧ t.vis = [] ∧ t.frames = State.reset.frames ∧ t.carry = State.reset.carry ∧
      t.hostq = State.reset.hostq ∧ t.boot.fuses = s.boot.fuses ∧
      t.boot.flash = (if s.boot.slotTorn then s.flashErase (copyBase s.boot.slotCopy) 0x10000 else s).boot.flash ∧
      t.boot.stage = 0 ∧ t.boot.state = .booting) ∧
    (∀ x, s.lne.running = some x → s.boot.resetWait = none → Completes (.deviceReset 1) s fun t =>
      t.boot.resetWait = some 1 ∧ t.runs = [] ∧ t.hostq.accepted = [] ∧ t.boot.linkUp = false ∧ t.boot.bypass = true ∧
      (x.pf = true ∨ x.loose = true → Completes .lneDone t fun u => u.boot.cause = 1 ∧ u.boot.stage = 0 ∧ u.mem = [] ∧
        u.boot.fuses = s.boot.fuses)) ∧
    (s.lne.running = none → s.boot.resetWait = none → s.boot.slotTorn = false →
      Completes (.deviceReset 1) s fun t => t.mem = [] ∧ t.vis = [] ∧ t.frames = State.reset.frames ∧
      t.hostq = State.reset.hostq ∧ t.boot.fuses = s.boot.fuses ∧ t.boot.flash = s.boot.flash ∧ t.boot.cause = 1 ∧
      t.boot.bypass = true ∧ t.boot.stage = 0 ∧ t.carry.devnum = s.carry.devnum ∧
      ∀ p : Fin 8, (s.carry.ports[p].state = .active → t.carry.ports[p].state = .active) ∧
        (s.carry.ports[p].state ≠ .active → t.carry.ports[p].state = .disabled)) ∧
    (s.boot.image.perstDevice = false → Completes .hostReset s fun t => t.boot.linkUp = false ∧ t.boot.perst = true) ∧
    (s.boot.state = .ready ∨ (s.boot.state = .recovery ∧ s.memc.wipes.any (·.kind == .boot) = false) →
      s.boot.lost.contains 2 = false → s.boot.resetWait = none → Completes .hostLinkTraining s fun t =>
        t.boot.linkUp = true ∧ t.boot.perst = false ∧ t.global = { s.global with ready := true } ∧ SameMemory s t ∧
        t.frames = s.frames)) ∧
  (∀ (s : State) (ms : Nat) (ok : BitVec 32), s.boot.state = .booting → s.global.fault.orphan = false →
    s.boot.resetWait = none →
    (s.boot.stage = 0 ∨ s.boot.stage = 1 → Completes (.bootStageAdvance ms ok) s fun t =>
      t.boot.stage = s.boot.stage + 1 ∧ t.boot.state = .booting ∧ SameMemory s t ∧ t.frames = s.frames) ∧
    (s.boot.stage = 2 → ok.getLsbD 0 = true → s.flashFits = true → Completes (.bootStageAdvance ms ok) s fun t =>
      t.boot.stage = 3 ∧ t.boot.state = .booting ∧ SameMemory s t ∧
      (∀ a b, s.copySeq false = some a → s.copySeq true = some b →
        ∀ k : Fin 3, t.boot.slots[k] = s.copySlot (decide (a < b)) k.val) ∧
      (s.copySeq false = none → s.copySeq true = none → t.boot.slots = Vector.replicate 3 {})) ∧
    (s.boot.stage = 2 → ok.getLsbD 0 = false ∨ s.flashFits = false → Completes (.bootStageAdvance ms ok) s fun t =>
      t.boot.state = .recovery ∧ t.boot.bypass = true) ∧
    (s.boot.stage = 8 → s.memc.wipes.any (·.kind == .boot) = true ∨ (∃ f, (s.frame f).reg.wiping = true) →
      exec (.bootStageAdvance ms ok) s = .next { s with jtag := { s.jtag with pinLow := false } }) ∧
    (s.boot.stage = 8 → s.memc.wipes.any (·.kind == .boot) = false → (∀ f, (s.frame f).reg.wiping = false) → Completes (.bootStageAdvance ms ok) s fun t =>
      t.boot.stage = 9 ∧ t.tally.run = true ∧ SameMemory s t) ∧
    (s.boot.stage = 10 → Completes (.bootStageAdvance ms ok) s fun t =>
      t.boot.state = .ready ∧ t.boot.bypass = false ∧ t.global.ready = true))

/-- R564 to R566, R573, R575. That memory reads zero after a power-on, and that a command shows the level of SYS_RESET_N, is
the model's choice (log entries 5 and 37). -/
def Obligations.SuppliesClocksAndTapComplete : Prop :=
  (∀ (s : State) (i : Fin 24) (h : 96 + i.val < 189),
    (s.mgmt.sensors[96 + i.val].value < (s.window (railOf i.val)).1 ∨ (s.window (railOf i.val)).2 < s.mgmt.sensors[96 + i.val].value →
      Completes (.supplyFault i) s fun t => t.global.fault.alert = true ∧ SameMemory s t ∧ t.frames = s.frames) ∧
    ((s.window (railOf i.val)).1 ≤ s.mgmt.sensors[96 + i.val].value → s.mgmt.sensors[96 + i.val].value ≤ (s.window (railOf i.val)).2 →
      exec (.supplyFault i) s = .next s)) ∧
  (∀ (s : State) (r : Fin 4),
    (r.val < 2 → Completes (.brownOut r) s fun t => (∀ d < 10, (t.domain (d + 10 * r.val)).state = .off) ∧
      t.boot.lost.contains r.val = true) ∧
    (2 ≤ r.val → Completes (.brownOut r) s fun t => t.mem = [] ∧ t.frames = State.reset.frames ∧
      t.boot.fuses = s.boot.fuses)) ∧
  (∀ s : State,
    (Completes .refclkLinkLoss s fun t => OnlyCarry s t ∧ ∀ p : Fin 8,
      (s.carry.ports[p].state = .active → t.carry.ports[p] = { s.carry.ports[p] with
        lanes := 0, width16 := false, sparesUsed := 0
        state := .retrain, hold := true, retrains := satInc s.carry.ports[p].retrains }) ∧
      (s.carry.ports[p].state ≠ .active → t.carry.ports[p] = s.carry.ports[p])) ∧
    (Completes .refclkPcieLoss s fun t => t.boot = { s.boot with linkUp := false } ∧ { t with boot := s.boot } = s) ∧
    (∀ (code : BitVec 8) (tdi : Bool), 4 ≤ code.toNat → Completes (.bypassInstruction code tdi) s fun t =>
      t.jtag.ir = .bypass ∧ t.jtag.bypassBit = tdi ∧ t.outbox = s.outbox ++ [.tdo s.jtag.bypassBit] ∧
      { t with jtag := s.jtag, outbox := s.outbox } = s) ∧
    (∀ pins, Completes (.samplePreload pins) s fun t =>
      t.jtag.ir = .samplePreload ∧ t.jtag.boundary = pins ∧ { t with jtag := s.jtag } = s) ∧
    (∀ (c : Bool → Instr) (ir : TapInstr) (z : Bool),
      (c = .extest ∧ ir = .extest ∧ z = false) ∨ (c = .highz ∧ ir = .highz ∧ z = true) ∨ (c = .clamp ∧ ir = .clamp ∧ z = false) →
      (Completes (c true) s fun t => t.jtag.ir = ir ∧ t.jtag.hiz = z ∧ t.jtag.driving = !z ∧ { t with jtag := s.jtag } = s ∧
        ∀ u : State, u.jtag = { t.jtag with pinLow := false } → u.jtag.hiz = false ∧ u.jtag.driving = false) ∧
      Completes (c false) s fun t => t.jtag.ir = ir ∧ t.jtag.hiz = false ∧ t.jtag.driving = false ∧
        { t with jtag := s.jtag } = s) ∧
    Completes .tapReset s fun t => t.jtag = { s.jtag with ir := .bypass, resetState := true } ∧
      t.jtag.hiz = false ∧ t.jtag.driving = false ∧ { t with jtag := s.jtag } = s)

/-- R8, R33, R39, R62, R422, R423, R425, R446, R496. The stop on a misaligned access and the
form of a write of configuration space are the model's (log entries 1 and 86). -/
def Obligations.RegistersAreReadAndWritten : Prop :=
  (∀ (s : State) (n : FuncNo) (tag : Nat) (v : BitVec 64), s.hostOk = true →
    exec (.registerRead 0 (0x10000 + n.val * 64) 64 tag) s = .next (s.emit (.regData tag s.global.funcs[n].frames)) ∧
    (∀ ep : Bool, s.global.funcs[n].enable = false → Completes (.registerWrite 0 (0x10000 + n.val * 64) 64 ⟨v, ep, none⟩) s fun t =>
      t.global.funcs[n] = { s.global.funcs[n] with frames := v } ∧
      (∀ m, m ≠ n → t.global.funcs[m] = s.global.funcs[m]) ∧
      t.outbox = s.outbox ++ (if ep then [.aerPoisoned 0] else []) ∧ OnlyGlobal s { t with outbox := s.outbox }) ∧
    (s.global.funcs[n].enable = true → exec (.registerWrite 0 (0x10000 + n.val * 64) 64 ⟨v, false, none⟩) s = .next s)) ∧
  (∀ (s : State) (f : FrameNo) (k tag : Nat), s.hostOk = true → s.powered f = false → k < 0x40000 →
    Completes (.registerRead 0 (0x1000000 + f.val * 0x100000 + 4 * k) 32 tag) s fun t =>
      t.outbox.getLast? = some (.regData tag 0) ∧ t.global.pfErrCode = Codes.domainOffAccess ∧ SameMemory s t ∧
      t.frames = s.frames) ∧
  (∀ (s : State) (n : FuncNo) (f : FrameNo) (k tag : Nat), s.hostOk = true → n.val ≠ 0 → s.global.funcs[n].enable = true →
    s.present n = true → s.global.funcs[n].frames.getLsbD f = false → k < 64 →
    exec (.registerRead n (0x8000 + f.val * 0x100 + 4 * k) 32 tag) s = .next (s.emit (.regData tag 0))) ∧
  (∀ (s : State) (tag : Nat), s.hostOk = true →
    (Completes (.registerRead 0 0x100010 32 tag) s fun t =>
      t.outbox = s.outbox ++ [.regData tag ((s.tally.count.setWidth 32).setWidth 64)] ∧
      alGet t.tally.latch (latchKey 0 0x100010) = some ((s.tally.count >>> 32).setWidth 32) ∧ OnlyTally s { t with outbox := s.outbox }) ∧
    (∀ h, alGet s.tally.latch (latchKey 0 0x100010) = some h → Completes (.registerRead 0 0x100014 32 tag) s fun t =>
      t.outbox = s.outbox ++ [.regData tag (h.setWidth 64)] ∧ OnlyTally s { t with outbox := s.outbox })) ∧
  (∀ (s : State) (n : FuncNo) (o w tag : Nat) (v : BitVec 64) (ep : Bool),
    (accessOk o w = true → n.val ≠ 0 → s.boot.resetWait = none →
      (s.global.funcs[n].enable = false ∨ s.present n = false ∨ s.global.fault.orphan = true →
        exec (.registerRead n o w tag) s = .next (s.emit (.unsupported tag))) ∧
      (s.global.fault.orphan = true → exec (.registerWrite n o w ⟨v, ep, none⟩) s = .next s) ∧
      (s.global.fault.orphan = false → s.global.funcs[n].enable = false ∨ s.present n = false →
        exec (.registerWrite n o w ⟨v, ep, none⟩) s = .next (s.emit (.unsupported 0)))) ∧
    (accessOk o w = false → exec (.registerRead n o w tag) s = .fault (.illFormed "register access") ∧
      exec (.registerWrite n o w ⟨v, ep, none⟩) s = .fault (.illFormed "register access"))) ∧
  (∀ (s : State) (n : FuncNo) (o w : Nat) (v : BitVec 64) (ep : Bool) (l : HostLink), accessOk o w = true →
    (s.boot.linkUp = false → exec (.registerWrite n o w ⟨v, ep, some l⟩) s = .next s) ∧
    (s.boot.linkUp = true → (∀ m, s.present m = true → m.val ≤ l.numVfs.val) →
      exec (.registerWrite n o w ⟨v, ep, some l⟩) s = .next { s with global := { s.global with link := fitLink l } }) ∧
    (s.boot.linkUp = true → s.hostOk = true → Completes (.registerWrite n o w ⟨v, ep, some l⟩) s fun t =>
      t.global.link = fitLink l ∧ ∀ m, s.present m = true → l.numVfs.val < m.val →
        s.global.funcs[m].resetting = false → t.global.funcs[m].enable = false))

/-- Table 3.7. -/
def Obligations.DescriptorsReadBack : Prop :=
  ∀ d : Desc, d.kind < 2 ^ 4 → d.scheme < 2 ^ 4 → d.logN < 2 ^ 5 → d.level < 2 ^ 7 → d.special < 2 ^ 5 →
    d.domain < 2 → d.form < 2 → d.comps < 2 ^ 2 → d.pset < 2 ^ 8 → d.keyform < 2 ^ 2 → d.keytype < 2 ^ 2 →
    d.party < 2 → d.etype < 2 ^ 4 → d.layout < 2 ^ 4 → d.location < 2 ^ 2 → d.keyTag < 2 ^ 64 → d.scale < 2 ^ 20 →
    d.noise < 2 ^ 16 → d.galois < 2 ^ 18 → d.region < 2 ^ 8 → d.capacity < 2 ^ 8 → d.ccap < 2 ^ 2 → d.base < 2 ^ 60 →
    d.dim0 < 2 ^ 16 → d.dim1 < 2 ^ 16 → d.dim2 < 2 ^ 16 → d.dim3 < 2 ^ 16 →
    decodeDesc (encodeDesc d) = { d with mark := d.mark.map fun _ => {} } ∧ encodeDesc d < 2 ^ 512 ∧
    (d.location ≠ 0 ∨ d.base < 2 ^ 48 → descReservedBits (encodeDesc d) = false)

/-- The canonical form of memory, an invariant of every command; the form is the model's (log entry 5). -/
def Obligations.EveryStepKeepsMemoryCanonical : Prop :=
  ∀ s t : State, s.memOk → step s = .next t → t.memOk

/-- Four invariants of every command: R43 and R299 of engines, R244 of Feeders, the model's numbers of transfers, and R430 to
R433 of queues. -/
def Obligations.EveryStepKeepsEnginesTransfersAndQueues : Prop :=
  ∀ s t : State, step s = .next t →
    (s.enginesApart → t.enginesApart) ∧ (s.xfersNumbered → t.xfersNumbered) ∧ (s.feedersHold → t.feedersHold) ∧
      (s.queuesInside → t.queuesInside)

/-- The invariants hold at reset (log entry 5). -/
def Obligations.MemoryIsCanonicalAtReset : Prop :=
  State.reset.memOk ∧ State.reset.enginesApart ∧ State.reset.xfersNumbered ∧ State.reset.feedersHold ∧
    State.reset.queuesInside

/-- The laws of the model's memory, on which every statement about stores rests. -/
def Obligations.MemoryReadsBackWhatWasWritten : Prop :=
  ∀ m : List Host.Cell, memWf m = true →
    (∀ (a : Nat) (bs : List Byte), memWf (memWriteN m a bs) = true ∧
      (∀ j (h : j < bs.length), memRead (memWriteN m a bs) (a + j) = bs[j]) ∧
      ∀ b, (b < a ∨ a + bs.length ≤ b) → memRead (memWriteN m a bs) b = memRead m b) ∧
    (∀ a n : Nat, memWf (memZero m a n) = true ∧
      ∀ b, memRead (memZero m a n) b = if a ≤ b ∧ b < a + n then 0 else memRead m b) ∧
    (∀ a n : Nat, memWf (memSlice m a n) = true ∧
      ∀ b, memRead (memSlice m a n) b = if a ≤ b ∧ b < a + n then memRead m b else 0) ∧
    ∀ m' : List Host.Cell, memWf m' = true → (∀ b, memRead m b = memRead m' b) → m = m'

/-- R62, for every register that `tallyWide` names and every view that shows it. -/
def Obligations.TallyReadsAreAtomicOrLatched : Prop :=
  ∀ (s : State) (n : FuncNo) (x o tag : Nat), s.hostOk = true → (n.val = 0 ∨ (s.global.funcs[n].enable = true ∧ s.present n = true)) →
    x % 8 = 0 → s.locate n x = .bar0 (0x100000 + o) → s.locate n (x + 4) = .bar0 (0x100000 + o + 4) →
    o < 0x1000 → o % 8 = 0 → tallyWide o = true →
    exec (.registerRead n x 64 tag) s = .next (s.emit (.regData tag (s.tallySlot o))) ∧
    Completes (.registerRead n x 32 tag) s fun t =>
      t.outbox = s.outbox ++ [.regData tag ((s.tallySlot o).setWidth 32 |>.setWidth 64)] ∧
      { t with tally := s.tally, outbox := s.outbox } = s ∧
      ∀ (u : State) (tag' : Nat), u.hostOk = true → (n.val = 0 ∨ (u.global.funcs[n].enable = true ∧ u.present n = true)) →
        u.locate n (x + 4) = .bar0 (0x100000 + o + 4) → u.tally.latch = t.tally.latch →
        Completes (.registerRead n (x + 4) 32 tag') u fun v =>
          v.outbox = u.outbox ++ [.regData tag' (s.tallySlot o >>> 32)] ∧
          { v with tally := u.tally, outbox := u.outbox } = u ∧
          alGet v.tally.latch (latchKey n (0x100000 + o)) = none

/-- R227. -/
def Obligations.ScalarsOfAFrame : Prop :=
  (∀ (fr : Frame) (v : Scalar), fr.x 0 = {} ∧ fr.setX 0 v = fr) ∧
  (∀ (fr : Frame) (v : Scalar) (i : Nat), 0 < i → i < 32 →
    (fr.setX i v).x i = v ∧ (∀ j, j ≠ i → (fr.setX i v).x j = fr.x j) ∧
      { fr.setX i v with scalars := fr.scalars } = fr) ∧
  (∀ (s : State) (id : Nat) (r : Run) (p : Program) (f : FrameNo), s.run? id = some r →
    s.program? r.func r.handle = some p → r.starting = true → hasFrame r.frames f = true → (p.part? f).isSome = true →
    Completes (.programStart id) s fun t => ∀ i < 32, (t.frame f).x i = {})

/-- R39, R63, R297, R425, R429: isolation of functions at the register interface. -/
def Obligations.VfWritesStayTheirOwn : Prop :=
  ∀ (s : State) (n : FuncNo) (o w : Nat) (v : BitVec 64) (ep : Bool), s.hostOk = true → n.val ≠ 0 →
    accessOk o w = true → o < 0x10000 → (∀ f, hasFrame s.global.funcs[n].frames f = true → s.powered f = true) →
    Completes (.registerWrite n o w ⟨v, ep, none⟩) s fun t =>
      (∀ m, m ≠ n → t.hostq.fns[m] = s.hostq.fns[m]) ∧
      (∀ f, hasFrame s.global.funcs[n].frames f = false → t.frame f = s.frame f) ∧
      t.global = s.global ∧ t.tally = s.tally ∧ t.adm = s.adm ∧ t.memc = s.memc ∧ t.mas = s.mas ∧ t.carry = s.carry ∧
      t.lne = s.lne ∧ t.runs = s.runs ∧ t.programs = s.programs ∧
      ∀ a, (∀ f, hasFrame s.global.funcs[n].frames f = true → ∀ r ∈ (s.frame f).regions, r.resident = true →
          a < spadAddr f (r.originRow * 2048) ∨ spadAddr f (r.originRow * 2048) + r.sizeRows * 2048 ≤ a) →
        memRead t.mem a = memRead s.mem a ∧ memRead t.vis a = memRead s.vis a
end

