-- ==== Sys2Proof/Laws/Memory.lean ====
section
/-!
SUPPORT. Laws of memory: every operation on it keeps the canonical form, and a byte written reads back.
-/

namespace Sys2Proof.Machine

open Sys2Proof

theorem memWfFrom_mono {lo lo' : Nat} {m : List Host.Cell} (h : memWfFrom lo m = true) (hl : lo' ≤ lo) :
    memWfFrom lo' m = true := by
  cases m with
  | nil => rfl
  | cons c m =>
    simp only [memWfFrom, Bool.and_eq_true, decide_eq_true_eq] at h ⊢
    exact ⟨⟨by omega, h.1.2⟩, h.2⟩

theorem memWfFrom_memWrite {lo : Nat} {m : List Host.Cell} {a : Nat} (v : Byte) (h : memWfFrom lo m = true)
    (ha : lo ≤ a) : memWfFrom lo (memWrite m a v) = true := by
  induction m generalizing lo with
  | nil =>
    unfold memWrite
    split
    · rfl
    · rename_i hv
      simp only [memWfFrom, Bool.and_eq_true, decide_eq_true_eq]
      exact ⟨⟨ha, by simpa using hv⟩, trivial⟩
  | cons c m ih =>
    simp only [memWfFrom, Bool.and_eq_true, decide_eq_true_eq] at h
    obtain ⟨⟨hc, hv⟩, hm⟩ := h
    unfold memWrite
    split
    · split
      · simp only [memWfFrom, Bool.and_eq_true, decide_eq_true_eq]
        exact ⟨⟨hc, hv⟩, hm⟩
      · rename_i h1 h2
        simp only [memWfFrom, Bool.and_eq_true, decide_eq_true_eq]
        exact ⟨⟨ha, by simpa using h2⟩, ⟨⟨by omega, hv⟩, hm⟩⟩
    · split
      · split
        · exact memWfFrom_mono hm (by omega)
        · rename_i h1 h2 h3
          simp only [memWfFrom, Bool.and_eq_true, decide_eq_true_eq]
          exact ⟨⟨ha, by simpa using h3⟩, h2 ▸ hm⟩
      · simp only [memWfFrom, Bool.and_eq_true, decide_eq_true_eq]
        exact ⟨⟨hc, hv⟩, ih hm (by omega)⟩

theorem memWfFrom_filter {lo : Nat} {m : List Host.Cell} (p : Host.Cell → Bool) (h : memWfFrom lo m = true) :
    memWfFrom lo (m.filter p) = true := by
  induction m generalizing lo with
  | nil => rfl
  | cons c m ih =>
    simp only [memWfFrom, Bool.and_eq_true, decide_eq_true_eq] at h
    obtain ⟨⟨hc, hv⟩, hm⟩ := h
    rw [List.filter_cons]
    split
    · simp only [memWfFrom, Bool.and_eq_true, decide_eq_true_eq]
      exact ⟨⟨hc, hv⟩, ih hm⟩
    · exact memWfFrom_mono (ih hm) (by omega)

/-- Writing one byte keeps the canonical form. -/
theorem memWf_memWrite {m : List Host.Cell} (a : Nat) (v : Byte) (h : memWf m = true) : memWf (memWrite m a v) = true :=
  memWfFrom_memWrite v h (Nat.zero_le a)

/-- Writing consecutive bytes keeps the canonical form. -/
theorem memWf_memWriteN {m : List Host.Cell} (a : Nat) (bs : List Byte) (h : memWf m = true) :
    memWf (memWriteN m a bs) = true := by
  induction bs generalizing m a with
  | nil => exact h
  | cons b bs ih => exact ih (a + 1) (memWf_memWrite a b h)

/-- Writing a list of cells keeps the canonical form. -/
theorem memWf_memWriteCells {m : List Host.Cell} (cs : List Host.Cell) (h : memWf m = true) :
    memWf (memWriteCells m cs) = true := by
  induction cs generalizing m with
  | nil => exact h
  | cons c cs ih => exact ih (memWf_memWrite c.1 c.2 h)

/-- Keeping some of the bytes keeps the canonical form. -/
theorem memWf_filter {m : List Host.Cell} (p : Host.Cell → Bool) (h : memWf m = true) : memWf (m.filter p) = true :=
  memWfFrom_filter p h

/-- Zeroing a span keeps the canonical form. -/
theorem memWf_memZero {m : List Host.Cell} (a n : Nat) (h : memWf m = true) : memWf (memZero m a n) = true :=
  memWf_filter _ h

/-- Cutting memory to a span keeps the canonical form. -/
theorem memWf_memSlice {m : List Host.Cell} (a n : Nat) (h : memWf m = true) : memWf (memSlice m a n) = true :=
  memWf_filter _ h

/-- Writing nibbles keeps the canonical form. -/
theorem memWf_writeNibs {m : List Host.Cell} (ns : List PWrite) (h : memWf m = true) : memWf (writeNibs m ns) = true := by
  induction ns generalizing m with
  | nil => exact h
  | cons n ns ih => exact ih (memWf_memWrite _ _ h)

/-- A fold of writes keeps the canonical form. -/
theorem memWf_foldl {α : Type} {m : List Host.Cell} (l : List α) (g : List Host.Cell → α → List Host.Cell)
    (hg : ∀ m x, memWf m = true → memWf (g m x) = true) (h : memWf m = true) : memWf (l.foldl g m) = true := by
  induction l generalizing m with
  | nil => exact h
  | cons x l ih => exact ih (hg m x h)

theorem memRead_below {lo : Nat} {m : List Host.Cell} {a : Nat} (h : memWfFrom lo m = true) (ha : a < lo) :
    memRead m a = 0 := by
  induction m generalizing lo with
  | nil => rfl
  | cons c m ih =>
    simp only [memWfFrom, Bool.and_eq_true, decide_eq_true_eq] at h
    obtain ⟨⟨hc, -⟩, hm⟩ := h
    unfold memRead
    rw [if_neg (by omega)]
    exact ih hm (by omega)

theorem memRead_memWrite_from {lo : Nat} {m : List Host.Cell} {a b : Nat} (v : Byte) (h : memWfFrom lo m = true) :
    memRead (memWrite m a v) b = if b = a then v else memRead m b := by
  induction m generalizing lo with
  | nil =>
    unfold memWrite
    by_cases hb : b = a
    · split
      · rename_i hv
        simp [memRead, hv]
      · simp [memRead, hb]
    · have hb' : ¬a = b := fun e => hb e.symm
      split <;> simp [memRead, hb']
  | cons c m ih =>
    simp only [memWfFrom, Bool.and_eq_true, decide_eq_true_eq] at h
    obtain ⟨⟨hc, -⟩, hm⟩ := h
    unfold memWrite
    by_cases hb : b = a
    · subst hb
      rw [if_pos rfl]
      split
      · rename_i hlt
        split
        · rename_i hv
          rw [hv]
          unfold memRead
          rw [if_neg (by omega)]
          exact memRead_below hm (by omega)
        · simp [memRead]
      · split
        · rename_i heq
          split
          · rename_i hv
            rw [hv]
            exact memRead_below hm (by omega)
          · simp [memRead]
        · rename_i hlt heq
          unfold memRead
          rw [if_neg (fun e => heq e.symm)]
          simpa using ih hm
    · rw [if_neg hb]
      have hb' : ¬a = b := fun e => hb e.symm
      split
      · split
        · rfl
        · simp [memRead, hb']
      · split
        · rename_i heq
          split
          · simp [memRead, ← heq, hb']
          · simp [memRead, ← heq, hb']
        · simp only [memRead]
          rw [ih hm, if_neg hb]

/-- A byte written reads back, and every other byte reads as before. -/
theorem memRead_memWrite {m : List Host.Cell} {a b : Nat} (v : Byte) (h : memWf m = true) :
    memRead (memWrite m a v) b = if b = a then v else memRead m b := memRead_memWrite_from v h

/-- The form of a state's memories depends on nothing else of it. -/
theorem State.memOk_congr {s t : State} (h : s.memOk) (hm : t.mem = s.mem) (hv : t.vis = s.vis) : t.memOk := by
  unfold State.memOk at *
  rw [hm, hv]
  exact h

/-- A wipe keeps the form. -/
theorem State.memOk_wipeBytes {s : State} (a n : Nat) (h : s.memOk) : (s.wipeBytes a n).memOk :=
  ⟨memWf_memZero a n h.1, memWf_memZero a n h.2⟩

/-- Bytes spell a number of their width. -/
theorem bytesToNat_lt (bs : List Byte) : bytesToNat bs < 256 ^ bs.length := by
  induction bs with
  | nil => simp [bytesToNat]
  | cons b bs ih =>
    have := b.isLt
    simp only [bytesToNat, List.length_cons, Nat.pow_succ]
    omega

/-- The bytes of a number spell it, up to their width. -/
theorem bytesToNat_natToBytes (k n : Nat) : bytesToNat (natToBytes k n) = n % 256 ^ k := by
  induction k generalizing n with
  | zero => simp [natToBytes, bytesToNat, Nat.mod_one]
  | succ k ih =>
    simp only [natToBytes, bytesToNat, ih, BitVec.toNat_ofNat]
    rw [show 256 ^ (k + 1) = 256 * 256 ^ k from by ring, Nat.mod_mul]

theorem natToBytes_length (k n : Nat) : (natToBytes k n).length = k := by
  induction k generalizing n with
  | zero => rfl
  | succ k ih => simp [natToBytes, ih]

end Sys2Proof.Machine
end

