-- ==== Sys2Proof/Laws/State.lean ====
section
/-!
SUPPORT. What each update of the state leaves alone, field by field, and what it changes, so that no proof unfolds a
record update.
-/

namespace Sys2Proof.Machine

open Sys2Proof

/-! ## emit -/

@[simp] theorem State.emit_pending (s : State) (e : OutEvt) : (s.emit e).pending = s.pending := rfl
@[simp] theorem State.emit_frames (s : State) (e : OutEvt) : (s.emit e).frames = s.frames := rfl
@[simp] theorem State.emit_mem (s : State) (e : OutEvt) : (s.emit e).mem = s.mem := rfl
@[simp] theorem State.emit_vis (s : State) (e : OutEvt) : (s.emit e).vis = s.vis := rfl
@[simp] theorem State.emit_upsets (s : State) (e : OutEvt) : (s.emit e).upsets = s.upsets := rfl
@[simp] theorem State.emit_poison (s : State) (e : OutEvt) : (s.emit e).poison = s.poison := rfl
@[simp] theorem State.emit_visPoison (s : State) (e : OutEvt) : (s.emit e).visPoison = s.visPoison := rfl
@[simp] theorem State.emit_tally (s : State) (e : OutEvt) : (s.emit e).tally = s.tally := rfl
@[simp] theorem State.emit_adm (s : State) (e : OutEvt) : (s.emit e).adm = s.adm := rfl
@[simp] theorem State.emit_global (s : State) (e : OutEvt) : (s.emit e).global = s.global := rfl
@[simp] theorem State.emit_memc (s : State) (e : OutEvt) : (s.emit e).memc = s.memc := rfl
@[simp] theorem State.emit_mas (s : State) (e : OutEvt) : (s.emit e).mas = s.mas := rfl
@[simp] theorem State.emit_carry (s : State) (e : OutEvt) : (s.emit e).carry = s.carry := rfl
@[simp] theorem State.emit_hostq (s : State) (e : OutEvt) : (s.emit e).hostq = s.hostq := rfl
@[simp] theorem State.emit_mgmt (s : State) (e : OutEvt) : (s.emit e).mgmt = s.mgmt := rfl
@[simp] theorem State.emit_lne (s : State) (e : OutEvt) : (s.emit e).lne = s.lne := rfl
@[simp] theorem State.emit_boot (s : State) (e : OutEvt) : (s.emit e).boot = s.boot := rfl
@[simp] theorem State.emit_jtag (s : State) (e : OutEvt) : (s.emit e).jtag = s.jtag := rfl
@[simp] theorem State.emit_programs (s : State) (e : OutEvt) : (s.emit e).programs = s.programs := rfl
@[simp] theorem State.emit_runs (s : State) (e : OutEvt) : (s.emit e).runs = s.runs := rfl
@[simp] theorem State.emit_xfers (s : State) (e : OutEvt) : (s.emit e).xfers = s.xfers := rfl
@[simp] theorem State.emit_nextXfer (s : State) (e : OutEvt) : (s.emit e).nextXfer = s.nextXfer := rfl
@[simp] theorem State.emit_nextRun (s : State) (e : OutEvt) : (s.emit e).nextRun = s.nextRun := rfl
@[simp] theorem State.emit_freeCtr (s : State) (e : OutEvt) : (s.emit e).freeCtr = s.freeCtr := rfl

/-! ## updFrame -/

@[simp] theorem State.updFrame_pending (s : State) (f : FrameNo) (g : Frame → Frame) : (s.updFrame f g).pending = s.pending := rfl
@[simp] theorem State.updFrame_mem (s : State) (f : FrameNo) (g : Frame → Frame) : (s.updFrame f g).mem = s.mem := rfl
@[simp] theorem State.updFrame_vis (s : State) (f : FrameNo) (g : Frame → Frame) : (s.updFrame f g).vis = s.vis := rfl
@[simp] theorem State.updFrame_upsets (s : State) (f : FrameNo) (g : Frame → Frame) : (s.updFrame f g).upsets = s.upsets := rfl
@[simp] theorem State.updFrame_poison (s : State) (f : FrameNo) (g : Frame → Frame) : (s.updFrame f g).poison = s.poison := rfl
@[simp] theorem State.updFrame_visPoison (s : State) (f : FrameNo) (g : Frame → Frame) : (s.updFrame f g).visPoison = s.visPoison := rfl
@[simp] theorem State.updFrame_tally (s : State) (f : FrameNo) (g : Frame → Frame) : (s.updFrame f g).tally = s.tally := rfl
@[simp] theorem State.updFrame_adm (s : State) (f : FrameNo) (g : Frame → Frame) : (s.updFrame f g).adm = s.adm := rfl
@[simp] theorem State.updFrame_global (s : State) (f : FrameNo) (g : Frame → Frame) : (s.updFrame f g).global = s.global := rfl
@[simp] theorem State.updFrame_memc (s : State) (f : FrameNo) (g : Frame → Frame) : (s.updFrame f g).memc = s.memc := rfl
@[simp] theorem State.updFrame_mas (s : State) (f : FrameNo) (g : Frame → Frame) : (s.updFrame f g).mas = s.mas := rfl
@[simp] theorem State.updFrame_carry (s : State) (f : FrameNo) (g : Frame → Frame) : (s.updFrame f g).carry = s.carry := rfl
@[simp] theorem State.updFrame_hostq (s : State) (f : FrameNo) (g : Frame → Frame) : (s.updFrame f g).hostq = s.hostq := rfl
@[simp] theorem State.updFrame_mgmt (s : State) (f : FrameNo) (g : Frame → Frame) : (s.updFrame f g).mgmt = s.mgmt := rfl
@[simp] theorem State.updFrame_lne (s : State) (f : FrameNo) (g : Frame → Frame) : (s.updFrame f g).lne = s.lne := rfl
@[simp] theorem State.updFrame_boot (s : State) (f : FrameNo) (g : Frame → Frame) : (s.updFrame f g).boot = s.boot := rfl
@[simp] theorem State.updFrame_jtag (s : State) (f : FrameNo) (g : Frame → Frame) : (s.updFrame f g).jtag = s.jtag := rfl
@[simp] theorem State.updFrame_programs (s : State) (f : FrameNo) (g : Frame → Frame) : (s.updFrame f g).programs = s.programs := rfl
@[simp] theorem State.updFrame_runs (s : State) (f : FrameNo) (g : Frame → Frame) : (s.updFrame f g).runs = s.runs := rfl
@[simp] theorem State.updFrame_xfers (s : State) (f : FrameNo) (g : Frame → Frame) : (s.updFrame f g).xfers = s.xfers := rfl
@[simp] theorem State.updFrame_outbox (s : State) (f : FrameNo) (g : Frame → Frame) : (s.updFrame f g).outbox = s.outbox := rfl
@[simp] theorem State.updFrame_nextXfer (s : State) (f : FrameNo) (g : Frame → Frame) : (s.updFrame f g).nextXfer = s.nextXfer := rfl
@[simp] theorem State.updFrame_nextRun (s : State) (f : FrameNo) (g : Frame → Frame) : (s.updFrame f g).nextRun = s.nextRun := rfl
@[simp] theorem State.updFrame_freeCtr (s : State) (f : FrameNo) (g : Frame → Frame) : (s.updFrame f g).freeCtr = s.freeCtr := rfl

/-! ## mapFrames -/

@[simp] theorem State.mapFrames_pending (s : State) (g : FrameNo → Frame → Frame) : (s.mapFrames g).pending = s.pending := by
  simp only [State.mapFrames]
@[simp] theorem State.mapFrames_mem (s : State) (g : FrameNo → Frame → Frame) : (s.mapFrames g).mem = s.mem := by
  simp only [State.mapFrames]
@[simp] theorem State.mapFrames_vis (s : State) (g : FrameNo → Frame → Frame) : (s.mapFrames g).vis = s.vis := by
  simp only [State.mapFrames]
@[simp] theorem State.mapFrames_upsets (s : State) (g : FrameNo → Frame → Frame) : (s.mapFrames g).upsets = s.upsets := by
  simp only [State.mapFrames]
@[simp] theorem State.mapFrames_poison (s : State) (g : FrameNo → Frame → Frame) : (s.mapFrames g).poison = s.poison := by
  simp only [State.mapFrames]
@[simp] theorem State.mapFrames_visPoison (s : State) (g : FrameNo → Frame → Frame) : (s.mapFrames g).visPoison = s.visPoison := by
  simp only [State.mapFrames]
@[simp] theorem State.mapFrames_tally (s : State) (g : FrameNo → Frame → Frame) : (s.mapFrames g).tally = s.tally := by
  simp only [State.mapFrames]
@[simp] theorem State.mapFrames_adm (s : State) (g : FrameNo → Frame → Frame) : (s.mapFrames g).adm = s.adm := by
  simp only [State.mapFrames]
@[simp] theorem State.mapFrames_global (s : State) (g : FrameNo → Frame → Frame) : (s.mapFrames g).global = s.global := by
  simp only [State.mapFrames]
@[simp] theorem State.mapFrames_memc (s : State) (g : FrameNo → Frame → Frame) : (s.mapFrames g).memc = s.memc := by
  simp only [State.mapFrames]
@[simp] theorem State.mapFrames_mas (s : State) (g : FrameNo → Frame → Frame) : (s.mapFrames g).mas = s.mas := by
  simp only [State.mapFrames]
@[simp] theorem State.mapFrames_carry (s : State) (g : FrameNo → Frame → Frame) : (s.mapFrames g).carry = s.carry := by
  simp only [State.mapFrames]
@[simp] theorem State.mapFrames_hostq (s : State) (g : FrameNo → Frame → Frame) : (s.mapFrames g).hostq = s.hostq := by
  simp only [State.mapFrames]
@[simp] theorem State.mapFrames_mgmt (s : State) (g : FrameNo → Frame → Frame) : (s.mapFrames g).mgmt = s.mgmt := by
  simp only [State.mapFrames]
@[simp] theorem State.mapFrames_lne (s : State) (g : FrameNo → Frame → Frame) : (s.mapFrames g).lne = s.lne := by
  simp only [State.mapFrames]
@[simp] theorem State.mapFrames_boot (s : State) (g : FrameNo → Frame → Frame) : (s.mapFrames g).boot = s.boot := by
  simp only [State.mapFrames]
@[simp] theorem State.mapFrames_jtag (s : State) (g : FrameNo → Frame → Frame) : (s.mapFrames g).jtag = s.jtag := by
  simp only [State.mapFrames]
@[simp] theorem State.mapFrames_programs (s : State) (g : FrameNo → Frame → Frame) : (s.mapFrames g).programs = s.programs := by
  simp only [State.mapFrames]
@[simp] theorem State.mapFrames_runs (s : State) (g : FrameNo → Frame → Frame) : (s.mapFrames g).runs = s.runs := by
  simp only [State.mapFrames]
@[simp] theorem State.mapFrames_xfers (s : State) (g : FrameNo → Frame → Frame) : (s.mapFrames g).xfers = s.xfers := by
  simp only [State.mapFrames]
@[simp] theorem State.mapFrames_outbox (s : State) (g : FrameNo → Frame → Frame) : (s.mapFrames g).outbox = s.outbox := by
  simp only [State.mapFrames]
@[simp] theorem State.mapFrames_nextXfer (s : State) (g : FrameNo → Frame → Frame) : (s.mapFrames g).nextXfer = s.nextXfer := by
  simp only [State.mapFrames]
@[simp] theorem State.mapFrames_nextRun (s : State) (g : FrameNo → Frame → Frame) : (s.mapFrames g).nextRun = s.nextRun := by
  simp only [State.mapFrames]
@[simp] theorem State.mapFrames_freeCtr (s : State) (g : FrameNo → Frame → Frame) : (s.mapFrames g).freeCtr = s.freeCtr := by
  simp only [State.mapFrames]

/-! ## updRun -/

@[simp] theorem State.updRun_pending (s : State) (id : Nat) (g : Run → Run) : (s.updRun id g).pending = s.pending := rfl
@[simp] theorem State.updRun_frames (s : State) (id : Nat) (g : Run → Run) : (s.updRun id g).frames = s.frames := rfl
@[simp] theorem State.updRun_mem (s : State) (id : Nat) (g : Run → Run) : (s.updRun id g).mem = s.mem := rfl
@[simp] theorem State.updRun_vis (s : State) (id : Nat) (g : Run → Run) : (s.updRun id g).vis = s.vis := rfl
@[simp] theorem State.updRun_upsets (s : State) (id : Nat) (g : Run → Run) : (s.updRun id g).upsets = s.upsets := rfl
@[simp] theorem State.updRun_poison (s : State) (id : Nat) (g : Run → Run) : (s.updRun id g).poison = s.poison := rfl
@[simp] theorem State.updRun_visPoison (s : State) (id : Nat) (g : Run → Run) : (s.updRun id g).visPoison = s.visPoison := rfl
@[simp] theorem State.updRun_tally (s : State) (id : Nat) (g : Run → Run) : (s.updRun id g).tally = s.tally := rfl
@[simp] theorem State.updRun_adm (s : State) (id : Nat) (g : Run → Run) : (s.updRun id g).adm = s.adm := rfl
@[simp] theorem State.updRun_global (s : State) (id : Nat) (g : Run → Run) : (s.updRun id g).global = s.global := rfl
@[simp] theorem State.updRun_memc (s : State) (id : Nat) (g : Run → Run) : (s.updRun id g).memc = s.memc := rfl
@[simp] theorem State.updRun_mas (s : State) (id : Nat) (g : Run → Run) : (s.updRun id g).mas = s.mas := rfl
@[simp] theorem State.updRun_carry (s : State) (id : Nat) (g : Run → Run) : (s.updRun id g).carry = s.carry := rfl
@[simp] theorem State.updRun_hostq (s : State) (id : Nat) (g : Run → Run) : (s.updRun id g).hostq = s.hostq := rfl
@[simp] theorem State.updRun_mgmt (s : State) (id : Nat) (g : Run → Run) : (s.updRun id g).mgmt = s.mgmt := rfl
@[simp] theorem State.updRun_lne (s : State) (id : Nat) (g : Run → Run) : (s.updRun id g).lne = s.lne := rfl
@[simp] theorem State.updRun_boot (s : State) (id : Nat) (g : Run → Run) : (s.updRun id g).boot = s.boot := rfl
@[simp] theorem State.updRun_jtag (s : State) (id : Nat) (g : Run → Run) : (s.updRun id g).jtag = s.jtag := rfl
@[simp] theorem State.updRun_programs (s : State) (id : Nat) (g : Run → Run) : (s.updRun id g).programs = s.programs := rfl
@[simp] theorem State.updRun_xfers (s : State) (id : Nat) (g : Run → Run) : (s.updRun id g).xfers = s.xfers := rfl
@[simp] theorem State.updRun_outbox (s : State) (id : Nat) (g : Run → Run) : (s.updRun id g).outbox = s.outbox := rfl
@[simp] theorem State.updRun_nextXfer (s : State) (id : Nat) (g : Run → Run) : (s.updRun id g).nextXfer = s.nextXfer := rfl
@[simp] theorem State.updRun_nextRun (s : State) (id : Nat) (g : Run → Run) : (s.updRun id g).nextRun = s.nextRun := rfl
@[simp] theorem State.updRun_freeCtr (s : State) (id : Nat) (g : Run → Run) : (s.updRun id g).freeCtr = s.freeCtr := rfl

/-! ## updXfer -/

@[simp] theorem State.updXfer_pending (s : State) (id : Nat) (g : Xfer → Xfer) : (s.updXfer id g).pending = s.pending := rfl
@[simp] theorem State.updXfer_frames (s : State) (id : Nat) (g : Xfer → Xfer) : (s.updXfer id g).frames = s.frames := rfl
@[simp] theorem State.updXfer_mem (s : State) (id : Nat) (g : Xfer → Xfer) : (s.updXfer id g).mem = s.mem := rfl
@[simp] theorem State.updXfer_vis (s : State) (id : Nat) (g : Xfer → Xfer) : (s.updXfer id g).vis = s.vis := rfl
@[simp] theorem State.updXfer_upsets (s : State) (id : Nat) (g : Xfer → Xfer) : (s.updXfer id g).upsets = s.upsets := rfl
@[simp] theorem State.updXfer_poison (s : State) (id : Nat) (g : Xfer → Xfer) : (s.updXfer id g).poison = s.poison := rfl
@[simp] theorem State.updXfer_visPoison (s : State) (id : Nat) (g : Xfer → Xfer) : (s.updXfer id g).visPoison = s.visPoison := rfl
@[simp] theorem State.updXfer_tally (s : State) (id : Nat) (g : Xfer → Xfer) : (s.updXfer id g).tally = s.tally := rfl
@[simp] theorem State.updXfer_adm (s : State) (id : Nat) (g : Xfer → Xfer) : (s.updXfer id g).adm = s.adm := rfl
@[simp] theorem State.updXfer_global (s : State) (id : Nat) (g : Xfer → Xfer) : (s.updXfer id g).global = s.global := rfl
@[simp] theorem State.updXfer_memc (s : State) (id : Nat) (g : Xfer → Xfer) : (s.updXfer id g).memc = s.memc := rfl
@[simp] theorem State.updXfer_mas (s : State) (id : Nat) (g : Xfer → Xfer) : (s.updXfer id g).mas = s.mas := rfl
@[simp] theorem State.updXfer_carry (s : State) (id : Nat) (g : Xfer → Xfer) : (s.updXfer id g).carry = s.carry := rfl
@[simp] theorem State.updXfer_hostq (s : State) (id : Nat) (g : Xfer → Xfer) : (s.updXfer id g).hostq = s.hostq := rfl
@[simp] theorem State.updXfer_mgmt (s : State) (id : Nat) (g : Xfer → Xfer) : (s.updXfer id g).mgmt = s.mgmt := rfl
@[simp] theorem State.updXfer_lne (s : State) (id : Nat) (g : Xfer → Xfer) : (s.updXfer id g).lne = s.lne := rfl
@[simp] theorem State.updXfer_boot (s : State) (id : Nat) (g : Xfer → Xfer) : (s.updXfer id g).boot = s.boot := rfl
@[simp] theorem State.updXfer_jtag (s : State) (id : Nat) (g : Xfer → Xfer) : (s.updXfer id g).jtag = s.jtag := rfl
@[simp] theorem State.updXfer_programs (s : State) (id : Nat) (g : Xfer → Xfer) : (s.updXfer id g).programs = s.programs := rfl
@[simp] theorem State.updXfer_runs (s : State) (id : Nat) (g : Xfer → Xfer) : (s.updXfer id g).runs = s.runs := rfl
@[simp] theorem State.updXfer_outbox (s : State) (id : Nat) (g : Xfer → Xfer) : (s.updXfer id g).outbox = s.outbox := rfl
@[simp] theorem State.updXfer_nextXfer (s : State) (id : Nat) (g : Xfer → Xfer) : (s.updXfer id g).nextXfer = s.nextXfer := rfl
@[simp] theorem State.updXfer_nextRun (s : State) (id : Nat) (g : Xfer → Xfer) : (s.updXfer id g).nextRun = s.nextRun := rfl
@[simp] theorem State.updXfer_freeCtr (s : State) (id : Nat) (g : Xfer → Xfer) : (s.updXfer id g).freeCtr = s.freeCtr := rfl

/-! ## dropXfer -/

@[simp] theorem State.dropXfer_pending (s : State) (id : Nat) : (s.dropXfer id).pending = s.pending := rfl
@[simp] theorem State.dropXfer_frames (s : State) (id : Nat) : (s.dropXfer id).frames = s.frames := rfl
@[simp] theorem State.dropXfer_mem (s : State) (id : Nat) : (s.dropXfer id).mem = s.mem := rfl
@[simp] theorem State.dropXfer_vis (s : State) (id : Nat) : (s.dropXfer id).vis = s.vis := rfl
@[simp] theorem State.dropXfer_upsets (s : State) (id : Nat) : (s.dropXfer id).upsets = s.upsets := rfl
@[simp] theorem State.dropXfer_poison (s : State) (id : Nat) : (s.dropXfer id).poison = s.poison := rfl
@[simp] theorem State.dropXfer_visPoison (s : State) (id : Nat) : (s.dropXfer id).visPoison = s.visPoison := rfl
@[simp] theorem State.dropXfer_tally (s : State) (id : Nat) : (s.dropXfer id).tally = s.tally := rfl
@[simp] theorem State.dropXfer_adm (s : State) (id : Nat) : (s.dropXfer id).adm = s.adm := rfl
@[simp] theorem State.dropXfer_global (s : State) (id : Nat) : (s.dropXfer id).global = s.global := rfl
@[simp] theorem State.dropXfer_memc (s : State) (id : Nat) : (s.dropXfer id).memc = s.memc := rfl
@[simp] theorem State.dropXfer_mas (s : State) (id : Nat) : (s.dropXfer id).mas = s.mas := rfl
@[simp] theorem State.dropXfer_carry (s : State) (id : Nat) : (s.dropXfer id).carry = s.carry := rfl
@[simp] theorem State.dropXfer_hostq (s : State) (id : Nat) : (s.dropXfer id).hostq = s.hostq := rfl
@[simp] theorem State.dropXfer_mgmt (s : State) (id : Nat) : (s.dropXfer id).mgmt = s.mgmt := rfl
@[simp] theorem State.dropXfer_lne (s : State) (id : Nat) : (s.dropXfer id).lne = s.lne := rfl
@[simp] theorem State.dropXfer_boot (s : State) (id : Nat) : (s.dropXfer id).boot = s.boot := rfl
@[simp] theorem State.dropXfer_jtag (s : State) (id : Nat) : (s.dropXfer id).jtag = s.jtag := rfl
@[simp] theorem State.dropXfer_programs (s : State) (id : Nat) : (s.dropXfer id).programs = s.programs := rfl
@[simp] theorem State.dropXfer_runs (s : State) (id : Nat) : (s.dropXfer id).runs = s.runs := rfl
@[simp] theorem State.dropXfer_outbox (s : State) (id : Nat) : (s.dropXfer id).outbox = s.outbox := rfl
@[simp] theorem State.dropXfer_nextXfer (s : State) (id : Nat) : (s.dropXfer id).nextXfer = s.nextXfer := rfl
@[simp] theorem State.dropXfer_nextRun (s : State) (id : Nat) : (s.dropXfer id).nextRun = s.nextRun := rfl
@[simp] theorem State.dropXfer_freeCtr (s : State) (id : Nat) : (s.dropXfer id).freeCtr = s.freeCtr := rfl

/-! ## updPort -/

@[simp] theorem State.updPort_pending (s : State) (p : Fin 8) (g : Port → Port) : (s.updPort p g).pending = s.pending := rfl
@[simp] theorem State.updPort_frames (s : State) (p : Fin 8) (g : Port → Port) : (s.updPort p g).frames = s.frames := rfl
@[simp] theorem State.updPort_mem (s : State) (p : Fin 8) (g : Port → Port) : (s.updPort p g).mem = s.mem := rfl
@[simp] theorem State.updPort_vis (s : State) (p : Fin 8) (g : Port → Port) : (s.updPort p g).vis = s.vis := rfl
@[simp] theorem State.updPort_upsets (s : State) (p : Fin 8) (g : Port → Port) : (s.updPort p g).upsets = s.upsets := rfl
@[simp] theorem State.updPort_poison (s : State) (p : Fin 8) (g : Port → Port) : (s.updPort p g).poison = s.poison := rfl
@[simp] theorem State.updPort_visPoison (s : State) (p : Fin 8) (g : Port → Port) : (s.updPort p g).visPoison = s.visPoison := rfl
@[simp] theorem State.updPort_tally (s : State) (p : Fin 8) (g : Port → Port) : (s.updPort p g).tally = s.tally := rfl
@[simp] theorem State.updPort_adm (s : State) (p : Fin 8) (g : Port → Port) : (s.updPort p g).adm = s.adm := rfl
@[simp] theorem State.updPort_global (s : State) (p : Fin 8) (g : Port → Port) : (s.updPort p g).global = s.global := rfl
@[simp] theorem State.updPort_memc (s : State) (p : Fin 8) (g : Port → Port) : (s.updPort p g).memc = s.memc := rfl
@[simp] theorem State.updPort_mas (s : State) (p : Fin 8) (g : Port → Port) : (s.updPort p g).mas = s.mas := rfl
@[simp] theorem State.updPort_hostq (s : State) (p : Fin 8) (g : Port → Port) : (s.updPort p g).hostq = s.hostq := rfl
@[simp] theorem State.updPort_mgmt (s : State) (p : Fin 8) (g : Port → Port) : (s.updPort p g).mgmt = s.mgmt := rfl
@[simp] theorem State.updPort_lne (s : State) (p : Fin 8) (g : Port → Port) : (s.updPort p g).lne = s.lne := rfl
@[simp] theorem State.updPort_boot (s : State) (p : Fin 8) (g : Port → Port) : (s.updPort p g).boot = s.boot := rfl
@[simp] theorem State.updPort_jtag (s : State) (p : Fin 8) (g : Port → Port) : (s.updPort p g).jtag = s.jtag := rfl
@[simp] theorem State.updPort_programs (s : State) (p : Fin 8) (g : Port → Port) : (s.updPort p g).programs = s.programs := rfl
@[simp] theorem State.updPort_runs (s : State) (p : Fin 8) (g : Port → Port) : (s.updPort p g).runs = s.runs := rfl
@[simp] theorem State.updPort_xfers (s : State) (p : Fin 8) (g : Port → Port) : (s.updPort p g).xfers = s.xfers := rfl
@[simp] theorem State.updPort_outbox (s : State) (p : Fin 8) (g : Port → Port) : (s.updPort p g).outbox = s.outbox := rfl
@[simp] theorem State.updPort_nextXfer (s : State) (p : Fin 8) (g : Port → Port) : (s.updPort p g).nextXfer = s.nextXfer := rfl
@[simp] theorem State.updPort_nextRun (s : State) (p : Fin 8) (g : Port → Port) : (s.updPort p g).nextRun = s.nextRun := rfl
@[simp] theorem State.updPort_freeCtr (s : State) (p : Fin 8) (g : Port → Port) : (s.updPort p g).freeCtr = s.freeCtr := rfl

/-! ## updLayer -/

@[simp] theorem State.updLayer_pending (s : State) (i : Fin 64) (g : Layer → Layer) : (s.updLayer i g).pending = s.pending := rfl
@[simp] theorem State.updLayer_frames (s : State) (i : Fin 64) (g : Layer → Layer) : (s.updLayer i g).frames = s.frames := rfl
@[simp] theorem State.updLayer_mem (s : State) (i : Fin 64) (g : Layer → Layer) : (s.updLayer i g).mem = s.mem := rfl
@[simp] theorem State.updLayer_vis (s : State) (i : Fin 64) (g : Layer → Layer) : (s.updLayer i g).vis = s.vis := rfl
@[simp] theorem State.updLayer_upsets (s : State) (i : Fin 64) (g : Layer → Layer) : (s.updLayer i g).upsets = s.upsets := rfl
@[simp] theorem State.updLayer_poison (s : State) (i : Fin 64) (g : Layer → Layer) : (s.updLayer i g).poison = s.poison := rfl
@[simp] theorem State.updLayer_visPoison (s : State) (i : Fin 64) (g : Layer → Layer) : (s.updLayer i g).visPoison = s.visPoison := rfl
@[simp] theorem State.updLayer_tally (s : State) (i : Fin 64) (g : Layer → Layer) : (s.updLayer i g).tally = s.tally := rfl
@[simp] theorem State.updLayer_adm (s : State) (i : Fin 64) (g : Layer → Layer) : (s.updLayer i g).adm = s.adm := rfl
@[simp] theorem State.updLayer_global (s : State) (i : Fin 64) (g : Layer → Layer) : (s.updLayer i g).global = s.global := rfl
@[simp] theorem State.updLayer_memc (s : State) (i : Fin 64) (g : Layer → Layer) : (s.updLayer i g).memc = s.memc := rfl
@[simp] theorem State.updLayer_carry (s : State) (i : Fin 64) (g : Layer → Layer) : (s.updLayer i g).carry = s.carry := rfl
@[simp] theorem State.updLayer_hostq (s : State) (i : Fin 64) (g : Layer → Layer) : (s.updLayer i g).hostq = s.hostq := rfl
@[simp] theorem State.updLayer_mgmt (s : State) (i : Fin 64) (g : Layer → Layer) : (s.updLayer i g).mgmt = s.mgmt := rfl
@[simp] theorem State.updLayer_lne (s : State) (i : Fin 64) (g : Layer → Layer) : (s.updLayer i g).lne = s.lne := rfl
@[simp] theorem State.updLayer_boot (s : State) (i : Fin 64) (g : Layer → Layer) : (s.updLayer i g).boot = s.boot := rfl
@[simp] theorem State.updLayer_jtag (s : State) (i : Fin 64) (g : Layer → Layer) : (s.updLayer i g).jtag = s.jtag := rfl
@[simp] theorem State.updLayer_programs (s : State) (i : Fin 64) (g : Layer → Layer) : (s.updLayer i g).programs = s.programs := rfl
@[simp] theorem State.updLayer_runs (s : State) (i : Fin 64) (g : Layer → Layer) : (s.updLayer i g).runs = s.runs := rfl
@[simp] theorem State.updLayer_xfers (s : State) (i : Fin 64) (g : Layer → Layer) : (s.updLayer i g).xfers = s.xfers := rfl
@[simp] theorem State.updLayer_outbox (s : State) (i : Fin 64) (g : Layer → Layer) : (s.updLayer i g).outbox = s.outbox := rfl
@[simp] theorem State.updLayer_nextXfer (s : State) (i : Fin 64) (g : Layer → Layer) : (s.updLayer i g).nextXfer = s.nextXfer := rfl
@[simp] theorem State.updLayer_nextRun (s : State) (i : Fin 64) (g : Layer → Layer) : (s.updLayer i g).nextRun = s.nextRun := rfl
@[simp] theorem State.updLayer_freeCtr (s : State) (i : Fin 64) (g : Layer → Layer) : (s.updLayer i g).freeCtr = s.freeCtr := rfl

/-! ## updHostFn -/

@[simp] theorem State.updHostFn_pending (s : State) (f : FuncNo) (g : HostFn → HostFn) : (s.updHostFn f g).pending = s.pending := rfl
@[simp] theorem State.updHostFn_frames (s : State) (f : FuncNo) (g : HostFn → HostFn) : (s.updHostFn f g).frames = s.frames := rfl
@[simp] theorem State.updHostFn_mem (s : State) (f : FuncNo) (g : HostFn → HostFn) : (s.updHostFn f g).mem = s.mem := rfl
@[simp] theorem State.updHostFn_vis (s : State) (f : FuncNo) (g : HostFn → HostFn) : (s.updHostFn f g).vis = s.vis := rfl
@[simp] theorem State.updHostFn_upsets (s : State) (f : FuncNo) (g : HostFn → HostFn) : (s.updHostFn f g).upsets = s.upsets := rfl
@[simp] theorem State.updHostFn_poison (s : State) (f : FuncNo) (g : HostFn → HostFn) : (s.updHostFn f g).poison = s.poison := rfl
@[simp] theorem State.updHostFn_visPoison (s : State) (f : FuncNo) (g : HostFn → HostFn) : (s.updHostFn f g).visPoison = s.visPoison := rfl
@[simp] theorem State.updHostFn_tally (s : State) (f : FuncNo) (g : HostFn → HostFn) : (s.updHostFn f g).tally = s.tally := rfl
@[simp] theorem State.updHostFn_adm (s : State) (f : FuncNo) (g : HostFn → HostFn) : (s.updHostFn f g).adm = s.adm := rfl
@[simp] theorem State.updHostFn_global (s : State) (f : FuncNo) (g : HostFn → HostFn) : (s.updHostFn f g).global = s.global := rfl
@[simp] theorem State.updHostFn_memc (s : State) (f : FuncNo) (g : HostFn → HostFn) : (s.updHostFn f g).memc = s.memc := rfl
@[simp] theorem State.updHostFn_mas (s : State) (f : FuncNo) (g : HostFn → HostFn) : (s.updHostFn f g).mas = s.mas := rfl
@[simp] theorem State.updHostFn_carry (s : State) (f : FuncNo) (g : HostFn → HostFn) : (s.updHostFn f g).carry = s.carry := rfl
@[simp] theorem State.updHostFn_mgmt (s : State) (f : FuncNo) (g : HostFn → HostFn) : (s.updHostFn f g).mgmt = s.mgmt := rfl
@[simp] theorem State.updHostFn_lne (s : State) (f : FuncNo) (g : HostFn → HostFn) : (s.updHostFn f g).lne = s.lne := rfl
@[simp] theorem State.updHostFn_boot (s : State) (f : FuncNo) (g : HostFn → HostFn) : (s.updHostFn f g).boot = s.boot := rfl
@[simp] theorem State.updHostFn_jtag (s : State) (f : FuncNo) (g : HostFn → HostFn) : (s.updHostFn f g).jtag = s.jtag := rfl
@[simp] theorem State.updHostFn_programs (s : State) (f : FuncNo) (g : HostFn → HostFn) : (s.updHostFn f g).programs = s.programs := rfl
@[simp] theorem State.updHostFn_runs (s : State) (f : FuncNo) (g : HostFn → HostFn) : (s.updHostFn f g).runs = s.runs := rfl
@[simp] theorem State.updHostFn_xfers (s : State) (f : FuncNo) (g : HostFn → HostFn) : (s.updHostFn f g).xfers = s.xfers := rfl
@[simp] theorem State.updHostFn_outbox (s : State) (f : FuncNo) (g : HostFn → HostFn) : (s.updHostFn f g).outbox = s.outbox := rfl
@[simp] theorem State.updHostFn_nextXfer (s : State) (f : FuncNo) (g : HostFn → HostFn) : (s.updHostFn f g).nextXfer = s.nextXfer := rfl
@[simp] theorem State.updHostFn_nextRun (s : State) (f : FuncNo) (g : HostFn → HostFn) : (s.updHostFn f g).nextRun = s.nextRun := rfl
@[simp] theorem State.updHostFn_freeCtr (s : State) (f : FuncNo) (g : HostFn → HostFn) : (s.updHostFn f g).freeCtr = s.freeCtr := rfl

/-! ## updFunc -/

@[simp] theorem State.updFunc_pending (s : State) (n : FuncNo) (g : Func → Func) : (s.updFunc n g).pending = s.pending := rfl
@[simp] theorem State.updFunc_frames (s : State) (n : FuncNo) (g : Func → Func) : (s.updFunc n g).frames = s.frames := rfl
@[simp] theorem State.updFunc_mem (s : State) (n : FuncNo) (g : Func → Func) : (s.updFunc n g).mem = s.mem := rfl
@[simp] theorem State.updFunc_vis (s : State) (n : FuncNo) (g : Func → Func) : (s.updFunc n g).vis = s.vis := rfl
@[simp] theorem State.updFunc_upsets (s : State) (n : FuncNo) (g : Func → Func) : (s.updFunc n g).upsets = s.upsets := rfl
@[simp] theorem State.updFunc_poison (s : State) (n : FuncNo) (g : Func → Func) : (s.updFunc n g).poison = s.poison := rfl
@[simp] theorem State.updFunc_visPoison (s : State) (n : FuncNo) (g : Func → Func) : (s.updFunc n g).visPoison = s.visPoison := rfl
@[simp] theorem State.updFunc_tally (s : State) (n : FuncNo) (g : Func → Func) : (s.updFunc n g).tally = s.tally := rfl
@[simp] theorem State.updFunc_adm (s : State) (n : FuncNo) (g : Func → Func) : (s.updFunc n g).adm = s.adm := rfl
@[simp] theorem State.updFunc_memc (s : State) (n : FuncNo) (g : Func → Func) : (s.updFunc n g).memc = s.memc := rfl
@[simp] theorem State.updFunc_mas (s : State) (n : FuncNo) (g : Func → Func) : (s.updFunc n g).mas = s.mas := rfl
@[simp] theorem State.updFunc_carry (s : State) (n : FuncNo) (g : Func → Func) : (s.updFunc n g).carry = s.carry := rfl
@[simp] theorem State.updFunc_hostq (s : State) (n : FuncNo) (g : Func → Func) : (s.updFunc n g).hostq = s.hostq := rfl
@[simp] theorem State.updFunc_mgmt (s : State) (n : FuncNo) (g : Func → Func) : (s.updFunc n g).mgmt = s.mgmt := rfl
@[simp] theorem State.updFunc_lne (s : State) (n : FuncNo) (g : Func → Func) : (s.updFunc n g).lne = s.lne := rfl
@[simp] theorem State.updFunc_boot (s : State) (n : FuncNo) (g : Func → Func) : (s.updFunc n g).boot = s.boot := rfl
@[simp] theorem State.updFunc_jtag (s : State) (n : FuncNo) (g : Func → Func) : (s.updFunc n g).jtag = s.jtag := rfl
@[simp] theorem State.updFunc_programs (s : State) (n : FuncNo) (g : Func → Func) : (s.updFunc n g).programs = s.programs := rfl
@[simp] theorem State.updFunc_runs (s : State) (n : FuncNo) (g : Func → Func) : (s.updFunc n g).runs = s.runs := rfl
@[simp] theorem State.updFunc_xfers (s : State) (n : FuncNo) (g : Func → Func) : (s.updFunc n g).xfers = s.xfers := rfl
@[simp] theorem State.updFunc_outbox (s : State) (n : FuncNo) (g : Func → Func) : (s.updFunc n g).outbox = s.outbox := rfl
@[simp] theorem State.updFunc_nextXfer (s : State) (n : FuncNo) (g : Func → Func) : (s.updFunc n g).nextXfer = s.nextXfer := rfl
@[simp] theorem State.updFunc_nextRun (s : State) (n : FuncNo) (g : Func → Func) : (s.updFunc n g).nextRun = s.nextRun := rfl
@[simp] theorem State.updFunc_freeCtr (s : State) (n : FuncNo) (g : Func → Func) : (s.updFunc n g).freeCtr = s.freeCtr := rfl

/-! ## alert -/

@[simp] theorem State.alert_pending (s : State)  : (s.alert).pending = s.pending := rfl
@[simp] theorem State.alert_frames (s : State)  : (s.alert).frames = s.frames := rfl
@[simp] theorem State.alert_mem (s : State)  : (s.alert).mem = s.mem := rfl
@[simp] theorem State.alert_vis (s : State)  : (s.alert).vis = s.vis := rfl
@[simp] theorem State.alert_upsets (s : State)  : (s.alert).upsets = s.upsets := rfl
@[simp] theorem State.alert_poison (s : State)  : (s.alert).poison = s.poison := rfl
@[simp] theorem State.alert_visPoison (s : State)  : (s.alert).visPoison = s.visPoison := rfl
@[simp] theorem State.alert_tally (s : State)  : (s.alert).tally = s.tally := rfl
@[simp] theorem State.alert_adm (s : State)  : (s.alert).adm = s.adm := rfl
@[simp] theorem State.alert_memc (s : State)  : (s.alert).memc = s.memc := rfl
@[simp] theorem State.alert_mas (s : State)  : (s.alert).mas = s.mas := rfl
@[simp] theorem State.alert_carry (s : State)  : (s.alert).carry = s.carry := rfl
@[simp] theorem State.alert_hostq (s : State)  : (s.alert).hostq = s.hostq := rfl
@[simp] theorem State.alert_mgmt (s : State)  : (s.alert).mgmt = s.mgmt := rfl
@[simp] theorem State.alert_lne (s : State)  : (s.alert).lne = s.lne := rfl
@[simp] theorem State.alert_boot (s : State)  : (s.alert).boot = s.boot := rfl
@[simp] theorem State.alert_jtag (s : State)  : (s.alert).jtag = s.jtag := rfl
@[simp] theorem State.alert_programs (s : State)  : (s.alert).programs = s.programs := rfl
@[simp] theorem State.alert_runs (s : State)  : (s.alert).runs = s.runs := rfl
@[simp] theorem State.alert_xfers (s : State)  : (s.alert).xfers = s.xfers := rfl
@[simp] theorem State.alert_outbox (s : State)  : (s.alert).outbox = s.outbox := rfl
@[simp] theorem State.alert_nextXfer (s : State)  : (s.alert).nextXfer = s.nextXfer := rfl
@[simp] theorem State.alert_nextRun (s : State)  : (s.alert).nextRun = s.nextRun := rfl
@[simp] theorem State.alert_freeCtr (s : State)  : (s.alert).freeCtr = s.freeCtr := rfl

/-! ## pfErr -/

@[simp] theorem State.pfErr_pending (s : State) (c : Code) (n : Nat) : (s.pfErr c n).pending = s.pending := rfl
@[simp] theorem State.pfErr_frames (s : State) (c : Code) (n : Nat) : (s.pfErr c n).frames = s.frames := rfl
@[simp] theorem State.pfErr_mem (s : State) (c : Code) (n : Nat) : (s.pfErr c n).mem = s.mem := rfl
@[simp] theorem State.pfErr_vis (s : State) (c : Code) (n : Nat) : (s.pfErr c n).vis = s.vis := rfl
@[simp] theorem State.pfErr_upsets (s : State) (c : Code) (n : Nat) : (s.pfErr c n).upsets = s.upsets := rfl
@[simp] theorem State.pfErr_poison (s : State) (c : Code) (n : Nat) : (s.pfErr c n).poison = s.poison := rfl
@[simp] theorem State.pfErr_visPoison (s : State) (c : Code) (n : Nat) : (s.pfErr c n).visPoison = s.visPoison := rfl
@[simp] theorem State.pfErr_tally (s : State) (c : Code) (n : Nat) : (s.pfErr c n).tally = s.tally := rfl
@[simp] theorem State.pfErr_adm (s : State) (c : Code) (n : Nat) : (s.pfErr c n).adm = s.adm := rfl
@[simp] theorem State.pfErr_memc (s : State) (c : Code) (n : Nat) : (s.pfErr c n).memc = s.memc := rfl
@[simp] theorem State.pfErr_mas (s : State) (c : Code) (n : Nat) : (s.pfErr c n).mas = s.mas := rfl
@[simp] theorem State.pfErr_carry (s : State) (c : Code) (n : Nat) : (s.pfErr c n).carry = s.carry := rfl
@[simp] theorem State.pfErr_hostq (s : State) (c : Code) (n : Nat) : (s.pfErr c n).hostq = s.hostq := rfl
@[simp] theorem State.pfErr_mgmt (s : State) (c : Code) (n : Nat) : (s.pfErr c n).mgmt = s.mgmt := rfl
@[simp] theorem State.pfErr_lne (s : State) (c : Code) (n : Nat) : (s.pfErr c n).lne = s.lne := rfl
@[simp] theorem State.pfErr_boot (s : State) (c : Code) (n : Nat) : (s.pfErr c n).boot = s.boot := rfl
@[simp] theorem State.pfErr_jtag (s : State) (c : Code) (n : Nat) : (s.pfErr c n).jtag = s.jtag := rfl
@[simp] theorem State.pfErr_programs (s : State) (c : Code) (n : Nat) : (s.pfErr c n).programs = s.programs := rfl
@[simp] theorem State.pfErr_runs (s : State) (c : Code) (n : Nat) : (s.pfErr c n).runs = s.runs := rfl
@[simp] theorem State.pfErr_xfers (s : State) (c : Code) (n : Nat) : (s.pfErr c n).xfers = s.xfers := rfl
@[simp] theorem State.pfErr_outbox (s : State) (c : Code) (n : Nat) : (s.pfErr c n).outbox = s.outbox := rfl
@[simp] theorem State.pfErr_nextXfer (s : State) (c : Code) (n : Nat) : (s.pfErr c n).nextXfer = s.nextXfer := rfl
@[simp] theorem State.pfErr_nextRun (s : State) (c : Code) (n : Nat) : (s.pfErr c n).nextRun = s.nextRun := rfl
@[simp] theorem State.pfErr_freeCtr (s : State) (c : Code) (n : Nat) : (s.pfErr c n).freeCtr = s.freeCtr := rfl

/-! ## setEntry -/

@[simp] theorem State.setEntry_pending (s : State) (i : Nat) (e : Entry) : (s.setEntry i e).pending = s.pending := rfl
@[simp] theorem State.setEntry_frames (s : State) (i : Nat) (e : Entry) : (s.setEntry i e).frames = s.frames := rfl
@[simp] theorem State.setEntry_mem (s : State) (i : Nat) (e : Entry) : (s.setEntry i e).mem = s.mem := rfl
@[simp] theorem State.setEntry_vis (s : State) (i : Nat) (e : Entry) : (s.setEntry i e).vis = s.vis := rfl
@[simp] theorem State.setEntry_upsets (s : State) (i : Nat) (e : Entry) : (s.setEntry i e).upsets = s.upsets := rfl
@[simp] theorem State.setEntry_poison (s : State) (i : Nat) (e : Entry) : (s.setEntry i e).poison = s.poison := rfl
@[simp] theorem State.setEntry_visPoison (s : State) (i : Nat) (e : Entry) : (s.setEntry i e).visPoison = s.visPoison := rfl
@[simp] theorem State.setEntry_tally (s : State) (i : Nat) (e : Entry) : (s.setEntry i e).tally = s.tally := rfl
@[simp] theorem State.setEntry_adm (s : State) (i : Nat) (e : Entry) : (s.setEntry i e).adm = s.adm := rfl
@[simp] theorem State.setEntry_global (s : State) (i : Nat) (e : Entry) : (s.setEntry i e).global = s.global := rfl
@[simp] theorem State.setEntry_memc (s : State) (i : Nat) (e : Entry) : (s.setEntry i e).memc = s.memc := rfl
@[simp] theorem State.setEntry_mas (s : State) (i : Nat) (e : Entry) : (s.setEntry i e).mas = s.mas := rfl
@[simp] theorem State.setEntry_carry (s : State) (i : Nat) (e : Entry) : (s.setEntry i e).carry = s.carry := rfl
@[simp] theorem State.setEntry_mgmt (s : State) (i : Nat) (e : Entry) : (s.setEntry i e).mgmt = s.mgmt := rfl
@[simp] theorem State.setEntry_lne (s : State) (i : Nat) (e : Entry) : (s.setEntry i e).lne = s.lne := rfl
@[simp] theorem State.setEntry_boot (s : State) (i : Nat) (e : Entry) : (s.setEntry i e).boot = s.boot := rfl
@[simp] theorem State.setEntry_jtag (s : State) (i : Nat) (e : Entry) : (s.setEntry i e).jtag = s.jtag := rfl
@[simp] theorem State.setEntry_programs (s : State) (i : Nat) (e : Entry) : (s.setEntry i e).programs = s.programs := rfl
@[simp] theorem State.setEntry_runs (s : State) (i : Nat) (e : Entry) : (s.setEntry i e).runs = s.runs := rfl
@[simp] theorem State.setEntry_xfers (s : State) (i : Nat) (e : Entry) : (s.setEntry i e).xfers = s.xfers := rfl
@[simp] theorem State.setEntry_outbox (s : State) (i : Nat) (e : Entry) : (s.setEntry i e).outbox = s.outbox := rfl
@[simp] theorem State.setEntry_nextXfer (s : State) (i : Nat) (e : Entry) : (s.setEntry i e).nextXfer = s.nextXfer := rfl
@[simp] theorem State.setEntry_nextRun (s : State) (i : Nat) (e : Entry) : (s.setEntry i e).nextRun = s.nextRun := rfl
@[simp] theorem State.setEntry_freeCtr (s : State) (i : Nat) (e : Entry) : (s.setEntry i e).freeCtr = s.freeCtr := rfl

/-! ## closeRec -/

@[simp] theorem State.closeRec_pending (s : State) (id : Nat) : (s.closeRec id).pending = s.pending := rfl
@[simp] theorem State.closeRec_frames (s : State) (id : Nat) : (s.closeRec id).frames = s.frames := rfl
@[simp] theorem State.closeRec_mem (s : State) (id : Nat) : (s.closeRec id).mem = s.mem := rfl
@[simp] theorem State.closeRec_vis (s : State) (id : Nat) : (s.closeRec id).vis = s.vis := rfl
@[simp] theorem State.closeRec_upsets (s : State) (id : Nat) : (s.closeRec id).upsets = s.upsets := rfl
@[simp] theorem State.closeRec_poison (s : State) (id : Nat) : (s.closeRec id).poison = s.poison := rfl
@[simp] theorem State.closeRec_visPoison (s : State) (id : Nat) : (s.closeRec id).visPoison = s.visPoison := rfl
@[simp] theorem State.closeRec_tally (s : State) (id : Nat) : (s.closeRec id).tally = s.tally := rfl
@[simp] theorem State.closeRec_adm (s : State) (id : Nat) : (s.closeRec id).adm = s.adm := rfl
@[simp] theorem State.closeRec_global (s : State) (id : Nat) : (s.closeRec id).global = s.global := rfl
@[simp] theorem State.closeRec_memc (s : State) (id : Nat) : (s.closeRec id).memc = s.memc := rfl
@[simp] theorem State.closeRec_mas (s : State) (id : Nat) : (s.closeRec id).mas = s.mas := rfl
@[simp] theorem State.closeRec_carry (s : State) (id : Nat) : (s.closeRec id).carry = s.carry := rfl
@[simp] theorem State.closeRec_mgmt (s : State) (id : Nat) : (s.closeRec id).mgmt = s.mgmt := rfl
@[simp] theorem State.closeRec_lne (s : State) (id : Nat) : (s.closeRec id).lne = s.lne := rfl
@[simp] theorem State.closeRec_boot (s : State) (id : Nat) : (s.closeRec id).boot = s.boot := rfl
@[simp] theorem State.closeRec_jtag (s : State) (id : Nat) : (s.closeRec id).jtag = s.jtag := rfl
@[simp] theorem State.closeRec_programs (s : State) (id : Nat) : (s.closeRec id).programs = s.programs := rfl
@[simp] theorem State.closeRec_runs (s : State) (id : Nat) : (s.closeRec id).runs = s.runs := rfl
@[simp] theorem State.closeRec_xfers (s : State) (id : Nat) : (s.closeRec id).xfers = s.xfers := rfl
@[simp] theorem State.closeRec_outbox (s : State) (id : Nat) : (s.closeRec id).outbox = s.outbox := rfl
@[simp] theorem State.closeRec_nextXfer (s : State) (id : Nat) : (s.closeRec id).nextXfer = s.nextXfer := rfl
@[simp] theorem State.closeRec_nextRun (s : State) (id : Nat) : (s.closeRec id).nextRun = s.nextRun := rfl
@[simp] theorem State.closeRec_freeCtr (s : State) (id : Nat) : (s.closeRec id).freeCtr = s.freeCtr := rfl

/-! ## updCache -/

@[simp] theorem State.updCache_pending (s : State) (g : List Nat → List Nat) : (s.updCache g).pending = s.pending := rfl
@[simp] theorem State.updCache_frames (s : State) (g : List Nat → List Nat) : (s.updCache g).frames = s.frames := rfl
@[simp] theorem State.updCache_mem (s : State) (g : List Nat → List Nat) : (s.updCache g).mem = s.mem := rfl
@[simp] theorem State.updCache_vis (s : State) (g : List Nat → List Nat) : (s.updCache g).vis = s.vis := rfl
@[simp] theorem State.updCache_upsets (s : State) (g : List Nat → List Nat) : (s.updCache g).upsets = s.upsets := rfl
@[simp] theorem State.updCache_poison (s : State) (g : List Nat → List Nat) : (s.updCache g).poison = s.poison := rfl
@[simp] theorem State.updCache_visPoison (s : State) (g : List Nat → List Nat) : (s.updCache g).visPoison = s.visPoison := rfl
@[simp] theorem State.updCache_tally (s : State) (g : List Nat → List Nat) : (s.updCache g).tally = s.tally := rfl
@[simp] theorem State.updCache_adm (s : State) (g : List Nat → List Nat) : (s.updCache g).adm = s.adm := rfl
@[simp] theorem State.updCache_global (s : State) (g : List Nat → List Nat) : (s.updCache g).global = s.global := rfl
@[simp] theorem State.updCache_memc (s : State) (g : List Nat → List Nat) : (s.updCache g).memc = s.memc := rfl
@[simp] theorem State.updCache_mas (s : State) (g : List Nat → List Nat) : (s.updCache g).mas = s.mas := rfl
@[simp] theorem State.updCache_carry (s : State) (g : List Nat → List Nat) : (s.updCache g).carry = s.carry := rfl
@[simp] theorem State.updCache_mgmt (s : State) (g : List Nat → List Nat) : (s.updCache g).mgmt = s.mgmt := rfl
@[simp] theorem State.updCache_lne (s : State) (g : List Nat → List Nat) : (s.updCache g).lne = s.lne := rfl
@[simp] theorem State.updCache_boot (s : State) (g : List Nat → List Nat) : (s.updCache g).boot = s.boot := rfl
@[simp] theorem State.updCache_jtag (s : State) (g : List Nat → List Nat) : (s.updCache g).jtag = s.jtag := rfl
@[simp] theorem State.updCache_programs (s : State) (g : List Nat → List Nat) : (s.updCache g).programs = s.programs := rfl
@[simp] theorem State.updCache_runs (s : State) (g : List Nat → List Nat) : (s.updCache g).runs = s.runs := rfl
@[simp] theorem State.updCache_xfers (s : State) (g : List Nat → List Nat) : (s.updCache g).xfers = s.xfers := rfl
@[simp] theorem State.updCache_outbox (s : State) (g : List Nat → List Nat) : (s.updCache g).outbox = s.outbox := rfl
@[simp] theorem State.updCache_nextXfer (s : State) (g : List Nat → List Nat) : (s.updCache g).nextXfer = s.nextXfer := rfl
@[simp] theorem State.updCache_nextRun (s : State) (g : List Nat → List Nat) : (s.updCache g).nextRun = s.nextRun := rfl
@[simp] theorem State.updCache_freeCtr (s : State) (g : List Nat → List Nat) : (s.updCache g).freeCtr = s.freeCtr := rfl

/-! ## mark -/

@[simp] theorem State.mark_pending (s : State) (l : Nat) (m : Mark) : (s.mark l m).pending = s.pending := rfl
@[simp] theorem State.mark_frames (s : State) (l : Nat) (m : Mark) : (s.mark l m).frames = s.frames := rfl
@[simp] theorem State.mark_mem (s : State) (l : Nat) (m : Mark) : (s.mark l m).mem = s.mem := rfl
@[simp] theorem State.mark_vis (s : State) (l : Nat) (m : Mark) : (s.mark l m).vis = s.vis := rfl
@[simp] theorem State.mark_upsets (s : State) (l : Nat) (m : Mark) : (s.mark l m).upsets = s.upsets := rfl
@[simp] theorem State.mark_visPoison (s : State) (l : Nat) (m : Mark) : (s.mark l m).visPoison = s.visPoison := rfl
@[simp] theorem State.mark_tally (s : State) (l : Nat) (m : Mark) : (s.mark l m).tally = s.tally := rfl
@[simp] theorem State.mark_adm (s : State) (l : Nat) (m : Mark) : (s.mark l m).adm = s.adm := rfl
@[simp] theorem State.mark_global (s : State) (l : Nat) (m : Mark) : (s.mark l m).global = s.global := rfl
@[simp] theorem State.mark_memc (s : State) (l : Nat) (m : Mark) : (s.mark l m).memc = s.memc := rfl
@[simp] theorem State.mark_mas (s : State) (l : Nat) (m : Mark) : (s.mark l m).mas = s.mas := rfl
@[simp] theorem State.mark_carry (s : State) (l : Nat) (m : Mark) : (s.mark l m).carry = s.carry := rfl
@[simp] theorem State.mark_hostq (s : State) (l : Nat) (m : Mark) : (s.mark l m).hostq = s.hostq := rfl
@[simp] theorem State.mark_mgmt (s : State) (l : Nat) (m : Mark) : (s.mark l m).mgmt = s.mgmt := rfl
@[simp] theorem State.mark_lne (s : State) (l : Nat) (m : Mark) : (s.mark l m).lne = s.lne := rfl
@[simp] theorem State.mark_boot (s : State) (l : Nat) (m : Mark) : (s.mark l m).boot = s.boot := rfl
@[simp] theorem State.mark_jtag (s : State) (l : Nat) (m : Mark) : (s.mark l m).jtag = s.jtag := rfl
@[simp] theorem State.mark_programs (s : State) (l : Nat) (m : Mark) : (s.mark l m).programs = s.programs := rfl
@[simp] theorem State.mark_runs (s : State) (l : Nat) (m : Mark) : (s.mark l m).runs = s.runs := rfl
@[simp] theorem State.mark_xfers (s : State) (l : Nat) (m : Mark) : (s.mark l m).xfers = s.xfers := rfl
@[simp] theorem State.mark_outbox (s : State) (l : Nat) (m : Mark) : (s.mark l m).outbox = s.outbox := rfl
@[simp] theorem State.mark_nextXfer (s : State) (l : Nat) (m : Mark) : (s.mark l m).nextXfer = s.nextXfer := rfl
@[simp] theorem State.mark_nextRun (s : State) (l : Nat) (m : Mark) : (s.mark l m).nextRun = s.nextRun := rfl
@[simp] theorem State.mark_freeCtr (s : State) (l : Nat) (m : Mark) : (s.mark l m).freeCtr = s.freeCtr := rfl

/-! ## unmark -/

@[simp] theorem State.unmark_pending (s : State) (l : Nat) : (s.unmark l).pending = s.pending := rfl
@[simp] theorem State.unmark_frames (s : State) (l : Nat) : (s.unmark l).frames = s.frames := rfl
@[simp] theorem State.unmark_mem (s : State) (l : Nat) : (s.unmark l).mem = s.mem := rfl
@[simp] theorem State.unmark_vis (s : State) (l : Nat) : (s.unmark l).vis = s.vis := rfl
@[simp] theorem State.unmark_upsets (s : State) (l : Nat) : (s.unmark l).upsets = s.upsets := rfl
@[simp] theorem State.unmark_visPoison (s : State) (l : Nat) : (s.unmark l).visPoison = s.visPoison := rfl
@[simp] theorem State.unmark_tally (s : State) (l : Nat) : (s.unmark l).tally = s.tally := rfl
@[simp] theorem State.unmark_adm (s : State) (l : Nat) : (s.unmark l).adm = s.adm := rfl
@[simp] theorem State.unmark_global (s : State) (l : Nat) : (s.unmark l).global = s.global := rfl
@[simp] theorem State.unmark_memc (s : State) (l : Nat) : (s.unmark l).memc = s.memc := rfl
@[simp] theorem State.unmark_mas (s : State) (l : Nat) : (s.unmark l).mas = s.mas := rfl
@[simp] theorem State.unmark_carry (s : State) (l : Nat) : (s.unmark l).carry = s.carry := rfl
@[simp] theorem State.unmark_hostq (s : State) (l : Nat) : (s.unmark l).hostq = s.hostq := rfl
@[simp] theorem State.unmark_mgmt (s : State) (l : Nat) : (s.unmark l).mgmt = s.mgmt := rfl
@[simp] theorem State.unmark_lne (s : State) (l : Nat) : (s.unmark l).lne = s.lne := rfl
@[simp] theorem State.unmark_boot (s : State) (l : Nat) : (s.unmark l).boot = s.boot := rfl
@[simp] theorem State.unmark_jtag (s : State) (l : Nat) : (s.unmark l).jtag = s.jtag := rfl
@[simp] theorem State.unmark_programs (s : State) (l : Nat) : (s.unmark l).programs = s.programs := rfl
@[simp] theorem State.unmark_runs (s : State) (l : Nat) : (s.unmark l).runs = s.runs := rfl
@[simp] theorem State.unmark_xfers (s : State) (l : Nat) : (s.unmark l).xfers = s.xfers := rfl
@[simp] theorem State.unmark_outbox (s : State) (l : Nat) : (s.unmark l).outbox = s.outbox := rfl
@[simp] theorem State.unmark_nextXfer (s : State) (l : Nat) : (s.unmark l).nextXfer = s.nextXfer := rfl
@[simp] theorem State.unmark_nextRun (s : State) (l : Nat) : (s.unmark l).nextRun = s.nextRun := rfl
@[simp] theorem State.unmark_freeCtr (s : State) (l : Nat) : (s.unmark l).freeCtr = s.freeCtr := rfl

/-! ## upset -/

@[simp] theorem State.upset_pending (s : State) (us : List Upset) : (s.upset us).pending = s.pending := rfl
@[simp] theorem State.upset_frames (s : State) (us : List Upset) : (s.upset us).frames = s.frames := rfl
@[simp] theorem State.upset_mem (s : State) (us : List Upset) : (s.upset us).mem = s.mem := rfl
@[simp] theorem State.upset_vis (s : State) (us : List Upset) : (s.upset us).vis = s.vis := rfl
@[simp] theorem State.upset_poison (s : State) (us : List Upset) : (s.upset us).poison = s.poison := rfl
@[simp] theorem State.upset_visPoison (s : State) (us : List Upset) : (s.upset us).visPoison = s.visPoison := rfl
@[simp] theorem State.upset_tally (s : State) (us : List Upset) : (s.upset us).tally = s.tally := rfl
@[simp] theorem State.upset_adm (s : State) (us : List Upset) : (s.upset us).adm = s.adm := rfl
@[simp] theorem State.upset_global (s : State) (us : List Upset) : (s.upset us).global = s.global := rfl
@[simp] theorem State.upset_memc (s : State) (us : List Upset) : (s.upset us).memc = s.memc := rfl
@[simp] theorem State.upset_mas (s : State) (us : List Upset) : (s.upset us).mas = s.mas := rfl
@[simp] theorem State.upset_carry (s : State) (us : List Upset) : (s.upset us).carry = s.carry := rfl
@[simp] theorem State.upset_hostq (s : State) (us : List Upset) : (s.upset us).hostq = s.hostq := rfl
@[simp] theorem State.upset_mgmt (s : State) (us : List Upset) : (s.upset us).mgmt = s.mgmt := rfl
@[simp] theorem State.upset_lne (s : State) (us : List Upset) : (s.upset us).lne = s.lne := rfl
@[simp] theorem State.upset_boot (s : State) (us : List Upset) : (s.upset us).boot = s.boot := rfl
@[simp] theorem State.upset_jtag (s : State) (us : List Upset) : (s.upset us).jtag = s.jtag := rfl
@[simp] theorem State.upset_programs (s : State) (us : List Upset) : (s.upset us).programs = s.programs := rfl
@[simp] theorem State.upset_runs (s : State) (us : List Upset) : (s.upset us).runs = s.runs := rfl
@[simp] theorem State.upset_xfers (s : State) (us : List Upset) : (s.upset us).xfers = s.xfers := rfl
@[simp] theorem State.upset_outbox (s : State) (us : List Upset) : (s.upset us).outbox = s.outbox := rfl
@[simp] theorem State.upset_nextXfer (s : State) (us : List Upset) : (s.upset us).nextXfer = s.nextXfer := rfl
@[simp] theorem State.upset_nextRun (s : State) (us : List Upset) : (s.upset us).nextRun = s.nextRun := rfl
@[simp] theorem State.upset_freeCtr (s : State) (us : List Upset) : (s.upset us).freeCtr = s.freeCtr := rfl

/-! ## mend -/

@[simp] theorem State.mend_pending (s : State) (u : Upset) : (s.mend u).pending = s.pending := rfl
@[simp] theorem State.mend_frames (s : State) (u : Upset) : (s.mend u).frames = s.frames := rfl
@[simp] theorem State.mend_mem (s : State) (u : Upset) : (s.mend u).mem = s.mem := rfl
@[simp] theorem State.mend_vis (s : State) (u : Upset) : (s.mend u).vis = s.vis := rfl
@[simp] theorem State.mend_poison (s : State) (u : Upset) : (s.mend u).poison = s.poison := rfl
@[simp] theorem State.mend_visPoison (s : State) (u : Upset) : (s.mend u).visPoison = s.visPoison := rfl
@[simp] theorem State.mend_tally (s : State) (u : Upset) : (s.mend u).tally = s.tally := rfl
@[simp] theorem State.mend_adm (s : State) (u : Upset) : (s.mend u).adm = s.adm := rfl
@[simp] theorem State.mend_global (s : State) (u : Upset) : (s.mend u).global = s.global := rfl
@[simp] theorem State.mend_memc (s : State) (u : Upset) : (s.mend u).memc = s.memc := rfl
@[simp] theorem State.mend_mas (s : State) (u : Upset) : (s.mend u).mas = s.mas := rfl
@[simp] theorem State.mend_carry (s : State) (u : Upset) : (s.mend u).carry = s.carry := rfl
@[simp] theorem State.mend_hostq (s : State) (u : Upset) : (s.mend u).hostq = s.hostq := rfl
@[simp] theorem State.mend_mgmt (s : State) (u : Upset) : (s.mend u).mgmt = s.mgmt := rfl
@[simp] theorem State.mend_lne (s : State) (u : Upset) : (s.mend u).lne = s.lne := rfl
@[simp] theorem State.mend_boot (s : State) (u : Upset) : (s.mend u).boot = s.boot := rfl
@[simp] theorem State.mend_jtag (s : State) (u : Upset) : (s.mend u).jtag = s.jtag := rfl
@[simp] theorem State.mend_programs (s : State) (u : Upset) : (s.mend u).programs = s.programs := rfl
@[simp] theorem State.mend_runs (s : State) (u : Upset) : (s.mend u).runs = s.runs := rfl
@[simp] theorem State.mend_xfers (s : State) (u : Upset) : (s.mend u).xfers = s.xfers := rfl
@[simp] theorem State.mend_outbox (s : State) (u : Upset) : (s.mend u).outbox = s.outbox := rfl
@[simp] theorem State.mend_nextXfer (s : State) (u : Upset) : (s.mend u).nextXfer = s.nextXfer := rfl
@[simp] theorem State.mend_nextRun (s : State) (u : Upset) : (s.mend u).nextRun = s.nextRun := rfl
@[simp] theorem State.mend_freeCtr (s : State) (u : Upset) : (s.mend u).freeCtr = s.freeCtr := rfl

/-! ## updMem -/

@[simp] theorem State.updMem_pending (s : State) (p : Fin 16) (g : MemPort → MemPort) : (s.updMem p g).pending = s.pending := rfl
@[simp] theorem State.updMem_frames (s : State) (p : Fin 16) (g : MemPort → MemPort) : (s.updMem p g).frames = s.frames := rfl
@[simp] theorem State.updMem_mem (s : State) (p : Fin 16) (g : MemPort → MemPort) : (s.updMem p g).mem = s.mem := rfl
@[simp] theorem State.updMem_vis (s : State) (p : Fin 16) (g : MemPort → MemPort) : (s.updMem p g).vis = s.vis := rfl
@[simp] theorem State.updMem_upsets (s : State) (p : Fin 16) (g : MemPort → MemPort) : (s.updMem p g).upsets = s.upsets := rfl
@[simp] theorem State.updMem_poison (s : State) (p : Fin 16) (g : MemPort → MemPort) : (s.updMem p g).poison = s.poison := rfl
@[simp] theorem State.updMem_visPoison (s : State) (p : Fin 16) (g : MemPort → MemPort) : (s.updMem p g).visPoison = s.visPoison := rfl
@[simp] theorem State.updMem_tally (s : State) (p : Fin 16) (g : MemPort → MemPort) : (s.updMem p g).tally = s.tally := rfl
@[simp] theorem State.updMem_adm (s : State) (p : Fin 16) (g : MemPort → MemPort) : (s.updMem p g).adm = s.adm := rfl
@[simp] theorem State.updMem_global (s : State) (p : Fin 16) (g : MemPort → MemPort) : (s.updMem p g).global = s.global := rfl
@[simp] theorem State.updMem_mas (s : State) (p : Fin 16) (g : MemPort → MemPort) : (s.updMem p g).mas = s.mas := rfl
@[simp] theorem State.updMem_carry (s : State) (p : Fin 16) (g : MemPort → MemPort) : (s.updMem p g).carry = s.carry := rfl
@[simp] theorem State.updMem_hostq (s : State) (p : Fin 16) (g : MemPort → MemPort) : (s.updMem p g).hostq = s.hostq := rfl
@[simp] theorem State.updMem_mgmt (s : State) (p : Fin 16) (g : MemPort → MemPort) : (s.updMem p g).mgmt = s.mgmt := rfl
@[simp] theorem State.updMem_lne (s : State) (p : Fin 16) (g : MemPort → MemPort) : (s.updMem p g).lne = s.lne := rfl
@[simp] theorem State.updMem_boot (s : State) (p : Fin 16) (g : MemPort → MemPort) : (s.updMem p g).boot = s.boot := rfl
@[simp] theorem State.updMem_jtag (s : State) (p : Fin 16) (g : MemPort → MemPort) : (s.updMem p g).jtag = s.jtag := rfl
@[simp] theorem State.updMem_programs (s : State) (p : Fin 16) (g : MemPort → MemPort) : (s.updMem p g).programs = s.programs := rfl
@[simp] theorem State.updMem_runs (s : State) (p : Fin 16) (g : MemPort → MemPort) : (s.updMem p g).runs = s.runs := rfl
@[simp] theorem State.updMem_xfers (s : State) (p : Fin 16) (g : MemPort → MemPort) : (s.updMem p g).xfers = s.xfers := rfl
@[simp] theorem State.updMem_outbox (s : State) (p : Fin 16) (g : MemPort → MemPort) : (s.updMem p g).outbox = s.outbox := rfl
@[simp] theorem State.updMem_nextXfer (s : State) (p : Fin 16) (g : MemPort → MemPort) : (s.updMem p g).nextXfer = s.nextXfer := rfl
@[simp] theorem State.updMem_nextRun (s : State) (p : Fin 16) (g : MemPort → MemPort) : (s.updMem p g).nextRun = s.nextRun := rfl
@[simp] theorem State.updMem_freeCtr (s : State) (p : Fin 16) (g : MemPort → MemPort) : (s.updMem p g).freeCtr = s.freeCtr := rfl

/-! ## moved -/

@[simp] theorem State.moved_pending (s : State) (c : Fin 4) (a n : Nat) : (s.moved c a n).pending = s.pending := rfl
@[simp] theorem State.moved_frames (s : State) (c : Fin 4) (a n : Nat) : (s.moved c a n).frames = s.frames := rfl
@[simp] theorem State.moved_mem (s : State) (c : Fin 4) (a n : Nat) : (s.moved c a n).mem = s.mem := rfl
@[simp] theorem State.moved_vis (s : State) (c : Fin 4) (a n : Nat) : (s.moved c a n).vis = s.vis := rfl
@[simp] theorem State.moved_upsets (s : State) (c : Fin 4) (a n : Nat) : (s.moved c a n).upsets = s.upsets := rfl
@[simp] theorem State.moved_poison (s : State) (c : Fin 4) (a n : Nat) : (s.moved c a n).poison = s.poison := rfl
@[simp] theorem State.moved_visPoison (s : State) (c : Fin 4) (a n : Nat) : (s.moved c a n).visPoison = s.visPoison := rfl
@[simp] theorem State.moved_tally (s : State) (c : Fin 4) (a n : Nat) : (s.moved c a n).tally = s.tally := rfl
@[simp] theorem State.moved_adm (s : State) (c : Fin 4) (a n : Nat) : (s.moved c a n).adm = s.adm := rfl
@[simp] theorem State.moved_global (s : State) (c : Fin 4) (a n : Nat) : (s.moved c a n).global = s.global := rfl
@[simp] theorem State.moved_mas (s : State) (c : Fin 4) (a n : Nat) : (s.moved c a n).mas = s.mas := rfl
@[simp] theorem State.moved_carry (s : State) (c : Fin 4) (a n : Nat) : (s.moved c a n).carry = s.carry := rfl
@[simp] theorem State.moved_hostq (s : State) (c : Fin 4) (a n : Nat) : (s.moved c a n).hostq = s.hostq := rfl
@[simp] theorem State.moved_mgmt (s : State) (c : Fin 4) (a n : Nat) : (s.moved c a n).mgmt = s.mgmt := rfl
@[simp] theorem State.moved_lne (s : State) (c : Fin 4) (a n : Nat) : (s.moved c a n).lne = s.lne := rfl
@[simp] theorem State.moved_boot (s : State) (c : Fin 4) (a n : Nat) : (s.moved c a n).boot = s.boot := rfl
@[simp] theorem State.moved_jtag (s : State) (c : Fin 4) (a n : Nat) : (s.moved c a n).jtag = s.jtag := rfl
@[simp] theorem State.moved_programs (s : State) (c : Fin 4) (a n : Nat) : (s.moved c a n).programs = s.programs := rfl
@[simp] theorem State.moved_runs (s : State) (c : Fin 4) (a n : Nat) : (s.moved c a n).runs = s.runs := rfl
@[simp] theorem State.moved_xfers (s : State) (c : Fin 4) (a n : Nat) : (s.moved c a n).xfers = s.xfers := rfl
@[simp] theorem State.moved_outbox (s : State) (c : Fin 4) (a n : Nat) : (s.moved c a n).outbox = s.outbox := rfl
@[simp] theorem State.moved_nextXfer (s : State) (c : Fin 4) (a n : Nat) : (s.moved c a n).nextXfer = s.nextXfer := rfl
@[simp] theorem State.moved_nextRun (s : State) (c : Fin 4) (a n : Nat) : (s.moved c a n).nextRun = s.nextRun := rfl
@[simp] theorem State.moved_freeCtr (s : State) (c : Fin 4) (a n : Nat) : (s.moved c a n).freeCtr = s.freeCtr := rfl

/-! ## movedSpan -/

@[simp] theorem State.movedSpan_pending (s : State) (c : Fin 4) (a n : Nat) : (s.movedSpan c a n).pending = s.pending := rfl
@[simp] theorem State.movedSpan_frames (s : State) (c : Fin 4) (a n : Nat) : (s.movedSpan c a n).frames = s.frames := rfl
@[simp] theorem State.movedSpan_mem (s : State) (c : Fin 4) (a n : Nat) : (s.movedSpan c a n).mem = s.mem := rfl
@[simp] theorem State.movedSpan_vis (s : State) (c : Fin 4) (a n : Nat) : (s.movedSpan c a n).vis = s.vis := rfl
@[simp] theorem State.movedSpan_upsets (s : State) (c : Fin 4) (a n : Nat) : (s.movedSpan c a n).upsets = s.upsets := rfl
@[simp] theorem State.movedSpan_poison (s : State) (c : Fin 4) (a n : Nat) : (s.movedSpan c a n).poison = s.poison := rfl
@[simp] theorem State.movedSpan_visPoison (s : State) (c : Fin 4) (a n : Nat) : (s.movedSpan c a n).visPoison = s.visPoison := rfl
@[simp] theorem State.movedSpan_tally (s : State) (c : Fin 4) (a n : Nat) : (s.movedSpan c a n).tally = s.tally := rfl
@[simp] theorem State.movedSpan_adm (s : State) (c : Fin 4) (a n : Nat) : (s.movedSpan c a n).adm = s.adm := rfl
@[simp] theorem State.movedSpan_global (s : State) (c : Fin 4) (a n : Nat) : (s.movedSpan c a n).global = s.global := rfl
@[simp] theorem State.movedSpan_mas (s : State) (c : Fin 4) (a n : Nat) : (s.movedSpan c a n).mas = s.mas := rfl
@[simp] theorem State.movedSpan_carry (s : State) (c : Fin 4) (a n : Nat) : (s.movedSpan c a n).carry = s.carry := rfl
@[simp] theorem State.movedSpan_hostq (s : State) (c : Fin 4) (a n : Nat) : (s.movedSpan c a n).hostq = s.hostq := rfl
@[simp] theorem State.movedSpan_mgmt (s : State) (c : Fin 4) (a n : Nat) : (s.movedSpan c a n).mgmt = s.mgmt := rfl
@[simp] theorem State.movedSpan_lne (s : State) (c : Fin 4) (a n : Nat) : (s.movedSpan c a n).lne = s.lne := rfl
@[simp] theorem State.movedSpan_boot (s : State) (c : Fin 4) (a n : Nat) : (s.movedSpan c a n).boot = s.boot := rfl
@[simp] theorem State.movedSpan_jtag (s : State) (c : Fin 4) (a n : Nat) : (s.movedSpan c a n).jtag = s.jtag := rfl
@[simp] theorem State.movedSpan_programs (s : State) (c : Fin 4) (a n : Nat) : (s.movedSpan c a n).programs = s.programs := rfl
@[simp] theorem State.movedSpan_runs (s : State) (c : Fin 4) (a n : Nat) : (s.movedSpan c a n).runs = s.runs := rfl
@[simp] theorem State.movedSpan_xfers (s : State) (c : Fin 4) (a n : Nat) : (s.movedSpan c a n).xfers = s.xfers := rfl
@[simp] theorem State.movedSpan_outbox (s : State) (c : Fin 4) (a n : Nat) : (s.movedSpan c a n).outbox = s.outbox := rfl
@[simp] theorem State.movedSpan_nextXfer (s : State) (c : Fin 4) (a n : Nat) : (s.movedSpan c a n).nextXfer = s.nextXfer := rfl
@[simp] theorem State.movedSpan_nextRun (s : State) (c : Fin 4) (a n : Nat) : (s.movedSpan c a n).nextRun = s.nextRun := rfl
@[simp] theorem State.movedSpan_freeCtr (s : State) (c : Fin 4) (a n : Nat) : (s.movedSpan c a n).freeCtr = s.freeCtr := rfl

/-! ## wipeBytes -/

@[simp] theorem State.wipeBytes_pending (s : State) (a n : Nat) : (s.wipeBytes a n).pending = s.pending := rfl
@[simp] theorem State.wipeBytes_frames (s : State) (a n : Nat) : (s.wipeBytes a n).frames = s.frames := rfl
@[simp] theorem State.wipeBytes_upsets (s : State) (a n : Nat) : (s.wipeBytes a n).upsets = s.upsets := rfl
@[simp] theorem State.wipeBytes_tally (s : State) (a n : Nat) : (s.wipeBytes a n).tally = s.tally := rfl
@[simp] theorem State.wipeBytes_adm (s : State) (a n : Nat) : (s.wipeBytes a n).adm = s.adm := rfl
@[simp] theorem State.wipeBytes_global (s : State) (a n : Nat) : (s.wipeBytes a n).global = s.global := rfl
@[simp] theorem State.wipeBytes_memc (s : State) (a n : Nat) : (s.wipeBytes a n).memc = s.memc := rfl
@[simp] theorem State.wipeBytes_mas (s : State) (a n : Nat) : (s.wipeBytes a n).mas = s.mas := rfl
@[simp] theorem State.wipeBytes_carry (s : State) (a n : Nat) : (s.wipeBytes a n).carry = s.carry := rfl
@[simp] theorem State.wipeBytes_hostq (s : State) (a n : Nat) : (s.wipeBytes a n).hostq = s.hostq := rfl
@[simp] theorem State.wipeBytes_mgmt (s : State) (a n : Nat) : (s.wipeBytes a n).mgmt = s.mgmt := rfl
@[simp] theorem State.wipeBytes_lne (s : State) (a n : Nat) : (s.wipeBytes a n).lne = s.lne := rfl
@[simp] theorem State.wipeBytes_boot (s : State) (a n : Nat) : (s.wipeBytes a n).boot = s.boot := rfl
@[simp] theorem State.wipeBytes_jtag (s : State) (a n : Nat) : (s.wipeBytes a n).jtag = s.jtag := rfl
@[simp] theorem State.wipeBytes_programs (s : State) (a n : Nat) : (s.wipeBytes a n).programs = s.programs := rfl
@[simp] theorem State.wipeBytes_runs (s : State) (a n : Nat) : (s.wipeBytes a n).runs = s.runs := rfl
@[simp] theorem State.wipeBytes_xfers (s : State) (a n : Nat) : (s.wipeBytes a n).xfers = s.xfers := rfl
@[simp] theorem State.wipeBytes_outbox (s : State) (a n : Nat) : (s.wipeBytes a n).outbox = s.outbox := rfl
@[simp] theorem State.wipeBytes_nextXfer (s : State) (a n : Nat) : (s.wipeBytes a n).nextXfer = s.nextXfer := rfl
@[simp] theorem State.wipeBytes_nextRun (s : State) (a n : Nat) : (s.wipeBytes a n).nextRun = s.nextRun := rfl
@[simp] theorem State.wipeBytes_freeCtr (s : State) (a n : Nat) : (s.wipeBytes a n).freeCtr = s.freeCtr := rfl

/-! ## fault -/

@[simp] theorem State.fault_pending (s : State) (id : Nat) (c : Code) (f : Nat) : (s.fault id c f).pending = s.pending := rfl
@[simp] theorem State.fault_frames (s : State) (id : Nat) (c : Code) (f : Nat) : (s.fault id c f).frames = s.frames := rfl
@[simp] theorem State.fault_mem (s : State) (id : Nat) (c : Code) (f : Nat) : (s.fault id c f).mem = s.mem := rfl
@[simp] theorem State.fault_vis (s : State) (id : Nat) (c : Code) (f : Nat) : (s.fault id c f).vis = s.vis := rfl
@[simp] theorem State.fault_upsets (s : State) (id : Nat) (c : Code) (f : Nat) : (s.fault id c f).upsets = s.upsets := rfl
@[simp] theorem State.fault_poison (s : State) (id : Nat) (c : Code) (f : Nat) : (s.fault id c f).poison = s.poison := rfl
@[simp] theorem State.fault_visPoison (s : State) (id : Nat) (c : Code) (f : Nat) : (s.fault id c f).visPoison = s.visPoison := rfl
@[simp] theorem State.fault_tally (s : State) (id : Nat) (c : Code) (f : Nat) : (s.fault id c f).tally = s.tally := rfl
@[simp] theorem State.fault_adm (s : State) (id : Nat) (c : Code) (f : Nat) : (s.fault id c f).adm = s.adm := rfl
@[simp] theorem State.fault_global (s : State) (id : Nat) (c : Code) (f : Nat) : (s.fault id c f).global = s.global := rfl
@[simp] theorem State.fault_memc (s : State) (id : Nat) (c : Code) (f : Nat) : (s.fault id c f).memc = s.memc := rfl
@[simp] theorem State.fault_mas (s : State) (id : Nat) (c : Code) (f : Nat) : (s.fault id c f).mas = s.mas := rfl
@[simp] theorem State.fault_carry (s : State) (id : Nat) (c : Code) (f : Nat) : (s.fault id c f).carry = s.carry := rfl
@[simp] theorem State.fault_hostq (s : State) (id : Nat) (c : Code) (f : Nat) : (s.fault id c f).hostq = s.hostq := rfl
@[simp] theorem State.fault_mgmt (s : State) (id : Nat) (c : Code) (f : Nat) : (s.fault id c f).mgmt = s.mgmt := rfl
@[simp] theorem State.fault_lne (s : State) (id : Nat) (c : Code) (f : Nat) : (s.fault id c f).lne = s.lne := rfl
@[simp] theorem State.fault_boot (s : State) (id : Nat) (c : Code) (f : Nat) : (s.fault id c f).boot = s.boot := rfl
@[simp] theorem State.fault_jtag (s : State) (id : Nat) (c : Code) (f : Nat) : (s.fault id c f).jtag = s.jtag := rfl
@[simp] theorem State.fault_programs (s : State) (id : Nat) (c : Code) (f : Nat) : (s.fault id c f).programs = s.programs := rfl
@[simp] theorem State.fault_xfers (s : State) (id : Nat) (c : Code) (f : Nat) : (s.fault id c f).xfers = s.xfers := rfl
@[simp] theorem State.fault_outbox (s : State) (id : Nat) (c : Code) (f : Nat) : (s.fault id c f).outbox = s.outbox := rfl
@[simp] theorem State.fault_nextXfer (s : State) (id : Nat) (c : Code) (f : Nat) : (s.fault id c f).nextXfer = s.nextXfer := rfl
@[simp] theorem State.fault_nextRun (s : State) (id : Nat) (c : Code) (f : Nat) : (s.fault id c f).nextRun = s.nextRun := rfl
@[simp] theorem State.fault_freeCtr (s : State) (id : Nat) (c : Code) (f : Nat) : (s.fault id c f).freeCtr = s.freeCtr := rfl

/-! ## event -/

@[simp] theorem State.event_pending (s : State) (id : Nat) (c : Code) (f : Nat) : (s.event id c f).pending = s.pending := rfl
@[simp] theorem State.event_frames (s : State) (id : Nat) (c : Code) (f : Nat) : (s.event id c f).frames = s.frames := rfl
@[simp] theorem State.event_mem (s : State) (id : Nat) (c : Code) (f : Nat) : (s.event id c f).mem = s.mem := rfl
@[simp] theorem State.event_vis (s : State) (id : Nat) (c : Code) (f : Nat) : (s.event id c f).vis = s.vis := rfl
@[simp] theorem State.event_upsets (s : State) (id : Nat) (c : Code) (f : Nat) : (s.event id c f).upsets = s.upsets := rfl
@[simp] theorem State.event_poison (s : State) (id : Nat) (c : Code) (f : Nat) : (s.event id c f).poison = s.poison := rfl
@[simp] theorem State.event_visPoison (s : State) (id : Nat) (c : Code) (f : Nat) : (s.event id c f).visPoison = s.visPoison := rfl
@[simp] theorem State.event_tally (s : State) (id : Nat) (c : Code) (f : Nat) : (s.event id c f).tally = s.tally := rfl
@[simp] theorem State.event_adm (s : State) (id : Nat) (c : Code) (f : Nat) : (s.event id c f).adm = s.adm := rfl
@[simp] theorem State.event_global (s : State) (id : Nat) (c : Code) (f : Nat) : (s.event id c f).global = s.global := rfl
@[simp] theorem State.event_memc (s : State) (id : Nat) (c : Code) (f : Nat) : (s.event id c f).memc = s.memc := rfl
@[simp] theorem State.event_mas (s : State) (id : Nat) (c : Code) (f : Nat) : (s.event id c f).mas = s.mas := rfl
@[simp] theorem State.event_carry (s : State) (id : Nat) (c : Code) (f : Nat) : (s.event id c f).carry = s.carry := rfl
@[simp] theorem State.event_hostq (s : State) (id : Nat) (c : Code) (f : Nat) : (s.event id c f).hostq = s.hostq := rfl
@[simp] theorem State.event_mgmt (s : State) (id : Nat) (c : Code) (f : Nat) : (s.event id c f).mgmt = s.mgmt := rfl
@[simp] theorem State.event_lne (s : State) (id : Nat) (c : Code) (f : Nat) : (s.event id c f).lne = s.lne := rfl
@[simp] theorem State.event_boot (s : State) (id : Nat) (c : Code) (f : Nat) : (s.event id c f).boot = s.boot := rfl
@[simp] theorem State.event_jtag (s : State) (id : Nat) (c : Code) (f : Nat) : (s.event id c f).jtag = s.jtag := rfl
@[simp] theorem State.event_programs (s : State) (id : Nat) (c : Code) (f : Nat) : (s.event id c f).programs = s.programs := rfl
@[simp] theorem State.event_xfers (s : State) (id : Nat) (c : Code) (f : Nat) : (s.event id c f).xfers = s.xfers := rfl
@[simp] theorem State.event_outbox (s : State) (id : Nat) (c : Code) (f : Nat) : (s.event id c f).outbox = s.outbox := rfl
@[simp] theorem State.event_nextXfer (s : State) (id : Nat) (c : Code) (f : Nat) : (s.event id c f).nextXfer = s.nextXfer := rfl
@[simp] theorem State.event_nextRun (s : State) (id : Nat) (c : Code) (f : Nat) : (s.event id c f).nextRun = s.nextRun := rfl
@[simp] theorem State.event_freeCtr (s : State) (id : Nat) (c : Code) (f : Nat) : (s.event id c f).freeCtr = s.freeCtr := rfl

/-! ## askAbort -/

@[simp] theorem State.askAbort_pending (s : State) (id f : Nat) (c : Code) : (s.askAbort id f c).pending = s.pending := rfl
@[simp] theorem State.askAbort_frames (s : State) (id f : Nat) (c : Code) : (s.askAbort id f c).frames = s.frames := rfl
@[simp] theorem State.askAbort_mem (s : State) (id f : Nat) (c : Code) : (s.askAbort id f c).mem = s.mem := rfl
@[simp] theorem State.askAbort_vis (s : State) (id f : Nat) (c : Code) : (s.askAbort id f c).vis = s.vis := rfl
@[simp] theorem State.askAbort_upsets (s : State) (id f : Nat) (c : Code) : (s.askAbort id f c).upsets = s.upsets := rfl
@[simp] theorem State.askAbort_poison (s : State) (id f : Nat) (c : Code) : (s.askAbort id f c).poison = s.poison := rfl
@[simp] theorem State.askAbort_visPoison (s : State) (id f : Nat) (c : Code) : (s.askAbort id f c).visPoison = s.visPoison := rfl
@[simp] theorem State.askAbort_tally (s : State) (id f : Nat) (c : Code) : (s.askAbort id f c).tally = s.tally := rfl
@[simp] theorem State.askAbort_adm (s : State) (id f : Nat) (c : Code) : (s.askAbort id f c).adm = s.adm := rfl
@[simp] theorem State.askAbort_global (s : State) (id f : Nat) (c : Code) : (s.askAbort id f c).global = s.global := rfl
@[simp] theorem State.askAbort_memc (s : State) (id f : Nat) (c : Code) : (s.askAbort id f c).memc = s.memc := rfl
@[simp] theorem State.askAbort_mas (s : State) (id f : Nat) (c : Code) : (s.askAbort id f c).mas = s.mas := rfl
@[simp] theorem State.askAbort_carry (s : State) (id f : Nat) (c : Code) : (s.askAbort id f c).carry = s.carry := rfl
@[simp] theorem State.askAbort_hostq (s : State) (id f : Nat) (c : Code) : (s.askAbort id f c).hostq = s.hostq := rfl
@[simp] theorem State.askAbort_mgmt (s : State) (id f : Nat) (c : Code) : (s.askAbort id f c).mgmt = s.mgmt := rfl
@[simp] theorem State.askAbort_lne (s : State) (id f : Nat) (c : Code) : (s.askAbort id f c).lne = s.lne := rfl
@[simp] theorem State.askAbort_boot (s : State) (id f : Nat) (c : Code) : (s.askAbort id f c).boot = s.boot := rfl
@[simp] theorem State.askAbort_jtag (s : State) (id f : Nat) (c : Code) : (s.askAbort id f c).jtag = s.jtag := rfl
@[simp] theorem State.askAbort_programs (s : State) (id f : Nat) (c : Code) : (s.askAbort id f c).programs = s.programs := rfl
@[simp] theorem State.askAbort_xfers (s : State) (id f : Nat) (c : Code) : (s.askAbort id f c).xfers = s.xfers := rfl
@[simp] theorem State.askAbort_outbox (s : State) (id f : Nat) (c : Code) : (s.askAbort id f c).outbox = s.outbox := rfl
@[simp] theorem State.askAbort_nextXfer (s : State) (id f : Nat) (c : Code) : (s.askAbort id f c).nextXfer = s.nextXfer := rfl
@[simp] theorem State.askAbort_nextRun (s : State) (id f : Nat) (c : Code) : (s.askAbort id f c).nextRun = s.nextRun := rfl
@[simp] theorem State.askAbort_freeCtr (s : State) (id f : Nat) (c : Code) : (s.askAbort id f c).freeCtr = s.freeCtr := rfl

/-! ## flashWrite -/

@[simp] theorem State.flashWrite_pending (s : State) (a : Nat) (bs : List Byte) : (s.flashWrite a bs).pending = s.pending := rfl
@[simp] theorem State.flashWrite_frames (s : State) (a : Nat) (bs : List Byte) : (s.flashWrite a bs).frames = s.frames := rfl
@[simp] theorem State.flashWrite_mem (s : State) (a : Nat) (bs : List Byte) : (s.flashWrite a bs).mem = s.mem := rfl
@[simp] theorem State.flashWrite_vis (s : State) (a : Nat) (bs : List Byte) : (s.flashWrite a bs).vis = s.vis := rfl
@[simp] theorem State.flashWrite_upsets (s : State) (a : Nat) (bs : List Byte) : (s.flashWrite a bs).upsets = s.upsets := rfl
@[simp] theorem State.flashWrite_poison (s : State) (a : Nat) (bs : List Byte) : (s.flashWrite a bs).poison = s.poison := rfl
@[simp] theorem State.flashWrite_visPoison (s : State) (a : Nat) (bs : List Byte) : (s.flashWrite a bs).visPoison = s.visPoison := rfl
@[simp] theorem State.flashWrite_tally (s : State) (a : Nat) (bs : List Byte) : (s.flashWrite a bs).tally = s.tally := rfl
@[simp] theorem State.flashWrite_adm (s : State) (a : Nat) (bs : List Byte) : (s.flashWrite a bs).adm = s.adm := rfl
@[simp] theorem State.flashWrite_global (s : State) (a : Nat) (bs : List Byte) : (s.flashWrite a bs).global = s.global := rfl
@[simp] theorem State.flashWrite_memc (s : State) (a : Nat) (bs : List Byte) : (s.flashWrite a bs).memc = s.memc := rfl
@[simp] theorem State.flashWrite_mas (s : State) (a : Nat) (bs : List Byte) : (s.flashWrite a bs).mas = s.mas := rfl
@[simp] theorem State.flashWrite_carry (s : State) (a : Nat) (bs : List Byte) : (s.flashWrite a bs).carry = s.carry := rfl
@[simp] theorem State.flashWrite_hostq (s : State) (a : Nat) (bs : List Byte) : (s.flashWrite a bs).hostq = s.hostq := rfl
@[simp] theorem State.flashWrite_mgmt (s : State) (a : Nat) (bs : List Byte) : (s.flashWrite a bs).mgmt = s.mgmt := rfl
@[simp] theorem State.flashWrite_lne (s : State) (a : Nat) (bs : List Byte) : (s.flashWrite a bs).lne = s.lne := rfl
@[simp] theorem State.flashWrite_jtag (s : State) (a : Nat) (bs : List Byte) : (s.flashWrite a bs).jtag = s.jtag := rfl
@[simp] theorem State.flashWrite_programs (s : State) (a : Nat) (bs : List Byte) : (s.flashWrite a bs).programs = s.programs := rfl
@[simp] theorem State.flashWrite_runs (s : State) (a : Nat) (bs : List Byte) : (s.flashWrite a bs).runs = s.runs := rfl
@[simp] theorem State.flashWrite_xfers (s : State) (a : Nat) (bs : List Byte) : (s.flashWrite a bs).xfers = s.xfers := rfl
@[simp] theorem State.flashWrite_outbox (s : State) (a : Nat) (bs : List Byte) : (s.flashWrite a bs).outbox = s.outbox := rfl
@[simp] theorem State.flashWrite_nextXfer (s : State) (a : Nat) (bs : List Byte) : (s.flashWrite a bs).nextXfer = s.nextXfer := rfl
@[simp] theorem State.flashWrite_nextRun (s : State) (a : Nat) (bs : List Byte) : (s.flashWrite a bs).nextRun = s.nextRun := rfl
@[simp] theorem State.flashWrite_freeCtr (s : State) (a : Nat) (bs : List Byte) : (s.flashWrite a bs).freeCtr = s.freeCtr := rfl

/-! ## flashErase -/

@[simp] theorem State.flashErase_pending (s : State) (a n : Nat) : (s.flashErase a n).pending = s.pending := rfl
@[simp] theorem State.flashErase_frames (s : State) (a n : Nat) : (s.flashErase a n).frames = s.frames := rfl
@[simp] theorem State.flashErase_mem (s : State) (a n : Nat) : (s.flashErase a n).mem = s.mem := rfl
@[simp] theorem State.flashErase_vis (s : State) (a n : Nat) : (s.flashErase a n).vis = s.vis := rfl
@[simp] theorem State.flashErase_upsets (s : State) (a n : Nat) : (s.flashErase a n).upsets = s.upsets := rfl
@[simp] theorem State.flashErase_poison (s : State) (a n : Nat) : (s.flashErase a n).poison = s.poison := rfl
@[simp] theorem State.flashErase_visPoison (s : State) (a n : Nat) : (s.flashErase a n).visPoison = s.visPoison := rfl
@[simp] theorem State.flashErase_tally (s : State) (a n : Nat) : (s.flashErase a n).tally = s.tally := rfl
@[simp] theorem State.flashErase_adm (s : State) (a n : Nat) : (s.flashErase a n).adm = s.adm := rfl
@[simp] theorem State.flashErase_global (s : State) (a n : Nat) : (s.flashErase a n).global = s.global := rfl
@[simp] theorem State.flashErase_memc (s : State) (a n : Nat) : (s.flashErase a n).memc = s.memc := rfl
@[simp] theorem State.flashErase_mas (s : State) (a n : Nat) : (s.flashErase a n).mas = s.mas := rfl
@[simp] theorem State.flashErase_carry (s : State) (a n : Nat) : (s.flashErase a n).carry = s.carry := rfl
@[simp] theorem State.flashErase_hostq (s : State) (a n : Nat) : (s.flashErase a n).hostq = s.hostq := rfl
@[simp] theorem State.flashErase_mgmt (s : State) (a n : Nat) : (s.flashErase a n).mgmt = s.mgmt := rfl
@[simp] theorem State.flashErase_lne (s : State) (a n : Nat) : (s.flashErase a n).lne = s.lne := rfl
@[simp] theorem State.flashErase_jtag (s : State) (a n : Nat) : (s.flashErase a n).jtag = s.jtag := rfl
@[simp] theorem State.flashErase_programs (s : State) (a n : Nat) : (s.flashErase a n).programs = s.programs := rfl
@[simp] theorem State.flashErase_runs (s : State) (a n : Nat) : (s.flashErase a n).runs = s.runs := rfl
@[simp] theorem State.flashErase_xfers (s : State) (a n : Nat) : (s.flashErase a n).xfers = s.xfers := rfl
@[simp] theorem State.flashErase_outbox (s : State) (a n : Nat) : (s.flashErase a n).outbox = s.outbox := rfl
@[simp] theorem State.flashErase_nextXfer (s : State) (a n : Nat) : (s.flashErase a n).nextXfer = s.nextXfer := rfl
@[simp] theorem State.flashErase_nextRun (s : State) (a n : Nat) : (s.flashErase a n).nextRun = s.nextRun := rfl
@[simp] theorem State.flashErase_freeCtr (s : State) (a n : Nat) : (s.flashErase a n).freeCtr = s.freeCtr := rfl

/-! ## tap -/

@[simp] theorem State.tap_pending (s : State) (i : TapInstr) : (s.tap i).pending = s.pending := rfl
@[simp] theorem State.tap_frames (s : State) (i : TapInstr) : (s.tap i).frames = s.frames := rfl
@[simp] theorem State.tap_mem (s : State) (i : TapInstr) : (s.tap i).mem = s.mem := rfl
@[simp] theorem State.tap_vis (s : State) (i : TapInstr) : (s.tap i).vis = s.vis := rfl
@[simp] theorem State.tap_upsets (s : State) (i : TapInstr) : (s.tap i).upsets = s.upsets := rfl
@[simp] theorem State.tap_poison (s : State) (i : TapInstr) : (s.tap i).poison = s.poison := rfl
@[simp] theorem State.tap_visPoison (s : State) (i : TapInstr) : (s.tap i).visPoison = s.visPoison := rfl
@[simp] theorem State.tap_tally (s : State) (i : TapInstr) : (s.tap i).tally = s.tally := rfl
@[simp] theorem State.tap_adm (s : State) (i : TapInstr) : (s.tap i).adm = s.adm := rfl
@[simp] theorem State.tap_global (s : State) (i : TapInstr) : (s.tap i).global = s.global := rfl
@[simp] theorem State.tap_memc (s : State) (i : TapInstr) : (s.tap i).memc = s.memc := rfl
@[simp] theorem State.tap_mas (s : State) (i : TapInstr) : (s.tap i).mas = s.mas := rfl
@[simp] theorem State.tap_carry (s : State) (i : TapInstr) : (s.tap i).carry = s.carry := rfl
@[simp] theorem State.tap_hostq (s : State) (i : TapInstr) : (s.tap i).hostq = s.hostq := rfl
@[simp] theorem State.tap_mgmt (s : State) (i : TapInstr) : (s.tap i).mgmt = s.mgmt := rfl
@[simp] theorem State.tap_lne (s : State) (i : TapInstr) : (s.tap i).lne = s.lne := rfl
@[simp] theorem State.tap_boot (s : State) (i : TapInstr) : (s.tap i).boot = s.boot := rfl
@[simp] theorem State.tap_programs (s : State) (i : TapInstr) : (s.tap i).programs = s.programs := rfl
@[simp] theorem State.tap_runs (s : State) (i : TapInstr) : (s.tap i).runs = s.runs := rfl
@[simp] theorem State.tap_xfers (s : State) (i : TapInstr) : (s.tap i).xfers = s.xfers := rfl
@[simp] theorem State.tap_outbox (s : State) (i : TapInstr) : (s.tap i).outbox = s.outbox := rfl
@[simp] theorem State.tap_nextXfer (s : State) (i : TapInstr) : (s.tap i).nextXfer = s.nextXfer := rfl
@[simp] theorem State.tap_nextRun (s : State) (i : TapInstr) : (s.tap i).nextRun = s.nextRun := rfl
@[simp] theorem State.tap_freeCtr (s : State) (i : TapInstr) : (s.tap i).freeCtr = s.freeCtr := rfl

/-! ## updPort' -/

@[simp] theorem State.updPort'_pending (s : State) (g : MgmtPort → MgmtPort) : (s.updPort' g).pending = s.pending := rfl
@[simp] theorem State.updPort'_frames (s : State) (g : MgmtPort → MgmtPort) : (s.updPort' g).frames = s.frames := rfl
@[simp] theorem State.updPort'_mem (s : State) (g : MgmtPort → MgmtPort) : (s.updPort' g).mem = s.mem := rfl
@[simp] theorem State.updPort'_vis (s : State) (g : MgmtPort → MgmtPort) : (s.updPort' g).vis = s.vis := rfl
@[simp] theorem State.updPort'_upsets (s : State) (g : MgmtPort → MgmtPort) : (s.updPort' g).upsets = s.upsets := rfl
@[simp] theorem State.updPort'_poison (s : State) (g : MgmtPort → MgmtPort) : (s.updPort' g).poison = s.poison := rfl
@[simp] theorem State.updPort'_visPoison (s : State) (g : MgmtPort → MgmtPort) : (s.updPort' g).visPoison = s.visPoison := rfl
@[simp] theorem State.updPort'_tally (s : State) (g : MgmtPort → MgmtPort) : (s.updPort' g).tally = s.tally := rfl
@[simp] theorem State.updPort'_adm (s : State) (g : MgmtPort → MgmtPort) : (s.updPort' g).adm = s.adm := rfl
@[simp] theorem State.updPort'_global (s : State) (g : MgmtPort → MgmtPort) : (s.updPort' g).global = s.global := rfl
@[simp] theorem State.updPort'_memc (s : State) (g : MgmtPort → MgmtPort) : (s.updPort' g).memc = s.memc := rfl
@[simp] theorem State.updPort'_mas (s : State) (g : MgmtPort → MgmtPort) : (s.updPort' g).mas = s.mas := rfl
@[simp] theorem State.updPort'_carry (s : State) (g : MgmtPort → MgmtPort) : (s.updPort' g).carry = s.carry := rfl
@[simp] theorem State.updPort'_hostq (s : State) (g : MgmtPort → MgmtPort) : (s.updPort' g).hostq = s.hostq := rfl
@[simp] theorem State.updPort'_lne (s : State) (g : MgmtPort → MgmtPort) : (s.updPort' g).lne = s.lne := rfl
@[simp] theorem State.updPort'_boot (s : State) (g : MgmtPort → MgmtPort) : (s.updPort' g).boot = s.boot := rfl
@[simp] theorem State.updPort'_jtag (s : State) (g : MgmtPort → MgmtPort) : (s.updPort' g).jtag = s.jtag := rfl
@[simp] theorem State.updPort'_programs (s : State) (g : MgmtPort → MgmtPort) : (s.updPort' g).programs = s.programs := rfl
@[simp] theorem State.updPort'_runs (s : State) (g : MgmtPort → MgmtPort) : (s.updPort' g).runs = s.runs := rfl
@[simp] theorem State.updPort'_xfers (s : State) (g : MgmtPort → MgmtPort) : (s.updPort' g).xfers = s.xfers := rfl
@[simp] theorem State.updPort'_outbox (s : State) (g : MgmtPort → MgmtPort) : (s.updPort' g).outbox = s.outbox := rfl
@[simp] theorem State.updPort'_nextXfer (s : State) (g : MgmtPort → MgmtPort) : (s.updPort' g).nextXfer = s.nextXfer := rfl
@[simp] theorem State.updPort'_nextRun (s : State) (g : MgmtPort → MgmtPort) : (s.updPort' g).nextRun = s.nextRun := rfl
@[simp] theorem State.updPort'_freeCtr (s : State) (g : MgmtPort → MgmtPort) : (s.updPort' g).freeCtr = s.freeCtr := rfl

/-! ## respond -/

@[simp] theorem State.respond_pending (s : State) (m c k : Byte) (p : List Byte) : (s.respond m c k p).pending = s.pending := rfl
@[simp] theorem State.respond_frames (s : State) (m c k : Byte) (p : List Byte) : (s.respond m c k p).frames = s.frames := rfl
@[simp] theorem State.respond_mem (s : State) (m c k : Byte) (p : List Byte) : (s.respond m c k p).mem = s.mem := rfl
@[simp] theorem State.respond_vis (s : State) (m c k : Byte) (p : List Byte) : (s.respond m c k p).vis = s.vis := rfl
@[simp] theorem State.respond_upsets (s : State) (m c k : Byte) (p : List Byte) : (s.respond m c k p).upsets = s.upsets := rfl
@[simp] theorem State.respond_poison (s : State) (m c k : Byte) (p : List Byte) : (s.respond m c k p).poison = s.poison := rfl
@[simp] theorem State.respond_visPoison (s : State) (m c k : Byte) (p : List Byte) : (s.respond m c k p).visPoison = s.visPoison := rfl
@[simp] theorem State.respond_tally (s : State) (m c k : Byte) (p : List Byte) : (s.respond m c k p).tally = s.tally := rfl
@[simp] theorem State.respond_adm (s : State) (m c k : Byte) (p : List Byte) : (s.respond m c k p).adm = s.adm := rfl
@[simp] theorem State.respond_global (s : State) (m c k : Byte) (p : List Byte) : (s.respond m c k p).global = s.global := rfl
@[simp] theorem State.respond_memc (s : State) (m c k : Byte) (p : List Byte) : (s.respond m c k p).memc = s.memc := rfl
@[simp] theorem State.respond_mas (s : State) (m c k : Byte) (p : List Byte) : (s.respond m c k p).mas = s.mas := rfl
@[simp] theorem State.respond_carry (s : State) (m c k : Byte) (p : List Byte) : (s.respond m c k p).carry = s.carry := rfl
@[simp] theorem State.respond_hostq (s : State) (m c k : Byte) (p : List Byte) : (s.respond m c k p).hostq = s.hostq := rfl
@[simp] theorem State.respond_mgmt (s : State) (m c k : Byte) (p : List Byte) : (s.respond m c k p).mgmt = s.mgmt := rfl
@[simp] theorem State.respond_lne (s : State) (m c k : Byte) (p : List Byte) : (s.respond m c k p).lne = s.lne := rfl
@[simp] theorem State.respond_boot (s : State) (m c k : Byte) (p : List Byte) : (s.respond m c k p).boot = s.boot := rfl
@[simp] theorem State.respond_jtag (s : State) (m c k : Byte) (p : List Byte) : (s.respond m c k p).jtag = s.jtag := rfl
@[simp] theorem State.respond_programs (s : State) (m c k : Byte) (p : List Byte) : (s.respond m c k p).programs = s.programs := rfl
@[simp] theorem State.respond_runs (s : State) (m c k : Byte) (p : List Byte) : (s.respond m c k p).runs = s.runs := rfl
@[simp] theorem State.respond_xfers (s : State) (m c k : Byte) (p : List Byte) : (s.respond m c k p).xfers = s.xfers := rfl
@[simp] theorem State.respond_nextXfer (s : State) (m c k : Byte) (p : List Byte) : (s.respond m c k p).nextXfer = s.nextXfer := rfl
@[simp] theorem State.respond_nextRun (s : State) (m c k : Byte) (p : List Byte) : (s.respond m c k p).nextRun = s.nextRun := rfl
@[simp] theorem State.respond_freeCtr (s : State) (m c k : Byte) (p : List Byte) : (s.respond m c k p).freeCtr = s.freeCtr := rfl

/-! ## updSet -/

@[simp] theorem State.updSet_pending (s : State) (i : Nat) (g : RSet → RSet) : (s.updSet i g).pending = s.pending := by
  unfold State.updSet
  split <;> rfl
@[simp] theorem State.updSet_frames (s : State) (i : Nat) (g : RSet → RSet) : (s.updSet i g).frames = s.frames := by
  unfold State.updSet
  split <;> rfl
@[simp] theorem State.updSet_mem (s : State) (i : Nat) (g : RSet → RSet) : (s.updSet i g).mem = s.mem := by
  unfold State.updSet
  split <;> rfl
@[simp] theorem State.updSet_vis (s : State) (i : Nat) (g : RSet → RSet) : (s.updSet i g).vis = s.vis := by
  unfold State.updSet
  split <;> rfl
@[simp] theorem State.updSet_upsets (s : State) (i : Nat) (g : RSet → RSet) : (s.updSet i g).upsets = s.upsets := by
  unfold State.updSet
  split <;> rfl
@[simp] theorem State.updSet_poison (s : State) (i : Nat) (g : RSet → RSet) : (s.updSet i g).poison = s.poison := by
  unfold State.updSet
  split <;> rfl
@[simp] theorem State.updSet_visPoison (s : State) (i : Nat) (g : RSet → RSet) : (s.updSet i g).visPoison = s.visPoison := by
  unfold State.updSet
  split <;> rfl
@[simp] theorem State.updSet_tally (s : State) (i : Nat) (g : RSet → RSet) : (s.updSet i g).tally = s.tally := by
  unfold State.updSet
  split <;> rfl
@[simp] theorem State.updSet_adm (s : State) (i : Nat) (g : RSet → RSet) : (s.updSet i g).adm = s.adm := by
  unfold State.updSet
  split <;> rfl
@[simp] theorem State.updSet_global (s : State) (i : Nat) (g : RSet → RSet) : (s.updSet i g).global = s.global := by
  unfold State.updSet
  split <;> rfl
@[simp] theorem State.updSet_memc (s : State) (i : Nat) (g : RSet → RSet) : (s.updSet i g).memc = s.memc := by
  unfold State.updSet
  split <;> rfl
@[simp] theorem State.updSet_mas (s : State) (i : Nat) (g : RSet → RSet) : (s.updSet i g).mas = s.mas := by
  unfold State.updSet
  split <;> rfl
@[simp] theorem State.updSet_hostq (s : State) (i : Nat) (g : RSet → RSet) : (s.updSet i g).hostq = s.hostq := by
  unfold State.updSet
  split <;> rfl
@[simp] theorem State.updSet_mgmt (s : State) (i : Nat) (g : RSet → RSet) : (s.updSet i g).mgmt = s.mgmt := by
  unfold State.updSet
  split <;> rfl
@[simp] theorem State.updSet_lne (s : State) (i : Nat) (g : RSet → RSet) : (s.updSet i g).lne = s.lne := by
  unfold State.updSet
  split <;> rfl
@[simp] theorem State.updSet_boot (s : State) (i : Nat) (g : RSet → RSet) : (s.updSet i g).boot = s.boot := by
  unfold State.updSet
  split <;> rfl
@[simp] theorem State.updSet_jtag (s : State) (i : Nat) (g : RSet → RSet) : (s.updSet i g).jtag = s.jtag := by
  unfold State.updSet
  split <;> rfl
@[simp] theorem State.updSet_programs (s : State) (i : Nat) (g : RSet → RSet) : (s.updSet i g).programs = s.programs := by
  unfold State.updSet
  split <;> rfl
@[simp] theorem State.updSet_runs (s : State) (i : Nat) (g : RSet → RSet) : (s.updSet i g).runs = s.runs := by
  unfold State.updSet
  split <;> rfl
@[simp] theorem State.updSet_xfers (s : State) (i : Nat) (g : RSet → RSet) : (s.updSet i g).xfers = s.xfers := by
  unfold State.updSet
  split <;> rfl
@[simp] theorem State.updSet_outbox (s : State) (i : Nat) (g : RSet → RSet) : (s.updSet i g).outbox = s.outbox := by
  unfold State.updSet
  split <;> rfl
@[simp] theorem State.updSet_nextXfer (s : State) (i : Nat) (g : RSet → RSet) : (s.updSet i g).nextXfer = s.nextXfer := by
  unfold State.updSet
  split <;> rfl
@[simp] theorem State.updSet_nextRun (s : State) (i : Nat) (g : RSet → RSet) : (s.updSet i g).nextRun = s.nextRun := by
  unfold State.updSet
  split <;> rfl
@[simp] theorem State.updSet_freeCtr (s : State) (i : Nat) (g : RSet → RSet) : (s.updSet i g).freeCtr = s.freeCtr := by
  unfold State.updSet
  split <;> rfl

/-! ## updDomain -/

@[simp] theorem State.updDomain_pending (s : State) (d : Nat) (g : Domain → Domain) : (s.updDomain d g).pending = s.pending := by
  unfold State.updDomain
  split <;> rfl
@[simp] theorem State.updDomain_frames (s : State) (d : Nat) (g : Domain → Domain) : (s.updDomain d g).frames = s.frames := by
  unfold State.updDomain
  split <;> rfl
@[simp] theorem State.updDomain_mem (s : State) (d : Nat) (g : Domain → Domain) : (s.updDomain d g).mem = s.mem := by
  unfold State.updDomain
  split <;> rfl
@[simp] theorem State.updDomain_vis (s : State) (d : Nat) (g : Domain → Domain) : (s.updDomain d g).vis = s.vis := by
  unfold State.updDomain
  split <;> rfl
@[simp] theorem State.updDomain_upsets (s : State) (d : Nat) (g : Domain → Domain) : (s.updDomain d g).upsets = s.upsets := by
  unfold State.updDomain
  split <;> rfl
@[simp] theorem State.updDomain_poison (s : State) (d : Nat) (g : Domain → Domain) : (s.updDomain d g).poison = s.poison := by
  unfold State.updDomain
  split <;> rfl
@[simp] theorem State.updDomain_visPoison (s : State) (d : Nat) (g : Domain → Domain) : (s.updDomain d g).visPoison = s.visPoison := by
  unfold State.updDomain
  split <;> rfl
@[simp] theorem State.updDomain_tally (s : State) (d : Nat) (g : Domain → Domain) : (s.updDomain d g).tally = s.tally := by
  unfold State.updDomain
  split <;> rfl
@[simp] theorem State.updDomain_global (s : State) (d : Nat) (g : Domain → Domain) : (s.updDomain d g).global = s.global := by
  unfold State.updDomain
  split <;> rfl
@[simp] theorem State.updDomain_memc (s : State) (d : Nat) (g : Domain → Domain) : (s.updDomain d g).memc = s.memc := by
  unfold State.updDomain
  split <;> rfl
@[simp] theorem State.updDomain_mas (s : State) (d : Nat) (g : Domain → Domain) : (s.updDomain d g).mas = s.mas := by
  unfold State.updDomain
  split <;> rfl
@[simp] theorem State.updDomain_carry (s : State) (d : Nat) (g : Domain → Domain) : (s.updDomain d g).carry = s.carry := by
  unfold State.updDomain
  split <;> rfl
@[simp] theorem State.updDomain_hostq (s : State) (d : Nat) (g : Domain → Domain) : (s.updDomain d g).hostq = s.hostq := by
  unfold State.updDomain
  split <;> rfl
@[simp] theorem State.updDomain_mgmt (s : State) (d : Nat) (g : Domain → Domain) : (s.updDomain d g).mgmt = s.mgmt := by
  unfold State.updDomain
  split <;> rfl
@[simp] theorem State.updDomain_lne (s : State) (d : Nat) (g : Domain → Domain) : (s.updDomain d g).lne = s.lne := by
  unfold State.updDomain
  split <;> rfl
@[simp] theorem State.updDomain_boot (s : State) (d : Nat) (g : Domain → Domain) : (s.updDomain d g).boot = s.boot := by
  unfold State.updDomain
  split <;> rfl
@[simp] theorem State.updDomain_jtag (s : State) (d : Nat) (g : Domain → Domain) : (s.updDomain d g).jtag = s.jtag := by
  unfold State.updDomain
  split <;> rfl
@[simp] theorem State.updDomain_programs (s : State) (d : Nat) (g : Domain → Domain) : (s.updDomain d g).programs = s.programs := by
  unfold State.updDomain
  split <;> rfl
@[simp] theorem State.updDomain_runs (s : State) (d : Nat) (g : Domain → Domain) : (s.updDomain d g).runs = s.runs := by
  unfold State.updDomain
  split <;> rfl
@[simp] theorem State.updDomain_xfers (s : State) (d : Nat) (g : Domain → Domain) : (s.updDomain d g).xfers = s.xfers := by
  unfold State.updDomain
  split <;> rfl
@[simp] theorem State.updDomain_outbox (s : State) (d : Nat) (g : Domain → Domain) : (s.updDomain d g).outbox = s.outbox := by
  unfold State.updDomain
  split <;> rfl
@[simp] theorem State.updDomain_nextXfer (s : State) (d : Nat) (g : Domain → Domain) : (s.updDomain d g).nextXfer = s.nextXfer := by
  unfold State.updDomain
  split <;> rfl
@[simp] theorem State.updDomain_nextRun (s : State) (d : Nat) (g : Domain → Domain) : (s.updDomain d g).nextRun = s.nextRun := by
  unfold State.updDomain
  split <;> rfl
@[simp] theorem State.updDomain_freeCtr (s : State) (d : Nat) (g : Domain → Domain) : (s.updDomain d g).freeCtr = s.freeCtr := by
  unfold State.updDomain
  split <;> rfl

/-! ## setDrbg -/

@[simp] theorem State.setDrbg_pending (s : State) (k : Nat) (d : Drbg) : (s.setDrbg k d).pending = s.pending := by
  unfold State.setDrbg
  split <;> rfl
@[simp] theorem State.setDrbg_frames (s : State) (k : Nat) (d : Drbg) : (s.setDrbg k d).frames = s.frames := by
  unfold State.setDrbg
  split <;> rfl
@[simp] theorem State.setDrbg_mem (s : State) (k : Nat) (d : Drbg) : (s.setDrbg k d).mem = s.mem := by
  unfold State.setDrbg
  split <;> rfl
@[simp] theorem State.setDrbg_vis (s : State) (k : Nat) (d : Drbg) : (s.setDrbg k d).vis = s.vis := by
  unfold State.setDrbg
  split <;> rfl
@[simp] theorem State.setDrbg_upsets (s : State) (k : Nat) (d : Drbg) : (s.setDrbg k d).upsets = s.upsets := by
  unfold State.setDrbg
  split <;> rfl
@[simp] theorem State.setDrbg_poison (s : State) (k : Nat) (d : Drbg) : (s.setDrbg k d).poison = s.poison := by
  unfold State.setDrbg
  split <;> rfl
@[simp] theorem State.setDrbg_visPoison (s : State) (k : Nat) (d : Drbg) : (s.setDrbg k d).visPoison = s.visPoison := by
  unfold State.setDrbg
  split <;> rfl
@[simp] theorem State.setDrbg_tally (s : State) (k : Nat) (d : Drbg) : (s.setDrbg k d).tally = s.tally := by
  unfold State.setDrbg
  split <;> rfl
@[simp] theorem State.setDrbg_adm (s : State) (k : Nat) (d : Drbg) : (s.setDrbg k d).adm = s.adm := by
  unfold State.setDrbg
  split <;> rfl
@[simp] theorem State.setDrbg_global (s : State) (k : Nat) (d : Drbg) : (s.setDrbg k d).global = s.global := by
  unfold State.setDrbg
  split <;> rfl
@[simp] theorem State.setDrbg_memc (s : State) (k : Nat) (d : Drbg) : (s.setDrbg k d).memc = s.memc := by
  unfold State.setDrbg
  split <;> rfl
@[simp] theorem State.setDrbg_mas (s : State) (k : Nat) (d : Drbg) : (s.setDrbg k d).mas = s.mas := by
  unfold State.setDrbg
  split <;> rfl
@[simp] theorem State.setDrbg_carry (s : State) (k : Nat) (d : Drbg) : (s.setDrbg k d).carry = s.carry := by
  unfold State.setDrbg
  split <;> rfl
@[simp] theorem State.setDrbg_hostq (s : State) (k : Nat) (d : Drbg) : (s.setDrbg k d).hostq = s.hostq := by
  unfold State.setDrbg
  split <;> rfl
@[simp] theorem State.setDrbg_lne (s : State) (k : Nat) (d : Drbg) : (s.setDrbg k d).lne = s.lne := by
  unfold State.setDrbg
  split <;> rfl
@[simp] theorem State.setDrbg_boot (s : State) (k : Nat) (d : Drbg) : (s.setDrbg k d).boot = s.boot := by
  unfold State.setDrbg
  split <;> rfl
@[simp] theorem State.setDrbg_jtag (s : State) (k : Nat) (d : Drbg) : (s.setDrbg k d).jtag = s.jtag := by
  unfold State.setDrbg
  split <;> rfl
@[simp] theorem State.setDrbg_programs (s : State) (k : Nat) (d : Drbg) : (s.setDrbg k d).programs = s.programs := by
  unfold State.setDrbg
  split <;> rfl
@[simp] theorem State.setDrbg_runs (s : State) (k : Nat) (d : Drbg) : (s.setDrbg k d).runs = s.runs := by
  unfold State.setDrbg
  split <;> rfl
@[simp] theorem State.setDrbg_xfers (s : State) (k : Nat) (d : Drbg) : (s.setDrbg k d).xfers = s.xfers := by
  unfold State.setDrbg
  split <;> rfl
@[simp] theorem State.setDrbg_outbox (s : State) (k : Nat) (d : Drbg) : (s.setDrbg k d).outbox = s.outbox := by
  unfold State.setDrbg
  split <;> rfl
@[simp] theorem State.setDrbg_nextXfer (s : State) (k : Nat) (d : Drbg) : (s.setDrbg k d).nextXfer = s.nextXfer := by
  unfold State.setDrbg
  split <;> rfl
@[simp] theorem State.setDrbg_nextRun (s : State) (k : Nat) (d : Drbg) : (s.setDrbg k d).nextRun = s.nextRun := by
  unfold State.setDrbg
  split <;> rfl
@[simp] theorem State.setDrbg_freeCtr (s : State) (k : Nat) (d : Drbg) : (s.setDrbg k d).freeCtr = s.freeCtr := by
  unfold State.setDrbg
  split <;> rfl

/-! ## signal -/

@[simp] theorem State.signal_pending (s : State) (f : FuncNo) (v : Nat) : (s.signal f v).pending = s.pending := by
  unfold State.signal
  dsimp only
  split <;> rfl
@[simp] theorem State.signal_frames (s : State) (f : FuncNo) (v : Nat) : (s.signal f v).frames = s.frames := by
  unfold State.signal
  dsimp only
  split <;> rfl
@[simp] theorem State.signal_mem (s : State) (f : FuncNo) (v : Nat) : (s.signal f v).mem = s.mem := by
  unfold State.signal
  dsimp only
  split <;> rfl
@[simp] theorem State.signal_vis (s : State) (f : FuncNo) (v : Nat) : (s.signal f v).vis = s.vis := by
  unfold State.signal
  dsimp only
  split <;> rfl
@[simp] theorem State.signal_upsets (s : State) (f : FuncNo) (v : Nat) : (s.signal f v).upsets = s.upsets := by
  unfold State.signal
  dsimp only
  split <;> rfl
@[simp] theorem State.signal_poison (s : State) (f : FuncNo) (v : Nat) : (s.signal f v).poison = s.poison := by
  unfold State.signal
  dsimp only
  split <;> rfl
@[simp] theorem State.signal_visPoison (s : State) (f : FuncNo) (v : Nat) : (s.signal f v).visPoison = s.visPoison := by
  unfold State.signal
  dsimp only
  split <;> rfl
@[simp] theorem State.signal_tally (s : State) (f : FuncNo) (v : Nat) : (s.signal f v).tally = s.tally := by
  unfold State.signal
  dsimp only
  split <;> rfl
@[simp] theorem State.signal_adm (s : State) (f : FuncNo) (v : Nat) : (s.signal f v).adm = s.adm := by
  unfold State.signal
  dsimp only
  split <;> rfl
@[simp] theorem State.signal_global (s : State) (f : FuncNo) (v : Nat) : (s.signal f v).global = s.global := by
  unfold State.signal
  dsimp only
  split <;> rfl
@[simp] theorem State.signal_memc (s : State) (f : FuncNo) (v : Nat) : (s.signal f v).memc = s.memc := by
  unfold State.signal
  dsimp only
  split <;> rfl
@[simp] theorem State.signal_mas (s : State) (f : FuncNo) (v : Nat) : (s.signal f v).mas = s.mas := by
  unfold State.signal
  dsimp only
  split <;> rfl
@[simp] theorem State.signal_carry (s : State) (f : FuncNo) (v : Nat) : (s.signal f v).carry = s.carry := by
  unfold State.signal
  dsimp only
  split <;> rfl
@[simp] theorem State.signal_mgmt (s : State) (f : FuncNo) (v : Nat) : (s.signal f v).mgmt = s.mgmt := by
  unfold State.signal
  dsimp only
  split <;> rfl
@[simp] theorem State.signal_lne (s : State) (f : FuncNo) (v : Nat) : (s.signal f v).lne = s.lne := by
  unfold State.signal
  dsimp only
  split <;> rfl
@[simp] theorem State.signal_boot (s : State) (f : FuncNo) (v : Nat) : (s.signal f v).boot = s.boot := by
  unfold State.signal
  dsimp only
  split <;> rfl
@[simp] theorem State.signal_jtag (s : State) (f : FuncNo) (v : Nat) : (s.signal f v).jtag = s.jtag := by
  unfold State.signal
  dsimp only
  split <;> rfl
@[simp] theorem State.signal_programs (s : State) (f : FuncNo) (v : Nat) : (s.signal f v).programs = s.programs := by
  unfold State.signal
  dsimp only
  split <;> rfl
@[simp] theorem State.signal_runs (s : State) (f : FuncNo) (v : Nat) : (s.signal f v).runs = s.runs := by
  unfold State.signal
  dsimp only
  split <;> rfl
@[simp] theorem State.signal_xfers (s : State) (f : FuncNo) (v : Nat) : (s.signal f v).xfers = s.xfers := by
  unfold State.signal
  dsimp only
  split <;> rfl
@[simp] theorem State.signal_nextXfer (s : State) (f : FuncNo) (v : Nat) : (s.signal f v).nextXfer = s.nextXfer := by
  unfold State.signal
  dsimp only
  split <;> rfl
@[simp] theorem State.signal_nextRun (s : State) (f : FuncNo) (v : Nat) : (s.signal f v).nextRun = s.nextRun := by
  unfold State.signal
  dsimp only
  split <;> rfl
@[simp] theorem State.signal_freeCtr (s : State) (f : FuncNo) (v : Nat) : (s.signal f v).freeCtr = s.freeCtr := by
  unfold State.signal
  dsimp only
  split <;> rfl

/-! ## startWipe -/

@[simp] theorem State.startWipe_pending (s : State) (k : WipeKind) (a n : Nat) : (s.startWipe k a n).pending = s.pending := by
  unfold State.startWipe
  dsimp only
  split <;> rfl
@[simp] theorem State.startWipe_frames (s : State) (k : WipeKind) (a n : Nat) : (s.startWipe k a n).frames = s.frames := by
  unfold State.startWipe
  dsimp only
  split <;> rfl
@[simp] theorem State.startWipe_tally (s : State) (k : WipeKind) (a n : Nat) : (s.startWipe k a n).tally = s.tally := by
  unfold State.startWipe
  dsimp only
  split <;> rfl
@[simp] theorem State.startWipe_adm (s : State) (k : WipeKind) (a n : Nat) : (s.startWipe k a n).adm = s.adm := by
  unfold State.startWipe
  dsimp only
  split <;> rfl
@[simp] theorem State.startWipe_global (s : State) (k : WipeKind) (a n : Nat) : (s.startWipe k a n).global = s.global := by
  unfold State.startWipe
  dsimp only
  split <;> rfl
@[simp] theorem State.startWipe_mas (s : State) (k : WipeKind) (a n : Nat) : (s.startWipe k a n).mas = s.mas := by
  unfold State.startWipe
  dsimp only
  split <;> rfl
@[simp] theorem State.startWipe_carry (s : State) (k : WipeKind) (a n : Nat) : (s.startWipe k a n).carry = s.carry := by
  unfold State.startWipe
  dsimp only
  split <;> rfl
@[simp] theorem State.startWipe_hostq (s : State) (k : WipeKind) (a n : Nat) : (s.startWipe k a n).hostq = s.hostq := by
  unfold State.startWipe
  dsimp only
  split <;> rfl
@[simp] theorem State.startWipe_mgmt (s : State) (k : WipeKind) (a n : Nat) : (s.startWipe k a n).mgmt = s.mgmt := by
  unfold State.startWipe
  dsimp only
  split <;> rfl
@[simp] theorem State.startWipe_lne (s : State) (k : WipeKind) (a n : Nat) : (s.startWipe k a n).lne = s.lne := by
  unfold State.startWipe
  dsimp only
  split <;> rfl
@[simp] theorem State.startWipe_boot (s : State) (k : WipeKind) (a n : Nat) : (s.startWipe k a n).boot = s.boot := by
  unfold State.startWipe
  dsimp only
  split <;> rfl
@[simp] theorem State.startWipe_jtag (s : State) (k : WipeKind) (a n : Nat) : (s.startWipe k a n).jtag = s.jtag := by
  unfold State.startWipe
  dsimp only
  split <;> rfl
@[simp] theorem State.startWipe_programs (s : State) (k : WipeKind) (a n : Nat) : (s.startWipe k a n).programs = s.programs := by
  unfold State.startWipe
  dsimp only
  split <;> rfl
@[simp] theorem State.startWipe_runs (s : State) (k : WipeKind) (a n : Nat) : (s.startWipe k a n).runs = s.runs := by
  unfold State.startWipe
  dsimp only
  split <;> rfl
@[simp] theorem State.startWipe_xfers (s : State) (k : WipeKind) (a n : Nat) : (s.startWipe k a n).xfers = s.xfers := by
  unfold State.startWipe
  dsimp only
  split <;> rfl
@[simp] theorem State.startWipe_outbox (s : State) (k : WipeKind) (a n : Nat) : (s.startWipe k a n).outbox = s.outbox := by
  unfold State.startWipe
  dsimp only
  split <;> rfl
@[simp] theorem State.startWipe_nextXfer (s : State) (k : WipeKind) (a n : Nat) : (s.startWipe k a n).nextXfer = s.nextXfer := by
  unfold State.startWipe
  dsimp only
  split <;> rfl
@[simp] theorem State.startWipe_nextRun (s : State) (k : WipeKind) (a n : Nat) : (s.startWipe k a n).nextRun = s.nextRun := by
  unfold State.startWipe
  dsimp only
  split <;> rfl
@[simp] theorem State.startWipe_freeCtr (s : State) (k : WipeKind) (a n : Nat) : (s.startWipe k a n).freeCtr = s.freeCtr := by
  unfold State.startWipe
  dsimp only
  split <;> rfl

/-- What queueing a completion can change. -/
theorem State.countWaits_parts (s : State) (f : FuncNo) (q : Nat) : ∃ h, s.countWaits f q = { s with hostq := h } := by
  unfold State.countWaits
  split
  · split
    · dsimp only
      split <;> exact ⟨_, rfl⟩
    · exact ⟨_, rfl⟩
  · exact ⟨_, rfl⟩

theorem State.complete_parts (s : State) (c : Comp) : ∃ h, s.complete c = { s with hostq := h } := by
  unfold State.complete
  obtain ⟨h, e⟩ := ({ s with hostq := { s.hostq with comps := s.hostq.comps ++ [c] } } : State).countWaits_parts (funcNo c.func) c.cqid
  rw [e]
  exact ⟨_, rfl⟩


/-! ## complete -/

@[simp] theorem State.complete_pending (s : State) (c : Comp) : (s.complete c).pending = s.pending := by
  obtain ⟨_, h⟩ := s.complete_parts c
  rw [h]
@[simp] theorem State.complete_frames (s : State) (c : Comp) : (s.complete c).frames = s.frames := by
  obtain ⟨_, h⟩ := s.complete_parts c
  rw [h]
@[simp] theorem State.complete_mem (s : State) (c : Comp) : (s.complete c).mem = s.mem := by
  obtain ⟨_, h⟩ := s.complete_parts c
  rw [h]
@[simp] theorem State.complete_vis (s : State) (c : Comp) : (s.complete c).vis = s.vis := by
  obtain ⟨_, h⟩ := s.complete_parts c
  rw [h]
@[simp] theorem State.complete_upsets (s : State) (c : Comp) : (s.complete c).upsets = s.upsets := by
  obtain ⟨_, h⟩ := s.complete_parts c
  rw [h]
@[simp] theorem State.complete_poison (s : State) (c : Comp) : (s.complete c).poison = s.poison := by
  obtain ⟨_, h⟩ := s.complete_parts c
  rw [h]
@[simp] theorem State.complete_visPoison (s : State) (c : Comp) : (s.complete c).visPoison = s.visPoison := by
  obtain ⟨_, h⟩ := s.complete_parts c
  rw [h]
@[simp] theorem State.complete_tally (s : State) (c : Comp) : (s.complete c).tally = s.tally := by
  obtain ⟨_, h⟩ := s.complete_parts c
  rw [h]
@[simp] theorem State.complete_adm (s : State) (c : Comp) : (s.complete c).adm = s.adm := by
  obtain ⟨_, h⟩ := s.complete_parts c
  rw [h]
@[simp] theorem State.complete_global (s : State) (c : Comp) : (s.complete c).global = s.global := by
  obtain ⟨_, h⟩ := s.complete_parts c
  rw [h]
@[simp] theorem State.complete_memc (s : State) (c : Comp) : (s.complete c).memc = s.memc := by
  obtain ⟨_, h⟩ := s.complete_parts c
  rw [h]
@[simp] theorem State.complete_mas (s : State) (c : Comp) : (s.complete c).mas = s.mas := by
  obtain ⟨_, h⟩ := s.complete_parts c
  rw [h]
@[simp] theorem State.complete_carry (s : State) (c : Comp) : (s.complete c).carry = s.carry := by
  obtain ⟨_, h⟩ := s.complete_parts c
  rw [h]
@[simp] theorem State.complete_mgmt (s : State) (c : Comp) : (s.complete c).mgmt = s.mgmt := by
  obtain ⟨_, h⟩ := s.complete_parts c
  rw [h]
@[simp] theorem State.complete_lne (s : State) (c : Comp) : (s.complete c).lne = s.lne := by
  obtain ⟨_, h⟩ := s.complete_parts c
  rw [h]
@[simp] theorem State.complete_boot (s : State) (c : Comp) : (s.complete c).boot = s.boot := by
  obtain ⟨_, h⟩ := s.complete_parts c
  rw [h]
@[simp] theorem State.complete_jtag (s : State) (c : Comp) : (s.complete c).jtag = s.jtag := by
  obtain ⟨_, h⟩ := s.complete_parts c
  rw [h]
@[simp] theorem State.complete_programs (s : State) (c : Comp) : (s.complete c).programs = s.programs := by
  obtain ⟨_, h⟩ := s.complete_parts c
  rw [h]
@[simp] theorem State.complete_runs (s : State) (c : Comp) : (s.complete c).runs = s.runs := by
  obtain ⟨_, h⟩ := s.complete_parts c
  rw [h]
@[simp] theorem State.complete_xfers (s : State) (c : Comp) : (s.complete c).xfers = s.xfers := by
  obtain ⟨_, h⟩ := s.complete_parts c
  rw [h]
@[simp] theorem State.complete_outbox (s : State) (c : Comp) : (s.complete c).outbox = s.outbox := by
  obtain ⟨_, h⟩ := s.complete_parts c
  rw [h]
@[simp] theorem State.complete_nextXfer (s : State) (c : Comp) : (s.complete c).nextXfer = s.nextXfer := by
  obtain ⟨_, h⟩ := s.complete_parts c
  rw [h]
@[simp] theorem State.complete_nextRun (s : State) (c : Comp) : (s.complete c).nextRun = s.nextRun := by
  obtain ⟨_, h⟩ := s.complete_parts c
  rw [h]
@[simp] theorem State.complete_freeCtr (s : State) (c : Comp) : (s.complete c).freeCtr = s.freeCtr := by
  obtain ⟨_, h⟩ := s.complete_parts c
  rw [h]

/-! ## What changes -/

@[simp] theorem State.emit_outbox (s : State) (e : OutEvt) : (s.emit e).outbox = s.outbox ++ [e] := rfl

@[simp] theorem State.updFrame_same (s : State) (f : FrameNo) (g : Frame → Frame) :
    (s.updFrame f g).frame f = g (s.frame f) := by
  simp [State.updFrame, State.frame]

theorem State.updFrame_other (s : State) (f f' : FrameNo) (g : Frame → Frame) (h : f' ≠ f) :
    (s.updFrame f g).frame f' = s.frame f' := by
  have h' : f.val ≠ f'.val := fun e => h (Fin.ext e.symm)
  simp [State.updFrame, State.frame, Vector.getElem_set_ne, h']

@[simp] theorem State.mapFrames_frame (s : State) (g : FrameNo → Frame → Frame) (f : FrameNo) :
    (s.mapFrames g).frame f = g f (s.frame f) := by
  simp [State.mapFrames, State.frame]

@[simp] theorem State.updPort_same (s : State) (p : Fin 8) (g : Port → Port) :
    (s.updPort p g).carry.ports[p] = g s.carry.ports[p] := by
  simp [State.updPort]

theorem State.updPort_other (s : State) (p q : Fin 8) (g : Port → Port) (h : q ≠ p) :
    (s.updPort p g).carry.ports[q] = s.carry.ports[q] := by
  have h' : p.val ≠ q.val := fun e => h (Fin.ext e.symm)
  simp [State.updPort, Vector.getElem_set_ne, h']

@[simp] theorem State.updHostFn_same (s : State) (f : FuncNo) (g : HostFn → HostFn) :
    (s.updHostFn f g).hostq.fns[f] = g s.hostq.fns[f] := by
  simp [State.updHostFn]

theorem State.updHostFn_other (s : State) (f f' : FuncNo) (g : HostFn → HostFn) (h : f' ≠ f) :
    (s.updHostFn f g).hostq.fns[f'] = s.hostq.fns[f'] := by
  have h' : f.val ≠ f'.val := fun e => h (Fin.ext e.symm)
  simp [State.updHostFn, Vector.getElem_set_ne, h']

@[simp] theorem State.updFunc_same (s : State) (n : FuncNo) (g : Func → Func) :
    (s.updFunc n g).global.funcs[n] = g s.global.funcs[n] := by
  simp [State.updFunc]

@[simp] theorem State.updLayer_same (s : State) (i : Fin 64) (g : Layer → Layer) :
    (s.updLayer i g).mas.layers[i] = g s.mas.layers[i] := by
  simp [State.updLayer]

theorem State.countWaits_accepted (s : State) (f : FuncNo) (q : Nat) :
    (s.countWaits f q).hostq.accepted = s.hostq.accepted := by
  unfold State.countWaits
  split
  · split
    · dsimp only
      split <;> rfl
    · rfl
  · rfl

@[simp] theorem State.complete_accepted (s : State) (c : Comp) : (s.complete c).hostq.accepted = s.hostq.accepted := by
  unfold State.complete
  rw [State.countWaits_accepted]

@[simp] theorem State.complete_entries (s : State) (c : Comp) : (s.complete c).hostq.entries = s.hostq.entries := by
  unfold State.complete State.countWaits
  split
  · split
    · dsimp only
      split <;> rfl
    · rfl
  · rfl

/-- A completion for a CQ that takes it is queued as it is. -/
theorem State.complete_open (s : State) (c : Comp) (q : Fin 64) (hq : c.cqid = q.val)
    (h : (s.hostq.fns[funcNo c.func].cqs[q]).stuck = false) :
    s.complete c = { s with hostq := { s.hostq with comps := s.hostq.comps ++ [c] } } := by
  unfold State.complete State.countWaits
  rw [hq]
  rw [dif_pos q.isLt]
  rw [if_neg (by simpa using h)]

/-! ## The event log and the fault ring -/

/-- What an interrupt can change. -/
theorem State.signal_parts (s : State) (f : FuncNo) (v : Nat) :
    ∃ h o, s.signal f v = { s with hostq := h, outbox := o } := by
  unfold State.signal
  dsimp only
  split <;> exact ⟨_, _, rfl⟩

theorem State.noteClass_parts (s : State) (c : Code) : ∃ g, s.noteClass c = { s with global := g } := by
  unfold State.noteClass
  split <;> exact ⟨_, rfl⟩

theorem State.noteEvent_parts (s : State) (c : Code) (q : BitVec 32) : ∃ m, s.noteEvent c q = { s with mgmt := m } :=
  ⟨_, rfl⟩

theorem State.foldRecord_parts (s : State) (c : Code) (x i : Nat) (l : List LogRec) :
    ∃ m, s.foldRecord c x i l = { s with mgmt := m } := by
  unfold State.foldRecord
  dsimp only
  split
  · split <;> exact ⟨_, rfl⟩
  · exact ⟨_, rfl⟩

theorem State.signalLog_parts (s : State) (n : Nat) : ∃ h o, s.signalLog n = { s with hostq := h, outbox := o } := by
  unfold State.signalLog
  split
  · exact State.signal_parts s 0 _
  · exact ⟨_, _, rfl⟩

/-- All that a log record can change: the registers of chapters 15 and 16, and what its interrupt does. -/
theorem State.log_parts (s : State) (c : Code) (x : LogSrc) (a : LogArgs) :
    ∃ g m h o, s.log c x a = { s with global := g, mgmt := m, hostq := h, outbox := o } := by
  unfold State.log
  dsimp only
  obtain ⟨g, hg⟩ := s.noteClass_parts c
  rw [hg]
  split
  · rename_i ring _
    obtain ⟨m, hm⟩ := ({ s with global := g } : State).foldRecord_parts c x.num a.index ring
    rw [hm]
    exact ⟨_, _, _, _, rfl⟩
  · obtain ⟨h, o, ho⟩ := State.signalLog_parts _ (a.severity.getD (severityOf c))
    rw [ho]
    split <;> exact ⟨_, _, _, _, rfl⟩

/-- All that a fault notice can change. -/
theorem State.notice_parts (s : State) (c : Code) (x : LogSrc) (a : LogArgs) :
    ∃ g h o, s.notice c x a = { s with global := g, hostq := h, outbox := o } := by
  unfold State.notice
  dsimp only
  split
  · exact ⟨_, _, _, rfl⟩
  · split
    · exact ⟨_, _, _, rfl⟩
    · split
      · obtain ⟨h, o, e⟩ := (s.postNotice c x a).signal_parts 0 s.global.fault.vector.toNat
        rw [e]
        exact ⟨_, _, _, rfl⟩
      · exact ⟨_, _, _, rfl⟩

/-- All that a log record with its fault notice can change. -/
theorem State.logNotice_parts (s : State) (c : Code) (x : LogSrc) (a : LogArgs) :
    ∃ g m h o, s.logNotice c x a = { s with global := g, mgmt := m, hostq := h, outbox := o } := by
  obtain ⟨g, m, h, o, e⟩ := s.log_parts c x a
  obtain ⟨g', h', o', e'⟩ := (s.log c x a).notice_parts c x a
  exact ⟨g', m, h', o', by rw [State.logNotice, e', e]⟩

@[simp] theorem State.log_pending (s : State) (c : Code) (x : LogSrc) (a : LogArgs) : (s.log c x a).pending = s.pending := by
  obtain ⟨_, _, _, _, h⟩ := s.log_parts c x a
  rw [h]
@[simp] theorem State.log_frames (s : State) (c : Code) (x : LogSrc) (a : LogArgs) : (s.log c x a).frames = s.frames := by
  obtain ⟨_, _, _, _, h⟩ := s.log_parts c x a
  rw [h]
@[simp] theorem State.log_mem (s : State) (c : Code) (x : LogSrc) (a : LogArgs) : (s.log c x a).mem = s.mem := by
  obtain ⟨_, _, _, _, h⟩ := s.log_parts c x a
  rw [h]
@[simp] theorem State.log_vis (s : State) (c : Code) (x : LogSrc) (a : LogArgs) : (s.log c x a).vis = s.vis := by
  obtain ⟨_, _, _, _, h⟩ := s.log_parts c x a
  rw [h]
@[simp] theorem State.log_upsets (s : State) (c : Code) (x : LogSrc) (a : LogArgs) : (s.log c x a).upsets = s.upsets := by
  obtain ⟨_, _, _, _, h⟩ := s.log_parts c x a
  rw [h]
@[simp] theorem State.log_poison (s : State) (c : Code) (x : LogSrc) (a : LogArgs) : (s.log c x a).poison = s.poison := by
  obtain ⟨_, _, _, _, h⟩ := s.log_parts c x a
  rw [h]
@[simp] theorem State.log_visPoison (s : State) (c : Code) (x : LogSrc) (a : LogArgs) : (s.log c x a).visPoison = s.visPoison := by
  obtain ⟨_, _, _, _, h⟩ := s.log_parts c x a
  rw [h]
@[simp] theorem State.log_tally (s : State) (c : Code) (x : LogSrc) (a : LogArgs) : (s.log c x a).tally = s.tally := by
  obtain ⟨_, _, _, _, h⟩ := s.log_parts c x a
  rw [h]
@[simp] theorem State.log_adm (s : State) (c : Code) (x : LogSrc) (a : LogArgs) : (s.log c x a).adm = s.adm := by
  obtain ⟨_, _, _, _, h⟩ := s.log_parts c x a
  rw [h]
@[simp] theorem State.log_memc (s : State) (c : Code) (x : LogSrc) (a : LogArgs) : (s.log c x a).memc = s.memc := by
  obtain ⟨_, _, _, _, h⟩ := s.log_parts c x a
  rw [h]
@[simp] theorem State.log_mas (s : State) (c : Code) (x : LogSrc) (a : LogArgs) : (s.log c x a).mas = s.mas := by
  obtain ⟨_, _, _, _, h⟩ := s.log_parts c x a
  rw [h]
@[simp] theorem State.log_carry (s : State) (c : Code) (x : LogSrc) (a : LogArgs) : (s.log c x a).carry = s.carry := by
  obtain ⟨_, _, _, _, h⟩ := s.log_parts c x a
  rw [h]
@[simp] theorem State.log_lne (s : State) (c : Code) (x : LogSrc) (a : LogArgs) : (s.log c x a).lne = s.lne := by
  obtain ⟨_, _, _, _, h⟩ := s.log_parts c x a
  rw [h]
@[simp] theorem State.log_boot (s : State) (c : Code) (x : LogSrc) (a : LogArgs) : (s.log c x a).boot = s.boot := by
  obtain ⟨_, _, _, _, h⟩ := s.log_parts c x a
  rw [h]
@[simp] theorem State.log_jtag (s : State) (c : Code) (x : LogSrc) (a : LogArgs) : (s.log c x a).jtag = s.jtag := by
  obtain ⟨_, _, _, _, h⟩ := s.log_parts c x a
  rw [h]
@[simp] theorem State.log_programs (s : State) (c : Code) (x : LogSrc) (a : LogArgs) : (s.log c x a).programs = s.programs := by
  obtain ⟨_, _, _, _, h⟩ := s.log_parts c x a
  rw [h]
@[simp] theorem State.log_runs (s : State) (c : Code) (x : LogSrc) (a : LogArgs) : (s.log c x a).runs = s.runs := by
  obtain ⟨_, _, _, _, h⟩ := s.log_parts c x a
  rw [h]
@[simp] theorem State.log_xfers (s : State) (c : Code) (x : LogSrc) (a : LogArgs) : (s.log c x a).xfers = s.xfers := by
  obtain ⟨_, _, _, _, h⟩ := s.log_parts c x a
  rw [h]
@[simp] theorem State.log_nextXfer (s : State) (c : Code) (x : LogSrc) (a : LogArgs) : (s.log c x a).nextXfer = s.nextXfer := by
  obtain ⟨_, _, _, _, h⟩ := s.log_parts c x a
  rw [h]
@[simp] theorem State.log_nextRun (s : State) (c : Code) (x : LogSrc) (a : LogArgs) : (s.log c x a).nextRun = s.nextRun := by
  obtain ⟨_, _, _, _, h⟩ := s.log_parts c x a
  rw [h]
@[simp] theorem State.log_freeCtr (s : State) (c : Code) (x : LogSrc) (a : LogArgs) : (s.log c x a).freeCtr = s.freeCtr := by
  obtain ⟨_, _, _, _, h⟩ := s.log_parts c x a
  rw [h]

@[simp] theorem State.notice_pending (s : State) (c : Code) (x : LogSrc) (a : LogArgs) : (s.notice c x a).pending = s.pending := by
  obtain ⟨_, _, _, h⟩ := s.notice_parts c x a
  rw [h]
@[simp] theorem State.notice_frames (s : State) (c : Code) (x : LogSrc) (a : LogArgs) : (s.notice c x a).frames = s.frames := by
  obtain ⟨_, _, _, h⟩ := s.notice_parts c x a
  rw [h]
@[simp] theorem State.notice_mem (s : State) (c : Code) (x : LogSrc) (a : LogArgs) : (s.notice c x a).mem = s.mem := by
  obtain ⟨_, _, _, h⟩ := s.notice_parts c x a
  rw [h]
@[simp] theorem State.notice_vis (s : State) (c : Code) (x : LogSrc) (a : LogArgs) : (s.notice c x a).vis = s.vis := by
  obtain ⟨_, _, _, h⟩ := s.notice_parts c x a
  rw [h]
@[simp] theorem State.notice_upsets (s : State) (c : Code) (x : LogSrc) (a : LogArgs) : (s.notice c x a).upsets = s.upsets := by
  obtain ⟨_, _, _, h⟩ := s.notice_parts c x a
  rw [h]
@[simp] theorem State.notice_poison (s : State) (c : Code) (x : LogSrc) (a : LogArgs) : (s.notice c x a).poison = s.poison := by
  obtain ⟨_, _, _, h⟩ := s.notice_parts c x a
  rw [h]
@[simp] theorem State.notice_visPoison (s : State) (c : Code) (x : LogSrc) (a : LogArgs) : (s.notice c x a).visPoison = s.visPoison := by
  obtain ⟨_, _, _, h⟩ := s.notice_parts c x a
  rw [h]
@[simp] theorem State.notice_tally (s : State) (c : Code) (x : LogSrc) (a : LogArgs) : (s.notice c x a).tally = s.tally := by
  obtain ⟨_, _, _, h⟩ := s.notice_parts c x a
  rw [h]
@[simp] theorem State.notice_adm (s : State) (c : Code) (x : LogSrc) (a : LogArgs) : (s.notice c x a).adm = s.adm := by
  obtain ⟨_, _, _, h⟩ := s.notice_parts c x a
  rw [h]
@[simp] theorem State.notice_memc (s : State) (c : Code) (x : LogSrc) (a : LogArgs) : (s.notice c x a).memc = s.memc := by
  obtain ⟨_, _, _, h⟩ := s.notice_parts c x a
  rw [h]
@[simp] theorem State.notice_mas (s : State) (c : Code) (x : LogSrc) (a : LogArgs) : (s.notice c x a).mas = s.mas := by
  obtain ⟨_, _, _, h⟩ := s.notice_parts c x a
  rw [h]
@[simp] theorem State.notice_carry (s : State) (c : Code) (x : LogSrc) (a : LogArgs) : (s.notice c x a).carry = s.carry := by
  obtain ⟨_, _, _, h⟩ := s.notice_parts c x a
  rw [h]
@[simp] theorem State.notice_mgmt (s : State) (c : Code) (x : LogSrc) (a : LogArgs) : (s.notice c x a).mgmt = s.mgmt := by
  obtain ⟨_, _, _, h⟩ := s.notice_parts c x a
  rw [h]
@[simp] theorem State.notice_lne (s : State) (c : Code) (x : LogSrc) (a : LogArgs) : (s.notice c x a).lne = s.lne := by
  obtain ⟨_, _, _, h⟩ := s.notice_parts c x a
  rw [h]
@[simp] theorem State.notice_boot (s : State) (c : Code) (x : LogSrc) (a : LogArgs) : (s.notice c x a).boot = s.boot := by
  obtain ⟨_, _, _, h⟩ := s.notice_parts c x a
  rw [h]
@[simp] theorem State.notice_jtag (s : State) (c : Code) (x : LogSrc) (a : LogArgs) : (s.notice c x a).jtag = s.jtag := by
  obtain ⟨_, _, _, h⟩ := s.notice_parts c x a
  rw [h]
@[simp] theorem State.notice_programs (s : State) (c : Code) (x : LogSrc) (a : LogArgs) : (s.notice c x a).programs = s.programs := by
  obtain ⟨_, _, _, h⟩ := s.notice_parts c x a
  rw [h]
@[simp] theorem State.notice_runs (s : State) (c : Code) (x : LogSrc) (a : LogArgs) : (s.notice c x a).runs = s.runs := by
  obtain ⟨_, _, _, h⟩ := s.notice_parts c x a
  rw [h]
@[simp] theorem State.notice_xfers (s : State) (c : Code) (x : LogSrc) (a : LogArgs) : (s.notice c x a).xfers = s.xfers := by
  obtain ⟨_, _, _, h⟩ := s.notice_parts c x a
  rw [h]
@[simp] theorem State.notice_nextXfer (s : State) (c : Code) (x : LogSrc) (a : LogArgs) : (s.notice c x a).nextXfer = s.nextXfer := by
  obtain ⟨_, _, _, h⟩ := s.notice_parts c x a
  rw [h]
@[simp] theorem State.notice_nextRun (s : State) (c : Code) (x : LogSrc) (a : LogArgs) : (s.notice c x a).nextRun = s.nextRun := by
  obtain ⟨_, _, _, h⟩ := s.notice_parts c x a
  rw [h]
@[simp] theorem State.notice_freeCtr (s : State) (c : Code) (x : LogSrc) (a : LogArgs) : (s.notice c x a).freeCtr = s.freeCtr := by
  obtain ⟨_, _, _, h⟩ := s.notice_parts c x a
  rw [h]

/-! ## Memory's form under these -/

theorem State.memOk_emit {s : State} (e : OutEvt) (h : s.memOk) : (s.emit e).memOk := State.memOk_congr h rfl rfl
theorem State.memOk_updFrame {s : State} (f : FrameNo) (g : Frame → Frame) (h : s.memOk) : (s.updFrame f g).memOk := State.memOk_congr h rfl rfl
theorem State.memOk_mapFrames {s : State} (g : FrameNo → Frame → Frame) (h : s.memOk) : (s.mapFrames g).memOk := State.memOk_congr h (State.mapFrames_mem s g) (State.mapFrames_vis s g)
theorem State.memOk_updRun {s : State} (id : Nat) (g : Run → Run) (h : s.memOk) : (s.updRun id g).memOk := State.memOk_congr h rfl rfl
theorem State.memOk_updXfer {s : State} (id : Nat) (g : Xfer → Xfer) (h : s.memOk) : (s.updXfer id g).memOk := State.memOk_congr h rfl rfl
theorem State.memOk_dropXfer {s : State} (id : Nat) (h : s.memOk) : (s.dropXfer id).memOk := State.memOk_congr h rfl rfl
theorem State.memOk_updPort {s : State} (p : Fin 8) (g : Port → Port) (h : s.memOk) : (s.updPort p g).memOk := State.memOk_congr h rfl rfl
theorem State.memOk_updLayer {s : State} (i : Fin 64) (g : Layer → Layer) (h : s.memOk) : (s.updLayer i g).memOk := State.memOk_congr h rfl rfl
theorem State.memOk_updHostFn {s : State} (f : FuncNo) (g : HostFn → HostFn) (h : s.memOk) : (s.updHostFn f g).memOk := State.memOk_congr h rfl rfl
theorem State.memOk_updFunc {s : State} (n : FuncNo) (g : Func → Func) (h : s.memOk) : (s.updFunc n g).memOk := State.memOk_congr h rfl rfl
theorem State.memOk_alert {s : State}  (h : s.memOk) : (s.alert).memOk := State.memOk_congr h rfl rfl
theorem State.memOk_pfErr {s : State} (c : Code) (n : Nat) (h : s.memOk) : (s.pfErr c n).memOk := State.memOk_congr h rfl rfl
theorem State.memOk_setEntry {s : State} (i : Nat) (e : Entry) (h : s.memOk) : (s.setEntry i e).memOk := State.memOk_congr h rfl rfl
theorem State.memOk_closeRec {s : State} (id : Nat) (h : s.memOk) : (s.closeRec id).memOk := State.memOk_congr h rfl rfl
theorem State.memOk_updCache {s : State} (g : List Nat → List Nat) (h : s.memOk) : (s.updCache g).memOk := State.memOk_congr h rfl rfl
theorem State.memOk_mark {s : State} (l : Nat) (m : Mark) (h : s.memOk) : (s.mark l m).memOk := State.memOk_congr h rfl rfl
theorem State.memOk_unmark {s : State} (l : Nat) (h : s.memOk) : (s.unmark l).memOk := State.memOk_congr h rfl rfl
theorem State.memOk_upset {s : State} (us : List Upset) (h : s.memOk) : (s.upset us).memOk := State.memOk_congr h rfl rfl
theorem State.memOk_mend {s : State} (u : Upset) (h : s.memOk) : (s.mend u).memOk := State.memOk_congr h rfl rfl
theorem State.memOk_updMem {s : State} (p : Fin 16) (g : MemPort → MemPort) (h : s.memOk) : (s.updMem p g).memOk := State.memOk_congr h rfl rfl
theorem State.memOk_moved {s : State} (c : Fin 4) (a n : Nat) (h : s.memOk) : (s.moved c a n).memOk := State.memOk_congr h rfl rfl
theorem State.memOk_movedSpan {s : State} (c : Fin 4) (a n : Nat) (h : s.memOk) : (s.movedSpan c a n).memOk := State.memOk_congr h rfl rfl
theorem State.memOk_fault {s : State} (id : Nat) (c : Code) (f : Nat) (h : s.memOk) : (s.fault id c f).memOk := State.memOk_congr h rfl rfl
theorem State.memOk_event {s : State} (id : Nat) (c : Code) (f : Nat) (h : s.memOk) : (s.event id c f).memOk := State.memOk_congr h rfl rfl
theorem State.memOk_askAbort {s : State} (id f : Nat) (c : Code) (h : s.memOk) : (s.askAbort id f c).memOk := State.memOk_congr h rfl rfl
theorem State.memOk_flashWrite {s : State} (a : Nat) (bs : List Byte) (h : s.memOk) : (s.flashWrite a bs).memOk := State.memOk_congr h rfl rfl
theorem State.memOk_flashErase {s : State} (a n : Nat) (h : s.memOk) : (s.flashErase a n).memOk := State.memOk_congr h rfl rfl
theorem State.memOk_tap {s : State} (i : TapInstr) (h : s.memOk) : (s.tap i).memOk := State.memOk_congr h rfl rfl
theorem State.memOk_updPort' {s : State} (g : MgmtPort → MgmtPort) (h : s.memOk) : (s.updPort' g).memOk := State.memOk_congr h rfl rfl
theorem State.memOk_respond {s : State} (m c k : Byte) (p : List Byte) (h : s.memOk) : (s.respond m c k p).memOk := State.memOk_congr h rfl rfl

theorem State.memOk_log {s : State} (c : Code) (x : LogSrc) (a : LogArgs) (h : s.memOk) : (s.log c x a).memOk :=
  State.memOk_congr h (State.log_mem s c x a) (State.log_vis s c x a)

end Sys2Proof.Machine
end

