-- ==== Sys2Proof/Laws/Ops.lean ====
section
/-!
SUPPORT. What the shared operations can do, said once each: the outcomes of a command's step, sending a packet, and
the work at the homes.
-/

namespace Sys2Proof.Machine

open Sys2Proof

/-! ## Outcomes -/

theorem guardStep_next {b : Bool} {s t u : State} (h : guardStep b s t = .next u) :
    (b = true ∧ u = t) ∨ (b = false ∧ u = s) := by
  cases b
  · exact .inr ⟨rfl, (Host.Outcome.next.inj h).symm⟩
  · exact .inl ⟨rfl, (Host.Outcome.next.inj h).symm⟩

@[simp] theorem guardStep_true (s t : State) : guardStep true s t = .next t := rfl

@[simp] theorem guardStep_false (s t : State) : guardStep false s t = .next s := rfl

/-- A beat-code row either issues its word, and then its frame goes on, or leaves the state as it was. -/
theorem issueStep_next {s t : State} {f : FrameNo} {op : Op} {g : Iss → State} (h : issueStep s f op g = .next t) :
    (s.iss? f op = none ∧ t = s) ∨ ∃ i, s.iss? f op = some i ∧ t = (g i).next f i.w := by
  unfold issueStep at h
  split at h
  · exact .inr ⟨_, ‹_›, (Host.Outcome.next.inj h).symm⟩
  · exact .inl ⟨‹_›, (Host.Outcome.next.inj h).symm⟩

/-- A beat-code row whose word issues completes. -/
theorem issueStep_some {s : State} {f : FrameNo} {op : Op} {i : Iss} (g : Iss → State) (h : s.iss? f op = some i) :
    issueStep s f op g = .next ((g i).next f i.w) := by
  unfold issueStep
  rw [h]

/-- A write of a frame's block takes effect while its domain is ON, and is reported otherwise (R39). -/
theorem State.frmWrite_next {s t u : State} {f : FrameNo} (h : s.frmWrite f t = .next u) :
    (s.powered f = true ∧ u = t) ∨ (s.powered f = false ∧ u = s.offAccess f) := by
  unfold State.frmWrite at h
  have e := (Host.Outcome.next.inj h).symm
  cases hp : s.powered f
  · rw [hp] at e
    exact .inr ⟨rfl, e⟩
  · rw [hp] at e
    exact .inl ⟨rfl, e⟩

/-! ## Sending: a packet changes the ports and what goes out, and nothing else -/

/-- Two states that differ in the links and in what went out alone. -/
theorem State.carryOut_trans {s t u : State} (h : ∃ c o, t = { s with carry := c, outbox := o })
    (k : ∃ c o, u = { t with carry := c, outbox := o }) : ∃ c o, u = { s with carry := c, outbox := o } := by
  obtain ⟨_, _, rfl⟩ := h
  obtain ⟨_, _, rfl⟩ := k
  exact ⟨_, _, rfl⟩

theorem State.sendFlit_parts (s : State) (p : Fin 8) (h : FlitHdr) (bs : List Byte) (ks : List Packet) :
    ∃ c o, s.sendFlit p h bs ks = { s with carry := c, outbox := o } := ⟨_, _, rfl⟩

theorem State.idleFlit_parts (s : State) (p : Fin 8) (b : Bool) (v n : Nat) :
    ∃ c o, s.idleFlit p b v n = { s with carry := c, outbox := o } := ⟨_, _, rfl⟩

theorem State.foldCarry_parts {α : Type} (l : List α) (g : State → α → State)
    (hg : ∀ s x, ∃ c o, g s x = { s with carry := c, outbox := o }) (s : State) :
    ∃ c o, l.foldl g s = { s with carry := c, outbox := o } := by
  induction l generalizing s with
  | nil => exact ⟨s.carry, s.outbox, rfl⟩
  | cons x l ih => exact State.carryOut_trans (hg s x) (ih (g s x))

theorem State.transmit_parts (s : State) (p : Fin 8) (ks : List Packet) :
    ∃ c o, s.transmit p ks = { s with carry := c, outbox := o } := by
  unfold State.transmit
  dsimp only
  refine State.foldCarry_parts _ _ ?_ _
  intro s x
  exact s.sendFlit_parts p _ _ _

theorem State.pump_parts (s : State) (p : Fin 8) : ∃ c o, s.pump p = { s with carry := c, outbox := o } := by
  unfold State.pump
  dsimp only
  split
  · exact State.carryOut_trans ⟨_, _, rfl⟩ (State.transmit_parts _ p _)
  · exact ⟨s.carry, s.outbox, rfl⟩

theorem State.pumpAll_parts (s : State) : ∃ c o, s.pumpAll = { s with carry := c, outbox := o } :=
  State.foldCarry_parts _ _ State.pump_parts s

theorem State.queueAt_parts (s : State) (p : Fin 8) (k : Packet) :
    ∃ c o, s.queueAt p k = { s with carry := c, outbox := o } := ⟨_, s.outbox, rfl⟩

theorem State.enqueue_parts (s : State) (p : Fin 8) (k : Packet) :
    ∃ c o, s.enqueue p k = { s with carry := c, outbox := o } :=
  State.carryOut_trans (s.queueAt_parts p k) (State.pump_parts _ p)

theorem State.sendRole_parts (s : State) (role : Nat) (k : Packet) :
    ∃ c o, s.sendRole role k = { s with carry := c, outbox := o } := by
  unfold State.sendRole
  split
  · exact s.queueAt_parts _ k
  · exact ⟨s.carry, s.outbox, rfl⟩

theorem State.memOk_sendRole {s : State} (role : Nat) (k : Packet) (h : s.memOk) : (s.sendRole role k).memOk := by
  obtain ⟨_, _, e⟩ := s.sendRole_parts role k
  exact State.memOk_congr h (by rw [e]) (by rw [e])

theorem State.memOk_pumpAll {s : State} (h : s.memOk) : s.pumpAll.memOk := by
  obtain ⟨_, _, e⟩ := s.pumpAll_parts
  exact State.memOk_congr h (by rw [e]) (by rw [e])

/-! ## At the memory ports: what an access finds, counts and wipes ahead -/

/-- What a list's every step keeps, the fold keeps. -/
theorem State.foldl_induct {α : Type} (P : State → Prop) (l : List α) (g : State → α → State)
    (hg : ∀ s x, P s → P (g s x)) (s : State) (h : P s) : P (l.foldl g s) := by
  induction l generalizing s with
  | nil => exact h
  | cons x l ih => exact ih _ (hg s x h)

/-- Two states that differ in nothing that a check of cells leaves alone: bytes, frames, programs, transfers and the
rest of the part but poison, cells in error, the ports' counts and what the event log and the fault ring hold. -/
def State.CheckOnly (s t : State) : Prop :=
  ∃ u p m g n h o, t = { s with upsets := u, poison := p, memc := m, global := g, mgmt := n, hostq := h, outbox := o }

theorem State.CheckOnly.refl (s : State) : State.CheckOnly s s :=
  ⟨s.upsets, s.poison, s.memc, s.global, s.mgmt, s.hostq, s.outbox, rfl⟩

theorem State.CheckOnly.trans {s t u : State} (h : State.CheckOnly s t) (k : State.CheckOnly t u) : State.CheckOnly s u := by
  obtain ⟨_, _, _, _, _, _, _, rfl⟩ := h
  obtain ⟨_, _, _, _, _, _, _, rfl⟩ := k
  exact ⟨_, _, _, _, _, _, _, rfl⟩

theorem State.checkOnly_eccUe (s : State) (p : Fin 16) (a : Nat) : State.CheckOnly s (s.eccUe p a) := by
  unfold State.eccUe
  dsimp only
  obtain ⟨g, m, h, o, e⟩ := State.logNotice_parts ((s.mark (a / 2048) {}).updMem p fun p =>
    { p with ue := satInc p.ue, eccLine := BitVec.ofNat 37 (a / 2048) }) Codes.eccUncorrectable .memory
      { index := p.val, detail := a }
  rw [e]
  exact ⟨_, _, _, _, _, _, _, rfl⟩

theorem State.checkOnly_foundSector (s : State) (x : Nat × SectorErr) : State.CheckOnly s (s.foundSector x) := by
  unfold State.foundSector
  dsimp only
  split
  · exact ⟨_, _, _, s.global, s.mgmt, s.hostq, s.outbox, rfl⟩
  · exact s.checkOnly_eccUe _ _

theorem State.checkOnly_foldl {α : Type} (l : List α) (g : State → α → State) (hg : ∀ s x, State.CheckOnly s (g s x))
    (s : State) : State.CheckOnly s (l.foldl g s) :=
  State.foldl_induct (State.CheckOnly s) l g (fun t x ht => ht.trans (hg t x)) s (.refl s)

/-- All that the check of a read can change. -/
theorem State.checkOnly_checkRead (s : State) (a n : Nat) : State.CheckOnly s (s.checkRead a n) :=
  State.checkOnly_foldl _ _ State.checkOnly_foundSector s

/-- All that the check of a write can change. -/
theorem State.checkOnly_checkWrite (s : State) (a n : Nat) (r : Bool) : State.CheckOnly s (s.checkWrite a n r) := by
  refine State.checkOnly_foldl _ _ (fun t x => ?_) s
  dsimp only
  refine State.CheckOnly.trans (t := if r || !(a ≤ x.1 * 64 && x.1 * 64 + 64 ≤ a + n) then t.foundSector x else t) ?_
    ⟨_, _, _, _, _, _, _, rfl⟩
  split
  · exact t.checkOnly_foundSector x
  · exact .refl t

/-- Lines wiped ahead lose bytes and poison, and the wipes know it; nothing else changes (R371). -/
theorem State.reachLines_parts (s : State) (ls : List Nat) (w : Bool) :
    ∃ (f : Host.Cell → Bool) (p : List (Nat × Mark)) (c : MemC),
      s.reachLines ls w = { s with mem := s.mem.filter f, poison := p, memc := c } := by
  unfold State.reachLines
  split
  · exact ⟨fun _ => true, s.poison, s.memc, by rw [List.filter_true]⟩
  · exact ⟨_, _, _, rfl⟩

theorem State.checkOnly_moved (s : State) (c : Fin 4) (a n : Nat) : State.CheckOnly s (s.moved c a n) :=
  ⟨_, _, _, _, _, _, _, rfl⟩

/-- All that a read at a port can change: lines it wipes ahead, what its check finds, and the port's counts. -/
theorem State.lineRead_parts (s : State) (c : Fin 4) (a n : Nat) :
    ∃ (f : Host.Cell → Bool), State.CheckOnly { s with mem := s.mem.filter f } (s.lineRead c a n) := by
  unfold State.lineRead
  obtain ⟨f, p, m, e⟩ := s.reachLines_parts (linesOf a n) false
  rw [e]
  exact ⟨f, State.CheckOnly.trans ⟨_, _, _, _, _, _, _, rfl⟩
    ((State.checkOnly_checkRead _ a n).trans (State.checkOnly_moved _ c a n))⟩

/-- All that a write does at a port before its bytes stand there. -/
theorem State.lineWrite_parts (s : State) (c : Fin 4) (a n : Nat) (r : Bool) :
    ∃ (f : Host.Cell → Bool), State.CheckOnly { s with mem := s.mem.filter f } (s.lineWrite c a n r) := by
  unfold State.lineWrite
  obtain ⟨f, p, m, e⟩ := s.reachLines_parts (linesOf a n) true
  rw [e]
  exact ⟨f, State.CheckOnly.trans ⟨_, _, _, _, _, _, _, rfl⟩
    ((State.checkOnly_checkWrite _ a n r).trans (State.checkOnly_moved _ c a _))⟩

theorem State.memOk_checkOnly {s t : State} (k : State.CheckOnly s t) (h : s.memOk) : t.memOk := by
  obtain ⟨_, _, _, _, _, _, _, rfl⟩ := k
  exact h

theorem State.memOk_filter {s : State} (f : Host.Cell → Bool) (h : s.memOk) :
    ({ s with mem := s.mem.filter f } : State).memOk := ⟨memWf_filter f h.1, h.2⟩

theorem State.memOk_lineRead {s : State} (c : Fin 4) (a n : Nat) (h : s.memOk) : (s.lineRead c a n).memOk := by
  obtain ⟨f, k⟩ := s.lineRead_parts c a n
  exact State.memOk_checkOnly k (State.memOk_filter f h)

theorem State.memOk_lineWrite {s : State} (c : Fin 4) (a n : Nat) (r : Bool) (h : s.memOk) :
    (s.lineWrite c a n r).memOk := by
  obtain ⟨f, k⟩ := s.lineWrite_parts c a n r
  exact State.memOk_checkOnly k (State.memOk_filter f h)

@[simp] theorem State.lineRead_frames (s : State) (c : Fin 4) (a n : Nat) : (s.lineRead c a n).frames = s.frames := by
  obtain ⟨f, _, _, _, _, _, _, _, e⟩ := s.lineRead_parts c a n
  rw [e]

@[simp] theorem State.lineWrite_frames (s : State) (c : Fin 4) (a n : Nat) (r : Bool) :
    (s.lineWrite c a n r).frames = s.frames := by
  obtain ⟨f, _, _, _, _, _, _, _, e⟩ := s.lineWrite_parts c a n r
  rw [e]

/-- No wipe runs and no cell is in error: a read at a port counts its bytes, and that is all. -/
theorem State.lineRead_quiet (s : State) (c : Fin 4) (a n : Nat) (hw : s.memc.wipes = []) (hu : s.upsets = []) :
    s.lineRead c a n = s.moved c a n := by
  simp [State.lineRead, State.reachLines, State.checkRead, State.badSectors, hw, hu]

theorem State.lineWrite_quiet (s : State) (c : Fin 4) (a n : Nat) (r : Bool) (hw : s.memc.wipes = [])
    (hu : s.upsets = []) : s.lineWrite c a n r = s.moved c a (if r then 2 * n else n) := by
  simp [State.lineWrite, State.reachLines, State.checkWrite, State.badSectors, hw, hu]

theorem State.checkSpad_quiet (s : State) (a n : Nat) (hu : s.upsets = []) : s.checkSpad a n = s := by
  simp [State.checkSpad, hu]

/-! ## Work at the homes -/

/-- What every piece of work keeps, the work keeps. -/
theorem State.work_induct (P : State → Prop) (hjob : ∀ s j, P s → P (s.job j).1) (hpump : ∀ s, P s → P s.pumpAll) (n : Nat) (s : State) (js : List Job)
    (h : P s) : P (s.work n js) := by
  induction n generalizing s js with
  | zero => cases js <;> exact h
  | succ n ih =>
    cases js with
    | nil => exact hpump s h
    | cons j js => exact ih _ _ (hjob s j h)

theorem State.memOk_updSet {s : State} (i : Nat) (g : RSet → RSet) (h : s.memOk) : (s.updSet i g).memOk :=
  State.memOk_congr h (State.updSet_mem s i g) (State.updSet_vis s i g)

theorem State.memOk_store {s : State} (a : Nat) (bs : List Byte) (m : Option Mark) (h : s.memOk) :
    (s.store a bs m).memOk := by
  have h' : ({ s with mem := memWriteN s.mem a bs } : State).memOk := ⟨memWf_memWriteN a bs h.1, h.2⟩
  unfold State.store
  dsimp only
  split
  · exact State.foldl_induct State.memOk _ _ (fun s l hs => State.memOk_mark l _ hs) _ h'
  · exact State.foldl_induct State.memOk _ _ (fun s l hs => State.memOk_unmark l hs) _ h'

theorem State.memOk_memWriteN {s : State} (a : Nat) (bs : List Byte) (h : s.memOk) :
    ({ s with mem := memWriteN s.mem a bs } : State).memOk := ⟨memWf_memWriteN a bs h.1, h.2⟩

theorem State.memOk_ingest {s : State} (i : Fin 64) (a : Nat) (bs : List Byte) (m : Option Mark) (h : s.memOk) :
    (s.ingest i a bs m).memOk := by
  unfold State.ingest
  dsimp only
  refine State.memOk_updLayer _ _ ?_
  have h' := State.memOk_lineWrite 2 a bs.length true h
  split
  · exact State.foldl_induct State.memOk _ _ (fun s l hs => State.memOk_mark l _ hs) _ (State.memOk_memWriteN _ _ h')
  · exact State.memOk_memWriteN _ _ h'

theorem State.memOk_combine {s : State} (i line : Nat) (bs : List Byte) (m : Option Code) (h : s.memOk) :
    (s.combine i line bs m).memOk := by
  unfold State.combine
  dsimp only
  refine State.memOk_updSet _ _ ?_
  split
  · exact h
  · have h' := State.memOk_lineWrite 2 (lineBase (s.set? i).contrib + line * 2048) 2048 ((s.set? i).line line).data h
    split
    · exact State.memOk_mark _ _ (State.memOk_memWriteN _ _ h')
    · split
      · exact State.memOk_memWriteN _ _ h'
      · exact State.memOk_unmark _ (State.memOk_memWriteN _ _ h')

theorem State.memOk_closeLine {s : State} (i line : Nat) (bs : List Byte) (c : Option Code) (h : s.memOk) :
    (s.closeLine i line bs c).memOk := by
  unfold State.closeLine
  exact State.memOk_updSet _ _
    (State.foldl_induct State.memOk _ _ (fun s role hs => State.memOk_sendRole role _ hs) _ h)

end Sys2Proof.Machine
end

