-- ==== Sys2Proof/WellFormed.lean ====
section
/-!
DEFINITION. Which commands the part's interfaces can carry.
-/

namespace Sys2Proof

/-- Register accesses are aligned and of 32 or 64 bits (R12); a flit is 256 bytes (R386). -/
def Instr.wf : Instr → Bool
  | .flitReceive _ _ flit => flit.length == 256
  | .registerWrite _ offset width _ => (width == 32 && offset % 4 == 0) || (width == 64 && offset % 8 == 0)
  | .registerRead _ offset width _ => (width == 32 && offset % 4 == 0) || (width == 64 && offset % 8 == 0)
  | .hostBar2Write _ _ bytes _ => bytes.length != 0 && bytes.length ≤ 512
  | .hostBar2Read _ _ len _ => len != 0 && len ≤ 4096
  | _ => true

end Sys2Proof
end

