-- ==== Sys2Proof/Laws/PerInstr.lean ====
section
/-!
SUPPORT. A family of facts about each command as syntax: `wf` says exactly which operands the interface can
carry (R12, R386, R428).
-/

namespace Sys2Proof.Laws.OperandsInRange

open Sys2Proof

/-- A register access of `width` bits at `offset` is a naturally aligned 32-bit or 64-bit access (R12). -/
def Aligned (offset width : Nat) : Prop := (width = 32 ∧ 4 ∣ offset) ∨ (width = 64 ∧ 8 ∣ offset)

/-- What the interface asks of a command's operands: a flit has 256 bytes (R386), a register access is aligned
(R12), an access through BAR2 has a length that one PCIe transaction carries (Table 13.1), and all other operands are free. -/
def Statement (i : Instr) : Prop :=
  match i with
  | .flitReceive _ _ flit => i.wf = true ↔ flit.length = 256
  | .registerWrite _ offset width _ => i.wf = true ↔ Aligned offset width
  | .registerRead _ offset width _ => i.wf = true ↔ Aligned offset width
  | .hostBar2Write _ _ bytes _ => i.wf = true ↔ 0 < bytes.length ∧ bytes.length ≤ 512
  | .hostBar2Read _ _ len _ => i.wf = true ↔ 0 < len ∧ len ≤ 4096
  | _ => i.wf = true

theorem aligned_iff (o w : Nat) :
    ((w == 32 && o % 4 == 0) || (w == 64 && o % 8 == 0)) = true ↔ Aligned o w := by
  simp only [Aligned, Bool.or_eq_true, Bool.and_eq_true, beq_iff_eq]
  omega

theorem beatLaunch (ns : Nat) (last : BitVec 8) : Statement (.beatLaunch ns last) := rfl

theorem frameBeatComplete (f : FrameNo) : Statement (.frameBeatComplete f) := rfl

theorem phaseGroupStart : Statement (.phaseGroupStart) := rfl

theorem admissionGrant : Statement (.admissionGrant) := rfl

theorem beatWatchdog : Statement (.beatWatchdog) := rfl

theorem tallyRun (run : Bool) : Statement (.tallyRun run) := rfl

theorem strClear : Statement (.strClear) := rfl

theorem markArm (high : Word) : Statement (.markArm high) := rfl

theorem timebaseEdge : Statement (.timebaseEdge) := rfl

theorem tbHoldover : Statement (.tbHoldover) := rfl

theorem syncInEdge : Statement (.syncInEdge) := rfl

theorem loadNow : Statement (.loadNow) := rfl

theorem loadArm : Statement (.loadArm) := rfl

theorem syncOutPeriodic : Statement (.syncOutPeriodic) := rfl

theorem form : Statement (.form) := rfl

theorem leave : Statement (.leave) := rfl

theorem junctionTokenSend : Statement (.junctionTokenSend) := rfl

theorem junctionTokenReceive : Statement (.junctionTokenReceive) := rfl

theorem junctionExpired : Statement (.junctionExpired) := rfl

theorem primeCommit (index : BitVec 8) (rootLog : BitVec 5) : Statement (.primeCommit index rootLog) := rfl

theorem primeCommitComplete : Statement (.primeCommitComplete) := rfl

theorem nop (f : FrameNo) : Statement (.nop f) := rfl

theorem endWord (f : FrameNo) : Statement (.endWord f) := rfl

theorem br (f : FrameNo) : Statement (.br f) := rfl

theorem loop (f : FrameNo) : Statement (.loop f) := rfl

theorem sop (f : FrameNo) : Statement (.sop f) := rfl

theorem flagSet (f : FrameNo) : Statement (.flagSet f) := rfl

theorem flagWait (f : FrameNo) : Statement (.flagWait f) := rfl

theorem flagAcq (f : FrameNo) : Statement (.flagAcq f) := rfl

theorem waitExpired (f : FrameNo) : Statement (.waitExpired f) := rfl

theorem ldrop (f : FrameNo) : Statement (.ldrop f) := rfl

theorem nttF (f : FrameNo) : Statement (.nttF f) := rfl

theorem nttI (f : FrameNo) : Statement (.nttI f) := rfl

theorem bconv (f : FrameNo) : Statement (.bconv f) := rfl

theorem ksip (f : FrameNo) : Statement (.ksip f) := rfl

theorem pmat (f : FrameNo) : Statement (.pmat f) := rfl

theorem lchain (f : FrameNo) : Statement (.lchain f) := rfl

theorem lexp (f : FrameNo) : Statement (.lexp f) := rfl

theorem lred (f : FrameNo) : Statement (.lred f) := rfl

theorem smulOpen (f : FrameNo) : Statement (.smulOpen f) := rfl

theorem smulClose (f : FrameNo) : Statement (.smulClose f) := rfl

theorem sreshare (f : FrameNo) : Statement (.sreshare f) := rfl

theorem nflood (f : FrameNo) : Statement (.nflood f) := rfl

theorem encPk (f : FrameNo) : Statement (.encPk f) := rfl

theorem sexport (f : FrameNo) : Statement (.sexport f) := rfl

theorem simport (f : FrameNo) : Statement (.simport f) := rfl

theorem aut (f : FrameNo) : Statement (.aut f) := rfl

theorem trp (f : FrameNo) : Statement (.trp f) := rfl

theorem kregen (f : FrameNo) : Statement (.kregen f) := rfl

theorem xfer (f : FrameNo) : Statement (.xfer f) := rfl

theorem kstream (f : FrameNo) : Statement (.kstream f) := rfl

theorem flagRel (f : FrameNo) : Statement (.flagRel f) := rfl

theorem atom (f : FrameNo) : Statement (.atom f) := rfl

theorem sld (f : FrameNo) : Statement (.sld f) := rfl

theorem feederAccept (f : FrameNo) : Statement (.feederAccept f) := rfl

theorem wordFetch (f : Met FrameNo) : Statement (.wordFetch f) := rfl

theorem engineOperationEnd (f : FrameNo) (te fail : Bool) : Statement (.engineOperationEnd f te fail) := rfl

theorem transferLanded (id : Nat) : Statement (.transferLanded id) := rfl

theorem remoteRowArrival (id : Nat) : Statement (.remoteRowArrival id) := rfl

theorem grantApply (id : Nat) : Statement (.grantApply id) := rfl

theorem accWriteApply (id : Nat) : Statement (.accWriteApply id) := rfl

theorem atomApply (id : Nat) : Statement (.atomApply id) := rfl

theorem sldHomeRead (id : Nat) : Statement (.sldHomeRead id) := rfl

theorem rrcFill (f : FrameNo) (line : Met Nat) : Statement (.rrcFill f line) := rfl

theorem releaseUpdateSend (id : Nat) : Statement (.releaseUpdateSend id) := rfl

theorem flagUpdateApply (id : Nat) : Statement (.flagUpdateApply id) := rfl

theorem pfFlagWrite (f : FrameNo) (flag : BitVec 8) (value : Word) : Statement (.pfFlagWrite f flag value) := rfl

theorem programStart (run : Nat) : Statement (.programStart run) := rfl

theorem framePartEnd (f : FrameNo) : Statement (.framePartEnd f) := rfl

theorem programAbort (run : Nat) : Statement (.programAbort run) := rfl

theorem beatStopArm (f : FrameNo) (beat : BitVec 48) : Statement (.beatStopArm f beat) := rfl

theorem beatStopRelease (f : FrameNo) : Statement (.beatStopRelease f) := rfl

theorem sealSet : Statement (.sealSet) := rfl

theorem sealRelease : Statement (.sealRelease) := rfl

theorem sealOpComplete : Statement (.sealOpComplete) := rfl

theorem regionFree (f : FrameNo) (number : BitVec 8) : Statement (.regionFree f number) := rfl

theorem regionFreeComplete (f : FrameNo) : Statement (.regionFreeComplete f) := rfl

theorem spadXferGo (f : FrameNo) (first : BitVec 12) (rows : BitVec 13) (toMem : Bool) : Statement (.spadXferGo f first rows toMem) := rfl

theorem spadXferComplete (f : FrameNo) : Statement (.spadXferComplete f) := rfl

theorem frameWipeComplete (f : FrameNo) : Statement (.frameWipeComplete f) := rfl

theorem memcWipeGo : Statement (.memcWipeGo) := rfl

theorem wipeComplete (k : Nat) : Statement (.wipeComplete k) := rfl

theorem heldAccessRelease : Statement (.heldAccessRelease) := rfl

theorem wipePending : Statement (.wipePending) := rfl

theorem scrubRead (port : Fin 16) (ce ue : List Nat) : Statement (.scrubRead port ce ue) := rfl

theorem memRetrain (port : Fin 16) : Statement (.memRetrain port) := rfl

theorem hostBar2Read (func : FuncNo) (offset : Met Nat) (len tag : Nat) : Statement (.hostBar2Read func offset len tag) := by
  simp only [Statement, Instr.wf, Bool.and_eq_true, bne_iff_ne, decide_eq_true_eq, Nat.pos_iff_ne_zero]

theorem hostBar2Write (func : FuncNo) (offset : Nat) (bytes : List Byte) (ep : Bool) : Statement (.hostBar2Write func offset bytes ep) := by
  simp only [Statement, Instr.wf, Bool.and_eq_true, bne_iff_ne, decide_eq_true_eq, Nat.pos_iff_ne_zero]

theorem masDefine (layer : Fin 64) : Statement (.masDefine layer) := rfl

theorem masOpen (layer : Fin 64) : Statement (.masOpen layer) := rfl

theorem masClose (layer : Fin 64) : Statement (.masClose layer) := rfl

theorem closingDone (layer : Fin 64) : Statement (.closingDone layer) := rfl

theorem masStep (layer : Fin 64) (clearM solo : Bool) : Statement (.masStep layer clearM solo) := rfl

theorem masRelease (layer : Fin 64) : Statement (.masRelease layer) := rfl

theorem etaWrite (layer : Fin 64) (eta : BitVec 64) : Statement (.etaWrite layer eta) := rfl

theorem stepsWrite (layer : Fin 64) (steps : BitVec 64) : Statement (.stepsWrite layer steps) := rfl

theorem ingestAdd (layer : Fin 64) (addr : Nat) (bytes : List Byte) (poison : Bool) : Statement (.ingestAdd layer addr bytes poison) := rfl

theorem voteResult (layer : Fin 64) : Statement (.voteResult layer) := rfl

theorem stepVoteExpired (layer : Fin 64) : Statement (.stepVoteExpired layer) := rfl

theorem stepComplete (layer : Fin 64) : Statement (.stepComplete layer) := rfl

theorem flitReceive (port : Fin 8) (lost : Option Nat) (flit : List Byte) : Statement (.flitReceive port lost flit) := by simp [Statement, Instr.wf]

theorem packetRoute : Statement (.packetRoute) := rfl

theorem requestArrival : Statement (.requestArrival) := rfl

theorem responseArrival : Statement (.responseArrival) := rfl

theorem ackTimeout (tag : BitVec 12) : Statement (.ackTimeout tag) := rfl

theorem portEnable (port : Fin 8) (enable : Bool) : Statement (.portEnable port enable) := rfl

theorem equalizeDone (port : Fin 8) : Statement (.equalizeDone port) := rfl

theorem alignDone (port : Fin 8) (good : BitVec 34) : Statement (.alignDone port good) := rfl

theorem ident (port : Fin 8) (peerRole : BitVec 4) (peerDev : BitVec 12) (peerProfile : BitVec 2) : Statement (.ident port peerRole peerDev peerProfile) := rfl

theorem retrain (port : Fin 8) : Statement (.retrain port) := rfl

theorem linkHoldExpiry (port : Fin 8) : Statement (.linkHoldExpiry port) := rfl

theorem downRetry (port : Fin 8) : Statement (.downRetry port) := rfl

theorem laneLockLoss (port : Fin 8) (lane : Fin 34) (spareTrained : Bool) : Statement (.laneLockLoss port lane spareTrained) := rfl

theorem laneSwap (port : Fin 8) (lane spare : Fin 34) : Statement (.laneSwap port lane spare) := rfl

theorem bypass (on : Bool) : Statement (.bypass on) := rfl

theorem ping (port : Fin 8) : Statement (.ping port) := rfl

theorem timePingReceive : Statement (.timePingReceive) := rfl

theorem timeEchoReceive : Statement (.timeEchoReceive) := rfl

theorem rsArm (set : Fin 64) : Statement (.rsArm set) := rfl

theorem rsDisarm (set : Fin 64) : Statement (.rsDisarm set) := rfl

theorem contribution (set : Fin 64) (addr : Nat) (bytes : List Byte) (poison : Bool) : Statement (.contribution set addr bytes poison) := rfl

theorem redReceive : Statement (.redReceive) := rfl

theorem reddownReceive : Statement (.reddownReceive) := rfl

theorem redLineTimeout (set : Fin 64) (line : Nat) : Statement (.redLineTimeout set line) := rfl

theorem sqTail (func : FuncNo) (q : Fin 64) (tail : BitVec 16) : Statement (.sqTail func q tail) := rfl

theorem cqHead (func : FuncNo) (q : Fin 64) (head : BitVec 16) : Statement (.cqHead func q head) := rfl

theorem queueEnable (func : FuncNo) (cq : Bool) (q : Fin 64) (enable : Bool) : Statement (.queueEnable func cq q enable) := rfl

theorem recordFetch (func : FuncNo) (q : Fin 64) (records : List (BitVec 512)) (dmaFault : Bool) : Statement (.recordFetch func q records dmaFault) := rfl

theorem load : Statement (.load) := rfl

theorem unload : Statement (.unload) := rfl

theorem bind : Statement (.bind) := rfl

theorem unbind : Statement (.unbind) := rfl

theorem launch : Statement (.launch) := rfl

theorem hcopy : Statement (.hcopy) := rfl

theorem hcopyComplete (rec : Nat) (data : List Byte) (ep : List (Nat × Nat)) (dmaFault : Bool) : Statement (.hcopyComplete rec data ep dmaFault) := rfl

theorem launchAdmit : Statement (.launchAdmit) := rfl

theorem completionRecordWrite (k : Nat) : Statement (.completionRecordWrite k) := rfl

theorem coalTimeExpiry (func : FuncNo) (q : Fin 64) : Statement (.coalTimeExpiry func q) := rfl

theorem funcEnable (func : FuncNo) : Statement (.funcEnable func) := rfl

theorem functionReset (func : FuncNo) : Statement (.functionReset func) := rfl

theorem pfFunctionReset : Statement (.pfFunctionReset) := rfl

theorem budgetWrite (budget : BitVec 16) : Statement (.budgetWrite budget) := rfl

theorem budgetStale : Statement (.budgetStale) := rfl

theorem cntClear : Statement (.cntClear) := rfl

theorem thermalScan : Statement (.thermalScan) := rfl

theorem forceDrainExpiry (domain : Fin 36) : Statement (.forceDrainExpiry domain) := rfl

theorem domainOn (domain : Fin 36) : Statement (.domainOn domain) := rfl

theorem domainRetain (domain : Fin 36) : Statement (.domainRetain domain) := rfl

theorem domainOff (domain : Fin 36) : Statement (.domainOff domain) := rfl

theorem domainTransitionComplete : Statement (.domainTransitionComplete) := rfl

theorem gateWaitExpiry : Statement (.gateWaitExpiry) := rfl

theorem vcoreSet (rail : Fin 2) (point : BitVec 10 × Bool) : Statement (.vcoreSet rail point) := rfl

theorem remap (f : FrameNo) : Statement (.remap f) := rfl

theorem remapComplete (f : FrameNo) : Statement (.remapComplete f) := rfl

theorem healthClear (f : FrameNo) : Statement (.healthClear f) := rfl

theorem faultRingHead (head : BitVec 16) : Statement (.faultRingHead head) := rfl

theorem alertClr : Statement (.alertClr) := rfl

theorem reckonerWatchdog (lockstep : Bool) : Statement (.reckonerWatchdog lockstep) := rfl

theorem watchdogKick : Statement (.watchdogKick) := rfl

theorem alive : Statement (.alive) := rfl

theorem budgetUpdate (avs pkgMw : Nat) : Statement (.budgetUpdate avs pkgMw) := rfl

theorem sensorSample (sensor : Fin 189) (value : Int) : Statement (.sensorSample sensor value) := rfl

theorem logFlush : Statement (.logFlush) := rfl

theorem drbgReseed (die : Fin 3) : Statement (.drbgReseed die) := rfl

theorem entropyHealth : Statement (.entropyHealth) := rfl

theorem getInfo : Statement (.getInfo) := rfl

theorem readSensors : Statement (.readSensors) := rfl

theorem setThreshold : Statement (.setThreshold) := rfl

theorem readLog : Statement (.readLog) := rfl

theorem setPower : Statement (.setPower) := rfl

theorem fwBegin : Statement (.fwBegin) := rfl

theorem fwWrite : Statement (.fwWrite) := rfl

theorem fwVerify : Statement (.fwVerify) := rfl

theorem fwActivate : Statement (.fwActivate) := rfl

theorem fwCommitSvn : Statement (.fwCommitSvn) := rfl

theorem trialCommit : Statement (.trialCommit) := rfl

theorem lcNonce : Statement (.lcNonce) := rfl

theorem lcSet : Statement (.lcSet) := rfl

theorem sessionAgree : Statement (.sessionAgree) := rfl

theorem sessionClear : Statement (.sessionClear) := rfl

theorem getCert : Statement (.getCert) := rfl

theorem getMeasurements : Statement (.getMeasurements) := rfl

theorem drenilVendorMessage (dest : BitVec 8) (opcode : BitVec 8) (request : List Byte) : Statement (.drenilVendorMessage dest opcode request) := rfl

theorem setEndpointId (dest : BitVec 8) (eid : BitVec 8) : Statement (.setEndpointId dest eid) := rfl

theorem getEndpointId (dest : BitVec 8) : Statement (.getEndpointId dest) := rfl

theorem getEndpointUuid (dest : BitVec 8) : Statement (.getEndpointUuid dest) := rfl

theorem getMctpVersionSupport (dest : BitVec 8) (mtype : BitVec 8) : Statement (.getMctpVersionSupport dest mtype) := rfl

theorem getMessageTypeSupport (dest : BitVec 8) : Statement (.getMessageTypeSupport dest) := rfl

theorem getVendorDefinedMessageSupport (dest : BitVec 8) (selector : BitVec 8) : Statement (.getVendorDefinedMessageSupport dest selector) := rfl

theorem getTid (dest : BitVec 8) : Statement (.getTid dest) := rfl

theorem getPldmVersion (dest : BitVec 8) (ptype : BitVec 8) : Statement (.getPldmVersion dest ptype) := rfl

theorem getPldmTypes (dest : BitVec 8) : Statement (.getPldmTypes dest) := rfl

theorem getPldmCommands (dest : BitVec 8) (ptype : BitVec 8) : Statement (.getPldmCommands dest ptype) := rfl

theorem getPdr (dest : BitVec 8) (record : Word) : Statement (.getPdr dest record) := rfl

theorem getSensorReading (dest : BitVec 8) (sensor : BitVec 16) : Statement (.getSensorReading dest sensor) := rfl

theorem getStateSensorReadings (dest : BitVec 8) (sensor : BitVec 16) : Statement (.getStateSensorReadings dest sensor) := rfl

theorem pollForPlatformEventMessage (dest : BitVec 8) : Statement (.pollForPlatformEventMessage dest) := rfl

theorem queryDeviceIdentifiers (dest : BitVec 8) : Statement (.queryDeviceIdentifiers dest) := rfl

theorem getFirmwareParameters (dest : BitVec 8) : Statement (.getFirmwareParameters dest) := rfl

theorem requestUpdate (dest : BitVec 8) : Statement (.requestUpdate dest) := rfl

theorem passComponentTable (dest : BitVec 8) (comps : List (BitVec 16)) : Statement (.passComponentTable dest comps) := rfl

theorem updateComponent (dest : BitVec 8) (comp : BitVec 16) (size : Word) : Statement (.updateComponent dest comp size) := rfl

theorem requestFirmwareData (bytes : List Byte) (transferDone : Bool) : Statement (.requestFirmwareData bytes transferDone) := rfl

theorem activateFirmware (dest : BitVec 8) : Statement (.activateFirmware dest) := rfl

theorem getStatus (dest : BitVec 8) : Statement (.getStatus dest) := rfl

theorem cancelUpdate (dest : BitVec 8) : Statement (.cancelUpdate dest) := rfl

theorem cancelUpdateComponent (dest : BitVec 8) : Statement (.cancelUpdateComponent dest) := rfl

theorem getVersion (dest : BitVec 8) : Statement (.getVersion dest) := rfl

theorem getCapabilities (dest : BitVec 8) : Statement (.getCapabilities dest) := rfl

theorem negotiateAlgorithms (dest : BitVec 8) (p384 sha384 : Bool) : Statement (.negotiateAlgorithms dest p384 sha384) := rfl

theorem getDigests (dest : BitVec 8) : Statement (.getDigests dest) := rfl

theorem getCertificate (dest : BitVec 8) (slot : BitVec 8) (offset length : BitVec 16) : Statement (.getCertificate dest slot offset length) := rfl

theorem challenge (dest : BitVec 8) (slot : BitVec 8) (nonce : BitVec 256) : Statement (.challenge dest slot nonce) := rfl

theorem spdmGetMeasurements (dest : BitVec 8) (index : BitVec 8) (nonce : BitVec 256) : Statement (.spdmGetMeasurements dest index nonce) := rfl

theorem modmul (lenW : BitVec 8) : Statement (.modmul lenW) := rfl

theorem modexp (lenW : BitVec 8) : Statement (.modexp lenW) := rfl

theorem modinv (lenW : BitVec 8) : Statement (.modinv lenW) := rfl

theorem ecPub (lenW : BitVec 8) (p384 : Bool) : Statement (.ecPub lenW p384) := rfl

theorem ecdh (lenW : BitVec 8) (p384 : Bool) : Statement (.ecdh lenW p384) := rfl

theorem ecdsaSign (lenW : BitVec 8) (p384 : Bool) : Statement (.ecdsaSign lenW p384) := rfl

theorem ecdsaVerify (lenW : BitVec 8) (p384 : Bool) : Statement (.ecdsaVerify lenW p384) := rfl

theorem x25519 (lenW : BitVec 8) : Statement (.x25519 lenW) := rfl

theorem ed25519Pub (lenW : BitVec 8) : Statement (.ed25519Pub lenW) := rfl

theorem ed25519Sign (lenW : BitVec 8) (msgLen : BitVec 9) : Statement (.ed25519Sign lenW msgLen) := rfl

theorem ed25519Verify (lenW : BitVec 8) (msgLen : BitVec 9) : Statement (.ed25519Verify lenW msgLen) := rfl

theorem lnePendingStart : Statement (.lnePendingStart) := rfl

theorem lneDone : Statement (.lneDone) := rfl

theorem powerOn : Statement (.powerOn) := rfl

theorem deviceReset (cause : BitVec 3) : Statement (.deviceReset cause) := rfl

theorem hostReset : Statement (.hostReset) := rfl

theorem bootStageAdvance (ms : Nat) (ok : BitVec 32) : Statement (.bootStageAdvance ms ok) := rfl

theorem hostLinkTraining : Statement (.hostLinkTraining) := rfl

theorem supplyFault (sensor : Fin 24) : Statement (.supplyFault sensor) := rfl

theorem brownOut (rail : Fin 4) : Statement (.brownOut rail) := rfl

theorem refclkLinkLoss : Statement (.refclkLinkLoss) := rfl

theorem refclkPcieLoss : Statement (.refclkPcieLoss) := rfl

theorem bypassInstruction (code : BitVec 8) (tdi : Bool) : Statement (.bypassInstruction code tdi) := rfl

theorem samplePreload (pins : BitVec 2413) : Statement (.samplePreload pins) := rfl

theorem extest (resetLow : Bool) : Statement (.extest resetLow) := rfl

theorem highz (resetLow : Bool) : Statement (.highz resetLow) := rfl

theorem clamp (resetLow : Bool) : Statement (.clamp resetLow) := rfl

theorem registerWrite (func : FuncNo) (offset : Nat) (width : Nat) (value : HostWrite) : Statement (.registerWrite func offset width value) := aligned_iff offset width

theorem registerRead (func : FuncNo) (offset : Nat) (width : Nat) (tag : Nat) : Statement (.registerRead func offset width tag) := aligned_iff offset width

theorem lneReservedOp (op lenW : BitVec 8) (msgLen : BitVec 9) : Statement (.lneReservedOp op lenW msgLen) := rfl

theorem mailboxUndefinedOpcode : Statement (.mailboxUndefinedOpcode) := rfl

theorem unsupportedMctpMessage (dest mtype : BitVec 8) (command : BitVec 16) : Statement (.unsupportedMctpMessage dest mtype command) := rfl

theorem tapReset : Statement (.tapReset) := rfl

end Sys2Proof.Laws.OperandsInRange
end

