-- ==== Sys2Proof/Tests/Slice0.lean ====
section
/-!
SUPPORT. Tests of the model: ill-formed commands, values that the spec's own examples give, and for every statement
states and operands that meet its hypotheses.
-/

namespace Sys2Proof.Tests

open Sys2Proof Sys2Proof.Machine

/- In one text, each evaluation waits for the kernel to reach it; waiting at once they would each hold a thread. -/
set_option Elab.async false

/-! ## Ill-formed commands -/

theorem test_wf_flit_length :
    (Instr.flitReceive 0 none []).wf = false ∧ (Instr.flitReceive 0 (some 3) (List.replicate 256 0)).wf = true := by decide +kernel

theorem test_wf_register_access :
    (Instr.registerWrite 0 4 64 ⟨0, false, none⟩).wf = false ∧ (Instr.registerWrite 0 8 64 ⟨0, false, none⟩).wf = true ∧
    (Instr.registerRead 0 2 32 0).wf = false ∧ (Instr.registerRead 0 4 16 0).wf = false := by decide +kernel

theorem test_wf_bar2 :
    (Instr.hostBar2Write 0 0 [] false).wf = false ∧ (Instr.hostBar2Write 0 0 [0] false).wf = true ∧
    (Instr.hostBar2Read 0 ⟨0, []⟩ 0 0).wf = false ∧ (Instr.hostBar2Read 0 ⟨0, []⟩ 4097 0).wf = false := by decide +kernel

/-- An ill-formed command is refused by name. -/
theorem test_illformed_stops :
    exec (.flitReceive 0 none []) {} = .fault (.illFormed "flit length") ∧
    exec (.registerRead 0 2 32 0) {} = .fault (.illFormed "register access") := ⟨rfl, rfl⟩

/-- The table gives no row a bit. -/
theorem test_no_row_has_bits : decodeTableWord 0 0 = none ∧ (State.withFetchWord {} 32 1).pending = [] := by decide +kernel

/-! ## Values of the spec's examples -/

/-- The prime of chapter 3's example: QNEG, R_MOD_Q, RR_MOD_Q, LOG2Q, and mont(335,544,275, 3) = 15. -/
theorem test_prime_example :
    qnegOf 469762049 = 469762047 ∧ 2 ^ 32 % 469762049 = 67108855 ∧ 2 ^ 64 % 469762049 = 460175152 ∧
    log2qOf 469762049 = 7375 ∧ mont 335544275 3 469762049 = 15 := by decide +kernel

/-- The LOOP word of chapter 7's example: its fields, and its nominal length of 41. -/
theorem test_loop_word_example :
    (let w : BcWord := 0x0000A0060000900000000000 * 0x100000000 + 0x00100003
     opOf w = some .loop ∧ flag1 w 76 = true ∧ fld w 77 20 = 4 ∧ fld w 97 11 = 3 ∧ fld w 108 16 = 10 ∧ nominal w = 41) := by
  decide +kernel

/-- Table 14.6: the ramp's grants for 64 frames of 50 AU. -/
theorem test_ramp_example :
    (let a : Admit := { stale := false, budgetNow := 3000 }
     let d : List Nat := List.replicate 64 50
     ({ a with aPrev := 0 } : Admit).effective = 512 ∧ (grantFor d 512).phases = 8 ∧
     ({ a with aPrev := 400 } : Admit).effective = 800 ∧ (grantFor d 800).phases = 4 ∧
     ({ a with aPrev := 800 } : Admit).effective = 1600 ∧ (grantFor d 1600).phases = 2 ∧
     ({ a with aPrev := 1600 } : Admit).effective = 3000 ∧ (grantFor d 3000).phases = 2) := by decide +kernel

/-- Chapter 16's example: 3,775 AU. -/
theorem test_budget_example : budgetOf 750 1600 9000 1800 420000 = 3775 := by decide +kernel

/-! ## States for the witnesses -/

/-- Every domain is ON. -/
def on : State := { adm := { domains := Vector.replicate 36 { state := .on } } }

/-- Frame 0 is as given. -/
def with0 (s : State) (f : Frame) : State := { s with frames := s.frames.set 0 f }

/-- A launch that runs, of the one program loaded, on frame 0. -/
def run1 : Run := { id := 1, handle := 1, frames := 1, started := true }

def prog1 : Program := { handle := 1, frames := 1, parts := [{ frame := 0, words := 1 }] }

/-- A word of an opcode, its other fields 0. -/
def word (code engine : Nat) : BcWord := BitVec.ofNat 128 (code + engine * 256)

/-- Frame 0 runs the program, with `ws` in its window and descriptors `dt`. -/
def running (ws : List BcWord) (dt : List Desc) : State :=
  { with0 on { seq := { state := .running }, rn := { run := 1, issued := false, ended := false, window := ws, words := ws.length, dtab := dt } } with
    runs := [run1], programs := [prog1] }

/-- A Tally that lets the next beat launch. -/
def launching (t : Tally) : State := { on with tally := { t with run := true }, adm := { on.adm with grant := some {} } }

/-! ## The beat, the sequencer -/

theorem witness_LaunchBeginsTheNextBeat :
    (launching {}).canLaunch 36 = true ∧ (launching {}).canLaunch 35 = false ∧ on.canLaunch 36 = false := by decide +kernel

/-- A launch of a beat in which frame 0 is as given, with a run and transfers. -/
def launching0 (fr : FrmRun) (rs : List Run) (xs : List Xfer) : State :=
  { with0 (launching {}) { rn := fr } with runs := rs, xfers := xs, programs := [prog1] }

theorem witness_LaunchBeginsTheNextBeat_effects :
    (let s := launching0 { pend := [.scalar 31 { value := 1 }, .flag 255 7, .scalar 31 { value := 2 }] } [] []
     s.canLaunch 36 = true ∧ (∀ r ∈ s.runs, r.stopBeat = none) ∧ (∀ x ∈ s.xfers, x.result = none) ∧ (s.frame 0).rn.wait = none ∧
     (s.frame 0).rn.pend = [.scalar 31 { value := 1 }, .flag 255 7] ++ .scalar 31 { value := 2 } :: [] ∧
     (s.frame 0).rn.pend = [.scalar 31 { value := 1 }] ++ .flag 255 7 :: [.scalar 31 { value := 2 }]) ∧
    (let s := launching0 { dtab := [{}, {}], pend := [.desc 1 { level := 3 }, .desc 0 {}] } [] []
     s.canLaunch 36 = true ∧ (s.frame 0).rn.ops = [] ∧ 1 < (s.frame 0).rn.dtab.length ∧
     (s.frame 0).rn.pend = [] ++ .desc 1 { level := 3 } :: [.desc 0 {}]) ∧
    (let x : Xfer := { kind := .sld, xd := 31, run := 1, result := some { value := 5 }, due := some 1 }
     let s := launching0 { run := 1 } [run1] [x]
     s.canLaunch 36 = true ∧ x.frame = (0 : FrameNo).val ∧ x.run = (s.frame 0).rn.run ∧ x.due = some (s.tally.count + 1).toNat ∧
     ∀ y ∈ s.xfers, y ≠ x → y.result = none) ∧
    (∀ n ∈ [0, 1], ∀ e ∈ [0, 9], (let w : Wait := { flag := 255, target := n, dec := true, timeout := e }
      let s := launching0 { run := 1, wait := some w } [run1] []
      s.canLaunch 36 = true ∧ s.runOf 0 = some run1 ∧ run1.live = true ∧ (s.frame 0).rn.wait = some w ∧ (s.frame 0).rn.pend = [])) ∧
    (let r : Run := { run1 with stopBeat := some 0 }
     let s := launching0 { run := 1 } [r] []
     s.canLaunch 36 = true ∧ s.adm.forcedPend = [] ∧ r.live = true ∧ r.aborts = [] ∧
     r.stopBeat = some (s.tally.count.toNat - r.startBeat) ∧ hasFrame r.frames 0 = true) := by decide +kernel

/-- A transfer of one word into frame 0's scratchpad writes no register. -/
theorem witness_NoRegisterWrites :
    State.NoRegisterWrites { launching {} with xfers := [{ writes := [{ addr := spadBase, value := 1, size := 4 }] }] } := by
  intro x hx w hw o
  simp only [List.mem_singleton] at hx
  subst hx
  simp only [List.append_nil, List.mem_singleton] at hw
  subst hw
  exact fun h => nomatch h

theorem witness_BeatCommandsComplete :
    (let s := { with0 on { active := true, rn := { run := 1, issued := true } } with tally := { leavePend := true } }
     s.beatDone 0 = true ∧ s.tally.leavePend = true ∧ ∀ g, g ≠ 0 → (s.frame g).active = false) ∧
    (on.adm.grant = none ∧ on.launchWork = false ∧ on.suppliedAll = true ∧ ∀ f, on.canDeclare f = true) ∧
    (let s := { on with adm := { on.adm with cur := { phases := 2, sums := [5, 7] } } }
     nextGroup s.adm.cur.sums s.adm.group = some 1 ∧ ∀ f : FrameNo, (s.frame f).active = false) ∧
    (let s := with0 { on with tally := { run := true } } { active := true }
     s.tally.run = true ∧ s.tally.wdActed = false ∧ s.completed = false) ∧
    ({ on with tally := { wdActed := true } } : State).tally.wdActed = true := by decide +kernel

theorem witness_GrantIsTheSmallestSplitThatFits :
    (grantFor (List.replicate 64 50) 512).phases = 8 ∧ (grantFor (List.replicate 64 50) 1600).phases < 8 := by decide +kernel

theorem witness_TallyControlsComplete :
    ((launching { markArmed := true, markBeat := 1 }).canLaunch 36 = true) ∧ (launching { markBeat := 1 }).canLaunch 36 = true ∧
    (launching { strClear := true }).canLaunch 36 = true ∧ on.hostOk = true ∧
    (let s := { on with tally := { syncOutMode := 2, tb := 1000000000 } }
     s.tally.period ≠ 0 ∧ s.tally.lastPulse.toNat / (s.tally.period.toNat * 1000) <
       s.tally.tb.toNat / (s.tally.period.toNat * 1000)) := by decide +kernel

theorem witness_TimebaseCommandsComplete :
    (({} : State).tally.tbHoldover = false ∧ ({} : State).tally.tbOff = 0 ∧ ({} : State).tally.tbFine ≤ 160) ∧
    ({ tally := { tbHoldover := true } } : State).tally.tbHoldover = true ∧
    (∀ e, ({} : State).tally.lastSync = some e → 1000 ≤ (({} : State).tally.tb - e).toNat) ∧
    (let s : State := { tally := { lastSync := some 40, tb := 1040 } }
     ∀ e, s.tally.lastSync = some e → 1000 ≤ (s.tally.tb - e).toNat) ∧
    (let s : State := { tally := { lastSync := some 40, tb := 1039 } }
     s.tally.lastSync = some 40 ∧ (s.tally.tb - 40).toNat < 1000) := by
  refine ⟨by decide, by decide, fun e h => (by cases h), fun e h => ?_, by decide⟩
  cases h
  decide

/-- Group beat 255 of a running group closes window 0. -/
def closing0 : State := { on with tally := { gstate := .running, gbeat := 255 } }

theorem witness_GroupCommandsComplete :
    (on.hostOk = true ∧ on.tally.gstate = .none ∧ closing0.tally.gstate ≠ .none ∧
      (with0 closing0 { active := true }).completed = false) ∧
    (closing0.closing = some 0 ∧ closing0.completed = true ∧ closing0.xfers = [] ∧ closing0.openLines = false ∧
      closing0.tally.tokenSent = false ∧ closing0.inBypass = false) ∧
    ({ on with carry := { tokens := [{}] } } : State).carry.tokens = [{}] ∧
    (let s : State := { on with tally := { gstate := .forming, membersM1 := 1 } }
     s.tally.gstate = .forming ∧ s.tally.tokensIn = false) ∧
    (let s : State := { closing0 with tally := { closing0.tally with membersM1 := 1 }, runs := [{ run1 with group := true }] }
     s.closing = some 0 ∧ s.completed = true ∧ s.tally.tokensIn = false ∧
     ∀ r ∈ s.runs, r.group = true ∧ r.aborted = none ∧ r.endBeat = none) := by decide +kernel

/-- The prime of chapter 3's example, staged for entry 7 while the commit runs. -/
def committing (q root : Nat) (ps : List (Nat × Machine.PSet)) : State :=
  { on with global := { stageQ := BitVec.ofNat 31 q, stageRoot := BitVec.ofNat 31 root, primeIndex := 7, primeRootLog := 11
                        primeBusy := true, psets := ps } }

theorem witness_PrimeCommitsComplete :
    (on.hostOk = true ∧ on.global.primeBusy = false) ∧
    (committing 469762049 1 []).global.primeBusy = true ∧
    (committing 469762049 1 [(1, { qidx := [7] })]).primeInUse 7 = true ∧
    ((committing 0 1 []).primeInUse 7 = false ∧ (committing 0 1 []).global.stageQ = 0) ∧
    ((committing 2097152 1 []).primeInUse 7 = false ∧ (committing 2097152 1 []).global.stageQ.toNat ≤ 2 ^ 21) ∧
    (∀ q ∈ [2097152, 469762050, 469762051, 2 ^ 31 - 1], (let s := committing q 1 []
      s.primeInUse 7 = false ∧ s.global.stageQ.toNat = q ∧ (q ≤ 2 ^ 21 ∨ q % 2 = 0 ∨ q % 2 ^ 11 ≠ 1))) ∧
    (let s := committing 469762049 (powMod 3 (7 * 2 ^ 15) 469762049) []
     s.primeInUse 7 = false ∧ s.global.stageQ.toNat = 469762049 ∧ (469762049 : Nat) % 2 ^ 11 = 1 ∧
     (s.commitResult 7 469762049 s.global.stageRoot.toNat 11).1 = 0 ∧ (s.commitResult 7 469762049 1 11).1 = 3) ∧
    (let s := committing 2097153 1 []
     s.primeInUse 7 = false ∧ s.global.stageQ.toNat = 2097153 ∧ 2 ^ 21 < 2097153 ∧ 2097153 % 2 = 1 ∧ 2097153 % 2 ^ 11 = 1 ∧
     2097153 % 3 = 0 ∧ (s.commitResult 7 2097153 1 11).1 = 2) := by decide +kernel

theorem witness_MontgomeryProductIsExact :
    (469762049 : Nat) % 2 = 1 ∧ 1 < 469762049 ∧ 469762049 < 2 ^ 31 ∧ (335544275 : Nat) < 469762049 ∧ (3 : Nat) < 469762049 := by
  decide

/-- A word of every opcode issues from frame 0's window. -/
theorem witness_every_word_issues :
    ∀ r ∈ opRows, ((running [word r.code r.engine] [{}]).iss? 0 r.op).isSome = true := by decide +kernel

theorem witness_ControlWordsComplete :
    (let s := running [word 0x02 0 + BitVec.ofNat 128 (2 ^ 91 + 2 ^ 102)] []
     (s.iss? 0 .br).map (fun i => (fld i.w 91 11, fld i.w 102 11)) = some (1, 1)) ∧
    (let s := running [word 0x02 0] []
     (s.iss? 0 .br).map (fun i => (fld i.w 91 11, fld i.w 102 11)) = some (0, 0)) ∧
    (let s := running [word 0x03 0 + BitVec.ofNat 128 (2 ^ 76 + 2 ^ 77 + 2 ^ 97)] []
     (s.iss? 0 .loop).map (fun i => (fld i.w 97 11, (s.frame 0).loopCount i.w)) = some (1, 1)) ∧
    (let s := running [word 0x03 0 + BitVec.ofNat 128 (2 ^ 76 + 2 ^ 97)] []
     (s.iss? 0 .loop).map (fun i => (fld i.w 97 11, (s.frame 0).loopCount i.w)) = some (1, 0)) ∧
    (let s := { with0 on { rn := { run := 1, wait := some { expired := true } } } with runs := [run1] }
     s.runOf 0 = some run1 ∧ hasFrame run1.frames 0 = true ∧ run1.aborted = none ∧ run1.endBeat = none) := by decide +kernel

/-- An LDROP of descriptor 1 into descriptor 0, its TARGET 3. -/
def ldropping (a d : Desc) : State := running [word 0x08 0 + BitVec.ofNat 128 (2 ^ 49 + 3 * 2 ^ 76)] [d, a]

theorem witness_LdropLowersTheLevel :
    ((ldropping { mark := some {} } {}).iss? 0 .ldrop).isSome = true ∧
    (tagBad [{ kind := 1, keyTag := 5 }] run1.keyTag = true ∧ ((ldropping { kind := 1, keyTag := 5 } {}).iss? 0 .ldrop).isSome = true) ∧
    (tagBad [{ level := 2 }] run1.keyTag = false ∧ ((ldropping { level := 2 } {}).iss? 0 .ldrop).isSome = true) ∧
    (tagBad [{ level := 3 }] run1.keyTag = false ∧ ({} : Desc).scaled = false ∧
      ((ldropping { level := 3 } {}).iss? 0 .ldrop).isSome = true) := by decide +kernel

/-- N = 8, q = 17: 3 has order 16, and 6 is its inverse. -/
theorem witness_EnginesComputeWhatTheirRulesSay :
    (Nat.Prime 17 ∧ 17 % 2 = 1 ∧ 3 ^ 2 ^ 3 % 17 = 17 - 1 ∧ (∀ x < 2 * 2 ^ 3, 3 ^ x * 2 ^ 32 % 17 = 3 ^ x * 2 ^ 32 % 17) ∧
      (∀ x < 2 * 2 ^ 3, 6 ^ x * 2 ^ 32 % 17 < 17 ∧ 6 ^ x * 2 ^ 32 % 17 * 3 ^ x % 17 = 2 ^ 32 % 17) ∧
      [0, 16, 2, 3, 4, 5, 6, 7].length = 2 ^ 3 ∧ ∀ v ∈ [0, 16, 2, 3, 4, 5, 6, 7], v < 17) ∧
    (let w (n : Nat) : BcWord := word 0x10 1 + BitVec.ofNat 128 (2 ^ 49 + 2 ^ 94 + n)
     let d : Desc := { level := 112, special := 2 }
     fld (w 0) 94 8 ≠ 0 ∧ ((running [w 0] [{}, { mark := some {} }]).iss? 0 .nttF).isSome = true ∧
     ((running [w 0] [{}, { d with domain := 1 }]).iss? 0 .nttF).isSome = true ∧
     (∀ n ∈ [113 * 2 ^ 80 + 113 * 2 ^ 87, 2 ^ 102], ((running [w n] [{}, d]).iss? 0 .nttF).isSome = true ∧ ringDiff {} d = false ∧
       tagBad [d] run1.keyTag = false ∧ fld (w n) 80 7 + 1 ≤ d.level + d.special ∧
       fld (w n) 87 7 + fld (w n) 94 8 ≤ d.level + d.special ∧ d.comps ≤ 1 ∧ ({} : Desc).scaled = false)) ∧
    (let w : BcWord := word 0x11 1 + BitVec.ofNat 128 (2 ^ 49 + 2 ^ 94)
     ((running [w] [{}, { level := 1 }]).iss? 0 .nttI).isSome = true ∧ ((running [w] [{}, { level := 1, domain := 1 }]).iss? 0 .nttI).isSome = true) ∧
    (let w : BcWord := word 0x40 4 + BitVec.ofNat 128 (2 ^ 49 + 2 ^ 78 + 2 ^ 87)
     fld w 87 8 = 1 ∧ fld w 78 2 = 1 ∧ ((running [w] [{}, { level := 1 }]).iss? 0 .aut).isSome = true ∧
     ((running [w] [{}, { mark := some {} }]).iss? 0 .aut).isSome = true) := by
  refine ⟨⟨by norm_num, by decide +kernel⟩, by decide +kernel⟩

theorem witness_FeederWordsIssue :
    (∀ r ∈ opRows3, r.engine = 8 → (let s := running [word r.code 8] [{}]
      (s.iss? 0 r.op).isSome = true ∧ (s.frame 0).rn.held = false ∧ s.feederFull 0 0 = false)) ∧
    (∀ r ∈ opRows3, r.engine = 8 → (let s := { running [word r.code 8] [{}] with xfers := List.replicate 16 {} }
      (s.iss? 0 r.op).isSome = true ∧ s.feederFull 0 0 = true)) ∧
    (let s := running [word 0x60 8] [{}]
     let u := s.updFrame 0 fun (f : Frame) => { f with rn := { f.rn with held := true } }
     (u.iss? 0 .xfer).isSome = true ∧ (u.frame 0).rn.held = true ∧ u.feederFull 0 0 = false) ∧
    ((running [word 0x61 8] [{}]).iss? 0 .kstream).map (fun i => fld i.w 86 7) = some 0 ∧
    ((running [word 0x61 8 + BitVec.ofNat 128 (2 ^ 86)] [{}]).iss? 0 .kstream).map (fun i => fld i.w 86 7) = some 1 := by
  decide +kernel

theorem witness_SupplyAndOperationEnd :
    (let s := with0 on { rn := { run := 1, ended := false, words := 5 } }
     (s.frame 0).rn.run ≠ 0 ∧ (s.frame 0).rn.ended = false ∧ keepFrom (s.frame 0).rn.ctx (s.frame 0).rn.word = 0 ∧
     (s.frame 0).rn.window = [] ∧ (s.ringWords (s.frame 0) 0).length = 5 ∧ s.memc.wipes = []) ∧
    (∀ c ∈ [true, false], (let o : EngOp := { engines := [.le], foot := [spadBase / 2048], cells := [(spadBase, 7)], checked := c,
                                               badLimb := if c then some 2 else none, lastBeat := 4 }
     let s := { with0 on { rn := { ops := [o] } } with tally := { count := 4 } }
     s.powered 0 = true ∧ s.runOf 0 = none ∧
     (s.frame 0).rn.ops.find? (fun o => (o.engines == [.te]) == false && (decide (o.lastBeat < s.tally.count.toNat) ||
       (o.lastBeat == s.tally.count.toNat && decide ((0 : FrameNo).val % s.adm.cur.phases ≤ s.adm.group)))) = some o ∧
     o.execFault = none ∧ o.nibs = [] ∧ (∀ l ∈ o.foot, s.usable ≤ l * 2048) ∧ (∀ c ∈ o.cells, s.usable ≤ c.1 / 2048 * 2048) ∧
     (o.badLimb = none ↔ c = false))) := by decide +kernel


/-! ## Transfers, flags, programs, regions -/

/-- The PF holds every frame. -/
def pfFrames : State := { on with global := { funcs := (Vector.replicate 64 {}).set 0 { frames := BitVec.allOnes 64, enable := true } } }

/-- A transfer with number 1 is in flight. -/
def flying (s : State) (x : Xfer) : State := { s with xfers := [{ x with id := 1 }] }

/-- Frame 1 hosts a run and holds a remote region whose one source has `n` rows of credit. -/
def crediting (n : Nat) : State :=
  { pfFrames with
    frames := pfFrames.frames.set 1 {
      rn := { run := 1 }
      regions := [{ number := 9, remote := true, sizeRows := 8, credits := [{ dev := 0, frame := 0, rows := n }] }] }
    runs := [{ run1 with frames := 2 }], programs := [{ handle := 1, frames := 2, parts := [{ frame := 1, rtab := [{ number := 9 }] }] }] }

/-- A row for frame 1's scratchpad. -/
def row1 : RRow := { addr := spadAddr 1 0, bytes := [1, 2] }

theorem witness_RemoteRowsSpendCredits :
    (∀ n ∈ [0, 1], (let s := flying (crediting n) { rows := [row1] }
      memWf s.mem = true ∧ memWf s.vis = true ∧ (s.xfer? 1).bind Xfer.localRow = some row1 ∧
      (∀ x ∈ s.xfers, s.inOrder x [row1.addr / 2048] = true ∧
        s.access (funcNo x.func) x.isSealed false true row1.addr = .ok ∧
        (s.openRemote 1 0).map (fun g => g.hasCredit s.carry.self x.frame) = some (decide (n = 1))))) ∧
    (∀ n ∈ [0, 1], (match (crediting n).place row1.addr with | .spad g off => g = 1 ∧ off = 0 | _ => False)) ∧
    (let s := flying { pfFrames with frames := pfFrames.frames.set 0 { regions := [{ number := 9, remote := true, sizeRows := 8 }] } }
        { grant := some (9, { dev := 3, frame := 2, rows := 9 }) }
     (s.xfer? 1).bind Xfer.grant = some (9, { dev := 3, frame := 2, rows := 9 }) ∧
     ((s.frame 0).region? 9).map (fun r => (r.remote, r.credits.length)) = some (true, 0)) := by
  refine ⟨by decide +kernel, fun n h => ?_, by decide +kernel⟩
  have : n = 0 ∨ n = 1 := by simpa using h
  rcases this with rfl | rfl <;> exact ⟨rfl, rfl⟩

/-- What the clauses on plain device memory at line 2 ask of a state. -/
def plainAt (s : State) (a : Nat) : Bool :=
  memWf s.mem && memWf s.vis && (s.contribAt a).isNone && (s.layerAt a).isNone && decide (a < s.usable) && (poisonAt s.poison a).isNone

theorem witness_TransfersActAtTheHome :
    (let s := flying pfFrames {}
     ∀ x ∈ s.xfers, s.canLand x = true) ∧
    (let s := flying pfFrames { writes := [{ addr := spadBase, value := 7, size := 4 }] }
     memWf s.mem = true ∧ s.memc.wipes = [] ∧ ∀ x ∈ s.xfers, s.canLand x = true ∧
       ∀ w ∈ x.writes, w.size = 4 ∧ w.addr % 4 = 0 ∧ s.access (funcNo x.func) x.isSealed false true (w.addr / 2048 * 2048) = .ok ∧
         (s.place (w.addr / 2048 * 2048) == .spad 0 0) = true) ∧
    (∀ q ∈ [0, 7], (let s := flying pfFrames { accs := [{ addr := 4096, value := 5, q := q }] }
     plainAt s 4096 = true ∧ ∀ x ∈ s.xfers, s.inOrder x [2] = true ∧ s.access (funcNo x.func) x.isSealed false true 4096 = .ok)) ∧
    (let s := flying pfFrames { kind := .atom, aop := 4, addr := 4096 }
     plainAt s 4096 = true ∧ ∀ x ∈ s.xfers, x.device = none ∧ x.result = none ∧ x.mark = none ∧ s.inOrder x [2] = true ∧
       s.access (funcNo x.func) x.isSealed false true 4096 = .ok) ∧
    (let s := flying pfFrames { kind := .sld, addr := 4096 }
     plainAt s 4096 = true ∧ ∀ x ∈ s.xfers, x.result = none ∧ x.mark = none ∧ s.inOrder x [2] = true ∧
       s.access (funcNo x.func) x.isSealed false false 4096 = .ok) := by decide +kernel

theorem witness_FlagsAndReleases :
    (let s := flying pfFrames { kind := .rel, flag := 255, fop := 1, value := 1 }
     ∀ x ∈ s.xfers, s.relWaits 0 x = false ∧ s.relTurn x = true ∧ (s.frame 0).rn.drops.any (s.relCovers 0 x) = false ∧
       x.device = none) ∧
    (let s := flying (with0 pfFrames { rn := { drops := [{ feeder := some 0, addr := spadBase }] } }) { kind := .rel }
     ∀ x ∈ s.xfers, s.relWaits 0 x = false ∧ s.relTurn x = true ∧ (s.frame 0).rn.drops.any (s.relCovers 0 x) = true) ∧
    (let s := { flying pfFrames { kind := .rel, run := 1 } with runs := [{ run1 with aborted := some Codes.beatStopped }] }
     (∀ x ∈ s.xfers, s.relWaits 0 x = false ∧ s.relTurn x = true) ∧ (s.run? 1).map (·.aborted) = some (some Codes.beatStopped)) ∧
    (let s := flying pfFrames { kind := .rel, sent := true, flag := 255, fop := 1, value := 1 }
     (s.frame 0).gone = false ∧ (s.holder 0).map (·.val) = some 0 ∧ s.powered 0 = true ∧
     ∀ x ∈ s.xfers, x.flag < 256 ∧ x.device = none ∧ x.func = 0) ∧
    (let s := flying on { kind := .rel, sent := true }
     (s.holder 0).map (·.val) ≠ some 0) ∧
    (on.hostOk = true ∧ (on.frame 0).gone = false ∧ on.powered 0 = true) ∧
    (let s := { with0 on { rn := { run := 1 } } with runs := [run1] }
     s.hosts 0 = true ∧ s.powered 0 = true ∧ 5 * 2048 < s.usable ∧ (s.frame 0).rrc = [] ∧ s.memc.wipes = [] ∧
     (s.upset [.sector 160 .single]).badSectors (5 * 2048) 2048 = [(160, .single)] ∧
     (s.upset [.sector 191 .uncorrectable]).badSectors (5 * 2048) 2048 = [(191, .uncorrectable)]) := by decide +kernel

/-- A frame's part has ended, of a run on frames 0 and 1 of which frame 1 has ended or not. -/
def ending (e1 : Bool) : State :=
  { on with frames := (on.frames.set 0 { rn := { run := 1, ended := false, endMark := true } }).set 1 { rn := { run := 1, ended := e1 } }
            runs := [{ run1 with frames := 3 }] }

/-- One run on frame 0. -/
def runs0 (r : Run) : State := { with0 on { rn := { run := 1 } } with runs := [r], programs := [prog1] }

theorem witness_ProgramLifeCompletes :
    (let s := runs0 { run1 with starting := true, started := false }
     (s.run? 1).isSome = true ∧ (s.program? 0 1).isSome = true ∧ hasFrame run1.frames 0 = true ∧ (prog1.part? 0).isSome = true ∧
     hasFrame run1.frames 1 = false) ∧
    (let s := ending false
     (s.runOf 0).isSome = true ∧ (s.frame 0).rn.endMark = true ∧ (1 : FrameNo) ∈ framesOf 3 ∧
     (s.frame 1).rn.ended = false ∧ (s.frame 1).rn.run = 1) ∧
    (let s := ending true
     (s.runOf 0).map (·.aborted) = some none ∧ ∀ g ∈ framesOf 3, g = 0 ∨ (s.frame g).rn.ended = true ∨ (s.frame g).rn.run ≠ 1) ∧
    (((runs0 { run1 with residue := true, aborted := some Codes.beatStopped }).run? 1).map fun r => (r.residue, r.silent)) = some (true, false) ∧
    (on.hostOk = true ∧ on.powered 0 = true ∧ (runs0 run1).progBeat run1 = 0 ∧
      (let s := { runs0 run1 with tally := { count := 9 } }
       ∀ r ∈ s.runs, s.runOf 0 = some r ∧ r.started = true ∧ r.endBeat = none ∧ (8 : BitVec 48).toNat < s.progBeat r)) ∧
    ((runs0 run1).runs.all fun r => decide (r.started = true ∧ r.endBeat = none ∧ (runs0 run1).progBeat r ≤ (0 : BitVec 48).toNat)) = true ∧
    (((runs0 { run1 with stopped := true }).runOf 0).map fun r => (r.stopped, r.aborted, r.endBeat)) = some (true, none, none) := by
  decide +kernel

/-- Frame 0 holds a resident region 4 of two rows. -/
def resident : State :=
  with0 pfFrames { regions := [{ number := 4, resident := true, originRow := 1, sizeRows := 2 }] }

theorem witness_RegionAndScratchpadCommandsComplete :
    (let s := { resident with programs := [{ parts := [{ rtab := [{ number := 4 }] }] }] }
     s.hostOk = true ∧ s.powered 0 = true ∧ (s.frame 0).reg.regBusy = false ∧ s.regionDeclared 0 4 = true) ∧
    (resident.hostOk = true ∧ resident.powered 0 = true ∧ (resident.frame 0).reg.regBusy = false ∧
      resident.regionDeclared 0 4 = false ∧ (resident.holder 0).map (·.val) = some 0 ∧
      ((resident.frame 0).regions.find? (fun r => r.resident && r.number == 4)).map (·.owner) = some 0) ∧
    (on.powered 0 = true ∧ (on.frame 0).reg.spadBusy = false ∧ (on.frame 0).seq.state.copies true = true ∧
      (4095 : BitVec 12).toNat + (1 : BitVec 13).toNat ≤ 4096 ∧ (on.frame 0).reg.xferAddr.toNat * 2048 + 1 * 2048 ≤ on.usable ∧
      memWf on.mem = true ∧ on.memc.wipes = [] ∧ ∀ i : Fin 64, on.global.seals[i].valid = false) ∧
    (((with0 on { seq := { state := .running } }).frame 0).seq.state.copies true = false) ∧
    ((with0 on { reg := { wiping := true } }).frame 0).reg.wiping = true := by decide +kernel

/-! ## Seals, wipes and host memory -/

/-- A valid seal window of one 64 KiB unit at 64 KiB. -/
def win1 : SealWin := { valid := true, owner := 3, base := 1, size := 1 }

def sealing (w : SealWin) : State := { on with global := { sealPend := some (false, 5, w, 0), sealBusy := true } }

theorem witness_SealsAndWipesComplete :
    (on.hostOk = true ∧ on.global.sealBusy = false ∧ on.global.sealOp = false) ∧
    (let s := { on with global := { sealOp := true, sealIndex := 5, seals := (Vector.replicate 64 ({} : SealWin)).set 5 win1 } }
     s.hostOk = true ∧ s.global.sealBusy = false ∧ s.sealReleaseResult s.global.sealIndex = 0) ∧
    (∀ j ∈ ([0, 4] : List (BitVec 3)), (let s := { on with global := { sealPend := some (true, 5, win1, j) } }
      s.global.sealPend.map (fun x => (x.1, x.2.2.2)) = some (true, j) ∧ (s.memc.wipes.any fun x => x.kind == .sealed 5) = false)) ∧
    ((sealing win1).sealSetResult 5 win1 = 0 ∧ (sealing {}).sealSetResult 5 {} = 1 ∧
      (let s := { sealing win1 with global := { (sealing win1).global with seals := (Vector.replicate 64 ({} : SealWin)).set 5 win1 } }
       s.sealSetResult 5 win1 = 5)) ∧
    (on.memc.wipes = [] ∧ on.memc.wipeSize = 0) ∧
    (let s := { on with memc := { wipeBase := 3, wipeSize := 2 } }
     s.memc.wipes = [] ∧ s.memc.wipeBase.toNat * 2048 + s.memc.wipeSize.toNat * 2048 ≤ s.usable ∧
     s.meetsSeal 6144 4096 = false ∧ ∀ i : Fin 64, s.mas.layers[i].state = .idle) ∧
    (({ on with memc := { wipes := [{ base := 2048, size := 2048 }] } } : State).memc.wipes[0]?).isSome = true ∧
    (({ on with memc := { held := [{ tag := 1, bytes := [0] }] } } : State).memc.held).length = 1 := by decide +kernel

/-- The PF is enabled, its BAR2 at the base of device memory. -/
def barred (w : SealWin) (ws : List Wipe) : State :=
  { pfFrames with global := { pfFrames.global with seals := (Vector.replicate 64 ({} : SealWin)).set 5 w }, memc := { wipes := ws } }

theorem witness_HostMemoryAccessesComplete :
    (let s := barred win1 []
     s.served 0 = true ∧ ((s.openBytes (s.bar2Span 0 65534 4)).all fun x => s.lineFree (x.2 / 2048)) = true ∧
     s.bar2Addr 0 65535 = some 65535 ∧ s.sealWindow 65535 = none ∧ s.bar2Addr 0 65536 = some 65536 ∧
     s.sealWindow 65536 ≠ none) ∧
    (let s := barred {} [{ kind := .span, base := 4096, size := 2048 }]
     s.served 0 = true ∧ ((s.openBytes (s.bar2Span 0 4096 4)).any fun x => !s.lineFree (x.2 / 2048)) = true) ∧
    (let s := { barred {} [] with global := { (barred {} []).global with link := { bar2 := 12 } } }
     s.bar2Addr 0 (0x003E00000000 - 1) = some (0x003E00000000 - 1) ∧ s.bar2Addr 0 0x003E00000000 = none) ∧
    (∀ k : BitVec 3, ({ on with global := { fault := { orphan := k == 1 } } } : State).served 5 = false) ∧
    (on.hostOk = true ∧ ({ on with global := { fault := { orphan := true } } } : State).hostOk = false) ∧
    (let s := barred win1 []
     plainAt s 4094 = true ∧ s.served 0 = true ∧
     (∀ k ∈ [0, 1], s.bar2Addr 0 (4094 + k) = some (4094 + k) ∧ s.sealWindow (4094 + k) = none) ∧ 4094 % 2048 + 2 ≤ 2048) ∧
    (let s := { on with memc := { ports := Vector.replicate 16 { trained := true } } }
     s.memc.wipes = [] ∧ (∀ p : Fin 16, s.memc.ports[p].trained = true ∧ s.memc.ports[p].periodH ≠ 0)) := by decide +kernel

/-! ## MAS layers -/

/-- Layer 0 as given. -/
def layered (l : Layer) : State := { on with mas := { layers := (Vector.replicate 64 {}).set 0 l } }

/-- A prime set of one prime for rings up to 2^11, and a layer of one object on it. -/
def shape1 : Shape := { logN := 11, level := 1, capacity := 1, comps := 2, scheme := 1, pset := 1, objects := 1 }

def defining : State :=
  { layered { wBase := 16, mBase := 64, shape := shape1, shards := 1 } with
    global := { psets := [(1, { nq := 1, logNMax := 11, qidx := [7] })]
                primes := (Vector.replicate 256 {}).set 7 { valid := true, q := 469762049, log2q := 7375 } } }

theorem witness_LayerCommandsComplete :
    (defining.hostOk = true ∧ defining.mas.layers[(0 : Fin 64)].state = .idle ∧ defining.defineResult 0 = 0) ∧
    (∀ st ∈ [LState.closed, .opened, .closing, .voting], (layered { state := st }).mas.layers[(0 : Fin 64)].state = st ∧
      (layered { state := st }).hostOk = true) := by decide +kernel

/-- ETA 1/2 as binary64, and BETA 0. -/
def eta2 : BitVec 64 := 0x3FE0000000000000

/-- A vote of one shard that agrees. -/
def ayes (n : Nat) : List Nat := [1, 1, 2, 2, 3, 3, 4, 4, n]

theorem witness_MasStepsComplete :
    (let s := layered { state := .closed, etaValid := true, eta := eta2, shards := 1, cfrac := 4 }
     s.mas.layers[(0 : Fin 64)].state = .closed ∧ s.mas.layers[(0 : Fin 64)].etaValid = true ∧
     (stepCoef eta2 0 4 0).isSome = true) ∧
    (stepCoef eta2 0 4 (BitVec.allOnes 64) = none ∧ stepCoef 0x7FE0000000000000 0 4 0 = none) ∧
    (layered { state := .closed, etaValid := true, shards := 2 }).mas.layers[(0 : Fin 64)].shards ≠ 1 ∧
    (∀ v ∈ [none, some (ayes 1)], (let s := { layered { state := .voting, voteRound := some 3 } with
          carry := { sets := (Vector.replicate 64 ({} : RSet)).set 0 { votes := [(3, v)] } } }
     s.mas.layers[(0 : Fin 64)].awaits s.mas.layers[(0 : Fin 64)].rset.toNat 3 = true ∧
     (s.set? s.mas.layers[(0 : Fin 64)].rset.toNat).votes = [(3, v)])) ∧
    (∀ n ∈ [1, 2], (let s := { layered { state := .voting, voteRound := some 0, shards := 1, voteEta := eta2, cfrac := 4 } with
          carry := { sets := (Vector.replicate 64 ({} : RSet)).set 0 { votes := [(0, some (ayes n))] } } }
     s.mas.layers[(0 : Fin 64)].awaits s.mas.layers[(0 : Fin 64)].rset.toNat 0 = true ∧
     (s.set? s.mas.layers[(0 : Fin 64)].rset.toNat).votes = [(0, some (ayes n))] ∧
     (stepCoef s.mas.layers[(0 : Fin 64)].voteEta s.mas.layers[(0 : Fin 64)].beta s.mas.layers[(0 : Fin 64)].cfrac.toNat
       s.mas.layers[(0 : Fin 64)].steps).isSome = true ∧
     voteAgrees (ayes n) s.mas.layers[(0 : Fin 64)].shards.toNat = decide (n = 1))) ∧
    (layered { state := .stepping, clearM := true, shape := shape1 }).mas.layers[(0 : Fin 64)].shape.size % 4 = 0 ∧
    (let s := layered { state := .opened, mBase := 64, shape := shape1 }
     s.layerAt 131072 = some 0 ∧ s.contribAt 131072 = none) := by decide +kernel

/-! ## The Carry links -/

/-- Port 0 as given. -/
def ported (q : Port) : State := { on with carry := { ports := (Vector.replicate 8 {}).set 0 q } }

/-- A write of two bytes at an address, of function 0. -/
def writing (a : Nat) : Packet := { ptype := tWrite, addr := a, len := 2, data := [1, 2] }

theorem witness_PacketBytesReadBackAsThePacket :
    (∀ p ∈ [writing (2 ^ 48 - 1), { ptype := tFlag, ext := List.replicate (extLen tFlag) 255 }],
      p.ptype < 2 ^ 4 ∧ p.addr < 2 ^ 48 ∧ p.len < 2 ^ 12 ∧ p.ext.length = extLen p.ptype ∧
      p.data.length = dataLen (fun _ => false) p) := by decide +kernel

theorem witness_FlitPassesItsOwnCheck :
    ([1, 2, 3] : List Byte).length ≤ payloadLen true ∧ ([] : List Byte).length ≤ payloadLen false := by decide +kernel

/-- Eight header bytes with SEQ 5, and 244 bytes of payload. -/
def body5 : List Byte := natToBytes 8 ({ seq := 5 } : FlitHdr).word ++ List.replicate 244 0

theorem body5_length : body5.length = 252 := by decide +kernel

def good5 : List Byte := body5 ++ flitCheck false body5

def bad5 : List Byte := body5 ++ (flitCheck false body5).map (~~~ ·)

theorem check_length (b : List Byte) : (flitCheck false b).length = 4 := rfl

theorem good5_length : good5.length = 256 := by
  rw [good5, List.length_append, check_length, body5_length]

theorem bad5_length : bad5.length = 256 := by
  rw [bad5, List.length_append, List.length_map, check_length, body5_length]

theorem good5_good : flitGood false good5 = true := by
  unfold flitGood good5
  simp only [payloadLen, Bool.false_eq_true, if_false, Nat.reduceAdd, ← body5_length]
  rw [List.drop_left, List.take_left, List.length_append, check_length, body5_length]
  simp

theorem bad5_bad : flitGood false bad5 = false := by
  unfold flitGood bad5
  simp only [payloadLen, Bool.false_eq_true, if_false, Nat.reduceAdd, ← body5_length]
  rw [List.drop_left, List.take_left]
  simp only [Bool.and_eq_false_iff, beq_eq_false_iff_ne, ne_eq]
  right
  intro h
  cases e : flitCheck false body5 with
  | nil => exact absurd (congrArg List.length e) (by rw [check_length]; decide)
  | cons x l =>
    rw [e] at h
    have := congrArg (fun l => (l.headD 0).getLsbD 0) h
    simp at this
theorem witness_FlitsAndPacketsAreReceived :
    (good5.length = 256 ∧ flitGood false good5 = true) ∧ (bad5.length = 256 ∧ flitGood false bad5 = false) ∧
    ((flitHdr (bytesToNat (good5.take 8))).seq = 5 ∧
      (∀ n : Fin 2, (ported { state := .active, rxSeq := BitVec.ofNat 12 (4 + n.val) }).carry.ports[(0 : Fin 8)].state = .active) ∧
      (({ on with carry := { inq := [{ port := 7 }] } } : State).carry.inq).map (·.port) = [7]) :=
  ⟨⟨good5_length, good5_good⟩, ⟨bad5_length, bad5_bad⟩, by decide +kernel⟩

/-- The PF takes remote packets of any function, or of none. -/
def arriving (accept : BitVec 2) : State :=
  { on with carry := { atHome := [writing 4096] }, global := { funcs := (Vector.replicate 64 {}).set 0 { carryAccept := accept } } }

/-- An answer to a request with TAG 0. -/
def answered (o : ReqOwner) (k : Packet) : State :=
  { on with carry := { resps := [k], reqs := [{ owner := o }] }, xfers := [{ id := 1 }] }

theorem witness_RequestsAndResponsesSettle :
    (∀ a ∈ [0, 2], (let s := arriving (BitVec.ofNat 2 a)
      (s.carry.atHome.find? (fun k => !s.requestHeld k)).isSome = true ∧ plainAt s 4096 = true ∧ s.inBypass = false ∧
      s.sealOwner 4096 = none ∧ s.accepts (s.memOwner 4096) 0 = decide (a = 2))) ∧
    (let s := answered (.flag 1) {}
     (s.carry.reqs.find? (·.pkt.tag == 0)).map (·.owner) = some (.flag 1)) ∧
    (let k : Packet := { ptype := tAtomr, ext := List.replicate 8 0 }
     let s := answered (.atom 1) k
     bytesToNat ((k.ext.drop 4).take 2) = 0 ∧ (s.carry.reqs.find? (·.pkt.tag == 0)).map (·.owner) = some (.atom 1)) ∧
    (let s := answered .agent { tag := 3 }
     (s.carry.reqs.find? (·.pkt.tag == 3)).isNone = true) := by decide +kernel

/-- A ring of four devices; this is device 1, and port 0 has role X+. -/
def ring4 (q : Port) : State :=
  { on with carry := { ports := (Vector.replicate 8 {}).set 0 q, dxM1 := 3, closed := 1, devnum := 1 } }

theorem witness_PortTrainingFollowsTheTable :
    (let s := ported { role := 1 }
     s.hostOk = true ∧ s.portPowered 0 = true ∧ s.carry.ports[(0 : Fin 8)].state = .disabled ∧ s.carry.ports[(0 : Fin 8)].role ≠ 0) ∧
    (∀ st ∈ [PState.equalize, .retrain, .align, .ident, .active, .down],
      (ported { state := st, hold := true, enable := true }).carry.ports[(0 : Fin 8)].state = st) ∧
    (laneCount 0x0FFFFFFFF = 32 ∧ laneCount 0x07FFFFFFF = 31 ∧ laneCount 0xFFFF = 16 ∧ laneCount 0x7FFF = 15) ∧
    (let s := ring4 { role := 1, state := .ident }
     oppositeRole 1 = 2 ∧ s.carry.neighbour 1 = some 2 ∧ s.global.profile = 0 ∧ s.carry.ports[(0 : Fin 8)].hold = false ∧
     (ring4 { role := 1, state := .ident, hold := true, replayed := 6 }).carry.ports[(0 : Fin 8)].replayed < 7) := by
  decide +kernel

/-- Port 0 is ACTIVE on lanes 0 to 31, its spare lane 32 free. -/
def laned : State := ported { state := .active, lanes := 0x0FFFFFFFF, spareArm := true }

/-- A time packet that port 0 has received. -/
def timed (arg : Nat) : State := { on with carry := { timesIn := [(0, { ptype := 0, arg }, 5)] } }

theorem witness_LanesBypassAndTimeComplete :
    (laned.spareArmed 0 = true ∧ laned.carry.ports[(0 : Fin 8)].lanes.getLsbD 31 = true ∧
      laned.carry.ports[(0 : Fin 8)].lanes.getLsbD 32 = false ∧ laned.carry.ports[(0 : Fin 8)].lanesFailed.getLsbD 32 = false ∧
      laned.carry.ports[(0 : Fin 8)].freeLane = some 32 ∧ laned.carry.ports[(0 : Fin 8)].pingOut = false ∧ laned.hostOk = true ∧
      laned.carry.ports[(0 : Fin 8)].txq = [] ∧
      1 ≤ (ported { state := .active, credits := Vector.replicate 6 1 }).carry.ports[(0 : Fin 8)].credits[4]) ∧
    ((timed 0).takeTime false).isSome = true ∧ ((timed 1).takeTime true).isSome = true := by decide +kernel

/-- Reduction set 0 as given. -/
def reducing (r : RSet) : State :=
  { defining with carry := { sets := (Vector.replicate 64 {}).set 0 r } }

/-- A RES set on line 16 that delivers at line 64 and keeps its state at line 200. -/
def res1 : RSet := { locals := 2, shape := shape1, contrib := 16, deliver := 64, area := 200 }

theorem witness_ReductionSetsComplete :
    ((reducing res1).hostOk = true ∧ (reducing res1).armResult 0 = 0) ∧
    (reducing { res1 with locals := 65 }).armResult 0 = 2 ∧
    (let s := reducing { res1 with armed := true }
     memWf s.mem = true ∧ s.contribAt 32768 = some 0 ∧ lineBase res1.contrib % 2048 = 0 ∧
     (s.carry.sets[(0 : Fin 64)].line 0).started = false ∧ (s.carry.sets[(0 : Fin 64)].line 0).data = false ∧ s.memc.wipes = [] ∧
     (s.carry.sets[(0 : Fin 64)].line 0).locals + 1 < res1.locals.toNat) ∧
    (∀ t ∈ [tRed, tReddown], (({ on with carry := { reds := [{ pkt := { ptype := t } }] } } : State).carry.reds.find?
      (·.pkt.ptype == t)).isSome = true) ∧
    (let s := reducing { res1 with armed := true, lines := [{ line := 0, started := true }] }
     s.carry.sets[(0 : Fin 64)].armed = true ∧ (s.carry.sets[(0 : Fin 64)].line 0).started = true ∧
     (s.carry.sets[(0 : Fin 64)].line 0).held = [] ∧ s.contribAt (lineBase s.carry.sets[(0 : Fin 64)].deliver + 0 * 2048) = none) := by
  decide +kernel

theorem witness_RoutesDeliverAtTheDestination :
    (ring4 {}).carry.devices = 4 ∧ (ring4 {}).carry.route { dst := 4 } 0 = .drop ∧
    (ring4 {}).carry.route { dst := 1 } 0 = .deliver ∧ ∃ det dl, (ring4 { role := 1, state := .active }).carry.route { dst := 2 } 0 = .out 1 det dl :=
  ⟨rfl, rfl, rfl, _, _, rfl⟩

/-! ## The host port -/

/-- Queues 0 of the PF as given, its resources two queues of each kind, 16 stream entries and 4 programs. -/
def queued (q : Sq) (c : Cq) : State :=
  { pfFrames with
    global := { pfFrames.global with funcs := (Vector.replicate 64 {}).set 0 {
      frames := BitVec.allOnes 64, enable := true, sqMax := 2, cqMax := 2, streamCount := 16, progMax := 4 } }
    hostq := { fns := (Vector.replicate 64 {}).set 0 {
      sqs := (Vector.replicate 64 {}).set 0 q, cqs := (Vector.replicate 64 {}).set 0 c } } }

theorem witness_DoorbellsStayInsideTheirQueue :
    (let s := queued { enable := true, sizeM1 := 15, head := 14 } { enable := true, sizeM1 := 15 }
     s.hostOk = true ∧ s.hostq.fns[(0 : FuncNo)].sqs[(0 : Fin 64)].enable = true ∧
     (15 : BitVec 16).toNat ≤ s.hostq.fns[(0 : FuncNo)].sqs[(0 : Fin 64)].sizeM1.toNat ∧
     s.hostq.fns[(0 : FuncNo)].sqs[(0 : Fin 64)].sizeM1.toNat < (16 : BitVec 16).toNat ∧
     s.hostq.fns[(0 : FuncNo)].cqs[(0 : Fin 64)].enable = true ∧ s.hostq.fns[(0 : FuncNo)].sqs[(1 : Fin 64)].enable = false ∧
     s.hostq.fns[(0 : FuncNo)].cqs[(1 : Fin 64)].enable = false) ∧
    (queued { error := true } {}).hostq.fns[(0 : FuncNo)].sqs[(0 : Fin 64)].error = true ∧
    (let s := queued {} {}
     (1 : Fin 64).val < s.global.funcs[(0 : FuncNo)].sqMax.toNat ∧ s.hostq.fns[(0 : FuncNo)].sqs[(1 : Fin 64)].enable = false ∧
     s.global.funcs[(0 : FuncNo)].sqMax.toNat ≤ (2 : Fin 64).val) := by decide +kernel

/-- A record of an OPCODE is accepted; its other bits are given. -/
def record (opc more : Nat) : Rec := { id := 1, bits := BitVec.ofNat 512 (opc + more) }

/-- The PF has one program, and stream entry 3 as given; one record waits. -/
def acting (r : Rec) (e : Entry) : State :=
  let s := queued {} {}
  { s with hostq := { s.hostq with accepted := [r], entries := [(3, e)] }, programs := [prog1]
           boot := { fuses := { pairs := [(2, true, true)] } } }

theorem witness_RecordsTakeTheirEffect :
    (queued { enable := true, sizeM1 := 15, tail := 1 } {}).turnOf = some (0, 0) ∧
    (∀ opc ∈ [1, 4], (let s := { acting (record opc 0) {} with boot := {} }
      (record opc 0).opc = opc ∧ s.programsAllowed = false ∧ s.hostOk = true)) ∧
    (let r := record 1 0
     r.opc = 1 ∧ (acting r {}).programsAllowed = true ∧ ((acting r {}).tryLoad 0 r.arg).2.1 = 0) ∧
    (let r := record 2 (2 ^ 32)
     r.opc = 2 ∧ (((acting r {}).program? r.func r.index).map (·.bound)) = some 0 ∧
     (({ acting r {} with programs := [{ prog1 with bound := 1 }] } : State).program? r.func r.index).map (·.bound) = some 1 ∧
     (({ acting r {} with programs := [] } : State).program? r.func r.index).isNone = true) ∧
    (let r := record 3 (3 * 2 ^ 32 + 2 ^ 192)
     r.opc = 3 ∧ (acting r {}).inRange r.func r.index = true ∧ ((acting r {}).program? r.func r.handle).isSome = true ∧
     r.cqid < (acting r {}).global.funcs[(0 : FuncNo)].cqMax.toNat ∧ ((acting r {}).entry r.index).state = .free ∧
     (acting r {}).memc.wipes = [] ∧ ((acting r { state := .queued }).entry r.index).state ≠ .free) ∧
    (let r := record 3 (3 * 2 ^ 32)
     r.opc = 3 ∧ ((acting r {}).program? r.func r.handle).isNone = true) ∧
    (let r := record 5 (3 * 2 ^ 32)
     let s := acting r { state := .bound, handle := 1 }
     r.opc = 5 ∧ s.inRange r.func r.index = true ∧ (s.entry r.index).state = .bound ∧ s.memc.wipes = [] ∧
     ((acting r {}).entry r.index).state = .free ∧ ((acting r { state := .done }).entry r.index).state = .done) ∧
    (acting (record 5 (16 * 2 ^ 32)) {}).inRange 0 16 = false ∧
    (let r := record 4 (3 * 2 ^ 32)
     let s := acting r { state := .bound, handle := 1 }
     r.opc = 4 ∧ s.programsAllowed = true ∧ s.inRange r.func r.index = true ∧ (s.lookup r.index).launchCode r = none ∧
     ((acting r {}).lookup r.index).launchCode r = some Codes.loadRecordInvalid) ∧
    (let r := record 6 (4096 * 2 ^ 256 + 2048 * 2 ^ 320)
     r.opc = 6 ∧ bitsAt r.bits.toNat 320 32 ≠ 0 ∧ (acting r {}).hcopyCode r = none) ∧
    (let r := record 6 (4096 * 2 ^ 256)
     r.opc = 6 ∧ bitsAt r.bits.toNat 320 32 = 0 ∧ (acting r {}).recCq r = 0 ∧ (acting r {}).hostq.comps = [] ∧
     (acting r {}).hostq.fns[(0 : FuncNo)].cqs[(0 : Fin 64)].stuck = true ∧
     (queued {} { enable := true, sizeM1 := 15 }).hostq.fns[(0 : FuncNo)].cqs[(0 : Fin 64)].stuck = false) ∧
    (let r := record 6 (0x003E00000000 * 2 ^ 256 + 2048 * 2 ^ 320)
     r.opc = 6 ∧ (acting r {}).hcopyCode r = some Codes.loadFootprint) := by decide +kernel

/-- A launch waits, having taken no frame. -/
def launch1 : Launch := { seq := 1, frames := 1, index := 3, handle := 1 }

theorem witness_CopiesAndCompletionsEnd :
    ({} : State).hostq.launches = [] ∧
    (let s := { with0 on { seq := { state := .running } } with hostq := { launches := [launch1] } }
     s.hostq.launches = [launch1] ∧ launch1.frames.getLsbD 0 = true ∧ launch1.taken = 0 ∧ s.frameIdle 0 = false) ∧
    (let s := { on with hostq := { launches := [launch1] }, programs := [prog1] }
     launch1.frames ≠ 0 ∧ (∀ f : FrameNo, launch1.frames.getLsbD f = true → s.frameIdle f = true) ∧
     (s.program? launch1.func launch1.handle).map (fun p => (p.parts.map (·.frame), s.windowMissed p launch1)) = some ([0], false)) ∧
    (∀ b ∈ [true, false], (let h : HCopy := { recId := 1, toHost := b, len := 2 }
      let s := { on with hostq := { hcopies := [h] } }
      s.hostOk = true ∧ s.hostq.hcopies.find? (·.recId == 1) = some h ∧
      (s.hostq.hcopies.find? fun x => x.func == h.func && x.sq == h.sq).map (·.recId) = some 1 ∧ h.toHost = b ∧
      s.memc.wipes = [] ∧ memWf s.mem = true ∧ h.len ≠ 0 ∧ h.dev % 2048 + h.len ≤ 2048 ∧ s.contribAt h.dev = none ∧
      s.layerAt h.dev = none ∧ (s.place h.dev == .mem) = true)) ∧
    (let s := queued {} { enable := true, sizeM1 := 15 }
     let u := { s with hostq := { s.hostq with comps := [{ rkind := 4, index := 3 }], entries := [(3, { state := .done })] } }
     (u.hostq.fns[(0 : FuncNo)].cqs[(0 : Fin 64)]).stuck = false ∧ u.hostOk = true ∧ (u.hostq.comps[0]?).isSome = true ∧
       (u.entry 3).state = .done) ∧
    (queued {} { enable := true, sizeM1 := 15, tail := 15 }).hostq.fns[(0 : FuncNo)].cqs[(0 : Fin 64)].stuck = true ∧
    (let c := (queued {} { enable := true, ien := true, coalTimeUs := 1, unsignalled := 1 }).hostq.fns[(0 : FuncNo)].cqs[(0 : Fin 64)]
     c.enable = true ∧ c.ien = true ∧ c.coalTimeUs ≠ 0 ∧ c.unsignalled ≠ 0) := by decide +kernel

/-- VF 3 as given, of 63. -/
def vf3 (f : Func) : State :=
  { on with global := { funcs := (Vector.replicate 64 {}).set 3 f }, boot := { image := { maxVfs := 63 } } }

theorem witness_FunctionsEnableAndReset :
    ((vf3 { memBase := 1, memSize := 1, frames := 1 }).hostOk = true ∧
      (vf3 { memBase := 1, memSize := 1, frames := 1 }).enableResult 3 = 0 ∧
      (vf3 { memBase := 1, memSize := 1 }).global.funcs[(3 : FuncNo)].busy = false) ∧
    ((vf3 { sqMax := 65 }).enableResult 3 = 1 ∧ (vf3 { sqMax := 65 }).global.funcs[(3 : FuncNo)].enable = false) ∧
    (let f := (vf3 { enable := true }).global.funcs[(3 : FuncNo)]
     f.enable = true ∧ f.resetting = false) ∧
    on.global.funcs[(0 : FuncNo)].resetting = false := by decide +kernel

/-! ## Power -/

/-- One sensor reads as given; the others are not valid. -/
def hot (t : Int) : State := { on with mgmt := { sensors := (Vector.replicate 189 {}).set 0 { value := t, valid := true } } }

theorem witness_PowerControlsComplete :
    (let s := { on with mgmt := { alive := true }, adm := { on.adm with targetMv := Vector.replicate 2 750 }, tally := { tokenRate := 1600 } }
     s.mgmt.alive = true ∧ s.adm.targetMv[0] ≠ 0 ∧ s.tally.tokenRate ≠ 0) ∧
    (max on.adm.vmin.toNat on.mgmt.railMin.toNat ≤ (600 : BitVec 10).toNat ∧
      (850 : BitVec 10).toNat ≤ min on.adm.vmax.toNat on.mgmt.railMax.toNat ∧
      (599 : BitVec 10).toNat < max on.adm.vmin.toNat on.mgmt.railMin.toNat) ∧
    (∃ x ∈ (hot 800).temps, ((8 * (hot 800).adm.tjHot.toNat : Nat) : Int) ≤ x) ∧
    ((∀ x ∈ (hot 759).temps, x < 8 * ((hot 759).adm.tjHot.toNat : Int) - 40) ∧
      (∀ x ∈ (hot 759).temps, x < 8 * ((hot 759).adm.tjCrit.toNat : Int)) ∧ ∀ x ∈ (hot 759).temps, x < 920) := by
  decide +kernel

/-- The domains are as reset, and a request is in progress. -/
def switching (q : List DomTrans) (st : DomState) : State :=
  { on with adm := { on.adm with domQueue := q, domains := (Vector.replicate 36 { state := .on }).set 3 { state := st } } }

theorem witness_DomainsSwitchByRequest :
    (on.hostOk = true ∧ on.domBusy = false ∧ on.switchCode 3 .retain = 0 ∧ (on.domain 3).state ≠ .retain ∧
      on.drained 3 = true) ∧
    (on.switchCode 28 .on = 1 ∧ (switching [] .off).switchCode 3 .on = 0 ∧ ((switching [] .off).domain 3).state ≠ .on) ∧
    ((switching [{ dom := 3, target := .retain }] .switching).domBusy = true ∧
      ((switching [{ dom := 3, target := .retain }] .switching).domain 3).state = .switching ∧
      ((switching [{ dom := 3, target := .retain }, { dom := 4, target := .off }] .switching).domain 4).state ≠ .off) ∧
    (let s := with0 (switching [{ dom := 3, target := .on }] .switching) { seq := { domain := 3 } }
     (s.domain 3).state = .switching ∧ (s.domain 3).cold = true ∧ s.framesIn 3 ≠ [] ∧
     memWf s.mem = true ∧ memWf s.vis = true) ∧
    (let s := { with0 (switching [{ dom := 0, target := .off }] .on) { rn := { run := 1 }, seq := { state := .running } } with runs := [run1] }
     (s.domain 0).state ≠ .switching ∧ s.drained 0 = false) ∧
    (let s := { on with adm := { on.adm with forcedPend := [3] } }
     s.adm.forcedPend.contains 3 = true ∧ s.adm.domQueue = [] ∧ (s.domain 3).state = .on ∧
     ∀ f ∈ s.framesIn 3, (s.frame f).rn.run = 0) ∧
    ((switching [{ dom := 3, target := .retain, forced := true }] .switching).domain 3).state = .switching := by
  decide +kernel

/-! ## Faults, management, boot -/

theorem witness_SparesAndWatchdogComplete :
    (on.hostOk = true ∧ on.powered 0 = true ∧ (on.frame 0).reg.remapBusy = false ∧ (on.frame 0).seq.state ≠ .fenced) ∧
    (let s := with0 on { seq := { state := .fenced } }
     (s.frame 0).seq.state = .fenced ∧ s.frameLoaded 0 = false ∧ s.freeSpare (dieOf 0) = some 32) ∧
    (let s := with0 on { reg := { remapBusy := true } }
     (s.frame 0).reg.remapBusy = true ∧ (s.frame 0).reg.wiping = false ∧ s.powered 0 = true) ∧
    ((0 : BitVec 16).toNat ≤ on.global.fault.sizeM1.toNat ∧ on.global.fault.sizeM1.toNat < (1 : BitVec 16).toNat) ∧
    (let s := { on with boot := { stage := 9 } }
     s.global.fault.orphan = false ∧ 9 ≤ s.boot.stage.toNat ∧ s.boot.state ≠ .recovery ∧ s.mgmt.alive = false) := by
  decide +kernel

theorem witness_SensorsLogAndEntropyComplete :
    (({} : State).domain (sensorDomain 0)).state ≠ .on ∧ (on.domain (sensorDomain 0)).state = .on ∧
    (let x := ({ on with mgmt := { sensors := (Vector.replicate 189 {}).set 0 { lo := 100, hi := 920 } } } : State).mgmt.sensors[(0 : Fin 189)]
     x.hi < 921 ∧ x.warn = false ∧ x.lo + sensorMargin 0 ≤ 400 ∧ 400 ≤ x.hi - sensorMargin 0 ∧ 0 ≤ sensorMargin 0) ∧
    (let s := { on with mgmt := { alive := true, ring := [{ seq := 1, severity := 2 }] } }
     s.mgmt.alive = true ∧ s.mgmt.flashLog.length + s.mgmt.ring.length ≤ 131072 ∧
     ∀ r ∈ s.mgmt.ring, s.mgmt.flashed.toNat < r.seq.toNat ∧ 2 ≤ r.severity) ∧
    (let s := { on with mgmt := { drbgs := Vector.replicate 3 { instantiated := true } } }
     s.mgmt.entropyOk = true ∧ ∀ d : Fin 3, s.mgmt.drbgs[d].instantiated = true ∧ s.mgmt.drbgs[d].error = false) ∧
    ({ on with mgmt := { entropyOk := false } } : State).mgmt.entropyOk = false := by decide +kernel


/-! ## The mailbox and the management port -/

/-- Channel 0 carries a command of the Reckoner, in a lifecycle state. -/
def mailing (op lc : Nat) (req : List Byte) : State :=
  { on with
    mgmt := { alive := true, goQueue := [0], mb := (Vector.replicate 2 {}).set 0 {
      busy := true, opcode := BitVec.ofNat 8 op, len := BitVec.ofNat 13 req.length, data := req } }
    boot := { stage := 9, state := .ready, fuses := { pairs := if lc = 0 then [] else [(lc, true, true)], secret := some 1 }
              flash := [(0x20000C, 0xFC), (0x20000D, 0xFF), (0x20000E, 0xFF), (0x20000F, 0xFF)]
              image := { regions := [(0x200000, 0x100000), (0x300000, 0x100000), (0x400000, 0x100000), (0x500000, 0x100000),
                (0x600000, 0x10000), (0x700000, 0x100000)] } }
    lne := { loaded := true, running := some { pf := false, op := 0 } } }

/-- What `MbServes` asks on channel 0. -/
def serves (s : State) (op : Nat) (req : List Byte) : Bool :=
  decide (s.mbFront = some (0, op)) && s.serving op && decide (s.boot.state ≠ .recovery) &&
    decide (s.boot.resetWait = none) && decide (s.global.fault.orphanWait = none) &&
    mbAllowed op s.boot.fuses.lifecycle && decide (req.length = s.mgmt.mb[(0 : Fin 2)].len.toNat) &&
    decide (req = (s.mgmt.mb[(0 : Fin 2)].data ++ List.replicate s.mgmt.mb[(0 : Fin 2)].len.toNat 0).take s.mgmt.mb[(0 : Fin 2)].len.toNat)

theorem witness_MbServes {s : State} {op : Nat} {req : List Byte} (h : serves s op req = true) : s.MbServes op 0 req := by
  simp only [serves, Bool.and_eq_true, decide_eq_true_eq] at h
  obtain ⟨⟨⟨⟨⟨⟨⟨a, b⟩, c⟩, d⟩, e⟩, f⟩, g⟩, i⟩ := h
  exact ⟨a, b, c, d, e, f, g, i⟩

theorem witness_MailboxQueriesAnswer :
    (∀ x ∈ ([(0x01, []), (0x02, [188, 1]), (0x03, [96, 1, 0, 1, 0, 1]), (0x04, [1, 0, 0, 0, 0, 127]),
        (0x05, [1, 0, 24, 0x58, 2, 0x52, 3]), (0x40, [0, 0, 0, 0, 0, 16]), (0x41, List.replicate 32 0), (0x06, [])] : List (Nat × List Byte)),
      serves (mailing x.1 2 x.2) x.1 x.2 = true) ∧
    (reqNat [188, 1] 0 1 + reqNat [188, 1] 1 1 ≤ 189 ∧
      reqNat [96, 1, 0, 1, 0, 1] 0 1 = (96 : Fin 189).val ∧ reqNat [96, 1, 0, 1, 0, 1] 1 2 ≤ reqNat [96, 1, 0, 1, 0, 1] 3 2 ∧
      reqNat [96, 1, 0, 1, 0, 1] 5 1 ≤ 1 ∧ reqNat [1, 0, 0, 0, 0, 127] 5 1 = 127 ∧
      reqNat [1, 0, 24, 0x58, 2, 0x52, 3] 0 2 ≠ 0 ∧ 24 ≤ reqNat [1, 0, 24, 0x58, 2, 0x52, 3] 2 1 ∧
      (mailing 0x05 2 []).adm.vmin.toNat ≤ reqNat [1, 0, 24, 0x58, 2, 0x52, 3] 3 2 ∧
      reqNat [1, 0, 24, 0x58, 2, 0x52, 3] 5 2 ≤ (mailing 0x05 2 []).adm.vmax.toNat ∧
      reqNat [0, 0, 0, 0, 0, 16] 4 2 = 4096 ∧ reqNat [0, 0, 0, 0, 0, 16] 0 4 + 4096 ≤ (mailing 0x40 2 []).certSpan.2) ∧
    ((mailing 0x41 2 []).boot.fuses.killed = false ∧ (mailing 0x41 2 []).boot.fuses.secret.isSome = true ∧
      (mailing 0x41 2 []).lne.loaded = true) ∧
    serves (mailing 0x7F 2 []) 0x7F [] = true := by decide +kernel

/-- A staging of firmware in slot 1 is open. -/
def staged (op : Nat) (req : List Byte) (v : Bool) : State :=
  let s := mailing op 2 req
  { s with mgmt := { s.mgmt with staging := some { comp := 1, slot := 1, size := 8, verified := v }, nonce := some 9
                                 drbgs := Vector.replicate 3 { instantiated := true } } }

theorem witness_MailboxChangesTakeEffect :
    (∀ x ∈ ([(0x10, [1, 8, 0, 0, 0]), (0x11, [4, 0, 0, 0, 0, 0, 0, 0]), (0x12, []), (0x13, [0]), (0x14, [1]), (0x20, []),
        (0x21, 3 :: List.replicate 96 0), (0x30, 63 :: 63 :: 1 :: List.replicate 64 0), (0x31, [63])] : List (Nat × List Byte)),
      serves (staged x.1 x.2 true) x.1 x.2 = true) ∧
    (reqNat [1, 8, 0, 0, 0] 1 4 ≠ 0 ∧
      reqNat [1, 8, 0, 0, 0] 1 4 ≤ ((staged 0x10 [] true).slotSpan 1 ((staged 0x10 [] true).freeSlot 1)).2 ∧
      reqNat [4, 0, 0, 0, 0, 0, 0, 0] 0 4 + (8 - 4) ≤ 8) ∧
    ((staged 0x14 [] true).slotVersion 1 ((staged 0x14 [] true).slots 1).committed).2 = 3 ∧
    (serves (staged 0x10 [1, 0, 0, 0, 0] true) 0x10 [1, 0, 0, 0, 0] = true ∧ reqNat [1, 0, 0, 0, 0] 1 4 = 0) ∧
    (∀ op ∈ [0x12, 0x21, 0x30, 0x41], (let s := { staged op [] true with
          mgmt := { (staged op [] true).mgmt with lneSince := some 5 }, tally := { up := 100000005 }, lne := { running := some {}, waiting := [{ pf := false }] } }
      s.mbFront = some (0, op) ∧ s.lneLate op = true)) := by decide +kernel

theorem witness_MailboxChangesTakeEffect_more :
    (let s := { on with mgmt := { trial := true, alive := true, aliveUp := 7 }, tally := { up := 60000000007 } }
     s.mgmt.trial = true ∧ s.mgmt.alive = true ∧ s.mgmt.aliveUp + 60000000000 ≤ s.tally.up) ∧
    (let s := staged 0x20 [] true
     (s.drbg 2).instantiated = true ∧ (s.drbg 2).error = false ∧ s.drbgDue (s.drbg 2) = false) ∧
    (serves (staged 0x21 (5 :: List.replicate 96 0) true) 0x21 (5 :: List.replicate 96 0) = true ∧
      4 < reqNat (5 :: List.replicate 96 0) 0 1) ∧
    (let s := staged 0x21 [] true
     s.boot.fuses.lifecycle ≠ 0 ∧ s.boot.fuses.mayEnter 3 = true ∧ s.mgmt.nonce = some 9) := by decide +kernel

theorem witness_ControlMessagesAreAnswered :
    (mailing 1 2 []).mine 0 = true ∧ (mailing 1 2 []).answersControl = true ∧
    (mailing 1 2 []).mgmt.mb[(1 : Fin 2)].busy = false ∧ (on.mine 0 = true ∧ on.answersControl = false) := by decide +kernel

/-- The management port as given. -/
def managed (p : MgmtPort) (g : Option Staging) (killed : Bool) : State :=
  let s := mailing 1 2 []
  { s with mgmt := { s.mgmt with port := p, staging := g, drbgs := Vector.replicate 3 { instantiated := true } }
           boot := { s.boot with fuses := { s.boot.fuses with killed } } }

theorem witness_PldmAndSpdmAreAnswered :
    (let s := managed { events := [(0, 1)], spdmVersion := true, spdmCaps := true, spdmAlgs := true } none false
     s.mine 0 = true ∧ s.answersAll = true ∧ s.mgmt.port.events = [(0, 1)] ∧ s.mgmt.port.pldm = .idle ∧
     mbAllowed 0x10 s.boot.fuses.lifecycle = true ∧ s.boot.fuses.killed = false ∧ 65535 < s.certSpan.2 ∧
     s.boot.fuses.secret.isSome = true ∧ (s.drbg 2).instantiated = true ∧ (s.drbg 2).error = false ∧ s.mgmt.entropyOk = true) ∧
    (∀ st ∈ [PldmState.learn, .readyXfer, .download], (let s := managed { pldm := st, table := [1] } (some { comp := 1, slot := 1, size := 8 }) true
     s.mine 0 = true ∧ s.answersAll = true ∧ s.mgmt.port.pldm = st ∧ s.mgmt.port.table.contains 1 = true ∧
     (8 : Word).toNat ≤ (s.slotSpan 1 (s.freeSlot 1)).2 ∧ s.boot.fuses.killed = true)) := by decide +kernel

/-! ## The LNE, boot, supplies -/

/-- The engine is loaded and holds numbers. -/
def lneing (l : Lne) (a b m : Nat) : State :=
  { on with lne := { l with loaded := true, bank := ((((Vector.replicate 8 0).set 0 (BitVec.ofNat 8192 a)).set 1 (BitVec.ofNat 8192 b)).set 2 (BitVec.ofNat 8192 m)) } }

theorem witness_LongNumbersAreComputed :
    (let s := lneing {} 0 0 0
     s.hostOk = true ∧ s.lne.loaded = true ∧ s.lne.busy = false ∧ s.lne.pending = false ∧ s.lne.running = none ∧ s.lne.waiting = []) ∧
    (lneing { busy := true } 0 0 0).lne.busy = true ∧
    (let s := lneing { waiting := [{ op := 1, lenW := 1 }] } 0 0 0
     s.lne.waiting = [{ op := 1, lenW := 1 }] ∧ s.lne.running = none) ∧
    (∀ op ∈ [1, 2, 3], (let s := lneing { running := some { op, lenW := 1 } } 2 2 3
     s.lne.bank[(2 : Fin 8)].toNat % 2 = 1 ∧ 3 ≤ s.lne.bank[(2 : Fin 8)].toNat ∧ s.lne.bank[(2 : Fin 8)].toNat < 2 ^ 64 ∧
     s.lne.bank[(0 : Fin 8)].toNat < s.lne.bank[(2 : Fin 8)].toNat ∧ s.lne.bank[(1 : Fin 8)].toNat < s.lne.bank[(2 : Fin 8)].toNat ∧
     Nat.gcd s.lne.bank[(0 : Fin 8)].toNat s.lne.bank[(2 : Fin 8)].toNat = 1)) ∧
    (let s := lneing { running := some { op := 3, lenW := 1 } } 3 0 9
     Nat.gcd s.lne.bank[(0 : Fin 8)].toNat s.lne.bank[(2 : Fin 8)].toNat ≠ 1) ∧
    (lneing { running := some { op := 3, lenW := 1 } } 1 0 4).lne.bank[(2 : Fin 8)].toNat % 2 = 0 ∧
    lneDefined 0x7F = false := by decide +kernel

/-- The boot as given. -/
def booted (b : Boot) (ws : List Wipe) : State := { on with boot := b, memc := { wipes := ws } }

theorem witness_ResetsAndBootComplete :
    on.boot.image.perstDevice = false ∧
    (∀ st ∈ [BState.ready, .recovery], (booted { state := st } []).boot.lost.contains 2 = false) ∧
    (∀ n ∈ [0, 1, 2, 8, 10], (let s := booted { stage := n } []
      s.boot.state = .booting ∧ s.global.fault.orphan = false ∧ s.memc.wipes.any (·.kind == .boot) = false ∧
      ∀ f, (s.frame f).reg.wiping = false)) ∧
    (booted { state := .recovery } []).memc.wipes.any (·.kind == .boot) = false ∧
    ((with0 on { reg := { wiping := true } }).frame 0).reg.wiping = true ∧
    (booted { stage := 8 } [{ kind := .boot }]).memc.wipes.any (·.kind == .boot) = true := by decide +kernel

theorem witness_SuppliesClocksAndTapComplete :
    (∃ i : Fin 24, on.mgmt.sensors[96 + i.val].value < (on.window (railOf i.val)).1) ∧
    (let s := { on with mgmt := { sensors := (Vector.replicate 189 ({} : Sensor)).set 112 { value := 800 } } }
     (((s.window (railOf 16)).1 : Nat) : Int) ≤ s.mgmt.sensors[(112 : Fin 189)].value ∧ s.mgmt.sensors[(112 : Fin 189)].value ≤ (s.window (railOf 16)).2) ∧
    (4 ≤ (4 : BitVec 8).toNat ∧ 4 ≤ (255 : BitVec 8).toNat) := by decide +kernel

/-! ## Registers -/

theorem witness_RegistersAreReadAndWritten :
    (on.hostOk = true ∧ on.global.funcs[(63 : FuncNo)].enable = false ∧
      (vf3 { enable := true }).global.funcs[(3 : FuncNo)].enable = true) ∧
    (({} : State).hostOk = true ∧ ({} : State).powered 63 = false) ∧
    (vf3 { enable := true }).global.funcs[(3 : FuncNo)].frames.getLsbD (63 : FrameNo) = false ∧
    (let s := { on with tally := { latch := [(latchKey 0 0x100010, 5)] } }
     alGet s.tally.latch (latchKey 0 0x100010) = some 5) ∧
    ((vf3 { enable := true }).present 3 = true ∧
      ({ on with global := { link := { numVfs := 0 } } } : State).present 3 = false ∧
      ({ on with global := { fault := { orphan := true } } } : State).global.fault.orphan = true) ∧
    (accessOk 8 64 = true ∧ accessOk 4 64 = false ∧ accessOk 0 16 = false) ∧
    (({ boot := { linkUp := true } } : State).boot.linkUp = true ∧ ({} : State).boot.linkUp = false) := by decide +kernel

theorem witness_DescriptorsReadBack :
    (let d : Desc := { kind := 15, base := 2 ^ 60 - 1, location := 3, dim3 := 65535, mark := some { cause := 9 } }
     d.kind < 2 ^ 4 ∧ d.base < 2 ^ 60 ∧ d.location < 2 ^ 2 ∧ d.dim3 < 2 ^ 16 ∧ (d.location ≠ 0 ∨ d.base < 2 ^ 48) ∧
     decodeDesc (encodeDesc d) = { d with mark := some {} }) := by decide +kernel

theorem witness_EveryStepKeepsMemoryCanonical :
    (let s : State := { mem := [(5, 1), (6, 2)], pending := [.nop 0] }
     memWf s.mem = true ∧ memWf s.vis = true) ∧ ∃ t, step { mem := [(5, 1), (6, 2)], pending := [.nop 0] } = .next t :=
  ⟨by decide, _, rfl⟩

theorem witness_MemoryReadsBackWhatWasWritten :
    memWf [(5, 1), (6, 2)] = true ∧ memWf [(5, 1), (6, 0)] = false ∧ memWf [(6, 1), (5, 2)] = false ∧
    memWriteN [(5, 1), (6, 2)] 6 [0, 9] = [(5, 1), (7, 9)] := by decide +kernel

theorem witness_TallyReadsAreAtomicOrLatched :
    on.hostOk = true ∧ tallyWide 0x10 = true ∧ tallyWide 0x178 = true ∧ tallyWide 0x408 = true ∧
    (match on.locate 0 0x100408, on.locate 0 0x10040C with | .bar0 a, .bar0 b => a = 0x100408 ∧ b = 0x10040C | _, _ => False) ∧
    (match on.locate 3 0x100, on.locate 3 0x104 with | .bar0 a, .bar0 b => a = 0x100300 ∧ b = 0x100304 | _, _ => False) :=
  ⟨by decide +kernel, by decide +kernel, by decide +kernel, by decide +kernel, ⟨rfl, rfl⟩, ⟨rfl, rfl⟩⟩

theorem witness_ScalarsOfAFrame :
    (let s := runs0 { run1 with starting := true, started := false }
     (s.run? 1).isSome = true ∧ (s.program? 0 1).isSome = true ∧ hasFrame run1.frames 0 = true ∧ (prog1.part? 0).isSome = true) ∧
    ((({} : Frame).setX 31 { value := 5 }).x 31).value = 5 ∧ (({} : Frame).setX 0 { value := 5 }).x 0 = {} := by decide +kernel

theorem witness_VfWritesStayTheirOwn :
    (let s := vf3 { enable := true, frames := 1 }
     s.hostOk = true ∧ accessOk 0xFFF8 64 = true ∧
     ∀ f, hasFrame s.global.funcs[(3 : FuncNo)].frames f = true → s.powered f = true) := by decide +kernel

/-! ## States for the clauses on routes, rounds, copies and switches -/

/-- Device 1 of four has received a packet on port 0, whose role is X+. -/
def received (k : Packet) : State :=
  let s := ring4 { role := 1, state := .active }
  { s with carry := { s.carry with inq := [{ port := 0, pkt := k }] } }

theorem witness_PacketsAreRouted :
    (∀ k ∈ [{ ptype := tWrite, dst := 1 }, { ptype := tAtomr, dst := 1 }], ((received k).carry.route k 1 = .deliver ∧
      (received k).carry.inq.map (·.pkt) = [k])) ∧
    packetClass tAtomr = some .rsp ∧ packetClass tWrite ≠ some .rsp ∧
    (let k : Packet := { ptype := tWrite, dst := 4, src := 1 }
     (received k).carry.route k 1 = .drop ∧ isRequest k = true ∧ k.src = (received k).carry.self) ∧
    (let k : Packet := { ptype := tWrite, dst := 2 }
     let s := received k
     let u := ({ s with carry := { s.carry with inq := [] } } : State).giveBack 0 k
     (∃ det dl, s.carry.route k 1 = .out 1 det dl) ∧ u.carry.pickPort 1 k = some 0) :=
  ⟨by decide +kernel, by decide +kernel, by decide +kernel, by decide +kernel, ⟨_, _, rfl⟩, rfl⟩

/-- A request for frame 0's flag 5, or for the word at 4,096, has arrived from device 3. -/
def asking (k : Packet) (accept : BitVec 2) (f : Frame) : State :=
  { with0 on f with carry := { atHome := [k] }, global := { funcs := (Vector.replicate 64 {}).set 0 { carryAccept := accept } } }

theorem witness_RemoteFlagsAndAtoms :
    (∀ k ∈ [({ ptype := tFlag, src := 3, addr := 5 * 2 ^ 8, arg := 7 } : Packet), { ptype := tFlag, src := 3, addr := 255 * 2 ^ 8 + 2 ^ 16, arg := 7 }],
      ∀ a ∈ [0, 2], (let s := asking k (BitVec.ofNat 2 a) {}
      s.carry.atHome.find? (fun k => !s.requestHeld k) = some k ∧ s.inBypass = false ∧ k.src ≠ s.carry.self ∧ k.addr % 64 = 0 ∧
      s.accepts (s.frameOwner 0) k.func = decide (a = 2) ∧ (s.frame 0).gone = false ∧ s.powered 0 = true)) ∧
    ((asking {} 2 { seq := { state := .fenced } }).frame 0).gone = true ∧
    (let k : Packet := { ptype := tAtom, src := 3, addr := 4096, arg := 4, ext := List.replicate 8 1 }
     let s := asking k 2 {}
     s.carry.atHome.find? (fun k => !s.requestHeld k) = some k ∧ plainAt s 4096 = true ∧ (s.place 4096 == .mem) = true ∧ k.arg % 8 < 5 ∧
     s.sealOwner 4096 = none ∧ s.accepts (s.memOwner 4096) k.func = true ∧ s.badSectors 4096 4 = []) ∧
    (let x : Xfer := { id := 1, kind := .atom }
     x.abandoned = false) := by decide +kernel

/-- Set 0 is armed on one line; the child of role 1 sends at port 0, the parent of role 2 at port 1. -/
def round (r : RSet) (k : Packet) (p : Nat) : State :=
  let s := reducing { res1 with armed := true, locals := 0, children := 1, parent := r.parent, lines := r.lines }
  { s with carry := { s.carry with
      ports := ((Vector.replicate 8 ({} : Port)).set 0 { role := 1 }).set 1 { role := 2 }
      reds := [{ port := p, pkt := { k with ext := natToBytes 8 s.primeHash ++ List.replicate 16 0
                                            arg := (s.redPacket false 0 0 [] none 0).arg } }] } }

/-- A line of zeros for set 0. -/
def redZeros (t : Nat) : Packet := { ptype := t, data := List.replicate 2048 0, len := 2048 }

/-- What the clauses on a RED ask of set 0's line 0; `w`: the round is whole with it. -/
def redAsked (s : State) (w : Bool) : Bool :=
  let r := s.carry.sets[(0 : Fin 64)]
  let y := r.line 0
  let d := lineBase r.deliver
  memWf s.mem && s.memc.wipes.isEmpty && r.armed && !r.vote && decide (0 < r.count) && y.round % 256 == 0 &&
    r.childRoles.contains 1 && !y.reds.contains 1 && !y.sent && y.held.isEmpty && (s.contribAt d).isNone &&
    (s.layerAt d).isNone && (y.locals == r.locals.toNat && r.childRoles.all ((y.reds ++ [1]).contains ·)) == w

/-- What a set's packet shows: its type, set, role, length and round. -/
def seen (s : State) : List (List Nat) :=
  s.carry.reds.map fun i => [i.pkt.ptype, i.pkt.arg % 64, s.inRole i, i.pkt.data.length, i.pkt.arg / 2 ^ 24]

/-- A packet with the prime table's own hash and the arguments of the device's own packet agrees with it. -/
theorem redAgrees_own (s : State) (i l : Nat) (k : Packet) (rest : List Byte)
    (he : k.ext = natToBytes 8 s.primeHash ++ rest) (ha : k.arg = (s.redPacket false i l [] none 0).arg) :
    s.redAgrees i l k = true := by
  have hl : s.primeHash < 256 ^ 8 := by
    have h := bytesToNat_lt ((sha3_256 s.primeBytes).take 8)
    exact lt_of_lt_of_le h (Nat.pow_le_pow_right (by decide) (by simp))
  simp only [State.redAgrees, ha, he, beq_self_eq_true, Bool.and_true]
  rw [show (natToBytes 8 s.primeHash ++ rest).take 8 = natToBytes 8 s.primeHash from
    List.take_left' (natToBytes_length 8 _), bytesToNat_natToBytes, Nat.mod_eq_of_lt hl, beq_self_eq_true]

theorem round_agrees (r : RSet) (k : Packet) (p : Nat) :
    ∀ i ∈ (round r k p).carry.reds, (round r k p).redAgrees 0 0 i.pkt = true := by
  intro i h
  simp only [round, List.mem_singleton] at h
  subst h
  exact redAgrees_own _ 0 0 _ _ rfl rfl

theorem witness_RoundsOfALine :
    (∀ x ∈ [({ parent := 2 } : RSet), {}], redAsked (round x (redZeros tRed) 0) true = true ∧
      seen (round x (redZeros tRed) 0) = [[tRed, 0, 1, 2048, 0]]) ∧
    redAsked (round { lines := [{ line := 0, started := true, data := true, locals := 1 }] } (redZeros tRed) 0) false = true ∧
    redAsked (round { parent := 2 } (redZeros tReddown) 1) true = true ∧
    seen (round { parent := 2 } (redZeros tReddown) 1) = [[tReddown, 0, 2, 2048, 0]] := by decide +kernel

/-! ## More of the clauses -/

theorem witness_HostMemoryAccessesComplete_more :
    (let s : State := { on with boot := { state := .recovery } }
     s.served 0 = false ∧ s.boot.state = .recovery ∧ s.global.fault.orphan = false) ∧
    (let s : State := { on with memc := { ports := Vector.replicate 16 { trained := true } } }
     s.memc.selfRefresh = false ∧ s.memc.ports[(15 : Fin 16)].trained = true ∧ s.memc.ports[(15 : Fin 16)].periodH ≠ 0 ∧
     (s.upset (sectorUpsets [] [0])).badSectors (portAddr s.granule 0 (s.memc.ports[(0 : Fin 16)].scrubNext * 2048)) 2048 ≠ []) ∧
    (let l := (layered { state := .closed }).mas.layers[(0 : Fin 64)]
     l.state = .closed ∧ l.etaValid = false) ∧
    (ported { role := 1 }).boot.lost.contains 3 = false := by decide +kernel

theorem witness_TransfersActAtTheHome_more :
    (∀ k ∈ [FKind.atom, .sld], (let s := flying pfFrames { kind := k, addr := 4096, isSealed := true }
      s.memc.wipes = [] ∧ ∀ x ∈ s.xfers, x.isSealed = true ∧ x.result = none ∧ x.device = none ∧ s.inOrder x [2] = true)) ∧
    (let s := flying pfFrames { kind := .atom, aop := 4, addr := 4096 }
     s.memc.wipes = [] ∧ s.badSectors 4096 4 = [] ∧ ∀ x ∈ s.xfers, x.isSealed = false ∧ x.aop < 5) ∧
    (let s := flying pfFrames { writes := [{ addr := spadBase, value := 7, size := 4 }, { addr := spadBase + 4, value := 8, size := 4 }] }
     ∀ x ∈ s.xfers, x.writes.Pairwise fun v w => v.addr ≠ w.addr) ∧
    (let s := flying { pfFrames with frames := pfFrames.frames.set 0 { regions := [{ number := 9, remote := true, sizeRows := 8 }] } }
        { grant := some (9, { dev := 3, frame := 2, rows := 9 }) }
     ∀ x ∈ s.xfers, s.inOrder x [] = true) ∧
    (let s := ending true
     let u := { s with tally := { leavePend := true } }
     (u.runOf 0).isSome = true ∧ (u.frame 0).rn.endMark = true ∧ u.tally.leavePend = true ∧
     ∀ g, g ≠ 0 → (u.frame g).active = false) := by decide +kernel

theorem witness_LdropOntoAScale :
    (let d : Desc := { kind := 1, scheme := 1, pset := 1 }
     ∀ x ∈ [7119, 7120], (let s := { ldropping { level := 3, scale := x } d with global := { defining.global with psets := [(1, { nq := 4, qidx := [7, 7, 7, 7] })] } }
      d.scaled = true ∧ (s.iss? 0 .ldrop).isSome = true ∧ tagBad [{ level := 3, scale := x }] run1.keyTag = false ∧
      ((s.log2Sum (s.pset 1) 3 : Int) - 256 < (x : Int) ∨ (x : Int) ≤ 3 * 7375 - 256))) ∧
    (let d : Desc := { kind := 1, scheme := 1, pset := 1 }
     let s := { ldropping { level := 3, scale := 21870 } d with global := { defining.global with psets := [(1, { nq := 4, qidx := [7, 7, 7, 7] })] } }
     s.log2Sum (s.pset 1) 3 = 22125 ∧ (s.iss? 0 .ldrop).isSome = true) := by decide +kernel

theorem witness_RecordsAndCompletions_more :
    (let s := queued { enable := true, sizeM1 := 15, tail := 1 } {}
     ([0] : List (BitVec 512)).length = min 8 s.hostq.fns[(0 : FuncNo)].sqs[(0 : Fin 64)].pending ∧
     s.hostq.fns[(0 : FuncNo)].sqs[(0 : Fin 64)].head.toNat ≤ s.hostq.fns[(0 : FuncNo)].sqs[(0 : Fin 64)].sizeM1.toNat) ∧
    (let s := queued {} { enable := true, sizeM1 := 15 }
     let c : Comp := { rkind := 4, index := 3, launch := true, after := [7] }
     let u := { s with hostq := { s.hostq with comps := [c], entries := [(3, { state := .done })] } }
     u.hostq.comps[0]? = some c ∧ c.launch = true ∧ c.after.all u.answered = true ∧ (u.entry 3).state = .done ∧
     c.after.all ({ u with xfers := [{ id := 7, kind := .rel, sent := true }] } : State).answered = false) ∧
    (let f := (vf3 {}).global.funcs[(3 : FuncNo)]
     f.enable = false ∧ f.enabling = false ∧ f.resetting = false) := by decide +kernel

theorem witness_Power_more :
    (∃ x ∈ (hot 864).temps, ((8 * (hot 864).adm.tjCrit.toNat : Nat) : Int) ≤ x) ∧
    ((hot 864).domain 0).state = .on ∧ isFrameDom 0 = true ∧ (hot 759).lastTemps = [] ∧
    (let s := { with0 on { seq := { state := .fenced } } with programs := [prog1] }
     (s.frame 0).seq.state = .fenced ∧ s.frameLoaded 0 = true) ∧
    (let s := { with0 on { seq := { state := .fenced } } with global := { fault := { fencedPhys := [32, 33] } } }
     (s.frame 0).seq.state = .fenced ∧ s.frameLoaded 0 = false ∧ s.freeSpare (dieOf 0) = none) ∧
    (let s := { on with boot := { stage := 9, state := .ready } }
     s.boot.resetWait = none ∧ s.mgmt.noFw = false ∧ s.mgmt.alive = false ∧ s.global.fault.orphan = false) ∧
    (let s := { on with mgmt := { alive := true, ring := [{ seq := 1, severity := 2 }] }, boot := { image := { applied := true } } }
     s.boot.image.applied = true ∧ memWf s.boot.flash = true ∧ s.mgmt.flashLog.length + s.mgmt.ring.length ≤ 131072 ∧
     ∀ r ∈ s.mgmt.ring, s.mgmt.flashed.toNat < r.seq.toNat ∧ 2 ≤ r.severity) ∧
    (let s := { on with mgmt := { drbgs := Vector.replicate 3 { instantiated := true, requests := 2 ^ 16 } } }
     s.drbgDue s.mgmt.drbgs[(0 : Fin 3)] = true) := by decide +kernel

theorem witness_Management_more :
    (let s : State := { mailing 1 2 [] with global := { fault := { orphan := true } } }
     s.mine 0 = true ∧ s.answersControl = false ∧ s.global.fault.orphan = true ∧ s.global.fault.orphanWait = none) ∧
    (6 < (0x107 : BitVec 16).toNat % 256) ∧
    ((pldmCommands (5 : BitVec 8).toNat).contains (0x7F : BitVec 8).toNat = false) ∧
    (let s := managed { spdmVersion := true, spdmCaps := true, spdmAlgs := true } none false
     s.lne.loaded = true ∧ s.drbgDue (s.drbg 2) = false) ∧
    (∀ l ∈ [true, false], (let s := lneing { running := some { pf := false, loose := l, op := 1 } } 0 0 0
      s.boot.resetWait = none ∧ s.global.fault.orphanWait = none ∧ s.lne.waiting = [])) := by decide +kernel

theorem witness_ResetsAndBootComplete_more :
    (let s : State := { on with lne := { running := some {} } }
     s.lne.running = some {} ∧ s.boot.resetWait = none) ∧
    (on.lne.running = none ∧ on.boot.slotTorn = false) ∧
    (booted { stage := 2 } []).flashFits = true ∧ (booted { stage := 2, flashMiB := 32 } []).flashFits = false ∧
    ((1 : BitVec 32).getLsbD 0 = true ∧ (0 : BitVec 32).getLsbD 0 = false) ∧
    ((booted {} []).copySeq false = none ∧ (booted {} []).copySeq true = none) ∧
    (let l : HostLink := { numVfs := 2 }
     let s := { vf3 { enable := true } with boot := { linkUp := true, state := .ready, image := { maxVfs := 63 } } }
     s.boot.linkUp = true ∧ s.hostOk = true ∧ s.present 3 = true ∧ l.numVfs.val < 3 ∧
     s.global.funcs[(3 : FuncNo)].resetting = false ∧ ∀ m, s.present m = true → m.val ≤ ({ numVfs := 63 } : HostLink).numVfs.val) := by
  decide +kernel

/-- A frame with an operation on the Butterfly Engine, a transfer in progress and a queue. -/
def busy : State :=
  { queued { enable := true, sizeM1 := 15, tail := 1 } {} with
    frames := on.frames.set 0 { rn := { ops := [{ engines := [.be] }, { engines := [.te] }] } }
    xfers := [{ id := 4, kind := .copy }], nextXfer := 5, pending := [.cqHead 0 0 1] }

theorem witness_EveryStepKeepsEnginesTransfersAndQueues :
    busy.enginesApart ∧ busy.xfersNumbered ∧ busy.feedersHold ∧ busy.queuesInside ∧ ∃ t, step busy = .next t := by
  refine ⟨?_, by unfold State.xfersNumbered; decide +kernel, ?_, ?_, _, rfl⟩
  · unfold State.enginesApart
    decide +kernel
  · intro f k
    exact (List.length_filter_le _ _).trans (by decide)
  · intro f q
    show (_ → _) ∧ (_ → _)
    simp only [busy, queued, Fin.getElem_fin, Vector.getElem_set, Vector.getElem_replicate]
    split
    · simp only [Vector.getElem_set, Vector.getElem_replicate]
      split <;> simp
    · simp

end Sys2Proof.Tests
end

section
/-!
SUPPORT. What the issue of an engine word can do (R43, R216, R299): it reads its sources, and then one operation starts.
-/

namespace Sys2Proof.Machine

open Sys2Proof

/-! ## What a word's issue leaves alone before its operation starts -/

/-- The words a frame's sequencer holds, and its place in the stream, are the same. -/
def Frame.SameHeld (a b : Frame) : Prop :=
  b.scalars = a.scalars ∧ b.flags = a.flags ∧ b.regions = a.regions ∧ b.rn.dtab = a.rn.dtab ∧
    b.rn.word = a.rn.word ∧ b.rn.ctx = a.rn.ctx

/-- What the issue of a word of frame `f` leaves as it was, whatever operations it starts. -/
structure State.Keeps (f : FrameNo) (s t : State) : Prop where
  count : t.tally.count = s.tally.count
  memory : s.memc.wipes = [] → t.memc.wipes = [] ∧ t.mem = s.mem ∧ t.vis = s.vis
  held : (s.frame f).SameHeld (t.frame f)
  others : SameButCorrected f s t

/-- A part of a word's issue that starts no operation. -/
structure State.Prepares (f : FrameNo) (s t : State) : Prop extends State.Keeps f s t where
  ops : (t.frame f).rn.ops = (s.frame f).rn.ops

/-- A part of a word's issue that starts the word's operation. -/
structure State.Starts (s t : State) (f : FrameNo) (op : Op) (i : Iss) : Prop extends State.Keeps f s t where
  starts : StartsOp s t f op i

theorem SameButCorrected.trans {f : FrameNo} {s t u : State} (h : SameButCorrected f s t) (k : SameButCorrected f t u) :
    SameButCorrected f s u := by
  intro g hg
  have e := k g hg
  rw [h g hg] at e
  exact e

theorem State.Keeps.trans {f : FrameNo} {s t u : State} (h : s.Keeps f t) (k : t.Keeps f u) : s.Keeps f u := by
  refine ⟨k.count.trans h.count, fun hw => ?_, ?_, h.others.trans k.others⟩
  · obtain ⟨hw', hm, hv⟩ := h.memory hw
    obtain ⟨hw'', hm', hv'⟩ := k.memory hw'
    exact ⟨hw'', hm'.trans hm, hv'.trans hv⟩
  · obtain ⟨a1, a2, a3, a4, a5, a6⟩ := h.held
    obtain ⟨b1, b2, b3, b4, b5, b6⟩ := k.held
    exact ⟨b1.trans a1, b2.trans a2, b3.trans a3, b4.trans a4, b5.trans a5, b6.trans a6⟩

theorem State.Prepares.trans {f : FrameNo} {s t u : State} (h : s.Prepares f t) (k : t.Prepares f u) : s.Prepares f u :=
  ⟨h.toKeeps.trans k.toKeeps, k.ops.trans h.ops⟩

/-- What a word reads before its operation starts does not show in the operation. -/
theorem State.Prepares.starts {s t u : State} {f : FrameNo} {op : Op} {i : Iss} (h : s.Prepares f t)
    (k : t.Starts u f op i) : s.Starts u f op i := by
  obtain ⟨o, ho, he, hr, hl⟩ := k.starts
  exact ⟨h.toKeeps.trans k.toKeeps, o, by rw [ho, h.ops], he, hr, by rw [hl, h.count]⟩

theorem State.Starts.prepares {s t u : State} {f : FrameNo} {op : Op} {i : Iss} (h : s.Starts t f op i)
    (k : t.Prepares f u) : s.Starts u f op i := by
  obtain ⟨o, ho, he, hr, hl⟩ := h.starts
  exact ⟨h.toKeeps.trans k.toKeeps, o, by rw [k.ops, ho], he, hr, hl⟩

theorem State.Starts.ite {s t u : State} {f : FrameNo} {op : Op} {i : Iss} {c : Prop} [Decidable c]
    (h : State.Starts s t f op i) (k : State.Starts s u f op i) : State.Starts s (if c then t else u) f op i := by
  split
  · exact h
  · exact k

/-- A word whose issue starts its operation issues as an engine word does. -/
theorem engineWordIssues_of_starts {op : Op} {c : FrameNo → Instr} (g : State → FrameNo → Iss → State)
    (hexec : ∀ s f, exec (c f) s = issueStep s f op (g s f)) (hg : ∀ s f i, State.Starts s (g s f i) f op i) :
    EngineWordIssues op c := by
  intro s f i hi
  refine ⟨_, (hexec s f).trans (issueStep_some _ hi), ?_⟩
  obtain ⟨⟨hcount, hmem, ⟨hx, hfl, hrg, hdt, hword, hctx⟩, hoth⟩, o, hops, heng, hrun, hlast⟩ := hg s f i
  refine ⟨?_, ⟨o, ?_, heng, hrun, hlast⟩, fun hw => ?_, ?_, fun k hk => ?_⟩
  · simp [MovesOn, State.next, Frame.goTo, hcount, hword, hctx]
  · simp [State.next, Frame.goTo, hops]
  · obtain ⟨-, hm, hv⟩ := hmem hw
    exact ⟨fun a => by rw [State.next, State.updFrame_mem, hm], fun a => by rw [State.next, State.updFrame_vis, hv]⟩
  · simp [SameRegisters, State.next, Frame.goTo, hx, hfl, hrg, hdt]
  · rw [State.next, State.updFrame_other _ _ _ _ hk]
    exact hoth k hk

/-! ## The parts of an issue that start no operation -/

section

variable {f : FrameNo} {s t u : State}

/-- What leaves frames, the count of beats, memory and its wipes alone prepares. -/
theorem State.Prepares.same (h : State.Prepares f s t) (hf : u.frames = t.frames) (ht : u.tally = t.tally)
    (hm : u.mem = t.mem) (hv : u.vis = t.vis) (hw : u.memc.wipes = t.memc.wipes) : State.Prepares f s u := by
  have hfr : ∀ g, u.frame g = t.frame g := fun g => by rw [State.frame, State.frame, hf]
  refine h.trans ⟨⟨by rw [ht], fun h => ⟨hw.trans h, hm, hv⟩, ?_, fun g _ => ?_⟩, by rw [hfr]⟩
  · rw [hfr]
    exact ⟨rfl, rfl, rfl, rfl, rfl, rfl⟩
  · rw [hfr]

theorem State.Prepares.refl (f : FrameNo) (s : State) : State.Prepares f s s :=
  ⟨⟨rfl, fun h => ⟨h, rfl, rfl⟩, ⟨rfl, rfl, rfl, rfl, rfl, rfl⟩, fun _ _ => rfl⟩, rfl⟩

theorem State.Prepares.ite {c : Prop} [Decidable c] (h : State.Prepares f s t) (k : State.Prepares f s u) :
    State.Prepares f s (if c then t else u) := by
  split
  · exact h
  · exact k

/-- A change of the word's own frame beside its registers, its place and its operations. -/
theorem State.Prepares.updFrame {g : Frame → Frame} (h : State.Prepares f s t)
    (hg : (t.frame f).SameHeld (g (t.frame f))) (ho : (g (t.frame f)).rn.ops = (t.frame f).rn.ops) :
    State.Prepares f s (t.updFrame f g) := by
  refine h.trans ⟨⟨rfl, fun hw => ⟨hw, rfl, rfl⟩, by rwa [State.updFrame_same], fun k hk => ?_⟩,
    by rwa [State.updFrame_same]⟩
  rw [State.updFrame_other _ _ _ _ hk]

/-- A corrected error counts at the frame whose scratchpad it was in (R485). -/
theorem State.Prepares.corrected (h : State.Prepares f s t) (g : FrameNo) :
    State.Prepares f s (t.updFrame g fun fr => { fr with reg := { fr.reg with spadCe := satInc fr.reg.spadCe } }) := by
  by_cases hg : g = f
  · subst hg
    exact h.updFrame ⟨rfl, rfl, rfl, rfl, rfl, rfl⟩ rfl
  · refine h.trans ⟨⟨rfl, fun hw => ⟨hw, rfl, rfl⟩, ?_, fun k _ => ?_⟩, ?_⟩
    · rw [State.updFrame_other _ _ _ _ (Ne.symm hg)]
      exact ⟨rfl, rfl, rfl, rfl, rfl, rfl⟩
    · by_cases hk : k = g
      · subst hk
        rw [State.updFrame_same]
      · rw [State.updFrame_other _ _ _ _ hk]
    · rw [State.updFrame_other _ _ _ _ (Ne.symm hg)]

theorem State.Prepares.foldl {α : Type} {l : List α} {g : State → α → State} (h : State.Prepares f s t)
    (hg : ∀ u x, State.Prepares f s u → State.Prepares f s (g u x)) : State.Prepares f s (l.foldl g t) :=
  State.foldl_induct (State.Prepares f s) l g hg t h

/-! ## The checks and the ports that a word reads through -/

theorem State.Prepares.log (h : State.Prepares f s t) (c : Code) (x : LogSrc) (a : LogArgs) :
    State.Prepares f s (t.log c x a) :=
  h.same (t.log_frames c x a) (t.log_tally c x a) (t.log_mem c x a) (t.log_vis c x a) (by rw [State.log_memc])

theorem State.Prepares.logNotice (h : State.Prepares f s t) (c : Code) (x : LogSrc) (a : LogArgs) :
    State.Prepares f s (t.logNotice c x a) := by
  obtain ⟨g, m, k, o, e⟩ := t.logNotice_parts c x a
  rw [e]
  exact h.same rfl rfl rfl rfl rfl

theorem State.Prepares.fault (h : State.Prepares f s t) (id : Nat) (c : Code) (n : Nat) :
    State.Prepares f s (t.fault id c n) := h.same rfl rfl rfl rfl rfl

theorem State.Prepares.consume (h : State.Prepares f s t) (r : Nat) (ms : List Mark) :
    State.Prepares f s (t.consume r f ms) := by
  unfold State.consume
  split
  · exact h.fault _ _ _
  · exact h

theorem State.Prepares.mend (h : State.Prepares f s t) (e : Upset) : State.Prepares f s (t.mend e) :=
  h.same rfl rfl rfl rfl rfl

theorem State.Prepares.mark (h : State.Prepares f s t) (l : Nat) (m : Mark) : State.Prepares f s (t.mark l m) :=
  h.same rfl rfl rfl rfl rfl

theorem State.Prepares.report (h : State.Prepares f s t) (run : Nat) (c : Code) (n : Nat) :
    State.Prepares f s (t.report run c n) := by
  have hev : State.Prepares f s (t.event run c n) := h.same rfl rfl rfl rfl rfl
  exact .ite hev (hev.log _ _ _)

theorem State.Prepares.noteDrop (h : State.Prepares f s t) (d : Drop) : State.Prepares f s (t.noteDrop f d) :=
  h.updFrame ⟨rfl, rfl, rfl, rfl, rfl, rfl⟩ rfl

theorem State.Prepares.foundSpad (h : State.Prepares f s t) (x : Nat × Bool) : State.Prepares f s (t.foundSpad x) := by
  have hm := h.mend (.spad x.1 x.2)
  unfold State.foundSpad
  dsimp only
  split
  · refine .ite (.logNotice ?_ _ _ _) (hm.corrected _)
    exact (hm.mark (x.1 / 256) {}).same rfl rfl rfl rfl rfl
  · exact hm

theorem State.Prepares.checkSpad (h : State.Prepares f s t) (a n : Nat) : State.Prepares f s (t.checkSpad a n) :=
  .ite h (h.foldl fun _ x hu => hu.foundSpad x)

theorem State.Prepares.checkCache (h : State.Prepares f s t) (l : Nat) : State.Prepares f s (t.checkCache f l) := by
  have hone : State.Prepares f s (if t.upsets.contains (.cache f l false) then
      (t.mend (.cache f l false)).updFrame f fun fr => { fr with reg := { fr.reg with spadCe := satInc fr.reg.spadCe } }
    else t) := .ite ((h.mend _).corrected f) h
  exact .ite (((hone.mend _).updFrame ⟨rfl, rfl, rfl, rfl, rfl, rfl⟩ rfl).logNotice _ _ _) hone

theorem State.Prepares.updMem (h : State.Prepares f s t) (p : Fin 16) (g : MemPort → MemPort) :
    State.Prepares f s (t.updMem p g) := h.same rfl rfl rfl rfl rfl

theorem State.Prepares.moved (h : State.Prepares f s t) (c : Fin 4) (a n : Nat) :
    State.Prepares f s (t.moved c a n) := h.same rfl rfl rfl rfl rfl

theorem State.Prepares.foundSector (h : State.Prepares f s t) (x : Nat × SectorErr) :
    State.Prepares f s (t.foundSector x) := by
  unfold State.foundSector
  dsimp only
  split
  · exact ((h.mend _).updMem _ _).moved _ _ _
  · exact ((h.mark _ _).updMem _ _).logNotice _ _ _

/-- With no wipe in progress a read reaches no line to wipe; a wipe ahead changes memory alone. -/
theorem State.Prepares.reachLines (h : State.Prepares f s t) (ls : List Nat) (w : Bool) :
    State.Prepares f s (t.reachLines ls w) := by
  unfold State.reachLines
  split
  · exact h
  · rename_i hne
    exact h.trans ⟨⟨rfl, fun hw => absurd (by rw [hw]; rfl) hne, ⟨rfl, rfl, rfl, rfl, rfl, rfl⟩, fun _ _ => rfl⟩, rfl⟩

theorem State.Prepares.lineRead (h : State.Prepares f s t) (c : Fin 4) (a n : Nat) :
    State.Prepares f s (t.lineRead c a n) :=
  ((h.reachLines _ _).foldl fun _ x hu => hu.foundSector x).moved _ _ _

theorem State.Prepares.fillLine (h : State.Prepares f s t) (l : Nat) (b : Bool) :
    State.Prepares f s (t.fillLine f l b) := by
  unfold State.fillLine
  exact (h.lineRead 1 (l * 2048) 2048).updFrame ⟨rfl, rfl, rfl, rfl, rfl, rfl⟩ rfl

theorem State.Prepares.fetchLines (h : State.Prepares f s t) (ls : List Nat) :
    State.Prepares f s (t.fetchLines f ls).1 := by
  induction ls generalizing t with
  | nil => exact h
  | cons l ls ih =>
    have hc := h.checkCache l
    unfold State.fetchLines
    dsimp only
    split
    · exact ih (hc.updFrame ⟨rfl, rfl, rfl, rfl, rfl, rfl⟩ rfl)
    · exact ih (hc.fillLine l false)

theorem State.Prepares.reader (h : State.Prepares f s t) (r : Run) (b : Bool) (rows : List Nat) :
    State.Prepares f s (t.reader f r b rows).1 := by
  have hread (ls ms : List Nat) : State.Prepares f s ((ls.foldl (fun (u : State) l => u.checkSpad (l * 2048) 2048) t).fetchLines
      f ms).1 := State.Prepares.fetchLines (h.foldl fun _ l hu => hu.checkSpad (l * 2048) 2048) ms
  exact .ite ((hread _ _).fault _ _ _) (hread _ _)

theorem State.Prepares.constLines (h : State.Prepares f s t) (rd : Reader) (ls : List Nat) :
    State.Prepares f s (t.constLines f rd ls).1 := h.fetchLines ls

end

/-! ## The operation -/

theorem State.Starts.pend {s t : State} {f : FrameNo} {op : Op} {i : Iss} (h : State.Starts s t f op i) (ps : List Pend) :
    State.Starts s (t.pend f ps) f op i :=
  h.prepares ((State.Prepares.refl f t).updFrame ⟨rfl, rfl, rfl, rfl, rfl, rfl⟩ rfl)

section

variable {s t : State} {f : FrameNo} {i : Iss} {op : Op}

/-- An operation joins those in progress on its frame. -/
theorem State.Prepares.startsOp {o : EngOp} (h : State.Prepares f s t) (he : o.engines = op.engines)
    (hr : o.run = i.r.id) (hl : o.lastBeat = s.tally.count.toNat + max 1 (wCost i.w) - 1) :
    State.Starts s (t.updFrame f fun fr => { fr with rn := { fr.rn with ops := fr.rn.ops ++ [o] } }) f op i := by
  refine h.starts ⟨⟨rfl, fun hw => ⟨hw, rfl, rfl⟩, ?_, fun k hk => ?_⟩, o, ?_, he, hr, by rw [hl, h.count]⟩
  · rw [State.updFrame_same]
    exact ⟨rfl, rfl, rfl, rfl, rfl, rfl⟩
  · rw [State.updFrame_other _ _ _ _ hk]
  · rw [State.updFrame_same]

theorem State.Prepares.startNothing (h : State.Prepares f s t) (ps : List Pend) :
    State.Starts s (t.startNothing f i op ps) f op i :=
  h.startsOp rfl rfl (by rw [h.count])

theorem State.Prepares.startOp (h : State.Prepares f s t) (wr : Writes) (ds : List Nat)
    (ps : List Pend) (b : Bool) (c : Option Code) (l : Option Nat) :
    State.Starts s (t.startOp f i op wr ds ps b c l) f op i := by
  have hctr : State.Prepares f s { t with freeCtr := t.freeCtr + 1 } := h.same rfl rfl rfl rfl rfl
  exact (hctr.foldl fun _ d hu => (hu.report _ _ _).noteDrop _).startsOp rfl rfl (by rw [h.count])

theorem State.Prepares.startPoisoned (h : State.Prepares f s t) (x : Ops) (rd : Reader)
    (rows : Dest → List Nat) (ps : List Pend) (nd : Dest → Pend) (m : Mark) (extra : Writes) :
    State.Starts s (t.startPoisoned f i op x rd rows ps nd m extra) f op i :=
  (h.startOp _ _ _ _ _ _).pend _

theorem State.Prepares.startChecked (h : State.Prepares f s t) (x : Ops) (b : Bool)
    (rows : Dest → List Nat) (ps : List Pend) (run : State → Reader → State) (extra : Writes)
    (hrun : ∀ u rd, State.Prepares f s u → State.Starts s (run u rd) f op i) :
    State.Starts s (t.startChecked f i op x b rows ps run extra) f op i := by
  unfold State.startChecked
  dsimp only
  split
  · exact (h.consume _ _).startPoisoned ..
  · split
    · exact (State.Prepares.fault (.ite (h.log _ _ _) h) _ _ _).startPoisoned ..
    · exact hrun _ _ ((h.reader _ _ _).constLines _ _)

theorem State.Prepares.startNamed (h : State.Prepares f s t) (b : Bool) (d : Desc) (rows : List Nat)
    (ps : List Pend) : State.Starts s (t.startNamed f i op b d rows ps) f op i :=
  .ite ((h.fault _ _ _).startPoisoned ..) (h.startNothing [])

theorem State.Prepares.startWhole (h : State.Prepares f s t) (x : Ops) (chunks : State → Reader → List Chunk)
    (ps : List Pend) (b : Bool) (bad : State → Reader → Option Nat) :
    State.Starts s (t.startWhole f i op x chunks ps b bad) f op i := by
  unfold State.startWhole
  exact h.startChecked x _ _ ps _ _ fun _ _ hu =>
    .ite ((hu.consume _ _).startPoisoned ..) ((hu.startOp _ _ _ _ _ _).pend _)

theorem State.Prepares.startLane (h : State.Prepares f s t) (x : Ops) (b : Bool) (trap : Nat)
    (rows : Dest → List Nat) (ps : List Pend) (body : State → Reader → LaneOut) (extra : Writes) :
    State.Starts s (t.startLane f i op x b trap rows ps body extra) f op i := by
  unfold State.startLane
  exact h.startChecked x b rows _ _ extra fun _ _ hu => ((hu.consume _ _).startOp _ _ _ _ _ _).pend _

end

end Sys2Proof.Machine
end

section
/-!
SUPPORT. Each engine word's issue prepares and then starts one operation; the statements of the words of chapters 4, 5
and 6.
-/

namespace Sys2Proof.Machine

open Sys2Proof

section

variable (s : State) (f : FrameNo) (i : Iss)

/-! ## Chapter 4 -/

theorem State.nttIssue_starts (fwd : Bool) : State.Starts s (s.nttIssue f fwd i) f (if fwd then .nttF else .nttI) i := by
  unfold State.nttIssue
  refine .ite ((State.Prepares.refl f s).startNothing _) (State.Prepares.startWhole ?_ ..)
  exact (State.Prepares.refl f s).updFrame ⟨rfl, rfl, rfl, rfl, rfl, rfl⟩ rfl

theorem State.bconvIssue_starts : State.Starts s (s.bconvIssue f i) f .bconv i := by
  unfold State.bconvIssue
  exact (State.Prepares.refl f s).startWhole ..

theorem State.ksipIssue_starts : State.Starts s (s.ksipIssue f i) f .ksip i := by
  unfold State.ksipIssue
  exact .ite ((State.Prepares.refl f s).startNothing _) ((State.Prepares.refl f s).startWhole ..)

theorem State.pmatIssue_starts : State.Starts s (s.pmatIssue f i) f .pmat i := by
  unfold State.pmatIssue
  exact .ite ((State.Prepares.refl f s).startNothing _) ((State.Prepares.refl f s).startWhole ..)

theorem State.autIssue_starts : State.Starts s (s.autIssue f i) f .aut i := by
  unfold State.autIssue
  exact .ite ((State.Prepares.refl f s).startNamed ..) ((State.Prepares.refl f s).startWhole ..)

theorem State.trpIssue_starts : State.Starts s (s.trpIssue f i) f .trp i := by
  unfold State.trpIssue
  exact .ite ((State.Prepares.refl f s).startNothing _) ((State.Prepares.refl f s).startWhole ..)

/-! ## Chapter 5 -/

theorem State.lchainRing_starts (ch : Chain) (d : Desc) : State.Starts s (s.lchainRing f i ch d) f .lchain i := by
  unfold State.lchainRing
  exact .ite ((State.Prepares.refl f s).startNamed ..) ((State.Prepares.refl f s).startLane ..)

theorem State.lchainTensor_starts (ch : Chain) (d : Desc) : State.Starts s (s.lchainTensor f i ch d) f .lchain i := by
  unfold State.lchainTensor
  exact .ite ((State.Prepares.refl f s).startNothing _) ((State.Prepares.refl f s).startLane ..)

theorem State.lchainIssue_starts : State.Starts s (s.lchainIssue f i) f .lchain i := by
  unfold State.lchainIssue
  exact .ite ((State.Prepares.refl f s).startNothing _) (.ite (s.lchainTensor_starts f i _ _) (s.lchainRing_starts f i _ _))

theorem State.lexpIssue_starts : State.Starts s (s.lexpIssue f i) f .lexp i := by
  unfold State.lexpIssue
  exact .ite ((State.Prepares.refl f s).startNothing _) ((State.Prepares.refl f s).startLane ..)

/-- An operation that leaves its scalar poisoned takes an open value for it. -/
theorem State.Prepares.startOpen {s t : State} {f : FrameNo} {i : Iss} {op : Op} (h : State.Prepares f s t) (ps : List Pend) (n : Nat) :
    State.Starts s { t.startNothing f i op ps with freeCtr := n } f op i :=
  (h.startNothing ps).prepares ((State.Prepares.refl f _).same rfl rfl rfl rfl rfl)

theorem State.lredIssue_starts : State.Starts s (s.lredIssue f i) f .lred i := by
  have h := State.Prepares.refl f s
  unfold State.lredIssue
  refine .ite (h.startNothing _) ?_
  dsimp only
  split
  · exact (h.consume _ _).startOpen _ _
  · split
    · exact (h.fault _ _ _).startOpen _ _
    · have hr := h.reader
      exact .ite ((h.fault _ _ _).startOpen _ _) (.ite (((hr _ _ _).consume _ _).startOpen _ _) ((hr _ _ _).startNothing _))

theorem State.smulOpenIssue_starts : State.Starts s (s.smulOpenIssue f i) f .smulOpen i := by
  unfold State.smulOpenIssue
  exact .ite ((State.Prepares.refl f s).startNothing _) ((State.Prepares.refl f s).startLane ..)

theorem State.smulCloseIssue_starts : State.Starts s (s.smulCloseIssue f i) f .smulClose i := by
  unfold State.smulCloseIssue
  exact .ite ((State.Prepares.refl f s).startNothing _) ((State.Prepares.refl f s).startLane ..)

/-! ### The words that draw (R181) -/

theorem State.Prepares.setDrbg {s t : State} {f : FrameNo} (h : State.Prepares f s t) (k : Nat) (d : Drbg) :
    State.Prepares f s (t.setDrbg k d) := by
  unfold State.setDrbg
  split
  · exact h.same rfl rfl rfl rfl rfl
  · exact h

theorem State.Prepares.reseedDrbg {s t : State} {f : FrameNo} (h : State.Prepares f s t) (k : Nat) :
    State.Prepares f s (t.reseedDrbg k) := by
  have hraw : State.Prepares f s t.raw.2 := h.same rfl rfl rfl rfl rfl
  have hfail : State.Prepares f s t.raw.2.entropyFail := (hraw.log Codes.entropyHealth .lne {}).same rfl rfl rfl rfl rfl
  unfold State.reseedDrbg
  exact .ite (h.setDrbg _ _) (.ite (hraw.setDrbg _ _) (hfail.setDrbg _ _))

theorem State.Prepares.ite_snd {α : Type} {s : State} {f : FrameNo} {c : Prop} [Decidable c] {x y : α × State}
    (h : State.Prepares f s x.2) (k : State.Prepares f s y.2) : State.Prepares f s (if c then x else y).2 := by
  split
  · exact h
  · exact k

theorem State.Prepares.drbgDraw {s t : State} {f : FrameNo} (h : State.Prepares f s t) (k : Nat) :
    State.Prepares f s (t.drbgDraw k).2 := by
  have hr : State.Prepares f s (if (t.drbg k).instantiated && !(t.drbg k).error && t.drbgDue (t.drbg k) then t.reseedDrbg k
      else t) := .ite (h.reseedDrbg k) h
  exact .ite_snd hr (hr.setDrbg _ _)

/-- A draw changes the die's DRBG and the frame's seed slot. -/
theorem State.Prepares.seedFor {s t : State} {f : FrameNo} (h : State.Prepares f s t) (k : Nat) (fresh : Bool) :
    State.Prepares f s (t.seedFor f k fresh).2 := by
  have hd := h.drbgDraw (dieOf f)
  unfold State.seedFor
  refine .ite_snd ?_ h
  dsimp only
  split
  · dsimp only
    exact hd.updFrame ⟨rfl, rfl, rfl, rfl, rfl, rfl⟩ rfl
  · dsimp only
    exact hd.updFrame ⟨rfl, rfl, rfl, rfl, rfl, rfl⟩ rfl

theorem State.sreshareIssue_starts : State.Starts s (s.sreshareIssue f i) f .sreshare i := by
  unfold State.sreshareIssue
  exact .ite ((State.Prepares.refl f s).startNothing _) (((State.Prepares.refl f s).seedFor _ _).startLane ..)

theorem State.nfloodIssue_starts : State.Starts s (s.nfloodIssue f i) f .nflood i := by
  unfold State.nfloodIssue
  exact .ite ((State.Prepares.refl f s).startNothing _) (((State.Prepares.refl f s).seedFor _ _).startLane ..)

theorem State.encPkIssue_starts : State.Starts s (s.encPkIssue f i) f .encPk i := by
  unfold State.encPkIssue
  exact .ite ((State.Prepares.refl f s).startNothing _) (((State.Prepares.refl f s).seedFor _ _).startLane ..)

/-! ### The session words (R187, R188) -/

theorem State.Prepares.setSession {s t : State} {f : FrameNo} (h : State.Prepares f s t) (k : Nat) (x : Session) :
    State.Prepares f s (t.setSession k x) := by
  unfold State.setSession
  split
  · exact h.same rfl rfl rfl rfl rfl
  · exact h

theorem State.sexportIssue_starts : State.Starts s (s.sexportIssue f i) f .sexport i := by
  have h := State.Prepares.refl f s
  unfold State.sexportIssue
  exact .ite (h.startNothing _) (State.Prepares.startLane (.ite (h.setSession _ _) h) ..)

theorem State.simportIssue_starts : State.Starts s (s.simportIssue f i) f .simport i := by
  unfold State.simportIssue
  exact .ite ((State.Prepares.refl f s).startNothing _) ((State.Prepares.refl f s).startLane ..)

/-! ## Chapter 6 -/

theorem State.kregenIssue_starts : State.Starts s (s.kregenIssue f i) f .kregen i := by
  have h := State.Prepares.refl f s
  unfold State.kregenIssue
  refine .ite (h.startNothing _) ?_
  dsimp only
  split
  · exact h.startNothing _
  · exact .ite (h.startNothing _) (h.startOp ..)

end

/-! ## The statements -/

/-- Settles O16: each word of chapter 4 starts its operation and changes nothing else that shows at its issue. -/
theorem transformWordsIssue : Obligations.TransformWordsIssue := by
  unfold Obligations.TransformWordsIssue
  refine ⟨?nttF, ?nttI, ?bconv, ?ksip, ?pmat, ?aut, ?trp⟩
  case nttF => exact engineWordIssues_of_starts _ (fun _ _ => rfl) fun s f i => s.nttIssue_starts f i true
  case nttI => exact engineWordIssues_of_starts _ (fun _ _ => rfl) fun s f i => s.nttIssue_starts f i false
  case bconv => exact engineWordIssues_of_starts _ (fun _ _ => rfl) State.bconvIssue_starts
  case ksip => exact engineWordIssues_of_starts _ (fun _ _ => rfl) State.ksipIssue_starts
  case pmat => exact engineWordIssues_of_starts _ (fun _ _ => rfl) State.pmatIssue_starts
  case aut => exact engineWordIssues_of_starts _ (fun _ _ => rfl) State.autIssue_starts
  case trp => exact engineWordIssues_of_starts _ (fun _ _ => rfl) State.trpIssue_starts

/-- Settles O17: so does each word of the Lane Engine, of shares, randomness and sessions, and KREGEN. -/
theorem laneAndShareWordsIssue : Obligations.LaneAndShareWordsIssue := by
  unfold Obligations.LaneAndShareWordsIssue
  refine ⟨?lchain, ?lexp, ?lred, ?smulOpen, ?smulClose, ?sreshare, ?nflood, ?encPk, ?sexport, ?simport, ?kregen⟩
  case lchain => exact engineWordIssues_of_starts _ (fun _ _ => rfl) State.lchainIssue_starts
  case lexp => exact engineWordIssues_of_starts _ (fun _ _ => rfl) State.lexpIssue_starts
  case lred => exact engineWordIssues_of_starts _ (fun _ _ => rfl) State.lredIssue_starts
  case smulOpen => exact engineWordIssues_of_starts _ (fun _ _ => rfl) State.smulOpenIssue_starts
  case smulClose => exact engineWordIssues_of_starts _ (fun _ _ => rfl) State.smulCloseIssue_starts
  case sreshare => exact engineWordIssues_of_starts _ (fun _ _ => rfl) State.sreshareIssue_starts
  case nflood => exact engineWordIssues_of_starts _ (fun _ _ => rfl) State.nfloodIssue_starts
  case encPk => exact engineWordIssues_of_starts _ (fun _ _ => rfl) State.encPkIssue_starts
  case sexport => exact engineWordIssues_of_starts _ (fun _ _ => rfl) State.sexportIssue_starts
  case simport => exact engineWordIssues_of_starts _ (fun _ _ => rfl) State.simportIssue_starts
  case kregen => exact engineWordIssues_of_starts _ (fun _ _ => rfl) State.kregenIssue_starts

end Sys2Proof.Machine
end

section
/-!
SUPPORT. Where a register access goes and what it finds there (R8, R33, R39, R62, R422, R425).
-/

namespace Sys2Proof.Machine

open Sys2Proof

/-! ## Which accesses the host port serves -/

theorem State.hostOk_iff (s : State) :
    s.hostOk = true ↔ s.global.fault.orphan = false ∧ s.boot.state ≠ .recovery ∧ s.boot.resetWait = none := by
  simp [State.hostOk, and_assoc]

/-- The PF, and a VF that is enabled and that the host has enabled, is not one that is answered as unsupported. -/
theorem State.not_unserved {s : State} {n : FuncNo}
    (hn : n.val ≠ 0 → s.global.funcs[n].enable = true ∧ s.present n = true) :
    ¬ (n.val ≠ 0 ∧ (!(s.global.funcs[n].enable && s.present n)) = true) := by
  rintro ⟨h0, hf⟩
  obtain ⟨he, hp⟩ := hn h0
  rw [he, hp] at hf
  exact absurd hf (by decide)

theorem execRegisterRead_served {s : State} {n : FuncNo} {o w : Nat} (tag : Nat) (h : s.hostOk = true)
    (ha : accessOk o w = true) (hn : n.val ≠ 0 → s.global.funcs[n].enable = true ∧ s.present n = true) :
    exec (.registerRead n o w tag) s = .next ((s.readParts n (s.parts n o w)).2.emit
      (.regData tag (s.readParts n (s.parts n o w)).1)) := by
  obtain ⟨ho, hb, hr⟩ := s.hostOk_iff.1 h
  show execRegisterRead n o w tag s = _
  unfold execRegisterRead
  rw [if_neg (by simp [ha]), if_neg (by simp [hr]), if_neg (by simp [ho]), if_neg (State.not_unserved hn), if_neg (by simp [hb])]

theorem execRegisterWrite_served {s : State} {n : FuncNo} {o w : Nat} (v : BitVec 64) (ep : Bool) (h : s.hostOk = true)
    (ha : accessOk o w = true) (hn : n.val ≠ 0 → s.global.funcs[n].enable = true ∧ s.present n = true) :
    exec (.registerWrite n o w ⟨v, ep, none⟩) s = .next ((s.writeParts n v (s.parts n o w)).aerIf ep n) := by
  obtain ⟨ho, hb, hr⟩ := s.hostOk_iff.1 h
  show execRegisterWrite n o w ⟨v, ep, none⟩ s = _
  unfold execRegisterWrite
  rw [if_neg (by simp [ha])]
  dsimp only
  rw [if_neg (by simp [ho, hr]), if_neg (State.not_unserved hn), if_neg (by simp [hb])]

/-! ## The blocks of PF BAR0 (Table 1.5) -/

theorem blkOf_global {o : Nat} (h : o < 0x100000) : blkOf o = .global o := if_pos h

theorem blkOf_tally {o : Nat} (h : o < 0x100000) : blkOf (0x100000 + o) = .tally o := by
  unfold blkOf
  rw [if_neg (by omega), if_pos (by omega), Nat.add_sub_cancel_left]

theorem blkOf_frm (f : FrameNo) {o : Nat} (h : o < 0x100000) : blkOf (0x1000000 + f.val * 0x100000 + o) = .frm f o := by
  have hf := f.isLt
  have hq : (0x1000000 + f.val * 0x100000 + o - 0x1000000) / 0x100000 % 64 = f.val := by omega
  have hr : (0x1000000 + f.val * 0x100000 + o - 0x1000000) % 0x100000 = o := by omega
  unfold blkOf
  rw [if_neg (by omega), if_neg (by omega), if_neg (by omega), if_neg (by omega), if_neg (by omega), if_neg (by omega),
    if_neg (by omega), if_neg (by omega), if_neg (by omega), if_pos (by omega)]
  simp only [hq, hr]

/-- The part of a 64-bit access to one slot. -/
def Part.whole (l : Loc) : Part := { loc := l, m := BitVec.allOnes 64, sh := 0, at_ := 0 }

/-- A 64-bit access by the PF is one part (R62). -/
theorem State.parts_pf64 (s : State) {o : Nat} (h : o % 8 = 0) : s.parts 0 o 64 = [Part.whole (.bar0 o)] := by
  simp [State.parts, State.locate, Part.whole, h]

theorem State.parts_pf32 (s : State) (o : Nat) : s.parts 0 o 32 = [wordPart (.bar0 o) 0] := rfl

/-! ## FRAMES of a function (R423) -/

theorem State.globalSlot_frames (s : State) (n : FuncNo) : s.globalSlot (0x10000 + n.val * 64) = s.global.funcs[n].frames := by
  have hn := n.isLt
  have hi : (0x10000 + n.val * 64 - 0x10000) / 64 % 64 = n.val := by omega
  have hs : (0x10000 + n.val * 64) % 64 = 0 := by omega
  unfold State.globalSlot
  dsimp only
  split
  case h_8 => rw [if_pos (by omega)]; simp only [hi, hs, Func.slot, Fin.getElem_fin]
  all_goals omega

/-- A read of the GLOBAL block clears nothing beside its RC counters (R9). -/
theorem State.slotRead_global (s : State) {o : Nat} (m : BitVec 64) (h : o < 0x100000)
    (hrc : o ∉ [0x10, 0x20008, 0x20010, 0x50020]) : s.slotRead o m = s := by
  unfold State.slotRead
  rw [blkOf_global h]
  dsimp only
  split <;> simp_all

theorem State.sampleRefresh_global (s : State) {o : Nat} (m : BitVec 64) (h : o < 0x100000) : s.sampleRefresh o m = s := by
  unfold State.sampleRefresh
  rw [blkOf_global h]

theorem State.readPart_frames (s : State) (n : FuncNo) :
    s.readPart 0 (Part.whole (.bar0 (0x10000 + n.val * 64))) = (s.global.funcs[n].frames, s) := by
  have hn := n.isLt
  have hlt : 0x10000 + n.val * 64 < 0x100000 := by omega
  have hb : (0x10000 + n.val * 64) / 8 * 8 = 0x10000 + n.val * 64 := by omega
  have hrc : 0x10000 + n.val * 64 ∉ [0x10, 0x20008, 0x20010, 0x50020] := by
    simp only [List.mem_cons, List.not_mem_nil, or_false]
    omega
  simp [-BitVec.reduceAllOnes, State.readPart, Part.whole, State.blockOff, hb, blkOf_global hlt,
    s.sampleRefresh_global _ hlt, s.slotRead_global _ hlt hrc, State.slotVal, s.globalSlot_frames n]

/-- With the host port served, the PF reads FRAMES of a function. -/
theorem exec_registerRead_frames (s : State) (n : FuncNo) (tag : Nat) (h : s.hostOk = true) :
    exec (.registerRead 0 (0x10000 + n.val * 64) 64 tag) s = .next (s.emit (.regData tag s.global.funcs[n].frames)) := by
  rw [execRegisterRead_served tag h (by simp [accessOk]; omega) (by simp), s.parts_pf64 (by omega)]
  simp only [State.readParts, State.readPart_frames]
  simp [Part.whole]

theorem Wr.fld_all (v old : BitVec 64) : Wr.fld { m := BitVec.allOnes 64, v } 0 old = v := by
  simp [-BitVec.reduceAllOnes, Wr.fld]

/-- A whole write of FRAMES goes through `Func.write`, which observes ENABLE, and gives no command. -/
theorem State.writePart_frames (s : State) (n : FuncNo) (v : BitVec 64) :
    s.writePart 0 v (Part.whole (.bar0 (0x10000 + n.val * 64))) =
      s.updFunc n fun u => if u.enable then u else { u with frames := v } := by
  have hn := n.isLt
  have hlt : 0x10000 + n.val * 64 < 0x100000 := by omega
  have hb : (0x10000 + n.val * 64) / 8 * 8 = 0x10000 + n.val * 64 := by omega
  have hi : (0x10000 + n.val * 64 - 0x10000) / 64 % 64 = n.val := by omega
  have hs : (0x10000 + n.val * 64) % 64 = 0 := by omega
  have hact (t : State) (x : Wr) : t.globalAct (0x10000 + n.val * 64) x = t := by
    unfold State.globalAct
    rw [if_neg (by omega)]
    split
    case h_7 => rfl
    all_goals omega
  have hwr (x : Wr) : s.globalWrite (0x10000 + n.val * 64) x = s.updFunc n fun u => u.write 0 x := by
    unfold State.globalWrite
    dsimp only
    rw [if_neg (by omega), if_pos (by omega)]
    simp only [hi, hs, State.updFunc]
  simp [-BitVec.reduceAllOnes, State.writePart, Part.whole, State.blockOff, hb, blkOf_global hlt, State.slotWrite,
    State.slotAct, hact, hwr, Func.write, Wr.fld_all]

end Sys2Proof.Machine
end

section
/-!
SUPPORT. What each register access of R8, R33, R39, R62, R422, R425 and R446 answers and changes.
-/

namespace Sys2Proof.Machine

open Sys2Proof

/-- With the host port served, a whole write of FRAMES by the PF. -/
theorem exec_registerWrite_frames (s : State) (n : FuncNo) (v : BitVec 64) (ep : Bool) (h : s.hostOk = true) :
    exec (.registerWrite 0 (0x10000 + n.val * 64) 64 ⟨v, ep, none⟩) s =
      .next ((s.updFunc n fun u => if u.enable then u else { u with frames := v }).aerIf ep 0) := by
  rw [execRegisterWrite_served v ep h (by simp [accessOk]; omega) (by simp), s.parts_pf64 (by omega)]
  simp only [State.writeParts, List.foldl_cons, List.foldl_nil, State.writePart_frames]

theorem State.updFunc_other (s : State) (n m : FuncNo) (g : Func → Func) (h : m ≠ n) :
    (s.updFunc n g).global.funcs[m] = s.global.funcs[m] := by
  have h' : n.val ≠ m.val := fun e => h (Fin.ext e.symm)
  simp [State.updFunc, Vector.getElem_set_ne, h']

theorem State.updFunc_eq_self (s : State) (n : FuncNo) (g : Func → Func) (h : g s.global.funcs[n] = s.global.funcs[n]) :
    s.updFunc n g = s := by
  rw [State.updFunc, h]
  simp

theorem completes_registerWrite_frames (s : State) (n : FuncNo) (v : BitVec 64) (ep : Bool) (h : s.hostOk = true)
    (he : s.global.funcs[n].enable = false) :
    Completes (.registerWrite 0 (0x10000 + n.val * 64) 64 ⟨v, ep, none⟩) s fun t =>
      t.global.funcs[n] = { s.global.funcs[n] with frames := v } ∧
      (∀ m, m ≠ n → t.global.funcs[m] = s.global.funcs[m]) ∧
      t.outbox = s.outbox ++ (if ep then [.aerPoisoned 0] else []) ∧ OnlyGlobal s { t with outbox := s.outbox } := by
  refine ⟨_, exec_registerWrite_frames s n v ep h, ?_⟩
  have hg : ∀ u : State, (u.aerIf ep 0).global = u.global := fun u => by cases ep <;> rfl
  refine ⟨?_, fun m hm => ?_, ?_, ?_⟩
  · rw [hg, State.updFunc_same]
    exact if_neg (by rw [he]; decide)
  · rw [hg, State.updFunc_other _ _ _ _ hm]
  · cases ep
    · exact (List.append_nil _).symm
    · rfl
  · cases ep <;> rfl

/-! ## The FRM block of a frame that is not powered (R39) -/

theorem State.blockOff_unpowered {s : State} {f : FrameNo} {x o : Nat} (n : FuncNo) (hx : blkOf x = .frm f o)
    (hp : s.powered f = false) : s.blockOff n x = some (s.offAccess f n.val) := by
  simp [State.blockOff, hx, hp]

theorem State.readParts_blockOff {s t : State} {x : Nat} (h : s.blockOff 0 x = some t) :
    s.readParts 0 (s.parts 0 x 32) = (0, t) := by
  simp [State.parts_pf32, State.readParts, State.readPart, wordPart, h]

theorem completes_registerRead_unpowered (s : State) (f : FrameNo) (k tag : Nat) (h : s.hostOk = true)
    (hp : s.powered f = false) (hk : k < 0x40000) :
    Completes (.registerRead 0 (0x1000000 + f.val * 0x100000 + 4 * k) 32 tag) s fun t =>
      t.outbox.getLast? = some (.regData tag 0) ∧ t.global.pfErrCode = Codes.domainOffAccess ∧ SameMemory s t ∧
      t.frames = s.frames := by
  have hx := blkOf_frm f (o := 4 * k) (by omega)
  have ha : accessOk (0x1000000 + f.val * 0x100000 + 4 * k) 32 = true := by
    have h4 : (0x1000000 + f.val * 0x100000 + 4 * k) % 4 = 0 := by omega
    rw [accessOk, h4]
    rfl
  generalize 0x1000000 + f.val * 0x100000 + 4 * k = x at hx ha ⊢
  refine ⟨_, execRegisterRead_served tag h ha (by simp), ?_⟩
  rw [State.readParts_blockOff (State.blockOff_unpowered 0 hx hp)]
  exact ⟨by simp, rfl, ⟨fun a => by simp [State.offAccess, State.offLog], fun a => by simp [State.offAccess, State.offLog]⟩,
    by simp [State.offAccess, State.offLog]⟩

/-! ## The unprivileged view (Table 13.5, R425) -/

theorem State.locate_notHeld (s : State) (n : FuncNo) (f : FrameNo) {k : Nat} (hn : n.val ≠ 0) (hk : k < 0x100)
    (hf : s.global.funcs[n].frames.getLsbD f = false) : s.locate n (0x8000 + f.val * 0x100 + k) = .none := by
  have hlt := f.isLt
  have hq : (0x8000 + f.val * 0x100 + k - 0x8000) / 0x100 = f.val := by omega
  unfold State.locate State.vfLoc
  rw [if_neg hn, if_neg (by omega), if_neg (by omega), if_neg (by omega), if_pos (by omega), hq]
  rw [frameNo?, dif_pos hlt]
  exact if_pos (by simpa [hasFrame] using hf)

theorem exec_registerRead_notHeld (s : State) (n : FuncNo) (f : FrameNo) (k tag : Nat) (h : s.hostOk = true)
    (hn : n.val ≠ 0) (he : s.global.funcs[n].enable = true) (hp : s.present n = true)
    (hf : s.global.funcs[n].frames.getLsbD f = false) (hk : k < 64) :
    exec (.registerRead n (0x8000 + f.val * 0x100 + 4 * k) 32 tag) s = .next (s.emit (.regData tag 0)) := by
  rw [execRegisterRead_served tag h (by simp [accessOk]; omega) fun _ => ⟨he, hp⟩]
  simp [State.parts, s.locate_notHeld n f hn (k := 4 * k) (by omega) hf, State.readParts, State.readPart, wordPart]

/-! ## The latch of COUNT (R62) -/

theorem alGet_alSet_same {α : Type} (l : List (Nat × α)) (k : Nat) (v : α) : alGet (alSet l k v) k = some v := by
  induction l with
  | nil => simp [alSet, alGet]
  | cons p l ih =>
    unfold alSet
    split
    · simp [alGet]
    · split
      · simp [alGet]
      · rename_i h
        simp [alGet, Ne.symm h, ih]

/-- What stands at an offset of the TALLY block, as a read finds it: no block that is off, no RC field, no sample. -/
theorem State.tally_read (s : State) (n : FuncNo) {x o : Nat} (hx : blkOf x = .tally o) (m : BitVec 64) :
    s.blockOff n x = none ∧ s.sampleRefresh x m = s ∧ s.slotVal x = s.tallySlot o ∧ s.slotRead x m = s := by
  refine ⟨?_, ?_, ?_, ?_⟩
  · simp [State.blockOff, hx]
  · simp [State.sampleRefresh, hx]
  · simp [State.slotVal, hx]
  · simp [State.slotRead, hx]

theorem BitVec.and_low32 (v : BitVec 64) : v &&& 0xFFFFFFFF = (v.setWidth 32).setWidth 64 := by
  apply BitVec.eq_of_toNat_eq
  have h := Nat.and_two_pow_sub_one_eq_mod v.toNat 32
  simpa [Nat.mod_eq_of_lt (show v.toNat % 4294967296 < 18446744073709551616 by omega)] using h

theorem wordPart_low {x : Nat} (h8 : x % 8 = 0) :
    wordPart (.bar0 x) 0 = { loc := .bar0 x, m := 0xFFFFFFFF, sh := 0, at_ := 0 } := by
  have hsh : x % 8 / 4 * 32 = 0 := by omega
  simp only [wordPart, Loc.off, hsh]
  rfl

theorem wordPart_high {x : Nat} (h8 : x % 8 = 0) :
    wordPart (.bar0 (x + 4)) 0 = { loc := .bar0 (x + 4), m := 0xFFFFFFFF00000000, sh := 32, at_ := 0 } := by
  have hsh : (x + 4) % 8 / 4 * 32 = 32 := by omega
  simp only [wordPart, Loc.off, hsh]
  rfl

/-- The low half of a 64-bit register of the TALLY block, read alone, latches the high half (R62). -/
theorem State.readPart_tallyLow (s : State) (n : FuncNo) {x o : Nat} (hx : blkOf x = .tally o) (h8 : x % 8 = 0)
    (hw : tallyWide o = true) :
    s.readPart n (wordPart (.bar0 x) 0) = (((s.tallySlot o).setWidth 32).setWidth 64,
      { s with tally := { s.tally with
        latch := alSet s.tally.latch (latchKey n x) ((s.tallySlot o >>> 32).setWidth 32) } }) := by
  have hb : x / 8 * 8 = x := by omega
  obtain ⟨hoff, hsample, hval, hread⟩ := s.tally_read n hx 0xFFFFFFFF
  rw [wordPart_low h8]
  simp only [State.readPart, hb, hoff, hsample, hval, hread, hx, hw]
  rw [if_neg (by decide), if_pos trivial, BitVec.and_low32]

/-- The high half answers what the read of the low half latched, and the latch is used up. -/
theorem State.readPart_tallyHigh (s : State) (n : FuncNo) {x o : Nat} {h : Word} (hx : blkOf (x + 4) = .tally (o + 4))
    (hx' : blkOf x = .tally o) (h8 : x % 8 = 0) (hw : tallyWide o = true)
    (hl : alGet s.tally.latch (latchKey n x) = some h) :
    s.readPart n (wordPart (.bar0 (x + 4)) 0) = (h.setWidth 64,
      { s with tally := { s.tally with latch := alErase s.tally.latch (latchKey n x) } }) := by
  have hb : (x + 4) / 8 * 8 = x := by omega
  obtain ⟨hoff, -, -, -⟩ := s.tally_read n hx 0
  obtain ⟨-, hsample, hval, hread⟩ := s.tally_read n hx' 0xFFFFFFFF00000000
  rw [wordPart_high h8]
  simp only [State.readPart, hb, hoff, hsample, hval, hread, hx', hw, hl]
  rw [if_neg (by decide), if_neg (by decide)]

theorem blkOf_count : blkOf 0x100010 = .tally 0x10 := by decide

theorem blkOf_countHigh : blkOf (0x100010 + 4) = .tally (0x10 + 4) := by decide

/-- A 32-bit read of the low half of COUNT. -/
theorem completes_registerRead_countLow (s : State) (tag : Nat) (h : s.hostOk = true) :
    Completes (.registerRead 0 0x100010 32 tag) s fun t =>
      t.outbox = s.outbox ++ [.regData tag ((s.tally.count.setWidth 32).setWidth 64)] ∧
      alGet t.tally.latch (latchKey 0 0x100010) = some ((s.tally.count >>> 32).setWidth 32) ∧
      OnlyTally s { t with outbox := s.outbox } := by
  refine ⟨_, execRegisterRead_served tag h (by decide) (by simp), ?_⟩
  rw [State.parts_pf32, State.readParts, s.readPart_tallyLow 0 blkOf_count (by decide) (by decide)]
  refine ⟨?_, alGet_alSet_same _ _ _, rfl⟩
  simp [State.readParts, wordPart, State.tallySlot]

/-- A 32-bit read of the high half of COUNT after one of the low half. -/
theorem completes_registerRead_countHigh (s : State) (tag : Nat) (h : s.hostOk = true) (v : Word)
    (hl : alGet s.tally.latch (latchKey 0 0x100010) = some v) :
    Completes (.registerRead 0 0x100014 32 tag) s fun t =>
      t.outbox = s.outbox ++ [.regData tag (v.setWidth 64)] ∧ OnlyTally s { t with outbox := s.outbox } := by
  refine ⟨_, execRegisterRead_served tag h (by decide) (by simp), ?_⟩
  rw [State.parts_pf32, State.readParts,
    s.readPart_tallyHigh 0 blkOf_countHigh blkOf_count (by decide) (by decide) hl]
  refine ⟨?_, rfl⟩
  simp [State.readParts, wordPart]

/-! ## Accesses that are not served (R425, R496, R8) -/

theorem exec_registerRead_illFormed (s : State) (n : FuncNo) {o w : Nat} (tag : Nat) (h : accessOk o w = false) :
    exec (.registerRead n o w tag) s = .fault (.illFormed "register access") :=
  if_pos (by rw [h]; rfl)

theorem exec_registerWrite_illFormed (s : State) (n : FuncNo) {o w : Nat} (x : HostWrite) (h : accessOk o w = false) :
    exec (.registerWrite n o w x) s = .fault (.illFormed "register access") :=
  if_pos (by rw [h]; rfl)

section

variable {s : State} {n : FuncNo} {o w : Nat}

theorem State.notServed (h : s.global.funcs[n].enable = false ∨ s.present n = false) :
    (!(s.global.funcs[n].enable && s.present n)) = true := by
  obtain h | h := h
  · rw [h]; rfl
  · rw [h, Bool.and_false]; rfl

/-- A VF that is not enabled, or that the host has not enabled, is answered as unsupported, and in orphan mode every VF. -/
theorem exec_registerRead_unsupported (tag : Nat) (ha : accessOk o w = true) (hn : n.val ≠ 0) (hr : s.boot.resetWait = none)
    (h : s.global.funcs[n].enable = false ∨ s.present n = false ∨ s.global.fault.orphan = true) :
    exec (.registerRead n o w tag) s = .next (s.emit (.unsupported tag)) := by
  have hn' : (n == 0) = false := beq_eq_false_iff_ne.2 fun e => hn (by rw [e]; rfl)
  show execRegisterRead n o w tag s = _
  unfold execRegisterRead
  rw [if_neg (by simp [ha]), if_neg (by simp [hr])]
  by_cases ho : s.global.fault.orphan = true
  · rw [if_pos (by simp [hn', ho])]
  · rw [if_neg (by simp [ho]), if_pos ⟨hn, State.notServed (by simpa [ho, ← or_assoc] using h)⟩]

theorem exec_registerWrite_orphan (v : BitVec 64) (ep : Bool) (ha : accessOk o w = true) (ho : s.global.fault.orphan = true) :
    exec (.registerWrite n o w ⟨v, ep, none⟩) s = .next s := by
  show execRegisterWrite n o w ⟨v, ep, none⟩ s = _
  unfold execRegisterWrite
  rw [if_neg (by simp [ha])]
  dsimp only
  rw [if_pos (by simp [ho])]

theorem exec_registerWrite_unsupported (v : BitVec 64) (ep : Bool) (ha : accessOk o w = true) (hn : n.val ≠ 0)
    (hr : s.boot.resetWait = none) (ho : s.global.fault.orphan = false)
    (h : s.global.funcs[n].enable = false ∨ s.present n = false) :
    exec (.registerWrite n o w ⟨v, ep, none⟩) s = .next (s.emit (.unsupported 0)) := by
  show execRegisterWrite n o w ⟨v, ep, none⟩ s = _
  unfold execRegisterWrite
  rw [if_neg (by simp [ha])]
  dsimp only
  rw [if_neg (by simp [ho, hr]), if_pos ⟨hn, State.notServed h⟩]

/-! ## A write of configuration space (log entry 86) -/

theorem exec_registerWrite_config (v : BitVec 64) (ep : Bool) (l : HostLink) (ha : accessOk o w = true) :
    exec (.registerWrite n o w ⟨v, ep, some l⟩) s = .next (s.configure l) :=
  if_neg (by simp [ha])

theorem State.configure_linkDown (l : HostLink) (h : s.boot.linkUp = false) : s.configure l = s :=
  if_pos (by rw [h]; rfl)

/-- Where no VF goes away, the link alone changes. -/
theorem State.configure_keepsVfs (l : HostLink) (h : s.boot.linkUp = true)
    (hv : ∀ m, s.present m = true → m.val ≤ l.numVfs.val) :
    s.configure l = { s with global := { s.global with link := fitLink l } } := by
  have hgone : ((List.finRange 64).filter fun m => l.numVfs.val < m.val && s.present m) = [] := by
    refine List.filter_eq_nil_iff.2 fun m _ hm => ?_
    simp only [Bool.and_eq_true, decide_eq_true_eq] at hm
    exact absurd (hv m hm.2) (by omega)
  unfold State.configure
  rw [if_neg (by simp [h]), hgone]
  simp

end

end Sys2Proof.Machine
end

section
/-!
SUPPORT. What the reset of a function does to the functions' registers and to the service of the host port (R423, R446).
-/

namespace Sys2Proof.Machine

open Sys2Proof

/-- The registers of the functions, and what decides whether the host port is served, are the same. -/
structure State.SameFuncs (s t : State) : Prop where
  funcs : t.global.funcs = s.global.funcs
  orphan : t.global.fault.orphan = s.global.fault.orphan
  bstate : t.boot.state = s.boot.state
  wait : t.boot.resetWait = s.boot.resetWait

theorem State.SameFuncs.hostOk {s t : State} (h : s.SameFuncs t) : t.hostOk = s.hostOk := by
  rw [State.hostOk, State.hostOk, h.orphan, h.bstate, h.wait]

theorem State.SameFuncs.refl (s : State) : State.SameFuncs s s := ⟨rfl, rfl, rfl, rfl⟩

section

variable {s t u : State}

theorem State.SameFuncs.same (h : State.SameFuncs s t) (hg : u.global = t.global) (hb : u.boot = t.boot) :
    State.SameFuncs s u :=
  ⟨by rw [hg, h.funcs], by rw [hg, h.orphan], by rw [hb, h.bstate], by rw [hb, h.wait]⟩

theorem State.SameFuncs.ite {c : Prop} [Decidable c] (h : State.SameFuncs s t) (k : State.SameFuncs s u) :
    State.SameFuncs s (if c then t else u) := by
  split
  · exact h
  · exact k

theorem State.SameFuncs.foldl {α : Type} {l : List α} {g : State → α → State} (h : State.SameFuncs s t)
    (hg : ∀ u x, State.SameFuncs s u → State.SameFuncs s (g u x)) : State.SameFuncs s (l.foldl g t) :=
  State.foldl_induct (State.SameFuncs s) l g hg t h

theorem State.log_global (s : State) (c : Code) (x : LogSrc) (a : LogArgs) :
    (s.log c x a).global = (s.noteClass c).global := by
  unfold State.log
  dsimp only
  split
  · rename_i ring _
    obtain ⟨m, e⟩ := (s.noteClass c).foldRecord_parts c x.num a.index ring
    rw [e]
  · obtain ⟨h, o, e⟩ := State.signalLog_parts _ (a.severity.getD (severityOf c))
    rw [e]
    split <;> rfl

theorem State.SameFuncs.log (h : State.SameFuncs s t) (c : Code) (x : LogSrc) (a : LogArgs) :
    State.SameFuncs s (t.log c x a) := by
  have hc : State.SameFuncs s (t.noteClass c) := by
    unfold State.noteClass
    exact .ite ⟨h.funcs, h.orphan, h.bstate, h.wait⟩ h
  refine hc.same (t.log_global c x a) ?_
  rw [State.log_boot]
  unfold State.noteClass
  split <;> rfl

theorem State.SameFuncs.updFrame (h : State.SameFuncs s t) (f : FrameNo) (g : Frame → Frame) :
    State.SameFuncs s (t.updFrame f g) := h.same rfl rfl

theorem State.SameFuncs.wipeBytes (h : State.SameFuncs s t) (a n : Nat) : State.SameFuncs s (t.wipeBytes a n) :=
  h.same rfl rfl

/-! ## The steps of a reset -/

theorem State.SameFuncs.settleLeave (h : State.SameFuncs s t) : State.SameFuncs s t.settleLeave :=
  .ite (h.same rfl rfl) h

theorem State.SameFuncs.leaveOnAbort (h : State.SameFuncs s t) : State.SameFuncs s t.leaveOnAbort :=
  .ite (State.SameFuncs.settleLeave (h.same rfl rfl)) h

theorem State.SameFuncs.quietAborted (h : State.SameFuncs s t) : State.SameFuncs s t.quietAborted :=
  h.same (t.mapFrames_global _) (t.mapFrames_boot _)

theorem State.SameFuncs.updXfer (h : State.SameFuncs s t) (id : Nat) (g : Xfer → Xfer) :
    State.SameFuncs s (t.updXfer id g) := h.same rfl rfl

theorem State.SameFuncs.poisonXfer (h : State.SameFuncs s t) (x : Xfer) : State.SameFuncs s (t.poisonXfer x) :=
  h.same rfl rfl

theorem State.SameFuncs.cancel (h : State.SameFuncs s t) (p : Xfer → Bool) : State.SameFuncs s (t.cancel p) := by
  unfold State.cancel
  extract_lets read poisoned
  have hread : State.SameFuncs s read := h.foldl fun _ _ hu => hu.updXfer _ _
  have hpoisoned : State.SameFuncs s poisoned := hread.foldl fun _ _ hu => hu.poisonXfer _
  exact hpoisoned.same rfl rfl

theorem State.SameFuncs.cutOps (h : State.SameFuncs s t) (f : FrameNo) : State.SameFuncs s (t.cutOps f) := h.same rfl rfl

theorem State.SameFuncs.releaseFrame (h : State.SameFuncs s t) (f : FrameNo) : State.SameFuncs s (t.releaseFrame f) := by
  unfold State.releaseFrame
  extract_lets fr wipes wiped mended
  have hwiped : State.SameFuncs s wiped := h.foldl fun _ _ hu => hu.wipeBytes _ _
  have hmended : State.SameFuncs s mended := hwiped.same rfl rfl
  exact hmended.updFrame _ _

theorem State.SameFuncs.fence (h : State.SameFuncs s t) (f : FrameNo) (cause : BitVec 2) (c : Code) :
    State.SameFuncs s (t.fence f cause c) := by
  unfold State.fence
  refine State.SameFuncs.log ?_ _ _ _
  exact ⟨h.funcs, h.orphan, h.bstate, h.wait⟩

theorem State.SameFuncs.updHostFn (h : State.SameFuncs s t) (n : FuncNo) (g : HostFn → HostFn) :
    State.SameFuncs s (t.updHostFn n g) := h.same rfl rfl

theorem State.SameFuncs.finishRun (h : State.SameFuncs s t) (r : Run) : State.SameFuncs s (t.finishRun r) := by
  unfold State.finishRun
  extract_lets own after cut released fenced ended counted e
  have hcut : State.SameFuncs s cut := .ite (State.SameFuncs.cancel (h.foldl fun _ f hu => hu.cutOps f) _) h
  have hreleased : State.SameFuncs s released := hcut.foldl fun _ f hu => hu.releaseFrame f
  have hfenced : State.SameFuncs s fenced := hreleased.foldl fun _ _ hu => .ite (hu.fence _ _ _) hu
  have hended : State.SameFuncs s ended := hfenced.same rfl rfl
  have hcounted : State.SameFuncs s counted := hended.updHostFn _ _
  have hclosed : State.SameFuncs s (counted.closeRec r.recId) := hcounted.same rfl rfl
  refine .ite hclosed.settleLeave (State.SameFuncs.settleLeave ?_)
  exact hcounted.same (State.complete_global _ _) (State.complete_boot _ _)

theorem State.SameFuncs.dropPrograms (h : State.SameFuncs s t) (n : FuncNo) : State.SameFuncs s (t.dropPrograms n) := by
  unfold State.dropPrograms
  extract_lets aborted left finished
  have haborted : State.SameFuncs s aborted := h.same rfl rfl
  have hleft : State.SameFuncs s left := haborted.quietAborted.leaveOnAbort
  have hfin : State.SameFuncs s finished := hleft.foldl fun _ r hu => hu.finishRun r
  exact hfin.same rfl rfl

theorem State.SameFuncs.wroteSpan (h : State.SameFuncs s t) (c : Fin 4) (a n : Nat) :
    State.SameFuncs s (t.wroteSpan c a n) := .ite h (h.same rfl rfl)

theorem State.SameFuncs.setMem (h : State.SameFuncs s t) (m : List Host.Cell) : State.SameFuncs s { t with mem := m } :=
  h.same rfl rfl

theorem State.SameFuncs.setHostq (h : State.SameFuncs s t) (q : HostQ) : State.SameFuncs s { t with hostq := q } :=
  h.same rfl rfl

theorem State.SameFuncs.freeEntries (h : State.SameFuncs s t) (n : FuncNo) : State.SameFuncs s (t.freeEntries n) := by
  unfold State.freeEntries
  exact State.SameFuncs.setHostq ((h.setMem _).wroteSpan 1 _ _) _

theorem State.SameFuncs.wipeFrame (h : State.SameFuncs s t) (f : FrameNo) : State.SameFuncs s (t.wipeFrame f) := by
  unfold State.wipeFrame
  exact .ite ((h.updFrame _ _).updFrame _ _) (((h.updFrame _ _).wipeBytes _ _).updFrame _ _)

theorem State.SameFuncs.startWipe (h : State.SameFuncs s t) (k : WipeKind) (a n : Nat) :
    State.SameFuncs s (t.startWipe k a n) := .ite h (h.same rfl rfl)

theorem State.SameFuncs.dropSessions (h : State.SameFuncs s t) (n : FuncNo) : State.SameFuncs s (t.dropSessions n) :=
  h.same rfl rfl

theorem State.SameFuncs.dropSpans (h : State.SameFuncs s t) (n : FuncNo) (all : Bool) :
    State.SameFuncs s (t.dropSpans n all) := by
  unfold State.dropSpans
  extract_lets part wins spans hits wiped layer set
  have hwiped : State.SameFuncs s wiped := h.foldl fun _ _ hu => hu.startWipe _ _ _
  exact (hwiped.dropSessions n).same rfl rfl

/-- A reset takes its function away and leaves the others' registers and the host port as they were. -/
theorem State.resetFunc_parts (s : State) (n : FuncNo) (all : Bool) : ∃ t g, State.SameFuncs s t ∧
    (g t.global.funcs[n]).enable = false ∧ (g t.global.funcs[n]).enabling = false ∧ s.resetFunc n all = t.updFunc n g := by
  unfold State.resetFunc
  extract_lets g regs freed wiped spans part started
  have hregs : State.SameFuncs s regs := (State.SameFuncs.refl s).updHostFn _ _
  have hfreed : State.SameFuncs s freed := (hregs.dropPrograms n).freeEntries n
  have hwiped : State.SameFuncs s wiped := hfreed.foldl fun _ _ hu => .ite (hu.updFrame _ _) ((hu.updFrame _ _).wipeFrame _)
  have hstarted : State.SameFuncs s started := (hwiped.dropSpans n all).startWipe _ _ _
  exact ⟨started, _, hstarted, rfl, rfl, rfl⟩

end

/-! ## A function that is off stays off -/

/-- Function `m` is not enabled, and no enable of it is under way. -/
def State.FuncOff (m : FuncNo) (s : State) : Prop :=
  s.global.funcs[m].enable = false ∧ s.global.funcs[m].enabling = false

/-- What a step of a reset other than that of function `m` keeps: the service of the host port, and `m` off or not yet
resetting, as it was. -/
structure State.KeepsOff (m : FuncNo) (s t : State) : Prop where
  hostOk : t.hostOk = s.hostOk
  off : s.FuncOff m → t.FuncOff m
  resetting : s.global.funcs[m].resetting = false → t.global.funcs[m].resetting = false

theorem State.KeepsOff.refl (m : FuncNo) (s : State) : s.KeepsOff m s := ⟨rfl, id, id⟩

theorem State.KeepsOff.trans {m : FuncNo} {s t u : State} (h : s.KeepsOff m t) (k : t.KeepsOff m u) : s.KeepsOff m u :=
  ⟨k.hostOk.trans h.hostOk, fun x => k.off (h.off x), fun x => k.resetting (h.resetting x)⟩

theorem State.SameFuncs.keepsOff {s t : State} (h : s.SameFuncs t) (m : FuncNo) : s.KeepsOff m t :=
  ⟨h.hostOk, fun x => by rwa [State.FuncOff, h.funcs], fun x => by rwa [h.funcs]⟩

/-- Function `n`'s registers change, and `m`, where it is that function, neither comes on nor begins a reset. -/
theorem State.keepsOff_updFunc (s : State) (m n : FuncNo) (g : Func → Func)
    (hoff : s.FuncOff n → (s.updFunc n g).FuncOff n)
    (hr : m = n → s.global.funcs[n].resetting = false → (g s.global.funcs[n]).resetting = false) :
    s.KeepsOff m (s.updFunc n g) := by
  by_cases h : m = n
  · subst h
    refine ⟨rfl, hoff, fun x => ?_⟩
    rw [State.updFunc_same]
    exact hr rfl x
  · refine ⟨rfl, fun x => ?_, fun x => ?_⟩
    · rwa [State.FuncOff, State.updFunc_other _ _ _ _ h]
    · rwa [State.updFunc_other _ _ _ _ h]

/-- The end of a wait for wipes enables only a function whose enable was under way. -/
theorem State.keepsOff_settleFunc (s : State) (m n : FuncNo) : s.KeepsOff m (s.settleFunc n) := by
  unfold State.settleFunc
  extract_lets g clear sealed
  split
  · rename_i h
    rw [Bool.and_eq_true] at h
    refine s.keepsOff_updFunc m n (fun g => { g with enabling := false, busy := false, enable := true })
      (fun x => absurd h.1 ?_) fun _ x => x
    rw [show g.enabling = false from x.2]
    decide
  · split
    · refine State.KeepsOff.trans (s.keepsOff_updFunc m n (fun g => { g with resetting := false, busy := false })
        (fun x => ?_) fun _ _ => rfl) ⟨rfl, id, id⟩
      rw [State.FuncOff, State.updFunc_same]
      exact x
    · exact .refl m s

theorem State.keepsOff_settle (s : State) (m : FuncNo) : s.KeepsOff m s.settle :=
  State.foldl_induct (s.KeepsOff m) _ _ (fun t n h => h.trans (t.keepsOff_settleFunc m n)) s (.refl m s)

/-- The reset of function `n` takes it away. -/
theorem State.resetFunc_off (s : State) (n : FuncNo) (all : Bool) :
    (s.resetFunc n all).hostOk = s.hostOk ∧ (s.resetFunc n all).FuncOff n := by
  obtain ⟨t, g, ht, he, hn, e⟩ := s.resetFunc_parts n all
  rw [e]
  refine ⟨ht.hostOk, ?_⟩
  rw [State.FuncOff, State.updFunc_same]
  exact ⟨he, hn⟩

theorem State.keepsOff_resetFunc (s : State) (m n : FuncNo) (all : Bool) (h : m ≠ n) :
    s.KeepsOff m (s.resetFunc n all) := by
  obtain ⟨t, g, ht, he, hn, e⟩ := s.resetFunc_parts n all
  rw [e]
  refine (ht.keepsOff m).trans (t.keepsOff_updFunc m n g (fun _ => ?_) fun hm => absurd hm h)
  rw [State.FuncOff, State.updFunc_same]
  exact ⟨he, hn⟩

theorem afterCmd_next (s t : State) : afterCmd s (.next t) = t := rfl

/-- The state after a FUNCTION_RESET. -/
def State.afterReset (s : State) (n : FuncNo) : State := afterCmd s (execFunctionReset n s)

theorem State.afterReset_eq (s : State) (n : FuncNo) : s.afterReset n =
    if (n.val = 0 || s.global.funcs[n].resetting) = true then s
    else if (s.hostOk && (s.global.funcs[n].enable || s.global.funcs[n].enabling)) = true then (s.resetFunc n false).settle
    else (if s.hostOk then s.dropSessions n else s).emit (.flr n.val) := by
  unfold State.afterReset execFunctionReset
  dsimp only
  rw [apply_ite (afterCmd s), apply_ite (afterCmd s), afterCmd_next, afterCmd_next, afterCmd_next]

theorem State.keepsOff_dropSessions (s : State) (m n : FuncNo) (o : OutEvt) :
    s.KeepsOff m ((if s.hostOk then s.dropSessions n else s).emit o) :=
  State.SameFuncs.keepsOff (State.SameFuncs.same
    (.ite ((State.SameFuncs.refl s).dropSessions n) (State.SameFuncs.refl s)) (State.emit_global _ _) (State.emit_boot _ _)) m

/-- Another function's reset leaves `m` as it was. -/
theorem State.keepsOff_afterReset (s : State) (m n : FuncNo) (h : m ≠ n) : s.KeepsOff m (s.afterReset n) := by
  rw [State.afterReset_eq]
  split
  · exact .refl m s
  · split
    · exact (s.keepsOff_resetFunc m n false h).trans (State.keepsOff_settle _ m)
    · exact s.keepsOff_dropSessions m n _

/-- A VF's own reset, where none is under way, takes it away; one that is off stays off. -/
theorem State.afterReset_off (s : State) (n : FuncNo) (hn : n.val ≠ 0) (hok : s.hostOk = true)
    (h : s.FuncOff n ∨ s.global.funcs[n].resetting = false) :
    (s.afterReset n).hostOk = true ∧ (s.afterReset n).FuncOff n := by
  rw [State.afterReset_eq]
  by_cases hr : s.global.funcs[n].resetting = true
  · rw [if_pos (by rw [hr, Bool.or_true])]
    exact ⟨hok, h.resolve_right (by rw [hr]; decide)⟩
  rw [if_neg (by simpa [hn] using hr)]
  by_cases hon : (s.hostOk && (s.global.funcs[n].enable || s.global.funcs[n].enabling)) = true
  · rw [if_pos hon]
    obtain ⟨hok', hoff⟩ := s.resetFunc_off n false
    have hs := (s.resetFunc n false).keepsOff_settle n
    exact ⟨hs.hostOk.trans (hok'.trans hok), hs.off hoff⟩
  · rw [if_neg hon]
    have hoff : s.FuncOff n := by
      rw [hok, Bool.true_and, Bool.or_eq_true, not_or, Bool.not_eq_true, Bool.not_eq_true] at hon
      exact hon
    have hd := s.keepsOff_dropSessions n n (.flr n.val)
    exact ⟨hd.hostOk.trans hok, hd.off hoff⟩

/-- Once off, a VF stays off while others, and it again, are reset. -/
theorem State.resets_keep_off (l : List FuncNo) (m : FuncNo) (hm : m.val ≠ 0) (s : State) (hok : s.hostOk = true)
    (h : s.FuncOff m) : (l.foldl State.afterReset s).FuncOff m := by
  induction l generalizing s with
  | nil => exact h
  | cons n l ih =>
    by_cases hmn : m = n
    · subst hmn
      obtain ⟨hok', hoff⟩ := s.afterReset_off m hm hok (.inl h)
      exact ih _ hok' hoff
    · have hk := s.keepsOff_afterReset m n hmn
      exact ih _ (hk.hostOk.trans hok) (hk.off h)

/-- A VF among those that are reset, no reset of it under way, is off after them. -/
theorem State.resets_take_off (l : List FuncNo) (m : FuncNo) (hm : m.val ≠ 0) (hl : m ∈ l) (s : State)
    (hok : s.hostOk = true) (h : s.global.funcs[m].resetting = false) : (l.foldl State.afterReset s).FuncOff m := by
  induction l generalizing s with
  | nil => exact absurd hl List.not_mem_nil
  | cons n l ih =>
    by_cases hmn : m = n
    · subst hmn
      obtain ⟨hok', hoff⟩ := s.afterReset_off m hm hok (.inr h)
      exact State.resets_keep_off l m hm _ hok' hoff
    · have hk := s.keepsOff_afterReset m n hmn
      exact ih ((List.mem_cons.1 hl).resolve_left hmn) _ (hk.hostOk.trans hok) (hk.resetting h)

/-- A write of configuration space resets the VFs that it takes away (R446; log entry 86). -/
theorem State.configure_takesVfs (s : State) (l : HostLink) (hup : s.boot.linkUp = true) (hok : s.hostOk = true) :
    (s.configure l).global.link = fitLink l ∧ ∀ m, s.present m = true → l.numVfs.val < m.val →
      s.global.funcs[m].resetting = false → (s.configure l).global.funcs[m].enable = false := by
  unfold State.configure
  rw [if_neg (by simp [hup])]
  dsimp only
  rw [if_pos hok]
  refine ⟨rfl, fun m hp hlt hr => ?_⟩
  obtain ⟨hoff, -⟩ := State.resets_take_off ((List.finRange 64).filter fun n => l.numVfs.val < n.val && s.present n) m
    (by omega) (List.mem_filter.2 ⟨List.mem_finRange m, by rw [hp]; simpa using hlt⟩) s hok hr
  exact hoff

end Sys2Proof.Machine
end

section

namespace Sys2Proof.Machine

open Sys2Proof

/-- Settles O52: a register is read and written where the access goes, and nowhere else. -/
theorem registersAreReadAndWritten : Obligations.RegistersAreReadAndWritten := by
  unfold Obligations.RegistersAreReadAndWritten
  refine ⟨fun s n tag v h => ⟨?frames, fun ep he => ?set, fun he => ?locked⟩, ?unpowered, ?notHeld,
    fun s tag h => ⟨?countLow, fun v hl => ?countHigh⟩, fun s n o w tag v ep => ⟨fun ha hn hr => ⟨?readOff, ?orphan, ?writeOff⟩,
      fun ha => ⟨?readIll, ?writeIll⟩⟩, fun s n o w v ep l ha => ⟨?linkDown, ?linkKeeps, ?linkTakes⟩⟩
  case frames => exact exec_registerRead_frames s n tag h
  case set => exact completes_registerWrite_frames s n v ep h he
  case locked =>
    rw [exec_registerWrite_frames s n v false h]
    exact congrArg Host.Outcome.next
      (State.updFunc_eq_self s n (fun u => if u.enable then u else { u with frames := v }) (if_pos he))
  case unpowered => exact completes_registerRead_unpowered
  case notHeld =>
    intro s n f k tag h hn he hp hf hk
    exact exec_registerRead_notHeld s n f k tag h hn he hp hf hk
  case countLow => exact completes_registerRead_countLow s tag h
  case countHigh => exact completes_registerRead_countHigh s tag h v hl
  case readOff => exact exec_registerRead_unsupported tag ha hn hr
  case orphan => exact exec_registerWrite_orphan v ep ha
  case writeOff => exact exec_registerWrite_unsupported v ep ha hn hr
  case readIll => exact exec_registerRead_illFormed s n tag ha
  case writeIll => exact exec_registerWrite_illFormed s n _ ha
  case linkDown =>
    intro h
    rw [exec_registerWrite_config v ep l ha, State.configure_linkDown l h]
  case linkKeeps =>
    intro h hv
    rw [exec_registerWrite_config v ep l ha, State.configure_keepsVfs l h hv]
  case linkTakes =>
    intro h hok
    exact ⟨_, exec_registerWrite_config v ep l ha, s.configure_takesVfs l h hok⟩

end Sys2Proof.Machine
end

section
/-!
SUPPORT. How a mailbox command ends: its answer, the LNE that goes on, and what neither of them touches (R510, R511, R524).
-/

namespace Sys2Proof.Machine

open Sys2Proof

/-- What the end of a mailbox command leaves alone. -/
structure State.Leaves (s t : State) : Prop where
  mem : t.mem = s.mem
  vis : t.vis = s.vis
  frames : t.frames = s.frames
  boot : t.boot = s.boot
  sessions : t.lne.sessions = s.lne.sessions
  orphanWait : t.global.fault.orphanWait = s.global.fault.orphanWait
  staging : t.mgmt.staging = s.mgmt.staging
  nonce : t.mgmt.nonce = s.mgmt.nonce

/-- What the LNE's going on leaves alone: the mailbox's channels too. -/
structure State.Quiet (s t : State) : Prop extends State.Leaves s t where
  mb : t.mgmt.mb = s.mgmt.mb

/-- What a command's own work, before its end, leaves alone: the memories, and what waits for the LNE. -/
structure State.SameWaits (s t : State) : Prop where
  mem : t.mem = s.mem
  vis : t.vis = s.vis
  resetWait : t.boot.resetWait = s.boot.resetWait
  orphanWait : t.global.fault.orphanWait = s.global.fault.orphanWait

theorem State.SameWaits.refl (s : State) : s.SameWaits s := ⟨rfl, rfl, rfl, rfl⟩

theorem State.Leaves.refl (s : State) : s.Leaves s := ⟨rfl, rfl, rfl, rfl, rfl, rfl, rfl, rfl⟩

theorem State.Quiet.refl (s : State) : s.Quiet s := ⟨.refl s, rfl⟩

section

variable {s t u : State}

theorem State.Leaves.trans (h : s.Leaves t) (k : t.Leaves u) : s.Leaves u :=
  ⟨k.mem.trans h.mem, k.vis.trans h.vis, k.frames.trans h.frames, k.boot.trans h.boot, k.sessions.trans h.sessions,
    k.orphanWait.trans h.orphanWait, k.staging.trans h.staging, k.nonce.trans h.nonce⟩

theorem State.Quiet.trans (h : s.Quiet t) (k : t.Quiet u) : s.Quiet u :=
  ⟨h.toLeaves.trans k.toLeaves, k.mb.trans h.mb⟩

theorem State.SameWaits.trans (h : s.SameWaits t) (k : t.SameWaits u) : s.SameWaits u :=
  ⟨k.mem.trans h.mem, k.vis.trans h.vis, k.resetWait.trans h.resetWait, k.orphanWait.trans h.orphanWait⟩

theorem State.Leaves.sameWaits (h : s.Leaves t) : s.SameWaits t := ⟨h.mem, h.vis, by rw [h.boot], h.orphanWait⟩

theorem State.SameWaits.sameMemory (h : s.SameWaits t) : SameMemory s t :=
  ⟨fun a => by rw [h.mem], fun a => by rw [h.vis]⟩

theorem State.Leaves.sameMemory (h : s.Leaves t) : SameMemory s t := h.sameWaits.sameMemory

/-! ## The event log and the random source -/

theorem State.leaves_signal (s : State) (f : FuncNo) (v : Nat) : s.Leaves (s.signal f v) := by
  obtain ⟨h, o, e⟩ := s.signal_parts f v
  rw [e]
  exact ⟨rfl, rfl, rfl, rfl, rfl, rfl, rfl, rfl⟩

theorem State.leaves_noteClass (s : State) (c : Code) : s.Leaves (s.noteClass c) := by
  unfold State.noteClass
  split
  · exact ⟨rfl, rfl, rfl, rfl, rfl, rfl, rfl, rfl⟩
  · exact .refl s

theorem State.leaves_noteEvent (s : State) (c : Code) (q : BitVec 32) : s.Leaves (s.noteEvent c q) :=
  ⟨rfl, rfl, rfl, rfl, rfl, rfl, rfl, rfl⟩

theorem State.leaves_foldRecord (s : State) (c : Code) (x i : Nat) (l : List LogRec) : s.Leaves (s.foldRecord c x i l) := by
  unfold State.foldRecord
  dsimp only
  have hring : s.Leaves { s with mgmt := { s.mgmt with ring := l } } := ⟨rfl, rfl, rfl, rfl, rfl, rfl, rfl, rfl⟩
  split
  · split
    · exact hring.trans (State.leaves_noteEvent _ _ _)
    · exact hring
  · exact hring

theorem State.leaves_signalLog (s : State) (n : Nat) : s.Leaves (s.signalLog n) := by
  unfold State.signalLog
  split
  · exact s.leaves_signal _ _
  · exact .refl s

theorem State.leaves_log (s : State) (c : Code) (x : LogSrc) (a : LogArgs) : s.Leaves (s.log c x a) := by
  unfold State.log
  dsimp only
  refine (s.leaves_noteClass c).trans ?_
  split
  · exact State.leaves_foldRecord _ _ _ _ _
  · have hnew (u : State) (n : Nat) : u.Leaves (u.newRecord c x a n) := ⟨rfl, rfl, rfl, rfl, rfl, rfl, rfl, rfl⟩
    refine State.Leaves.trans ?_ (State.leaves_signalLog _ _)
    split
    · exact (hnew _ _).trans (State.leaves_noteEvent _ _ _)
    · exact hnew _ _

theorem State.leaves_setDrbg (s : State) (k : Nat) (d : Drbg) : s.Leaves (s.setDrbg k d) := by
  unfold State.setDrbg
  split
  · exact ⟨rfl, rfl, rfl, rfl, rfl, rfl, rfl, rfl⟩
  · exact .refl s

theorem State.leaves_raw (s : State) : s.Leaves s.raw.2 := ⟨rfl, rfl, rfl, rfl, rfl, rfl, rfl, rfl⟩

theorem State.leaves_entropyFail (s : State) : s.Leaves s.entropyFail :=
  (s.leaves_log _ _ _).trans ⟨rfl, rfl, rfl, rfl, rfl, rfl, rfl, rfl⟩

theorem State.leaves_reseedDrbg (s : State) (k : Nat) : s.Leaves (s.reseedDrbg k) := by
  unfold State.reseedDrbg
  dsimp only
  split
  · exact s.leaves_setDrbg _ _
  · split
    · exact s.leaves_raw.trans (State.leaves_setDrbg _ _ _)
    · exact (s.leaves_raw.trans (State.leaves_entropyFail _)).trans (State.leaves_setDrbg _ _ _)

theorem State.leaves_drbgDraw (s : State) (k : Nat) : s.Leaves (s.drbgDraw k).2 := by
  unfold State.drbgDraw
  extract_lets s' d
  have hs : s.Leaves s' := by
    unfold s'
    split
    · exact s.leaves_reseedDrbg k
    · exact .refl s
  split
  · exact hs
  · exact hs.trans (State.leaves_setDrbg _ _ _)

theorem State.leaves_security (s : State) : s.Leaves s.security.2 := by
  have hd := s.leaves_drbgDraw 2
  unfold State.security
  split
  · rename_i e
    rwa [e] at hd
  · rename_i e
    rw [e] at hd
    exact hd.trans (State.leaves_log _ _ _ _)

/-! ## The LNE -/

theorem State.quiet_settleFunc (s : State) (n : FuncNo) : s.Quiet (s.settleFunc n) := by
  unfold State.settleFunc
  extract_lets g clear sealed
  split
  · exact ⟨⟨rfl, rfl, rfl, rfl, rfl, rfl, rfl, rfl⟩, rfl⟩
  · split
    · exact ⟨⟨rfl, rfl, rfl, rfl, rfl, rfl, rfl, rfl⟩, rfl⟩
    · exact .refl s

theorem State.quiet_settle (s : State) : s.Quiet s.settle :=
  State.foldl_induct s.Quiet _ _ (fun t n h => h.trans (t.quiet_settleFunc n)) s (.refl s)

theorem State.quiet_lneNext (s : State) : s.Quiet s.lneNext := by
  unfold State.lneNext
  refine State.Quiet.trans ?_ (State.quiet_settle _)
  split
  · split
    · exact .refl s
    · exact ⟨⟨rfl, rfl, rfl, rfl, rfl, rfl, rfl, rfl⟩, rfl⟩
  · exact .refl s

/-- Where neither a device reset nor the orphan sequence waits for the LNE. -/
theorem State.quiet_lneFree (s : State) (hr : s.boot.resetWait = none) (ho : s.global.fault.orphanWait = none) :
    s.Quiet s.lneFree := by
  have hended : s.Quiet { s with lne := { s.lne with running := none } } :=
    ⟨⟨rfl, rfl, rfl, rfl, rfl, rfl, rfl, rfl⟩, rfl⟩
  unfold State.lneFree
  dsimp only
  rw [hr, ho]
  exact hended.trans (State.quiet_lneNext _)

theorem State.quiet_lneAccept (s : State) (x : LneOp) : s.Quiet (s.lneAccept x) := by
  unfold State.lneAccept
  split <;> exact ⟨⟨rfl, rfl, rfl, rfl, rfl, rfl, rfl, rfl⟩, rfl⟩

theorem State.quiet_kick (s : State) : s.Quiet s.kick := by
  have hsince : s.Quiet { s with mgmt := { s.mgmt with lneSince := some s.tally.up } } :=
    ⟨⟨rfl, rfl, rfl, rfl, rfl, rfl, rfl, rfl⟩, rfl⟩
  unfold State.kick
  split
  · split
    · exact hsince.trans (State.quiet_lneAccept _ _)
    · exact .refl s
  · exact .refl s

/-! ## The answer -/

theorem State.MbAnswered.congr {c : Fin 2} {r : Nat} {bytes : List Byte} (h : s.MbAnswered c r bytes)
    (e : t.mgmt.mb = s.mgmt.mb) : t.MbAnswered c r bytes := by
  unfold State.MbAnswered
  rw [e]
  exact h

/-- A channel of the mailbox as its answer leaves it. -/
theorem State.endMailbox_mb (s : State) (c : Fin 2) (r : Nat) (bytes : List Byte) :
    s.Leaves (s.endMailbox c r bytes) ∧ (s.endMailbox c r bytes).mgmt.mb = s.mgmt.mb.set c { s.mgmt.mb[c] with
      busy := false, done := true, result := BitVec.ofNat 4 r, rlen := BitVec.ofNat 13 bytes.length
      data := bytes ++ s.mgmt.mb[c].data.drop bytes.length } := by
  unfold State.endMailbox
  rw [dif_pos c.isLt]
  dsimp only
  split
  · exact ⟨⟨rfl, rfl, rfl, rfl, rfl, rfl, rfl, rfl⟩, rfl⟩
  · split
    · refine ⟨.trans ?_ (State.leaves_signal _ _ _), ?_⟩
      · exact ⟨rfl, rfl, rfl, rfl, rfl, rfl, rfl, rfl⟩
      · rw [State.signal_mgmt]
        rfl
    · exact ⟨⟨rfl, rfl, rfl, rfl, rfl, rfl, rfl, rfl⟩, rfl⟩

theorem State.endMailbox_answered (s : State) (c : Fin 2) (r : Nat) (bytes : List Byte) :
    (s.endMailbox c r bytes).MbAnswered c r bytes := by
  unfold State.MbAnswered
  rw [(s.endMailbox_mb c r bytes).2]
  simp

/-! ## A command that is served, and one that has waited too long -/

/-- A request in hand is answered as its command says; nothing else that a command can have changed is touched then. -/
theorem State.MbServes.serve {op : Nat} {c : Fin 2} {req : List Byte} {lenOk : Nat → Bool}
    {body : List Byte → State → MbAnswer} {r : Nat} {bytes : List Byte} (h : s.MbServes op c req)
    (hl : lenOk req.length = true) (ha : body req s = (r, bytes, u)) (hu : s.SameWaits u) :
    ∃ t, s.serve op lenOk body = .next t ∧ t.MbAnswered c r bytes ∧ u.Leaves t := by
  obtain ⟨hfront, hserving, hstate, hwait, horphan, hallowed, hlen, hreq⟩ := h
  have hend := (u.endMailbox_mb c r bytes).1
  unfold State.serve
  rw [hfront]
  dsimp only
  rw [if_pos ⟨rfl, hserving⟩, if_neg (show ¬(s.boot.state = .recovery ∧ (!mbRecovery op) = true) from fun k => hstate k.1),
    hallowed, ← hreq, ← hlen, hl]
  simp only [Bool.not_true, Bool.false_eq_true, if_false, ha]
  refine ⟨_, rfl, ?_⟩
  have hfree : (u.endMailbox c r bytes).Quiet
      (if usesLne op && (u.endMailbox c r bytes).lneMine then (u.endMailbox c r bytes).lneFree else u.endMailbox c r bytes) := by
    split
    · exact State.quiet_lneFree _ (by rw [hend.boot, hu.resetWait, hwait]) (by rw [hend.orphanWait, hu.orphanWait, horphan])
    · exact .refl _
  have hquiet := hfree.trans (State.quiet_kick _)
  exact ⟨(u.endMailbox_answered c r bytes).congr hquiet.mb, hend.trans hquiet.toLeaves⟩

theorem State.serving_of_lneLate {op : Nat} (h : s.lneLate op = true) : s.serving op = false := by
  unfold State.lneLate at h
  simp only [Bool.and_eq_true, Bool.not_eq_true'] at h
  obtain ⟨⟨⟨⟨huses, halive⟩, -⟩, hmine⟩, -⟩ := h
  simp [State.serving, huses, halive, hmine]

/-- A command that has waited 100 ms for the LNE is answered BUSY_LNE (R511; log entry 34). -/
theorem State.serve_late {op : Nat} {c : Fin 2} {lenOk : Nat → Bool} {body : List Byte → State → MbAnswer}
    (hfront : s.mbFront = some (c, op)) (hlate : s.lneLate op = true) :
    ∃ t, s.serve op lenOk body = .next t ∧ t.MbAnswered c 8 [] ∧ s.Leaves t := by
  unfold State.serve
  rw [hfront]
  dsimp only
  rw [if_neg (by simp [State.serving_of_lneLate hlate]), if_pos ⟨rfl, hlate⟩]
  refine ⟨_, rfl, (State.endMailbox_answered _ c 8 []).congr (State.quiet_kick _).mb, ?_⟩
  have hwaiting : s.Leaves { s with lne := { s.lne with waiting := s.lne.waiting.filter (·.pf) } } :=
    ⟨rfl, rfl, rfl, rfl, rfl, rfl, rfl, rfl⟩
  exact (hwaiting.trans (State.endMailbox_mb _ c 8 []).1).trans (State.quiet_kick _).toLeaves

/-- A command of the mailbox that is served: what its request leaves, and its answer, decide what holds after it. -/
theorem State.MbServes.completes {i : Instr} {op : Nat} {c : Fin 2} {req : List Byte} {lenOk : Nat → Bool}
    {body : List Byte → State → MbAnswer} {r : Nat} {bytes : List Byte} {P : State → Prop}
    (he : exec i s = s.serve op lenOk body) (h : s.MbServes op c req) (hl : lenOk req.length = true)
    (ha : body req s = (r, bytes, u)) (hu : s.SameWaits u)
    (hP : ∀ t, t.MbAnswered c r bytes → u.Leaves t → SameMemory s t → P t) : Completes i s P := by
  obtain ⟨t, e, hans, hleaves⟩ := h.serve (lenOk := lenOk) hl ha hu
  exact ⟨t, he.trans e, hP t hans hleaves (hu.trans hleaves.sameWaits).sameMemory⟩

end

end Sys2Proof.Machine
end

section
/-!
SUPPORT. What the requests of the mailbox's firmware, lifecycle and session commands do (R515, R516, R526 to R530).
-/

namespace Sys2Proof.Machine

open Sys2Proof

variable {s u : State} {ch : Fin 2} {req : List Byte}

/-! ## Firmware update (R528 to R530) -/

/-- The staging in progress becomes another, or none. -/
def State.setStaging (s : State) (g : Option Staging) : State := { s with mgmt := { s.mgmt with staging := g } }

theorem State.sameWaits_setStaging (s : State) (g : Option Staging) : s.SameWaits (s.setStaging g) := ⟨rfl, rfl, rfl, rfl⟩

theorem State.stage_eq_some {comp size : Nat} (h1 : 1 ≤ comp) (h3 : comp ≤ 3)
    (hfits : size ≤ (s.slotSpan comp (s.freeSlot comp)).2) :
    s.stage comp size = some (s.setStaging (some { comp, slot := s.freeSlot comp, size })) :=
  if_neg (by omega)

theorem completes_fwBegin (h : s.MbServes 0x10 ch req) (hlen : req.length = 5) (h1 : 1 ≤ reqNat req 0 1)
    (h3 : reqNat req 0 1 ≤ 3) (hsize : reqNat req 1 4 ≠ 0)
    (hfits : reqNat req 1 4 ≤ (s.slotSpan (reqNat req 0 1) (s.freeSlot (reqNat req 0 1))).2) :
    Completes .fwBegin s fun t => t.MbAnswered ch 0 [] ∧ SameMemory s t ∧
      t.mgmt.staging = some { comp := reqNat req 0 1, slot := s.freeSlot (reqNat req 0 1), size := reqNat req 1 4 } :=
  h.completes (execFwBegin.eq_1 s) (r := 0) (bytes := []) (by simp [hlen])
    (by simp only [State.stage_eq_some h1 h3 hfits, if_neg hsize]) (s.sameWaits_setStaging _)
    fun _ hans hl hm => ⟨hans, hm, hl.staging⟩

theorem completes_fwBegin_zero (h : s.MbServes 0x10 ch req) (hlen : req.length = 5) (h1 : 1 ≤ reqNat req 0 1)
    (h3 : reqNat req 0 1 ≤ 3) (hsize : reqNat req 1 4 = 0) :
    Completes .fwBegin s fun t => t.MbAnswered ch 0 [] ∧ SameMemory s t ∧ t.mgmt.staging = s.mgmt.staging :=
  h.completes (execFwBegin.eq_1 s) (r := 0) (bytes := []) (by simp [hlen])
    (by simp only [State.stage_eq_some h1 h3 (hsize ▸ Nat.zero_le _), if_pos hsize]) (.refl s)
    fun _ hans hl hm => ⟨hans, hm, hl.staging⟩

theorem completes_fwWrite {g : Staging} (h : s.MbServes 0x11 ch req) (hlo : 5 ≤ req.length) (hhi : req.length ≤ 4092)
    (hg : s.mgmt.staging = some g) (hfits : reqNat req 0 4 + (req.length - 4) ≤ g.size) :
    Completes .fwWrite s fun t => t.MbAnswered ch 0 [] ∧ t.mgmt.staging = some { g with verified := false } ∧
      SameMemory s t ∧
      t.boot.flash = memWriteN s.boot.flash ((s.slotSpan g.comp g.slot).1 + reqNat req 0 4) ((req.drop 4).map (~~~ ·)) := by
  have hlen : (req.drop 4).length = req.length - 4 := List.length_drop
  have hsome : req.drop 4 ≠ [] := List.ne_nil_of_length_pos (by omega)
  refine h.completes (execFwWrite.eq_1 s) (r := 0) (bytes := [])
    (u := (s.flashWrite ((s.slotSpan g.comp g.slot).1 + reqNat req 0 4) (req.drop 4)).setStaging (some { g with verified := false }))
    (by simp; omega) ?body ⟨rfl, rfl, rfl, rfl⟩ fun t hans hl hm => ⟨hans, hl.staging, hm, congrArg Boot.flash hl.boot⟩
  case body =>
    simp only [hg, hlen, if_neg (Nat.not_lt.2 hfits), if_neg hsome]
    rfl

theorem State.sameWaits_commitSlot (s : State) (k : Fin 3) (g : SlotState → SlotState) : s.SameWaits (s.commitSlot k g) :=
  ⟨rfl, rfl, rfl, rfl⟩

theorem State.sameWaits_markFailed (s : State) (comp slot : Nat) : s.SameWaits (s.markFailed comp slot) :=
  s.sameWaits_commitSlot _ _

theorem State.codeError_lt (s : State) (comp slot : Nat) : s.codeError comp slot < 16 := by
  unfold State.codeError
  extract_lets
  split
  · decide
  · split <;> decide

/-- A check of a staging: its RESULT, and the staging verified exactly where that is 0. -/
theorem State.verifyStaged_spec (s : State) (g : Staging) : (s.verifyStaged g).1 < 16 ∧
    (s.verifyStaged g).2.mgmt.staging = some { g with verified := decide ((s.verifyStaged g).1 = 0) } ∧
    s.SameWaits (s.verifyStaged g).2 := by
  unfold State.verifyStaged
  extract_lets e
  have he : e < 16 := by
    unfold e
    split
    · split <;> decide
    · exact s.codeError_lt _ _
  split
  · exact ⟨by norm_num, rfl, (s.sameWaits_commitSlot _ _).trans (State.sameWaits_setStaging _ _)⟩
  · rename_i hne
    have hlogged : s.SameWaits (if e = 1 then s else s.log Codes.firmwareRejected .reckoner { index := g.comp }) := by
      split
      · exact .refl s
      · exact (s.leaves_log _ _ _).sameWaits
    refine ⟨he, by simp [hne], ?_⟩
    exact (hlogged.trans (State.sameWaits_markFailed _ _ _)).trans (State.sameWaits_setStaging _ _)

theorem completes_fwVerify {g : Staging} (h : s.MbServes 0x12 ch req) (hlen : req.length = 0) (hg : s.mgmt.staging = some g) :
    Completes .fwVerify s fun t => ∃ e bytes, e < 16 ∧ t.MbAnswered ch e bytes ∧
      t.mgmt.staging = some { g with verified := decide (e = 0) } ∧ SameMemory s t := by
  obtain ⟨hlt, hstaging, hwaits⟩ := s.verifyStaged_spec g
  refine h.completes (execFwVerify.eq_1 s) (by simp [hlen]) (by rw [hg]) hwaits ?_
  exact fun t hans hl hm => ⟨_, _, hlt, hans, hl.staging.trans hstaging, hm⟩

theorem completes_fwActivate {g : Staging} (h : s.MbServes 0x13 ch req) (hlen : req.length = 1) (hmode : reqNat req 0 1 = 0)
    (hg : s.mgmt.staging = some g) (hv : g.verified = true) : Completes .fwActivate s fun t =>
      t.MbAnswered ch 0 [] ∧ t.mgmt.staging = none ∧ t.boot.slots[compIndex g.comp].trial = g.slot + 1 ∧ SameMemory s t := by
  refine h.completes (u := s.activate g false) (r := 0) (bytes := []) (execFwActivate.eq_1 s) (by simp [hlen])
    (by simp [hmode, hg, hv]) ⟨rfl, rfl, rfl, rfl⟩ ?_
  intro t hans hl hm
  refine ⟨hans, hl.staging, ?_, hm⟩
  rw [hl.boot]
  exact congrArg SlotState.trial (Vector.getElem_set_self _)

theorem completes_fwCommitSvn (h : s.MbServes 0x14 ch req) (hlen : req.length = 1) (hcomp : reqNat req 0 1 = 1)
    (hsvn : (s.slotVersion 1 (s.slots 1).committed).2 ≤ 64) : Completes .fwCommitSvn s fun t =>
      t.boot.fuses.fwCounter = max s.boot.fuses.fwCounter (s.slotVersion 1 (s.slots 1).committed).2 ∧
      t.MbAnswered ch 0 [BitVec.ofNat 8 t.boot.fuses.fwCounter] ∧ SameMemory s t := by
  refine h.completes (execFwCommitSvn.eq_1 s) (r := 0) (u := { s with boot := { s.boot with fuses := { s.boot.fuses with
      fwCounter := max s.boot.fuses.fwCounter (s.slotVersion 1 (s.slots 1).committed).2 } } })
    (bytes := [BitVec.ofNat 8 (max s.boot.fuses.fwCounter (s.slotVersion 1 (s.slots 1).committed).2)])
    (by simp [hlen]) (by simp only [hcomp, hsvn, and_self, if_true]) ⟨rfl, rfl, rfl, rfl⟩ ?_
  intro t hans hl hm
  rw [hl.boot]
  exact ⟨rfl, hans, hm⟩

theorem completes_trialCommit (ht : s.mgmt.trial = true) (ha : s.mgmt.alive = true)
    (hup : s.mgmt.aliveUp + 60000000000 ≤ s.tally.up) : Completes .trialCommit s fun t => t.mgmt.trial = false ∧
      t.boot.slots[(0 : Fin 3)].trial = 0 ∧ t.boot.slots[(0 : Fin 3)].committed = boolBit s.mgmt.fwSlot ∧
      SameMemory s t ∧ t.frames = s.frames := by
  have hrun := execTrialCommit.eq_1 s
  rw [ht, ha, decide_eq_true hup] at hrun
  refine ⟨_, hrun, rfl, ?_, ?_, State.SameWaits.sameMemory ⟨rfl, rfl, rfl, rfl⟩, rfl⟩
  · exact congrArg SlotState.trial (Vector.getElem_set_self _)
  · exact congrArg SlotState.committed (Vector.getElem_set_self _)

/-! ## Lifecycle (R515, R516) -/

theorem State.drbg_setDrbg_same (s : State) {k : Nat} (d : Drbg) (h : k < 3) : (s.setDrbg k d).drbg k = d := by
  simp [State.setDrbg, State.drbg, h]

theorem Drbg.reseed_instantiated (d : Drbg) (seed : List Byte) (up : Nat) :
    (d.reseed seed up).instantiated = d.instantiated := by
  simp only [Drbg.reseed, Drbg.update]

theorem Drbg.reseed_error (d : Drbg) (seed : List Byte) (up : Nat) : (d.reseed seed up).error = false := by
  simp only [Drbg.reseed]

/-- A reseed that the source allows. -/
theorem State.reseedDrbg_eq {k : Nat} (hok : s.mgmt.entropyOk = true) (hh : healthy s.raw.1 = true) :
    s.reseedDrbg k = s.raw.2.setDrbg k ((s.drbg k).reseed (condition s.raw.1) s.tally.up) := by
  simp only [State.reseedDrbg, hok, hh, Bool.not_true, Bool.false_eq_true, if_false, if_true]

/-- A working DRBG, or one whose reseed succeeds, delivers. -/
theorem State.security_delivers (hi : (s.drbg 2).instantiated = true) (he : (s.drbg 2).error = false)
    (hd : s.drbgDue (s.drbg 2) = false ∨ (s.mgmt.entropyOk = true ∧ healthy s.raw.1 = true)) :
    ∃ x, s.security = (some x, s.security.2) := by
  have hdraw : ∃ x u, s.drbgDraw 2 = (some x, u) := by
    unfold State.drbgDraw
    extract_lets s' d
    have hworks : d.instantiated = true ∧ d.error = false := by
      unfold d s'
      split
      · rename_i hdue
        rw [hi, he, Bool.not_false, Bool.and_self, Bool.true_and] at hdue
        obtain ⟨hok, hh⟩ := hd.resolve_left (by rw [hdue]; decide)
        rw [State.reseedDrbg_eq hok hh, State.drbg_setDrbg_same _ _ (by decide)]
        exact ⟨(Drbg.reseed_instantiated _ _ _).trans hi, Drbg.reseed_error _ _ _⟩
      · exact ⟨hi, he⟩
    rw [if_neg (by simp [hworks])]
    exact ⟨_, _, rfl⟩
  obtain ⟨x, u, e⟩ := hdraw
  exact ⟨x, by simp [State.security, e]⟩

theorem completes_lcNonce (h : s.MbServes 0x20 ch req) (hlen : req.length = 0) (hi : (s.drbg 2).instantiated = true)
    (he : (s.drbg 2).error = false)
    (hd : s.drbgDue (s.drbg 2) = false ∨ (s.mgmt.entropyOk = true ∧ healthy s.raw.1 = true)) :
    Completes .lcNonce s fun t =>
      ∃ n, t.mgmt.nonce = some n ∧ t.MbAnswered ch 0 (natToBytes 32 n.toNat) ∧ SameMemory s t := by
  obtain ⟨x, e⟩ := State.security_delivers hi he hd
  have hw : s.SameWaits { s.security.2 with mgmt := { s.security.2.mgmt with nonce := some (x.truncate 256) } } :=
    s.leaves_security.sameWaits.trans ⟨rfl, rfl, rfl, rfl⟩
  refine h.completes (execLcNonce.eq_1 s) (by simp [hlen]) (by rw [e]) hw ?_
  exact fun t hans hl hm => ⟨_, hl.nonce, hans, hm⟩

/-! ## Sessions (R526, R527) -/

/-- A session slot takes what it is given. -/
def State.putSession (s : State) (k : Fin 64) (x : Session) : State :=
  { s with lne := { s.lne with sessions := s.lne.sessions.set k x } }

theorem State.putSession_same (s : State) (k : Fin 64) (x : Session) : (s.putSession k x).lne.sessions[k] = x :=
  Vector.getElem_set_self _

theorem State.putSession_other (s : State) {k j : Fin 64} (x : Session) (h : j ≠ k) :
    (s.putSession k x).lne.sessions[j] = s.lne.sessions[j] :=
  Vector.getElem_set_ne k.isLt j.isLt fun e => h (Fin.ext e.symm)

theorem State.sameWaits_putSession (s : State) (k : Fin 64) (x : Session) : s.SameWaits (s.putSession k x) :=
  ⟨rfl, rfl, rfl, rfl⟩

theorem completes_sessionClear {k : Fin 64} (h : s.MbServes 0x31 ch req) (hlen : req.length = 1)
    (hk : reqNat req 0 1 = k.val) : Completes .sessionClear s fun t =>
      t.MbAnswered ch 0 [] ∧ t.lne.sessions[k] = {} ∧ (∀ j, j ≠ k → t.lne.sessions[j] = s.lne.sessions[j]) ∧
      SameMemory s t := by
  refine h.completes (u := s.putSession k {}) (r := 0) (bytes := []) (execSessionClear.eq_1 s) (by simp [hlen])
    (by simp [hk, State.putSession]) (s.sameWaits_putSession k {}) ?_
  intro t hans hl hm
  rw [hl.sessions]
  exact ⟨hans, s.putSession_same k {}, fun j hj => s.putSession_other {} hj, hm⟩

/-- What SESSION_AGREE does with a slot: of RESULT OK, a valid session of its owner. -/
structure State.Agreed (s : State) (k : Fin 64) (owner : Nat) (a : MbAnswer) : Prop where
  result : a.1 < 16
  others : ∀ j, j ≠ k → a.2.2.lne.sessions[j] = s.lne.sessions[j]
  valid : a.1 = 0 → a.2.2.lne.sessions[k].valid = true ∧ a.2.2.lne.sessions[k].owner = BitVec.ofNat 6 owner
  waits : s.SameWaits a.2.2

theorem State.Agreed.failed {k : Fin 64} {owner r : Nat} {bytes : List Byte} (hr : r < 16) (h0 : r ≠ 0) (h : s.Leaves u) :
    s.Agreed k owner (r, bytes, u) :=
  ⟨hr, fun j _ => by rw [h.sessions], fun e => absurd e h0, h.sameWaits⟩

theorem State.agreed_putSession {k : Fin 64} {owner r : Nat} {bytes : List Byte} {x : Session} (hr : r < 16)
    (hx : r = 0 → x.valid = true ∧ x.owner = BitVec.ofNat 6 owner) (h : s.Leaves u) :
    s.Agreed k owner (r, bytes, u.putSession k x) :=
  ⟨hr, fun j hj => by rw [State.putSession_other _ _ hj, h.sessions],
    fun e => by rw [State.putSession_same]; exact hx e, h.sameWaits.trans (u.sameWaits_putSession k x)⟩

theorem State.agree_spec (s : State) (k : Fin 64) (owner : Nat) (role : Bool) (peer ctx : List Byte) :
    s.Agreed k owner (s.agree k owner role peer ctx) := by
  unfold State.agree
  extract_lets old set
  split
  · exact .failed (by decide) (by decide) (.refl s)
  · split
    · exact .failed (by decide) (by decide) (.refl s)
    · have hsec := s.leaves_security
      split
      · rename_i e
        rw [e] at hsec
        exact .failed (by decide) (by decide) hsec
      · rename_i _ _ e
        rw [e] at hsec
        extract_lets priv z pub ids key
        split
        · exact State.agreed_putSession (by decide) (fun h1 => absurd h1 (by decide)) hsec
        · split
          · exact .failed (by decide) (by decide) hsec
          · exact State.agreed_putSession (by decide) (fun _ => ⟨rfl, rfl⟩) hsec

theorem completes_sessionAgree {k : Fin 64} (h : s.MbServes 0x30 ch req) (hlen : req.length = 67)
    (hk : reqNat req 0 1 = k.val) (howner : reqNat req 1 1 < 64) (hrole : reqNat req 2 1 ≤ 1) :
    Completes .sessionAgree s fun t => (∀ j, j ≠ k → t.lne.sessions[j] = s.lne.sessions[j]) ∧
      (∃ r bytes, r < 16 ∧ t.MbAnswered ch r bytes ∧ (r = 0 → t.lne.sessions[k].valid = true ∧
        t.lne.sessions[k].owner = BitVec.ofNat 6 (reqNat req 1 1))) ∧ SameMemory s t := by
  have ha := s.agree_spec k (reqNat req 1 1) (reqNat req 2 1 == 1) ((req.drop 3).take 32) ((req.drop 35).take 32)
  refine h.completes (execSessionAgree.eq_1 s) (by simp [hlen]) (by simp only [hk]; rw [dif_pos k.isLt, if_neg (by omega)]) ha.waits ?_
  intro t hans hl hm
  rw [hl.sessions]
  exact ⟨ha.others, ⟨_, _, ha.result, hans, ha.valid⟩, hm⟩

end Sys2Proof.Machine
end

section
/-!
SUPPORT. What LC_SET does, the device reset that it can end with included (R515, R516, R535).
-/

namespace Sys2Proof.Machine

open Sys2Proof

variable {s t u : State} {ch : Fin 2} {req : List Byte}

/-! ## A device reset keeps the fuses, and no nonce outlives it -/

/-- The fuses are the same, and no nonce comes to be. -/
structure State.KeepsFuses (s t : State) : Prop where
  fuses : t.boot.fuses = s.boot.fuses
  nonce : s.mgmt.nonce = none → t.mgmt.nonce = none

theorem State.KeepsFuses.trans (h : s.KeepsFuses t) (k : t.KeepsFuses u) : s.KeepsFuses u :=
  ⟨k.fuses.trans h.fuses, fun e => k.nonce (h.nonce e)⟩

theorem State.KeepsFuses.of_eq (hf : t.boot.fuses = s.boot.fuses) (hm : t.mgmt = s.mgmt) : s.KeepsFuses t :=
  ⟨hf, fun e => by rw [hm, e]⟩

theorem State.keepsFuses_mapFrames (s : State) (g : FrameNo → Frame → Frame) : s.KeepsFuses (s.mapFrames g) :=
  .of_eq (by rw [s.mapFrames_boot g]) (s.mapFrames_mgmt g)

theorem State.keepsFuses_settleLeave (s : State) : s.KeepsFuses s.settleLeave := by
  unfold State.settleLeave
  split
  · exact .of_eq rfl rfl
  · exact .of_eq rfl rfl

theorem State.keepsFuses_setQueues (s : State) (r : List Run) (x : List Xfer) (q : HostQ) :
    s.KeepsFuses { s with runs := r, xfers := x, hostq := q } := .of_eq rfl rfl

theorem State.keepsFuses_dropAll (s : State) : s.KeepsFuses s.dropAll :=
  (s.keepsFuses_mapFrames _).trans (State.keepsFuses_setQueues _ _ _ _)

theorem State.keepsFuses_dropLne (s : State) : s.KeepsFuses s.dropLne := .of_eq rfl rfl

theorem State.keepsFuses_updDomain (s : State) (d : Nat) (g : Domain → Domain) : s.KeepsFuses (s.updDomain d g) := by
  unfold State.updDomain
  split
  · exact .of_eq rfl rfl
  · exact .of_eq rfl rfl

theorem State.keepsFuses_settle (s : State) : s.KeepsFuses s.settle :=
  ⟨by rw [s.quiet_settle.boot], fun e => by rw [s.quiet_settle.nonce, e]⟩

/-- The host port goes OFF. -/
theorem State.keepsFuses_enterOff_host (s : State) : s.KeepsFuses (s.enterOff 32) := by
  have hport : portOfDom 32 = none := rfl
  have hdie (t : State) : t.dieDrbg 32 false = t := rfl
  unfold State.enterOff
  dsimp only
  rw [hport, hdie]
  refine State.KeepsFuses.trans ?_ (State.keepsFuses_settleLeave _)
  refine State.KeepsFuses.trans ?_ (State.keepsFuses_settle _)
  exact (s.keepsFuses_mapFrames _).trans (State.keepsFuses_updDomain _ _ _)

theorem State.tearRecord_fuses (s : State) : s.tearRecord.boot.fuses = s.boot.fuses := by
  unfold State.tearRecord
  split
  · rfl
  · rfl

theorem State.keepsFuses_finishReset (s : State) (cause : BitVec 3) : s.KeepsFuses (s.finishReset cause) := by
  unfold State.finishReset State.powerOn
  dsimp only
  exact ⟨s.tearRecord_fuses, fun _ => rfl⟩

/-- Bypass is entered, and the rest of the reset waits. -/
theorem State.keepsFuses_beginReset (s : State) (x : Tally) (kept : List Nat) (cause : BitVec 3) :
    s.KeepsFuses { s with
      tally := x
      boot := { s.boot with linkUp := false, bypass := true, keptPorts := kept, resetWait := some cause } } :=
  .of_eq rfl rfl

theorem State.keepsFuses_deviceReset (s : State) (cause : BitVec 3) : s.KeepsFuses (s.deviceReset cause) := by
  have hquiet : s.KeepsFuses (s.dropAll.enterOff 32).dropLne :=
    (s.keepsFuses_dropAll.trans (State.keepsFuses_enterOff_host _)).trans (State.keepsFuses_dropLne _)
  unfold State.deviceReset
  dsimp only
  split
  · exact (hquiet.trans (State.keepsFuses_beginReset _ _ _ _)).trans (State.keepsFuses_finishReset _ _)
  · exact hquiet.trans (State.keepsFuses_beginReset _ _ _ _)

/-! ## LC_SET (R515, R516) -/

theorem Fuses.lifecycle_enter (f : Fuses) (target : Nat) (digest : List Byte) (secret : BitVec 256) :
    (f.enter target digest secret).lifecycle = target := by
  simp [Fuses.lifecycle, Fuses.enter]

theorem Fuses.le_four_of_mayEnter {f : Fuses} {target : Nat} (h : f.mayEnter target = true) : target ≤ 4 := by
  unfold Fuses.mayEnter at h
  split at h
  case h_8 => cases h
  all_goals omega

/-- What LC_SET does with a request. -/
def lcRequest (req : List Byte) (s : State) : MbAnswer :=
  if 4 < reqNat req 0 1 then (1, [], s)
  else if !s.boot.fuses.mayEnter (reqNat req 0 1) then s.mbLocked
  else if req.length ≠ (if reqNat req 0 1 = 2 then 145 else 97) then (1, [], s)
  else s.lcChange (reqNat req 0 1) ((req.drop 1).take 48) ((req.drop (if reqNat req 0 1 = 2 then 49 else 1)).take 96)

/-- The lengths that a request of LC_SET can have. -/
def lcLength (n : Nat) : Bool := n == 97 || n == 145

/-- LC_SET, its request done with: a device reset follows where the lifecycle changed (R516). -/
theorem exec_lcSet (h : s.serve 0x21 lcLength lcRequest = .next t) : exec .lcSet s =
    .next (if t.boot.fuses.lifecycle = s.boot.fuses.lifecycle then t else t.deviceReset 4) := by
  have he := execLcSet.eq_1 s
  dsimp only at he
  exact he.trans (by
    change (match s.serve 0x21 lcLength lcRequest with | .next t => _ | x => x) = _
    rw [h])

theorem completes_lcSet_invalid (h : s.MbServes 0x21 ch req) (hlen : req.length = 97) (ht : 4 < reqNat req 0 1) :
    Completes .lcSet s fun t =>
      t.MbAnswered ch 1 [] ∧ t.boot = s.boot ∧ t.mgmt.nonce = s.mgmt.nonce ∧ SameMemory s t := by
  obtain ⟨t, e, hans, hl⟩ := h.serve (lenOk := lcLength) (body := lcRequest) (by simp [lcLength, hlen]) (if_pos ht) (.refl s)
  refine ⟨t, ?_, hans, hl.boot, hl.nonce, hl.sameMemory⟩
  rw [exec_lcSet e, if_pos (by rw [hl.boot])]

/-- The signature of an LC_SET without a digest holds, by a key that the device trusts (R516). -/
def State.LcSigned (s : State) (req : List Byte) (n : BitVec 256) : Prop :=
  (s.boot.fuses.lifecycle ≠ 2 ∨ s.boot.fuses.ownerIs s.lifecycleKey = true) ∧
    p384.verifyBytes s.lifecycleKey (sha384 (s.lcMessage (reqNat req 0 1) n ((req.drop 1).take 48)))
      ((req.drop 1).take 96) = true

/-- Outside BLANK a change uses its nonce up and reaches its target exactly if it is signed. -/
theorem State.lcChange_spec {n : BitVec 256} (hn : s.mgmt.nonce = some n) (h0 : s.boot.fuses.lifecycle ≠ 0) :
    ∃ r bytes u, s.lcChange (reqNat req 0 1) ((req.drop 1).take 48) ((req.drop 1).take 96) = (r, bytes, u) ∧
      s.SameWaits u ∧ u.mgmt.nonce = none ∧
      (s.LcSigned req n → u.boot.fuses.lifecycle = reqNat req 0 1) ∧
      (¬ s.LcSigned req n → u.boot.fuses = s.boot.fuses) := by
  unfold State.lcChange
  split
  case h_1 hnone =>
    rw [hn] at hnone
    cases hnone
  case h_2 m hm =>
    obtain rfl : n = m := Option.some.inj (hn.symm.trans hm)
    extract_lets _ s' key trusted
    have hkey : key = s.lifecycleKey := rfl
    have htrusted : trusted = (s.boot.fuses.lifecycle != 2 || s.boot.fuses.ownerIs key) := rfl
    have hmessage (x : List Byte) : s'.lcMessage (reqNat req 0 1) n x = s.lcMessage (reqNat req 0 1) n x := rfl
    have hsigned : (trusted && p384.verifyBytes key (sha384 (s'.lcMessage (reqNat req 0 1) n ((req.drop 1).take 48)))
        ((req.drop 1).take 96)) = true ↔ s.LcSigned req n := by
      rw [htrusted, hkey, hmessage, Bool.and_eq_true, Bool.or_eq_true, bne_iff_ne]
      exact Iff.rfl
    by_cases hs : s.LcSigned req n
    · rw [if_pos (hsigned.2 hs), if_neg (show ¬s'.boot.fuses.lifecycle = 0 from h0)]
      exact ⟨_, _, _, rfl, ⟨rfl, rfl, rfl, rfl⟩, rfl, fun _ => Fuses.lifecycle_enter _ _ _ _, fun k => absurd hs k⟩
    · rw [if_neg (hsigned.not.2 hs)]
      exact ⟨_, _, _, rfl, ⟨rfl, rfl, rfl, rfl⟩, rfl, fun k => absurd k hs, fun _ => rfl⟩

/-- Outside BLANK, to a target that the fuses allow and that takes no owner's key. -/
theorem completes_lcSet {n : BitVec 256} (h : s.MbServes 0x21 ch req) (hlen : req.length = 97) (h2 : reqNat req 0 1 ≠ 2)
    (h0 : s.boot.fuses.lifecycle ≠ 0) (hmay : s.boot.fuses.mayEnter (reqNat req 0 1) = true) (hn : s.mgmt.nonce = some n) :
    Completes .lcSet s fun t => t.mgmt.nonce = none ∧
      (s.LcSigned req n → t.boot.fuses.lifecycle = reqNat req 0 1) ∧
      (¬ s.LcSigned req n → t.boot.fuses.lifecycle = s.boot.fuses.lifecycle) := by
  obtain ⟨r, bytes, u, hchange, hu, hnone, hsigned, hunsigned⟩ := State.lcChange_spec (req := req) hn h0
  have hrequest : lcRequest req s = (r, bytes, u) := by
    have h4 := Fuses.le_four_of_mayEnter hmay
    simp only [lcRequest, if_neg (Nat.not_lt.2 h4), hmay, Bool.not_true, Bool.false_eq_true, if_false, if_neg h2, hlen,
      ne_eq, not_true_eq_false, hchange]
  obtain ⟨t, e, -, hl⟩ := h.serve (lenOk := lcLength) (by simp [lcLength, hlen]) hrequest hu
  have hend : t.KeepsFuses (if t.boot.fuses.lifecycle = s.boot.fuses.lifecycle then t else t.deviceReset 4) := by
    split
    · exact .of_eq rfl rfl
    · exact t.keepsFuses_deviceReset 4
  refine ⟨_, exec_lcSet e, hend.nonce (hl.nonce.trans hnone), fun hs => ?_, fun hs => ?_⟩
  · rw [hend.fuses, hl.boot]
    exact hsigned hs
  · rw [hend.fuses, hl.boot, hunsigned hs]

end Sys2Proof.Machine
end

section
/-!
SUPPORT. The commands that wait for the LNE, and the settlement of O46.
-/

namespace Sys2Proof.Machine

open Sys2Proof

/-- A command that has waited 100 ms for the LNE is BUSY_LNE, and has changed nothing. -/
theorem completes_late {s : State} {ch : Fin 2} {i : Instr} {op : Nat}
    (hi : (i, op) ∈ [(Instr.fwVerify, 0x12), (.lcSet, 0x21), (.sessionAgree, 0x30), (.getMeasurements, 0x41)])
    (hfront : s.mbFront = some (ch, op)) (hlate : s.lneLate op = true) :
    Completes i s fun t => t.MbAnswered ch 8 [] ∧ t.boot = s.boot ∧ t.lne.sessions = s.lne.sessions ∧ SameMemory s t ∧
      t.frames = s.frames := by
  have hserved {lenOk : Nat → Bool} {body : List Byte → State → MbAnswer} (he : exec i s = s.serve op lenOk body) :
      Completes i s fun t => t.MbAnswered ch 8 [] ∧ t.boot = s.boot ∧ t.lne.sessions = s.lne.sessions ∧ SameMemory s t ∧
        t.frames = s.frames := by
    obtain ⟨t, e, hans, hl⟩ := State.serve_late hfront hlate
    exact ⟨t, he.trans e, hans, hl.boot, hl.sessions, hl.sameMemory, hl.frames⟩
  simp only [List.mem_cons, Prod.mk.injEq, List.not_mem_nil, or_false] at hi
  obtain ⟨rfl, rfl⟩ | ⟨rfl, rfl⟩ | ⟨rfl, rfl⟩ | ⟨rfl, rfl⟩ := hi
  · exact hserved (execFwVerify.eq_1 s)
  · obtain ⟨t, e, hans, hl⟩ := State.serve_late hfront hlate
    refine ⟨t, ?_, hans, hl.boot, hl.sessions, hl.sameMemory, hl.frames⟩
    rw [exec_lcSet e, if_pos (by rw [hl.boot])]
  · exact hserved (execSessionAgree.eq_1 s)
  · exact hserved (execGetMeasurements.eq_1 s)

/-- Settles O46: each command of the mailbox that changes the device answers as its request says, and its end changes
nothing more. -/
theorem mailboxChangesTakeEffect : Obligations.MailboxChangesTakeEffect := by
  unfold Obligations.MailboxChangesTakeEffect
  intro s ch req
  refine ⟨completes_fwBegin, completes_fwBegin_zero, fun _ _ => completes_late, fun _ => completes_fwWrite,
    fun _ => completes_fwVerify, fun _ => completes_fwActivate, completes_fwCommitSvn, completes_trialCommit,
    completes_lcNonce, completes_lcSet_invalid, fun n h hlen h2 h0 hmay hn => ?lcSet, fun _ => completes_sessionAgree,
    fun _ => completes_sessionClear⟩
  case lcSet =>
    obtain ⟨t, e, hnone, hsigned, hunsigned⟩ := completes_lcSet h hlen h2 h0 hmay hn
    refine ⟨t, e, hnone, ?_⟩
    by_cases hs : s.LcSigned req n
    · exact (hsigned hs).trans (if_pos hs).symm
    · exact (hunsigned hs).trans (if_neg hs).symm

end Sys2Proof.Machine
end

section
/-!
SUPPORT. Memory read after a span of it is zeroed (R294, R370).
-/

namespace Sys2Proof.Machine

open Sys2Proof

theorem memRead_filter (p : Nat → Bool) (m : List Host.Cell) (a : Nat) :
    memRead (m.filter fun c => p c.1) a = if p a = true then memRead m a else 0 := by
  induction m with
  | nil => simp [memRead]
  | cons c m ih =>
    rw [List.filter_cons]
    by_cases hc : c.1 = a
    · subst hc
      split
      · simp [memRead]
      · rename_i hp
        rw [ih, if_neg hp]
    · split <;> simp [memRead, hc, ih]

theorem memRead_memZero_outside (m : List Host.Cell) {base size a : Nat} (h : a < base ∨ base + size ≤ a) :
    memRead (memZero m base size) a = memRead m a := by
  rw [memZero, memRead_filter fun b => b < base || base + size ≤ b]
  exact if_pos (by simpa using h)

theorem memRead_memZero_inside (m : List Host.Cell) {base size a : Nat} (hlo : base ≤ a) (hhi : a < base + size) :
    memRead (memZero m base size) a = 0 := by
  rw [memZero, memRead_filter fun b => b < base || base + size ≤ b]
  exact if_neg (by simp; omega)

end Sys2Proof.Machine
end

section
/-!
SUPPORT. What a VF's register writes can reach (R39, R425, Table 13.5): its own queues and counters, and what REGION_FREE
changes of its own frames.
-/

namespace Sys2Proof.Machine

open Sys2Proof

/-! ## The registers that a VF sees -/

/-- The registers of PF BAR0 that the unprivileged view of function `n` shows, which holds the frames of `mask`: the
timebase, the identification, its queues, and of its frames the status, the profile, the regions and the counters. -/
inductive ShowsBlk (n : FuncNo) (mask : BitVec 64) : Blk → Prop
  | timebase (k : Nat) (hk : k = 0x300 ∨ k = 0x304) : ShowsBlk n mask (.tally k)
  | ident : ShowsBlk n mask (.global 0)
  | queues (k : Nat) : ShowsBlk n mask (.hostq n k)
  | frame (f : FrameNo) (k : Nat) (hf : hasFrame mask f = true) (hk : k ∈ [0x10, 0x1000, 0x8000, 0xB010]) :
    ShowsBlk n mask (.frm f k)

/-- The places of that view: a register's own word and its slot, the function's own vectors, or nowhere. -/
inductive ShowsLoc (n : FuncNo) (mask : BitVec 64) : Loc → Prop
  | nowhere : ShowsLoc n mask .none
  | msix (o : Nat) : ShowsLoc n mask (.msix n o)
  | pba (o : Nat) : ShowsLoc n mask (.pba n o)
  | bar0 (x : Nat) (hword : ShowsBlk n mask (blkOf x)) (hslot : ShowsBlk n mask (blkOf (x / 8 * 8))) :
    ShowsLoc n mask (.bar0 x)

theorem blkOf_hostq (n : FuncNo) {k : Nat} (h : k < 0x8000) : blkOf (0x400000 + n.val * 0x10000 + k) = .hostq n k := by
  have hn := n.isLt
  have hq : (0x400000 + n.val * 0x10000 + k - 0x400000) / 0x10000 % 64 = n.val := by omega
  have hr : (0x400000 + n.val * 0x10000 + k - 0x400000) % 0x10000 = k := by omega
  unfold blkOf
  rw [if_neg (by omega), if_neg (by omega), if_neg (by omega), if_pos (by omega)]
  simp only [hq, hr]
  rw [if_pos h]

theorem showsLoc_frame (n : FuncNo) {mask : BitVec 64} {f : FrameNo} (hf : hasFrame mask f = true) {k : Nat}
    (hk : k ∈ [0x10, 0x1000, 0x8000, 0xB010]) : ShowsLoc n mask (.bar0 (0x1000000 + f.val * 0x100000 + k)) := by
  have hk8 : k < 0x100000 ∧ k % 8 = 0 := by
    simp only [List.mem_cons, List.not_mem_nil, or_false] at hk
    omega
  have hb := blkOf_frm f hk8.1
  have hs : (0x1000000 + f.val * 0x100000 + k) / 8 * 8 = 0x1000000 + f.val * 0x100000 + k := by omega
  refine .bar0 _ ?_ ?_
  · rw [hb]
    exact .frame f k hf hk
  · rw [hs, hb]
    exact .frame f k hf hk

theorem showsLoc_queues (n : FuncNo) (mask : BitVec 64) {k : Nat} (hk : k < 0x8000) :
    ShowsLoc n mask (.bar0 (0x400000 + n.val * 0x10000 + k)) := by
  have hs : (0x400000 + n.val * 0x10000 + k) / 8 * 8 = 0x400000 + n.val * 0x10000 + k / 8 * 8 := by omega
  refine .bar0 _ ?_ ?_
  · rw [blkOf_hostq n hk]
    exact .queues k
  · rw [hs, blkOf_hostq n (by omega)]
    exact .queues _

theorem showsLoc_timebase (n : FuncNo) (mask : BitVec 64) {k : Nat} (hk : k = 0x300 ∨ k = 0x304) :
    ShowsLoc n mask (.bar0 (0x100000 + k)) := by
  have hs : (0x100000 + k) / 8 * 8 = 0x100000 + 0x300 := by omega
  refine .bar0 _ ?_ ?_
  · rw [blkOf_tally (by omega)]
    exact .timebase k hk
  · rw [hs, blkOf_tally (by omega)]
    exact .timebase _ (.inl rfl)

/-- Every word of a VF's BAR0 is a place of its view (R425). -/
theorem State.vfLoc_shown (s : State) (n : FuncNo) (o : Nat) : ShowsLoc n s.global.funcs[n].frames (s.vfLoc n o) := by
  unfold State.vfLoc
  split
  · rename_i ho
    have e : 0x100200 + o = 0x100000 + (o + 0x200) := by omega
    rw [e]
    exact showsLoc_timebase n _ (by omega)
  · split
    · exact .bar0 0 .ident .ident
    · split
      · rename_i ho
        exact showsLoc_queues n _ ho
      · split
        · split
          · rename_i f _
            split
            · exact .nowhere
            · rename_i hf
              have hf : hasFrame s.global.funcs[n].frames f = true := by simpa using hf
              dsimp only
              split
              · exact showsLoc_frame n hf (by simp)
              · exact showsLoc_frame n hf (by simp)
              · exact showsLoc_frame n hf (by simp)
              · exact showsLoc_frame n hf (by simp)
              · exact .nowhere
          · exact .nowhere
        · split
          · exact .msix _
          · split
            · exact .pba _
            · exact .nowhere

/-- An access is made of the words at its offset and, where it is one of 64 bits, at the next. -/
theorem State.parts_loc (s : State) (n : FuncNo) (o w : Nat) :
    ∀ p ∈ s.parts n o w, p.loc = s.locate n o ∨ p.loc = s.locate n (o + 4) := by
  have htwo : ∀ p ∈ [wordPart (s.locate n o) 0, wordPart (s.locate n (o + 4)) 32],
      p.loc = s.locate n o ∨ p.loc = s.locate n (o + 4) := by simp [wordPart]
  unfold State.parts
  split
  · simp [wordPart]
  · dsimp only
    split
    · rename_i ha _
      split
      · simp
      · exact htwo
    · rename_i ha _
      split
      · simp [ha]
      · exact htwo
    · exact htwo

theorem State.parts_shown (s : State) {n : FuncNo} (hn : n.val ≠ 0) (o w : Nat) :
    ∀ p ∈ s.parts n o w, ShowsLoc n s.global.funcs[n].frames p.loc := by
  have hloc (a : Nat) : s.locate n a = s.vfLoc n a := if_neg hn
  intro p hp
  obtain h | h := s.parts_loc n o w p hp
  · rw [h, hloc]
    exact s.vfLoc_shown n _
  · rw [h, hloc]
    exact s.vfLoc_shown n _

/-! ## What a function's own writes leave alone -/

/-- The address lies in no resident region of a frame that function `n` holds. -/
def State.OutsideHeld (s : State) (n : FuncNo) (a : Nat) : Prop :=
  ∀ f, hasFrame s.global.funcs[n].frames f = true → ∀ r ∈ (s.frame f).regions, r.resident = true →
    a < spadAddr f (r.originRow * 2048) ∨ spadAddr f (r.originRow * 2048) + r.sizeRows * 2048 ≤ a

/-- `t` differs from `s` in nothing that is not function `n`'s own; its frames keep their domains and gain no region. -/
structure State.OwnWrites (n : FuncNo) (s t : State) : Prop where
  queues : ∀ m, m ≠ n → t.hostq.fns[m] = s.hostq.fns[m]
  frames : ∀ f, hasFrame s.global.funcs[n].frames f = false → t.frame f = s.frame f
  domains : ∀ f, t.domainOf f = s.domainOf f
  regions : ∀ f, (t.frame f).regions ⊆ (s.frame f).regions
  global : t.global = s.global
  tally : t.tally = s.tally
  adm : t.adm = s.adm
  memc : t.memc = s.memc
  mas : t.mas = s.mas
  carry : t.carry = s.carry
  lne : t.lne = s.lne
  runs : t.runs = s.runs
  programs : t.programs = s.programs
  memory : ∀ a, s.OutsideHeld n a → memRead t.mem a = memRead s.mem a ∧ memRead t.vis a = memRead s.vis a

section

variable {n : FuncNo} {s t u : State}

theorem State.OwnWrites.refl (n : FuncNo) (s : State) : State.OwnWrites n s s :=
  ⟨fun _ _ => rfl, fun _ _ => rfl, fun _ => rfl, fun _ => List.Subset.refl _, rfl, rfl, rfl, rfl, rfl, rfl, rfl, rfl, rfl,
    fun _ _ => ⟨rfl, rfl⟩⟩

theorem State.OwnWrites.outsideHeld (h : State.OwnWrites n s t) {a : Nat} (ha : s.OutsideHeld n a) : t.OutsideHeld n a :=
  fun f hf r hr => ha f (by rwa [h.global] at hf) r (h.regions f hr)

theorem State.OwnWrites.trans (h : State.OwnWrites n s t) (k : State.OwnWrites n t u) : State.OwnWrites n s u where
  queues m hm := (k.queues m hm).trans (h.queues m hm)
  frames f hf := (k.frames f (by rwa [h.global])).trans (h.frames f hf)
  domains f := (k.domains f).trans (h.domains f)
  regions f := List.Subset.trans (k.regions f) (h.regions f)
  global := k.global.trans h.global
  tally := k.tally.trans h.tally
  adm := k.adm.trans h.adm
  memc := k.memc.trans h.memc
  mas := k.mas.trans h.mas
  carry := k.carry.trans h.carry
  lne := k.lne.trans h.lne
  runs := k.runs.trans h.runs
  programs := k.programs.trans h.programs
  memory a ha :=
    have hk := k.memory a (h.outsideHeld ha)
    have hh := h.memory a ha
    ⟨hk.1.trans hh.1, hk.2.trans hh.2⟩

theorem State.OwnWrites.powered (h : State.OwnWrites n s t) (f : FrameNo) : t.powered f = s.powered f := by
  unfold State.powered State.domain
  rw [h.domains f, h.adm]

/-! ## Queues and vectors of the function -/

theorem State.ownWrites_hostq {q : HostQ} (o : List OutEvt) (hq : ∀ m, m ≠ n → q.fns[m] = s.hostq.fns[m]) :
    State.OwnWrites n s { s with hostq := q, outbox := o } :=
  { State.OwnWrites.refl n s with queues := hq }

theorem State.ownWrites_emit (s : State) (n : FuncNo) (e : OutEvt) : State.OwnWrites n s (s.emit e) :=
  State.ownWrites_hostq (q := s.hostq) _ fun _ _ => rfl

theorem State.ownWrites_updHostFn (s : State) (n : FuncNo) (g : HostFn → HostFn) : State.OwnWrites n s (s.updHostFn n g) :=
  State.ownWrites_hostq _ fun m hm => s.updHostFn_other n m g hm

theorem State.ownWrites_updSq (s : State) (n : FuncNo) (q : Fin 64) (g : Sq → Sq) : State.OwnWrites n s (s.updSq n q g) :=
  s.ownWrites_updHostFn n _

theorem State.ownWrites_updCq (s : State) (n : FuncNo) (q : Fin 64) (g : Cq → Cq) : State.OwnWrites n s (s.updCq n q g) :=
  s.ownWrites_updHostFn n _

theorem State.ownWrites_signal (s : State) (n : FuncNo) (v : Nat) : State.OwnWrites n s (s.signal n v) := by
  unfold State.signal
  dsimp only
  split
  · exact s.ownWrites_updHostFn n _
  · exact s.ownWrites_emit n _

theorem State.ownWrites_countWaits (s : State) (n : FuncNo) (q : Nat) : State.OwnWrites n s (s.countWaits n q) := by
  unfold State.countWaits
  split
  · split
    · extract_lets new k waits u
      have hu : State.OwnWrites n s u := State.ownWrites_hostq _ fun _ _ => rfl
      split
      · exact hu
      · exact hu.trans (u.ownWrites_updHostFn n _)
    · exact .refl n s
  · exact .refl n s

theorem State.ownWrites_msixWrite (s : State) (n : FuncNo) (o : Nat) (x : Wr) : State.OwnWrites n s (s.msixWrite n o x) := by
  unfold State.msixWrite
  extract_lets h k e e' t
  have ht : State.OwnWrites n s t := s.ownWrites_updHostFn n _
  split
  · exact ht.trans ((t.ownWrites_updHostFn n _).trans (State.ownWrites_signal _ n k))
  · exact ht

theorem State.ownWrites_hostqWrite (s : State) (n : FuncNo) (o : Nat) (x : Wr) :
    State.OwnWrites n s (s.hostqWrite n o x) := by
  unfold State.hostqWrite
  split
  · exact s.ownWrites_updHostFn n _
  · split
    · exact s.ownWrites_updHostFn n _
    · split
      · exact s.ownWrites_updHostFn n _
      · exact .refl n s

/-! ## The commands that a VF's writes give -/

theorem State.OwnWrites.when {e : State → Host.Outcome State Fault Refusal} (h : State.OwnWrites n s t)
    (he : State.OwnWrites n t (afterCmd t (e t))) (b : Bool) : State.OwnWrites n s (t.when b e) := by
  unfold State.when
  split
  · exact h.trans he
  · exact h

theorem State.ownWrites_sqTail (s : State) (n : FuncNo) (q : Fin 64) (tail : BitVec 16) :
    State.OwnWrites n s (afterCmd s (execSqTail n q tail s)) := by
  unfold execSqTail
  dsimp only
  split
  · exact .refl n s
  · split <;> rw [afterCmd_next]
    · exact (s.ownWrites_updSq n q _).trans (State.ownWrites_updHostFn _ n _)
    · exact s.ownWrites_updSq n q _

theorem State.ownWrites_cqHead (s : State) (n : FuncNo) (q : Fin 64) (head : BitVec 16) :
    State.OwnWrites n s (afterCmd s (execCqHead n q head s)) := by
  unfold execCqHead
  dsimp only
  split
  · exact .refl n s
  · split <;> rw [afterCmd_next]
    · exact s.ownWrites_updHostFn n _
    · exact s.ownWrites_updCq n q _

theorem State.ownWrites_queueEnable (s : State) (n : FuncNo) (cq : Bool) (q : Fin 64) (enable : Bool) :
    State.OwnWrites n s (afterCmd s (execQueueEnable n cq q enable s)) := by
  unfold execQueueEnable
  extract_lets g limit
  split
  · exact .refl n s
  · split <;> rw [afterCmd_next]
    · exact (s.ownWrites_updCq n q _).trans (State.ownWrites_countWaits _ n q.val)
    · exact s.ownWrites_updSq n q _

theorem State.ownWrites_hostqAct (s : State) (n : FuncNo) (o : Nat) (x : Wr) :
    State.OwnWrites n s (s.hostqAct n o x) := by
  unfold State.hostqAct
  split
  · exact (State.OwnWrites.refl n s).when (s.ownWrites_queueEnable n false _ _) _
  · split
    · exact (State.OwnWrites.refl n s).when (s.ownWrites_queueEnable n true _ _) _
    · split
      · exact ((State.OwnWrites.refl n s).when (s.ownWrites_sqTail n _ _) _).when (State.ownWrites_cqHead _ n _ _) _
      · exact .refl n s

theorem State.ownWrites_updFrame (s : State) {f : FrameNo} (hf : hasFrame s.global.funcs[n].frames f = true)
    (g : Frame → Frame) (hd : (g (s.frame f)).seq.domain = (s.frame f).seq.domain)
    (hr : (g (s.frame f)).regions ⊆ (s.frame f).regions) : State.OwnWrites n s (s.updFrame f g) :=
  { State.OwnWrites.refl n s with
    frames := fun k hk => s.updFrame_other f k g fun e => by rw [e, hf] at hk; exact absurd hk (by decide)
    domains := fun k => by
      by_cases e : k = f
      · rw [e, State.domainOf, State.updFrame_same, hd, State.domainOf]
      · rw [State.domainOf, s.updFrame_other f k g e, State.domainOf]
    regions := fun k => by
      by_cases e : k = f
      · rw [e, State.updFrame_same]
        exact hr
      · rw [s.updFrame_other f k g e]
        exact List.Subset.refl _ }

/-- Wiping a resident region of a frame that the function holds leaves what lies outside such regions. -/
theorem State.ownWrites_wipeRegion (s : State) {f : FrameNo} (hf : hasFrame s.global.funcs[n].frames f = true) {r : Region}
    (hr : r ∈ (s.frame f).regions) (hres : r.resident = true) :
    State.OwnWrites n s (s.wipeBytes (spadAddr f (r.originRow * 2048)) (r.sizeRows * 2048)) :=
  { State.OwnWrites.refl n s with
    memory := fun _ ha =>
      have hout := ha f hf r hr hres
      ⟨memRead_memZero_outside s.mem hout, memRead_memZero_outside s.vis hout⟩ }

/-- REGION_FREE of a frame that the function holds, powered as it is. -/
theorem State.ownWrites_regionFree (s : State) {f : FrameNo} (hf : hasFrame s.global.funcs[n].frames f = true)
    (hp : s.powered f = true) (number : BitVec 8) : State.OwnWrites n s (afterCmd s (execRegionFree f number s)) := by
  unfold execRegionFree
  extract_lets fr set
  have hset (u : State) (hu : u.global = s.global) (b : Bool) (r : BitVec 2) : State.OwnWrites n u (set u b r) :=
    u.ownWrites_updFrame (by rwa [hu]) _ rfl (List.Subset.refl _)
  split
  · exact .refl n s
  · rw [if_neg (by simp [hp])]
    split
    · exact .refl n s
    · split
      · exact hset s rfl false 1
      · split
        · rename_i r hr
          have hmem := List.mem_of_find?_eq_some hr
          have hres : r.resident = true := by
            have := List.find?_some hr
            simp only [Bool.and_eq_true] at this
            exact this.1
          split
          · extract_lets wiped freed
            rw [afterCmd_next]
            have hfreed : State.OwnWrites n wiped freed := wiped.ownWrites_updFrame hf _ rfl (List.filter_subset_self _)
            exact (s.ownWrites_wipeRegion hf hmem hres).trans (hfreed.trans (hset freed rfl true 0))
          · exact hset s rfl false 2
        · exact hset s rfl false 2

/-! ## A frame's registers -/

/-- Of the registers of a frame that a VF sees, REGION_CTRL alone holds a field, the region's number. -/
theorem Frame.write_shown (fr : Frame) (loaded : Bool) {k : Nat} (hk : k ∈ [0x10, 0x1000, 0x8000, 0xB010]) (x : Wr) :
    ∃ number, fr.write loaded k x = { fr with reg := { fr.reg with regNumber := number } } := by
  simp only [List.mem_cons, List.not_mem_nil, or_false] at hk
  obtain rfl | rfl | rfl | rfl := hk <;> exact ⟨_, rfl⟩

theorem State.ownWrites_frmSlotWrite (s : State) {f : FrameNo} (hf : hasFrame s.global.funcs[n].frames f = true) {k : Nat}
    (hk : k ∈ [0x10, 0x1000, 0x8000, 0xB010]) (x : Wr) : State.OwnWrites n s (s.frmSlotWrite f k x) := by
  have h28 : k ≠ 0x28 := by
    rintro rfl
    exact absurd hk (by decide)
  obtain ⟨number, e⟩ := (s.frame f).write_shown (s.frameLoaded f) hk x
  unfold State.frmSlotWrite
  dsimp only
  rw [if_neg fun h => h28 h.1]
  refine s.ownWrites_updFrame hf _ ?_ ?_
  · rw [e]
  · rw [e]
    exact List.Subset.refl _

/-- The same registers give no command but REGION_FREE. -/
theorem State.ownWrites_frmAct (s : State) {f : FrameNo} (hf : hasFrame s.global.funcs[n].frames f = true)
    (hp : s.powered f = true) {k : Nat} (hk : k ∈ [0x10, 0x1000, 0x8000, 0xB010]) (x : Wr) :
    State.OwnWrites n s (s.frmAct f k x) := by
  simp only [List.mem_cons, List.not_mem_nil, or_false] at hk
  obtain rfl | rfl | rfl | rfl := hk
  case inr.inr.inl => exact (State.OwnWrites.refl n s).when (s.ownWrites_regionFree hf hp _) _
  all_goals exact .refl n s

/-! ## A write of the function -/

theorem State.ownWrites_slot (s : State) {b : Nat} (h : ShowsBlk n s.global.funcs[n].frames (blkOf b))
    (hp : ∀ f, hasFrame s.global.funcs[n].frames f = true → s.powered f = true) (x : Wr) :
    State.OwnWrites n s ((s.slotWrite b x).slotAct b x) := by
  unfold State.slotWrite State.slotAct
  generalize blkOf b = k at h
  cases h with
  | timebase k hk => obtain rfl | rfl := hk <;> exact .refl n s
  | ident => exact .refl n s
  | queues k => exact (s.ownWrites_hostqWrite n k x).trans (State.ownWrites_hostqAct _ n k x)
  | frame f k hf hk =>
    have hw := s.ownWrites_frmSlotWrite hf hk x
    refine hw.trans (State.ownWrites_frmAct _ ?_ ?_ hk x)
    · rwa [hw.global]
    · rw [hw.powered]
      exact hp f hf

theorem State.blockOff_shown (s : State) {x : Nat} (h : ShowsBlk n s.global.funcs[n].frames (blkOf x))
    (hp : ∀ f, hasFrame s.global.funcs[n].frames f = true → s.powered f = true) : s.blockOff n x = none := by
  unfold State.blockOff
  generalize blkOf x = k at h
  cases h with
  | timebase => rfl
  | ident => rfl
  | queues => rfl
  | frame f k hf => exact if_pos (hp f hf)

theorem State.ownWrites_writePart (s : State) (v : BitVec 64) {p : Part} (h : ShowsLoc n s.global.funcs[n].frames p.loc)
    (hp : ∀ f, hasFrame s.global.funcs[n].frames f = true → s.powered f = true) :
    State.OwnWrites n s (s.writePart n v p) := by
  unfold State.writePart
  generalize p.loc = l at h
  cases h with
  | nowhere => exact .refl n s
  | pba => exact .refl n s
  | msix o => exact s.ownWrites_msixWrite n _ _
  | bar0 x hword hslot =>
    dsimp only
    rw [s.blockOff_shown hword hp]
    exact s.ownWrites_slot hslot hp _

theorem State.ownWrites_writeParts (s : State) (v : BitVec 64) (ps : List Part)
    (h : ∀ p ∈ ps, ShowsLoc n s.global.funcs[n].frames p.loc)
    (hp : ∀ f, hasFrame s.global.funcs[n].frames f = true → s.powered f = true) :
    State.OwnWrites n s (s.writeParts n v ps) := by
  induction ps generalizing s with
  | nil => exact .refl n s
  | cons p ps ih =>
    have hw := s.ownWrites_writePart v (h p List.mem_cons_self) hp
    refine hw.trans (ih _ (fun q hq => ?_) fun f hf => ?_)
    · rw [hw.global]
      exact h q (List.mem_cons_of_mem p hq)
    · rw [hw.powered]
      exact hp f (by rwa [hw.global] at hf)

theorem State.ownWrites_aerIf (s : State) (ep : Bool) (n : FuncNo) : State.OwnWrites n s (s.aerIf ep n) := by
  cases ep
  · exact .refl n s
  · exact s.ownWrites_emit n _

end

/-- A VF's register write reaches nothing that is not the VF's own, whether or not the VF is served. -/
theorem completes_registerWrite_own (s : State) {n : FuncNo} {o w : Nat} (v : BitVec 64) (ep : Bool) (h : s.hostOk = true)
    (hn : n.val ≠ 0) (ha : accessOk o w = true)
    (hp : ∀ f, hasFrame s.global.funcs[n].frames f = true → s.powered f = true) :
    Completes (.registerWrite n o w ⟨v, ep, none⟩) s (State.OwnWrites n s) := by
  by_cases hs : s.global.funcs[n].enable = true ∧ s.present n = true
  · refine ⟨_, execRegisterWrite_served v ep h ha fun _ => hs, ?_⟩
    exact (s.ownWrites_writeParts v _ (s.parts_shown hn o w) hp).trans (State.ownWrites_aerIf _ ep n)
  · obtain ⟨ho, -, hr⟩ := s.hostOk_iff.1 h
    have hu : s.global.funcs[n].enable = false ∨ s.present n = false := by
      simpa only [not_and_or, Bool.not_eq_true] using hs
    exact ⟨_, exec_registerWrite_unsupported v ep ha hn hr ho hu, s.ownWrites_emit n _⟩

/-- Settles O60: part by part, a write goes to a register of the VF's own view, and no such register reaches further. -/
theorem vfWritesStayTheirOwn : Obligations.VfWritesStayTheirOwn := by
  unfold Obligations.VfWritesStayTheirOwn
  intro s n o w v ep h hn ha _ hp
  obtain ⟨t, e, ht⟩ := completes_registerWrite_own s v ep h hn ha hp
  exact ⟨t, e, ht.queues, ht.frames, ht.global, ht.tally, ht.adm, ht.memc, ht.mas, ht.carry, ht.lne, ht.runs, ht.programs,
    ht.memory⟩

end Sys2Proof.Machine
end

section
/-!
SUPPORT. The domains' registers: what a change of one domain leaves, and how the transitions asked for are made in turn
(R463, R467).
-/

namespace Sys2Proof.Machine

open Sys2Proof

/-! ## One domain -/

theorem State.domain_congr {s t : State} (h : t.adm = s.adm) (d : Nat) : t.domain d = s.domain d := by
  rw [State.domain, State.domain, h]

theorem State.updDomain_adm_congr {s t : State} (h : t.adm = s.adm) (d : Nat) (g : Domain → Domain) :
    (t.updDomain d g).adm = (s.updDomain d g).adm := by
  unfold State.updDomain
  split
  · simp only [h]
  · exact h

theorem State.updDomain_same (s : State) {d : Nat} (h : d < 36) (g : Domain → Domain) :
    (s.updDomain d g).domain d = g (s.domain d) := by
  simp [State.updDomain, State.domain, h]

theorem State.updDomain_other (s : State) {d e : Nat} (h : e ≠ d) (g : Domain → Domain) :
    (s.updDomain d g).domain e = s.domain e := by
  unfold State.updDomain
  split
  · simp [State.domain, Vector.getElem_set_ne, h.symm]
  · rfl

theorem OnlyAdmit.trans {s t u : State} (h : OnlyAdmit s t) (k : OnlyAdmit t u) : OnlyAdmit s u := by
  unfold OnlyAdmit at *
  exact (congrArg (fun x : State => { x with adm := s.adm }) k).trans h

/-- A change of one domain touches no other register of the admission controller. -/
theorem State.updDomain_parts (s : State) (d : Nat) (g : Domain → Domain) :
    ∃ ds, s.updDomain d g = { s with adm := { s.adm with domains := ds } } := by
  unfold State.updDomain
  split <;> exact ⟨_, rfl⟩

/-! ## The transitions asked for -/

def State.setQueue (s : State) (q : List DomTrans) : State := { s with adm := { s.adm with domQueue := q } }

theorem State.runQueue_nil (s : State) : s.runQueue [] = s.setQueue [] := rfl

theorem State.runQueue_made (s : State) {t : DomTrans} (ts : List DomTrans) (h : (s.domain t.dom).state = t.target)
    (hf : t.forced = false) : s.runQueue (t :: ts) = s.runQueue ts := by
  rw [State.runQueue, if_pos h, if_neg (by simp [hf])]

/-- In `u` the transition `t` stands first, `ts` behind it, and has begun where it can; all else is as in `s`. -/
structure State.Begins (s : State) (t : DomTrans) (ts : List DomTrans) (u : State) : Prop where
  only : OnlyAdmit s u
  adm : { u.adm with domains := s.adm.domains } = { s.adm with domQueue := t :: ts }
  state : t.dom < 36 → (u.domain t.dom).state = if s.transReady t = true then .switching else (s.domain t.dom).state
  other : ∀ e, e ≠ t.dom → u.domain e = s.domain e

theorem State.Begins.domQueue {s u : State} {t : DomTrans} {ts : List DomTrans} (h : s.Begins t ts u) :
    u.adm.domQueue = t :: ts := congrArg Admit.domQueue h.adm

theorem State.runQueue_begins (s : State) {t : DomTrans} (ts : List DomTrans) (h : (s.domain t.dom).state ≠ t.target) :
    s.Begins t ts (s.runQueue (t :: ts)) := by
  rw [State.runQueue, if_neg h]
  have hready : (s.setQueue (t :: ts)).transReady t = s.transReady t := rfl
  change s.Begins t ts (if (s.setQueue (t :: ts)).transReady t = true then
    (s.setQueue (t :: ts)).updDomain t.dom fun x => { x with state := .switching } else s.setQueue (t :: ts))
  rw [hready]
  split
  · rename_i hr
    obtain ⟨ds, e⟩ := (s.setQueue (t :: ts)).updDomain_parts t.dom fun x => { x with state := .switching }
    refine ⟨by rw [e]; rfl, by rw [e]; rfl, fun hd => ?_, fun e he => State.updDomain_other _ he _⟩
    rw [State.updDomain_same _ hd, if_pos hr]
  · rename_i hr
    exact ⟨rfl, rfl, fun _ => (if_neg hr).symm, fun _ _ => rfl⟩

end Sys2Proof.Machine
end

section
/-!
SUPPORT. Requests, and the waits that end without a transition (R463, R467, R470).
-/

namespace Sys2Proof.Machine

open Sys2Proof

/-! ## DOMAIN_ON, DOMAIN_RETAIN, DOMAIN_OFF -/

/-- The command `c` asks for domain `d` to go to `t`, which ADMIT_DOMAIN_CTRL.TARGET gives as `n`. -/
def AsksFor (c : Instr) (d : Fin 36) (t : DomState) (n : BitVec 2) : Prop :=
  (c = .domainOn d ∧ t = .on ∧ n = 0) ∨ (c = .domainRetain d ∧ t = .retain ∧ n = 1) ∨ (c = .domainOff d ∧ t = .off ∧ n = 2)

theorem AsksFor.exec {c : Instr} {d : Fin 36} {t : DomState} {n : BitVec 2} (h : AsksFor c d t n) {s : State}
    (hok : s.hostOk = true) : exec c s = .next (s.domainGo d n t) := by
  have hno : ¬ (!s.hostOk) = true := by simp [hok]
  obtain ⟨rfl, rfl, rfl⟩ | ⟨rfl, rfl, rfl⟩ | ⟨rfl, rfl, rfl⟩ := h
  · exact if_neg hno
  · exact if_neg hno
  · exact if_neg hno

theorem State.domainGo_busy (s : State) (d : Fin 36) (n : BitVec 2) (t : DomState) (h : s.domBusy = true) :
    s.domainGo d n t = s := if_pos h

/-- What a request records: its domain, its target and its RESULT. -/
def State.recordRequest (s : State) (d : Fin 36) (n : BitVec 2) (c : Nat) : State :=
  { s with adm := { s.adm with domSel := BitVec.ofNat 6 d.val, domTarget := n, domResult := BitVec.ofNat 3 c } }

theorem State.domainGo_eq (s : State) (d : Fin 36) (n : BitVec 2) (t : DomState) (h : s.domBusy = false) :
    s.domainGo d n t =
      if s.switchCode d.val t ≠ 0 then s.recordRequest d n (s.switchCode d.val t)
      else (s.recordRequest d n (s.switchCode d.val t)).runQueue [{ dom := d.val, target := t }] := by
  have hq : s.adm.domQueue = [] := by simpa [State.domBusy] using h
  have hask (u : State) (x : DomTrans) (hu : u.adm.domQueue = []) : u.askTrans x = u.runQueue [x] := by
    rw [State.askTrans, hu, List.nil_append]
  rw [← hask (s.recordRequest d n (s.switchCode d.val t)) _ hq]
  exact if_neg (by simp [h])

/-- A request that nothing refuses, of a domain in another state, makes the sequencer busy with it. -/
theorem completes_request {c : Instr} {d : Fin 36} {t : DomState} {n : BitVec 2} (h : AsksFor c d t n) {s : State}
    (hok : s.hostOk = true) (hb : s.domBusy = false) (hc : s.switchCode d.val t = 0) (ht : (s.domain d.val).state ≠ t) :
    Completes c s fun u =>
      u.adm.domQueue = [{ dom := d.val, target := t }] ∧ u.adm.domSel = BitVec.ofNat 6 d.val ∧ u.adm.domResult = 0 ∧
      u.adm.domTarget = n ∧ (u.domain d.val).state =
        (if t = .on ∨ s.drained d.val = true then .switching else (s.domain d.val).state) ∧
      (∀ e, e ≠ d.val → u.domain e = s.domain e) ∧ OnlyAdmit s u := by
  have hbegins := (s.recordRequest d n 0).runQueue_begins (t := { dom := d.val, target := t }) [] ht
  refine ⟨_, h.exec hok, ?_⟩
  rw [s.domainGo_eq d n t hb, hc, if_neg (not_not.2 rfl)]
  refine ⟨hbegins.domQueue, congrArg Admit.domSel hbegins.adm, congrArg Admit.domResult hbegins.adm,
    congrArg Admit.domTarget hbegins.adm, (hbegins.state d.isLt).trans ?_, hbegins.other, OnlyAdmit.trans (t := s.recordRequest d n 0) rfl hbegins.only⟩
  have hready : (s.recordRequest d n 0).transReady { dom := d.val, target := t } = true ↔ t = .on ∨ s.drained d.val = true := by
    rw [State.transReady, Bool.or_false, Bool.or_eq_true, beq_iff_eq]
    exact Iff.rfl
  exact if_congr hready rfl rfl

/-- A request that is refused, or of a domain in the state asked for, is recorded and answered. -/
theorem completes_request_answered {c : Instr} {d : Fin 36} {t : DomState} {n : BitVec 2} (h : AsksFor c d t n) {s : State}
    (hok : s.hostOk = true) (hb : s.domBusy = false) (hc : s.switchCode d.val t ≠ 0 ∨ (s.domain d.val).state = t) :
    Completes c s fun u =>
      u.adm = { s.adm with domSel := BitVec.ofNat 6 d.val, domTarget := n, domResult := BitVec.ofNat 3 (s.switchCode d.val t) } ∧
      OnlyAdmit s u := by
  have hq : s.adm.domQueue = [] := by simpa [State.domBusy] using hb
  refine ⟨_, h.exec hok, ?_⟩
  rw [s.domainGo_eq d n t hb]
  split
  · exact ⟨rfl, rfl⟩
  · rename_i h0
    have hmade : ((s.recordRequest d n (s.switchCode d.val t)).domain d.val).state = t := hc.resolve_left h0
    rw [State.runQueue_made _ [] hmade rfl, State.runQueue_nil]
    exact ⟨by rw [← hq]; rfl, rfl⟩

/-! ## Waits that end -/

theorem completes_gateWaitExpiry {s : State} {x : DomTrans} (hq : s.adm.domQueue = [x]) (ht : x.target ≠ .on)
    (hf : x.forced = false) (hs : (s.domain x.dom).state ≠ .switching) (hd : s.drained x.dom = false) :
    Completes .gateWaitExpiry s fun u => u.adm = { s.adm with domQueue := [], domResult := 4 } ∧ OnlyAdmit s u := by
  have hready : s.transReady x = false := by simp [State.transReady, ht, hf, hd]
  refine ⟨({ s with adm := { s.adm with domResult := 4 } } : State).setQueue [], ?_, rfl, rfl⟩
  change execGateWaitExpiry s = _
  simp only [execGateWaitExpiry, hq, hready, bne_iff_ne.2 hs, Bool.not_false, Bool.and_self, guardStep_true,
    State.runQueue_nil]

theorem completes_forceDrainExpiry {s : State} {d : Fin 36} (hp : s.adm.forcedPend.contains d.val = true)
    (hq : s.adm.domQueue = []) (hon : (s.domain d.val).state = .on) (hrun : ∀ f ∈ s.framesIn d.val, (s.frame f).rn.run = 0) :
    Completes (.forceDrainExpiry d) s fun u =>
      (u.domain d.val).state = .switching ∧ u.adm.domQueue = [{ dom := d.val, target := .retain, forced := true }] ∧
      OnlyAdmit s u := by
  have hfree : ((s.framesIn d.val).all fun f => (s.frame f).rn.run == 0) = true := by simpa using hrun
  have hne : (s.domain d.val).state ≠ .retain := by rw [hon]; decide
  have hbegins := s.runQueue_begins (t := { dom := d.val, target := .retain, forced := true }) [] hne
  refine ⟨s.runQueue [{ dom := d.val, target := .retain, forced := true }], ?_, ?_, hbegins.domQueue, hbegins.only⟩
  · change execForceDrainExpiry d s = _
    simp only [execForceDrainExpiry, State.askTrans, hp, hfree, hq, List.any_nil, Bool.not_false, Bool.and_self,
      guardStep_true, List.nil_append]
  · rw [hbegins.state d.isLt]
    exact if_pos (by simp [State.transReady])

end Sys2Proof.Machine
end

section
/-!
SUPPORT. What the end of a transition does to the domains, to memory and to the frames (R296, R463, R467, R468).
-/

namespace Sys2Proof.Machine

open Sys2Proof

/-! ## The admission controller's registers -/

theorem State.settleLeave_adm (s : State) : s.settleLeave.adm = s.adm := by
  unfold State.settleLeave
  split <;> rfl

theorem State.settleFunc_adm (s : State) (n : FuncNo) : (s.settleFunc n).adm = s.adm := by
  unfold State.settleFunc
  extract_lets g clear sealed
  split
  · rfl
  · split <;> rfl

theorem State.settle_adm (s : State) : s.settle.adm = s.adm :=
  State.foldl_induct (fun t => t.adm = s.adm) _ _ (fun t n h => (t.settleFunc_adm n).trans h) s rfl

theorem State.dropPacket_adm (s : State) (k : Packet) (c : Code) (p : Nat) : (s.dropPacket k c p).adm = s.adm := by
  unfold State.dropPacket
  dsimp only
  split <;> exact s.log_adm _ _ _

theorem State.place1_adm (s : State) (k : Packet) (arr : Option (Fin 8)) : (s.place1 k arr).adm = s.adm := by
  unfold State.place1
  extract_lets role
  split
  · split <;> rfl
  · exact (State.dropPacket_adm _ _ _ _).trans (by cases arr <;> rfl)
  · split <;> rfl

theorem State.route_adm (s : State) (k : Packet) (arr : Option (Fin 8)) : (s.route k arr).adm = s.adm := by
  obtain ⟨c, o, e⟩ := (s.place1 k arr).pumpAll_parts
  rw [State.route, e]
  exact s.place1_adm k arr

theorem State.logNotice_adm (s : State) (c : Code) (x : LogSrc) (a : LogArgs) : (s.logNotice c x a).adm = s.adm := by
  rw [State.logNotice, State.notice_adm, State.log_adm]

theorem State.linkDown_adm (s : State) (p : Fin 8) : (s.linkDown p).adm = s.adm := by
  unfold State.linkDown
  extract_lets q
  split
  rename_i keep lost _
  refine State.foldl_induct (fun t => t.adm = s.adm) _ _ (fun t k h => ?_) _ (State.logNotice_adm _ _ _ _)
  dsimp only
  split
  · split
    · exact h
    · exact (t.route_adm _ _).trans h
  · exact h

theorem State.dieDrbg_adm (s : State) (d : Nat) (on : Bool) : (s.dieDrbg d on).adm = s.adm := by
  unfold State.dieDrbg
  split
  · split
    · exact State.setDrbg_adm _ _ _
    · exact State.setDrbg_adm _ _ _
  · rfl

theorem State.dieBack_adm (s : State) (d : Nat) : (s.dieBack d).adm = s.adm := by
  unfold State.dieBack
  split <;> rfl

/-! ## Frames wiped at power-on (R296, R468) -/

/-- The step of a power-on for one frame: its wipe begins. -/
def State.wakeFrame (s : State) (f : FrameNo) : State := (s.updFrame f fun fr => { fr with deferWipe := false }).wipeFrame f

/-- A wipe of frame `f` is in progress: its rows read zero, and no region is left. -/
structure State.Wiped (s : State) (f : FrameNo) : Prop where
  wiping : (s.frame f).reg.wiping = true
  regions : (s.frame f).regions = []
  rows : ∀ o < 0x800000, memRead s.mem (spadAddr f o) = 0

theorem memRead_memZero_of_zero (m : List Host.Cell) (base size : Nat) {a : Nat} (h : memRead m a = 0) :
    memRead (memZero m base size) a = 0 := by
  by_cases ha : a < base ∨ base + size ≤ a
  · rw [memRead_memZero_outside m ha, h]
  · exact memRead_memZero_inside m (by omega) (by omega)

section

variable (s : State) (f : FrameNo)

theorem State.wakeFrame_adm : (s.wakeFrame f).adm = s.adm := by
  unfold State.wakeFrame State.wipeFrame
  dsimp only
  split <;> rfl

theorem State.wakeFrame_other {k : FrameNo} (h : k ≠ f) : (s.wakeFrame f).frame k = s.frame k := by
  have hone (t : State) (g : Frame → Frame) : (t.updFrame f g).frame k = t.frame k := t.updFrame_other f k g h
  unfold State.wakeFrame State.wipeFrame
  dsimp only
  split
  · rw [hone, hone, hone]
  · have hbytes (t : State) (a n : Nat) : (t.wipeBytes a n).frame k = t.frame k := rfl
    rw [hone, hbytes, hone, hone]

/-- A frame keeps its map, loses its regions, and goes on with a wipe it was in. -/
theorem State.wakeFrame_same : ((s.wakeFrame f).frame f).seq = (s.frame f).seq ∧ ((s.wakeFrame f).frame f).regions = [] ∧
    ((s.frame f).reg.wiping = true → ((s.wakeFrame f).frame f).reg.wiping = true) := by
  have hbytes (t : State) (a n : Nat) : (t.wipeBytes a n).frame f = t.frame f := rfl
  unfold State.wakeFrame State.wipeFrame
  dsimp only
  split <;> simp [hbytes]

theorem State.wakeFrame_domainOf (k : FrameNo) : (s.wakeFrame f).domainOf k = s.domainOf k := by
  by_cases h : k = f
  · rw [h, State.domainOf, (s.wakeFrame_same f).1, State.domainOf]
  · rw [State.domainOf, s.wakeFrame_other f h, State.domainOf]

theorem State.wakeFrame_zero {a : Nat} (h : memRead s.mem a = 0) : memRead (s.wakeFrame f).mem a = 0 := by
  unfold State.wakeFrame State.wipeFrame
  dsimp only
  split
  · exact h
  · exact memRead_memZero_of_zero _ _ _ h

theorem State.wakeFrame_keepsWiped {k : FrameNo} (h : s.Wiped k) : (s.wakeFrame f).Wiped k := by
  have hrows : ∀ o < 0x800000, memRead (s.wakeFrame f).mem (spadAddr k o) = 0 := fun o ho => s.wakeFrame_zero f (h.rows o ho)
  by_cases e : k = f
  · subst e
    obtain ⟨-, hregions, hwiping⟩ := s.wakeFrame_same k
    exact ⟨hwiping h.wiping, hregions, hrows⟩
  · refine ⟨?_, ?_, hrows⟩
    · rw [s.wakeFrame_other f e]
      exact h.wiping
    · rw [s.wakeFrame_other f e]
      exact h.regions

/-- A frame whose domain is not in RETAIN is wiped at once. -/
theorem State.wipeFrame_now (h : (s.domain (s.domainOf f)).state ≠ .retain) : s.wipeFrame f =
    ((s.updFrame f fun fr => { fr with regions := [], rrc := [] }).wipeBytes (spadAddr f 0) 0x800000).updFrame f fun fr =>
      { fr with reg := { fr.reg with wiping := true } } := by
  have hd : (s.updFrame f fun fr => { fr with regions := [], rrc := [] }).domainOf f = s.domainOf f := by
    rw [State.domainOf, State.updFrame_same, State.domainOf]
  unfold State.wipeFrame
  dsimp only
  rw [hd, State.domain_congr (s.updFrame_adm f _)]
  exact if_neg (by simpa using h)

theorem State.wakeFrame_wiped (h : (s.domain (s.domainOf f)).state ≠ .retain) : (s.wakeFrame f).Wiped f := by
  have hd : (s.updFrame f fun fr => { fr with deferWipe := false }).domainOf f = s.domainOf f := by
    rw [State.domainOf, State.updFrame_same, State.domainOf]
  have e := State.wipeFrame_now (s.updFrame f fun fr => { fr with deferWipe := false }) f
    (by rwa [hd, State.domain_congr (s.updFrame_adm f _)])
  rw [State.wakeFrame, e]
  refine ⟨?_, ?_, fun o ho => ?_⟩
  · rw [State.updFrame_same]
  · rw [State.updFrame_same, State.frame, State.wipeBytes_frames, ← State.frame, State.updFrame_same]
  · exact memRead_memZero_inside s.mem (by unfold spadAddr; omega) (by unfold spadAddr; omega)

end

theorem State.wakeAll_wiped (l : List FrameNo) (s : State) (h : ∀ f ∈ l, (s.domain (s.domainOf f)).state ≠ .retain) :
    ∀ f ∈ l, (l.foldl State.wakeFrame s).Wiped f := by
  induction l generalizing s with
  | nil => exact fun f hf => absurd hf List.not_mem_nil
  | cons k l ih =>
    intro f hf
    obtain rfl | hf := List.mem_cons.1 hf
    · exact State.foldl_induct (·.Wiped f) l _ (fun t g ht => t.wakeFrame_keepsWiped g ht) _
        (s.wakeFrame_wiped f (h f List.mem_cons_self))
    · refine ih _ (fun g hg => ?_) f hf
      rw [State.wakeFrame_domainOf, State.domain_congr (s.wakeFrame_adm k)]
      exact h g (List.mem_cons_of_mem k hg)

theorem State.domainOf_framesIn (s : State) {d : Nat} {f : FrameNo} (h : f ∈ s.framesIn d) : s.domainOf f = d := by
  unfold State.framesIn at h
  split at h
  · obtain ⟨-, hf⟩ := List.mem_filter.1 h
    rw [Bool.and_eq_true, beq_iff_eq] at hf
    exact hf.1
  · exact absurd h List.not_mem_nil

/-- Every frame of a domain whose contents are lost is wiped. -/
theorem State.wakeFrames_wiped (s : State) {d : Nat} (hcold : (s.domain d).cold = true) (hd : (s.domain d).state ≠ .retain) :
    ∀ f ∈ s.framesIn d, (s.wakeFrames d).Wiped f := by
  have e : s.wakeFrames d = (s.framesIn d).foldl State.wakeFrame s := if_pos hcold
  rw [e]
  refine State.wakeAll_wiped _ s fun f hf => ?_
  rwa [s.domainOf_framesIn hf]

theorem State.wakeFrames_adm (s : State) (d : Nat) : (s.wakeFrames d).adm = s.adm := by
  unfold State.wakeFrames
  split
  · exact State.foldl_induct (fun t => t.adm = s.adm) _ _ (fun t f h => (t.wakeFrame_adm f).trans h) s rfl
  · refine State.foldl_induct (fun t => t.adm = s.adm) _ _ (fun t f h => ?_) s rfl
    exact h

/-! ## A domain in its new state -/

theorem State.enterRetain_adm (s : State) (d : Nat) :
    (s.enterRetain d).adm = (s.updDomain d fun x => { x with state := .retain }).adm := by
  unfold State.enterRetain
  rw [State.settleLeave_adm]
  exact State.updDomain_adm_congr (s.mapFrames_adm _) d _

theorem State.enterOff_adm (s : State) (d : Nat) :
    (s.enterOff d).adm = (s.updDomain d fun x => { x with state := .off, cold := true }).adm := by
  unfold State.enterOff
  dsimp only
  rw [State.settleLeave_adm, State.settle_adm]
  refine State.updDomain_adm_congr ?_ d _
  rw [State.dieDrbg_adm]
  split
  · rw [State.updPort_adm, State.linkDown_adm, State.mapFrames_adm]
  · rw [State.mapFrames_adm]

theorem State.enterOn_adm (s : State) (d : Nat) :
    (s.enterOn d).adm = (s.updDomain d fun x => { x with state := .on, forced := false, cold := false }).adm := by
  unfold State.enterOn
  dsimp only
  refine State.updDomain_adm_congr ?_ d _
  rw [State.dieBack_adm, State.dieDrbg_adm]
  split
  · rw [State.updPort_adm, State.wakeFrames_adm]
  · rw [State.wakeFrames_adm]

/-- Entering a state, a domain takes it, and no other register of the admission controller changes. -/
theorem State.enterDomain_adm (s : State) (d : Nat) {t : DomState} (ht : t ≠ .switching) :
    ∃ g : Domain → Domain, (∀ x, (g x).state = t) ∧ (s.enterDomain d t).adm = (s.updDomain d g).adm := by
  cases t with
  | on => exact ⟨_, fun _ => rfl, s.enterOn_adm d⟩
  | retain => exact ⟨_, fun _ => rfl, s.enterRetain_adm d⟩
  | off => exact ⟨_, fun _ => rfl, s.enterOff_adm d⟩
  | switching => exact absurd rfl ht

theorem State.enterDomain_state (s : State) {d : Nat} (hd : d < 36) {t : DomState} (ht : t ≠ .switching) :
    ((s.enterDomain d t).domain d).state = t := by
  obtain ⟨g, hg, e⟩ := s.enterDomain_adm d ht
  rw [State.domain_congr e, s.updDomain_same hd, hg]

theorem State.enterDomain_other (s : State) {d e : Nat} (he : e ≠ d) {t : DomState} (ht : t ≠ .switching) :
    (s.enterDomain d t).domain e = s.domain e := by
  obtain ⟨g, -, h⟩ := s.enterDomain_adm d ht
  rw [State.domain_congr h, s.updDomain_other he]

theorem State.gateDone_same (s : State) {d : Nat} (hd : d < 36) :
    (s.gateDone d).domain d = { s.domain d with forced := true } := s.updDomain_same hd _

theorem State.gateDone_other (s : State) {d e : Nat} (he : e ≠ d) : (s.gateDone d).domain e = s.domain e :=
  s.updDomain_other he _

/-! ## The end of a transition -/

/-- A forced gate takes with it what its frames' Feeders still held (R463). -/
def State.dropGated (s : State) (d : Nat) : State :=
  { s with xfers := s.xfers.filter fun x => !(s.framesIn d).any (·.val == x.frame) || x.flying }

/-- The state as the transition `t` leaves it, before the next one begins (R463, R467). -/
def State.madeTrans (s : State) (t : DomTrans) : State :=
  if t.forced then ((s.dropGated t.dom).enterDomain t.dom t.target).gateDone t.dom
  else s.enterDomain t.dom t.target

theorem exec_domainTransitionComplete {s : State} {x : DomTrans} {rest : List DomTrans} (hq : s.adm.domQueue = x :: rest)
    (hs : (s.domain x.dom).state = .switching) :
    exec .domainTransitionComplete s = .next ((s.madeTrans x).runQueue rest) := by
  have hend : s.endTrans x rest = (s.madeTrans x).runQueue rest := rfl
  change execDomainTransitionComplete s = _
  simp only [execDomainTransitionComplete, hq, hs, if_true, hend]

theorem State.madeTrans_state (s : State) {x : DomTrans} (hd : x.dom < 36) (ht : x.target ≠ .switching) :
    ((s.madeTrans x).domain x.dom).state = x.target := by
  unfold State.madeTrans
  split
  · rw [State.gateDone_same _ hd]
    exact State.enterDomain_state _ hd ht
  · exact s.enterDomain_state hd ht

theorem State.madeTrans_other (s : State) {x : DomTrans} {e : Nat} (he : e ≠ x.dom) (ht : x.target ≠ .switching) :
    (s.madeTrans x).domain e = s.domain e := by
  unfold State.madeTrans
  split
  · rw [State.gateDone_other _ he]
    exact State.enterDomain_other _ he ht
  · exact s.enterDomain_other he ht

theorem completes_lastTransition {s : State} {x : DomTrans} (hq : s.adm.domQueue = [x]) (hd : x.dom < 36)
    (ht : x.target ≠ .switching) (hs : (s.domain x.dom).state = .switching) :
    Completes .domainTransitionComplete s fun u => (u.domain x.dom).state = x.target ∧ u.domBusy = false :=
  ⟨_, exec_domainTransitionComplete hq hs, s.madeTrans_state hd ht, rfl⟩

/-- The next transition stands first when one has ended, and its domain may have begun it. -/
theorem completes_transition {s : State} {x y : DomTrans} {more : List DomTrans} (hq : s.adm.domQueue = x :: y :: more)
    (hd : x.dom < 36) (ht : x.target ≠ .switching) (hs : (s.domain x.dom).state = .switching) (hxy : y.dom ≠ x.dom)
    (hy : (s.domain y.dom).state ≠ y.target) :
    Completes .domainTransitionComplete s fun u => (u.domain x.dom).state = x.target ∧ u.adm.domQueue = y :: more := by
  have hy' : ((s.madeTrans x).domain y.dom).state ≠ y.target := by rwa [s.madeTrans_other hxy ht]
  have hbegins := (s.madeTrans x).runQueue_begins more hy'
  refine ⟨_, exec_domainTransitionComplete hq hs, ?_, hbegins.domQueue⟩
  rw [hbegins.other _ hxy.symm]
  exact s.madeTrans_state hd ht

theorem State.enterOn_frames_mem (s : State) (d : Nat) :
    (s.enterOn d).frames = (s.wakeFrames d).frames ∧ (s.enterOn d).mem = (s.wakeFrames d).mem := by
  have hdrbg (t : State) : (t.dieDrbg d true).frames = t.frames ∧ (t.dieDrbg d true).mem = t.mem := by
    unfold State.dieDrbg
    split
    · exact ⟨State.setDrbg_frames _ _ _, State.setDrbg_mem _ _ _⟩
    · exact ⟨rfl, rfl⟩
  have hback (t : State) : (t.dieBack d).frames = t.frames ∧ (t.dieBack d).mem = t.mem := by
    unfold State.dieBack
    split <;> exact ⟨rfl, rfl⟩
  unfold State.enterOn
  dsimp only
  rw [State.updDomain_frames, State.updDomain_mem, (hback _).1, (hback _).2, (hdrbg _).1, (hdrbg _).2]
  split <;> exact ⟨rfl, rfl⟩

/-- A domain that comes ON with its contents lost wipes its frames. -/
theorem completes_transition_cold {s : State} {d : Nat} (hq : s.adm.domQueue = [{ dom := d, target := .on }])
    (hs : (s.domain d).state = .switching) (hcold : (s.domain d).cold = true) :
    Completes .domainTransitionComplete s fun u => ∀ f ∈ s.framesIn d, (u.frame f).reg.wiping = true ∧
      (u.frame f).regions = [] ∧ ∀ o < 0x800000, memRead u.mem (spadAddr f o) = 0 := by
  refine ⟨_, exec_domainTransitionComplete hq hs, fun f hf => ?_⟩
  have hw := s.wakeFrames_wiped hcold (by rw [hs]; decide) f hf
  obtain ⟨hframes, hmem⟩ := s.enterOn_frames_mem d
  have hframe : (s.enterOn d).frame f = (s.wakeFrames d).frame f := by rw [State.frame, hframes, State.frame]
  change ((s.enterOn d).frame f).reg.wiping = true ∧ ((s.enterOn d).frame f).regions = [] ∧
    ∀ o < 0x800000, memRead (s.enterOn d).mem (spadAddr f o) = 0
  rw [hframe, hmem]
  exact ⟨hw.wiping, hw.regions, hw.rows⟩

theorem State.settleLeave_mem (s : State) : s.settleLeave.mem = s.mem ∧ s.settleLeave.vis = s.vis := by
  unfold State.settleLeave
  split <;> exact ⟨rfl, rfl⟩

theorem State.enterRetain_mem (s : State) (d : Nat) : (s.enterRetain d).mem = s.mem ∧ (s.enterRetain d).vis = s.vis := by
  unfold State.enterRetain
  simp [State.settleLeave_mem]

theorem State.gateDone_mem (s : State) (d : Nat) : (s.gateDone d).mem = s.mem ∧ (s.gateDone d).vis = s.vis :=
  ⟨s.updDomain_mem d _, s.updDomain_vis d _⟩

/-- The end of a forced gate: the domain is in RETAIN, forced, and waits for a gate no more. -/
theorem completes_forcedGate {s : State} {d : Fin 36} (hq : s.adm.domQueue = [{ dom := d.val, target := .retain, forced := true }])
    (hs : (s.domain d.val).state = .switching) :
    Completes .domainTransitionComplete s fun u =>
      (u.domain d.val).state = .retain ∧ (u.domain d.val).forced = true ∧ u.adm.forcedPend.contains d.val = false ∧
      u.adm.domQueue = [] ∧ SameMemory s u := by
  have hmade : s.madeTrans { dom := d.val, target := .retain, forced := true } =
      ((s.dropGated d.val).enterRetain d.val).gateDone d.val := rfl
  have hd : ((((s.dropGated d.val).enterRetain d.val).gateDone d.val).setQueue []).domain d.val =
      { ((s.dropGated d.val).enterRetain d.val).domain d.val with forced := true } := State.gateDone_same _ d.isLt
  refine ⟨_, exec_domainTransitionComplete hq hs, ?_⟩
  rw [hmade, State.runQueue_nil]
  refine ⟨?_, ?_, ?_, rfl, ?_⟩
  · rw [hd]
    exact (s.dropGated d.val).enterDomain_state d.isLt (t := .retain) (by decide)
  · rw [hd]
  · change (((s.dropGated d.val).enterRetain d.val).adm.forcedPend.filter (· != d.val)).contains d.val = false
    simp
  · obtain ⟨hm, hv⟩ := State.gateDone_mem ((s.dropGated d.val).enterRetain d.val) d.val
    obtain ⟨hmem, hvis⟩ := (s.dropGated d.val).enterRetain_mem d.val
    exact ⟨fun a => congrArg (memRead · a) (hm.trans hmem), fun a => congrArg (memRead · a) (hv.trans hvis)⟩

/-- Settles O42: a request is recorded and begins the transition or is answered, and the end of a transition leaves its
domain in the state asked for. -/
theorem domainsSwitchByRequest : Obligations.DomainsSwitchByRequest := by
  unfold Obligations.DomainsSwitchByRequest
  refine ⟨fun s d hok hb c t n h => ⟨completes_request h hok hb, completes_request_answered h hok hb⟩,
    fun s d c hc hb => ?busy, fun s x rest hq hd ht hs => ⟨?last, ?next⟩, fun s d _ hq _ => completes_transition_cold hq,
    fun s x => completes_gateWaitExpiry, fun s d => completes_forceDrainExpiry, fun s d => completes_forcedGate⟩
  case busy =>
    simp only [List.mem_cons, List.not_mem_nil, or_false] at hc
    by_cases hok : s.hostOk = true
    · obtain ⟨t, n, h⟩ : ∃ t n, AsksFor c d t n := by
        obtain h | h | h := hc
        · exact ⟨.on, 0, .inl ⟨h, rfl, rfl⟩⟩
        · exact ⟨.retain, 1, .inr (.inl ⟨h, rfl, rfl⟩)⟩
        · exact ⟨.off, 2, .inr (.inr ⟨h, rfl, rfl⟩)⟩
      rw [h.exec hok, s.domainGo_busy d n t hb]
    · have hno : (!s.hostOk) = true := by simpa using hok
      obtain rfl | rfl | rfl := hc <;> exact if_pos hno
  case last =>
    rintro rfl
    exact completes_lastTransition hq hd ht hs
  case next =>
    rintro y more rfl hxy hy
    exact completes_transition hq hd ht hs hxy hy

end Sys2Proof.Machine
end

section
/-!
SUPPORT. Reads of the 64-bit registers of the TALLY block, whole or by halves, by any function that sees them (R62).
-/

namespace Sys2Proof.Machine

open Sys2Proof

theorem alGet_alErase_same {α : Type} (l : List (Nat × α)) (k : Nat) : alGet (alErase l k) k = none := by
  induction l with
  | nil => rfl
  | cons p l ih =>
    by_cases h : p.1 = k
    · simpa [alErase, h] using ih
    · simpa [alErase, h, alGet, Ne.symm h] using ih

theorem BitVec.high_setWidth (v : BitVec 64) : ((v >>> 32).setWidth 32).setWidth 64 = v >>> 32 := by
  apply BitVec.eq_of_toNat_eq
  have h := v.isLt
  simp only [BitVec.toNat_setWidth, BitVec.toNat_ushiftRight, Nat.shiftRight_eq_div_pow]
  omega

theorem accessOk_wide {x : Nat} (h : x % 8 = 0) : accessOk x 64 = true := by simp [accessOk, h]

theorem accessOk_word {x : Nat} (h : x % 4 = 0) : accessOk x 32 = true := by simp [accessOk, h]

/-- An access of 64 bits whose halves stand side by side in BAR0 is one part. -/
theorem State.parts_wide {s : State} {n : FuncNo} {x y : Nat} (h8 : y % 8 = 0) (hl : s.locate n x = .bar0 y)
    (hh : s.locate n (x + 4) = .bar0 (y + 4)) : s.parts n x 64 = [Part.whole (.bar0 y)] := by
  simp [State.parts, hl, hh, h8, Part.whole]

theorem State.parts_word {s : State} {n : FuncNo} {x : Nat} {l : Loc} (h : s.locate n x = l) :
    s.parts n x 32 = [wordPart l 0] := by
  simp [State.parts, h]

/-- The whole register is answered at once, and nothing is latched. -/
theorem State.readPart_tallyWhole (s : State) (n : FuncNo) {x o : Nat} (hx : blkOf x = .tally o) (h8 : x % 8 = 0) :
    s.readPart n (Part.whole (.bar0 x)) = (s.tallySlot o, s) := by
  have hb : x / 8 * 8 = x := by omega
  obtain ⟨hoff, hsample, hval, hread⟩ := s.tally_read n hx (BitVec.allOnes 64)
  simp [-BitVec.reduceAllOnes, State.readPart, Part.whole, hb, hoff, hsample, hval, hread]

section
variable {s : State} {n : FuncNo} {x o : Nat} (tag : Nat)

/-- The PF, and an enabled VF, is served. -/
theorem State.served_of_or (hn : n.val = 0 ∨ (s.global.funcs[n].enable = true ∧ s.present n = true)) :
    n.val ≠ 0 → s.global.funcs[n].enable = true ∧ s.present n = true := fun h => hn.resolve_left h

theorem exec_registerRead_tallyWhole (h : s.hostOk = true)
    (hn : n.val ≠ 0 → s.global.funcs[n].enable = true ∧ s.present n = true) (hx : x % 8 = 0)
    (hl : s.locate n x = .bar0 (0x100000 + o)) (hh : s.locate n (x + 4) = .bar0 (0x100000 + o + 4)) (ho : o < 0x1000)
    (h8 : o % 8 = 0) : exec (.registerRead n x 64 tag) s = .next (s.emit (.regData tag (s.tallySlot o))) := by
  have h8' : (0x100000 + o) % 8 = 0 := by omega
  rw [execRegisterRead_served tag h (accessOk_wide hx) hn, State.parts_wide h8' hl hh]
  simp only [State.readParts, s.readPart_tallyWhole n (blkOf_tally (by omega : o < 0x100000)) h8']
  simp [Part.whole]

theorem exec_registerRead_tallyLow (h : s.hostOk = true)
    (hn : n.val ≠ 0 → s.global.funcs[n].enable = true ∧ s.present n = true) (hx : x % 8 = 0)
    (hl : s.locate n x = .bar0 (0x100000 + o)) (ho : o < 0x1000) (h8 : o % 8 = 0) (hw : tallyWide o = true) :
    exec (.registerRead n x 32 tag) s = .next (State.emit { s with tally := { s.tally with
        latch := alSet s.tally.latch (latchKey n (0x100000 + o)) ((s.tallySlot o >>> 32).setWidth 32) } }
      (.regData tag ((s.tallySlot o).setWidth 32 |>.setWidth 64))) := by
  rw [execRegisterRead_served tag h (accessOk_word (by omega)) hn, State.parts_word hl]
  simp only [State.readParts, s.readPart_tallyLow n (blkOf_tally (by omega : o < 0x100000)) (by omega) hw]
  simp [wordPart]

theorem exec_registerRead_tallyHigh {v : Word} (h : s.hostOk = true)
    (hn : n.val ≠ 0 → s.global.funcs[n].enable = true ∧ s.present n = true) (hx : x % 8 = 0)
    (hl : s.locate n (x + 4) = .bar0 (0x100000 + o + 4)) (ho : o < 0x1000) (h8 : o % 8 = 0) (hw : tallyWide o = true)
    (hv : alGet s.tally.latch (latchKey n (0x100000 + o)) = some v) :
    exec (.registerRead n (x + 4) 32 tag) s = .next (State.emit { s with tally := { s.tally with
        latch := alErase s.tally.latch (latchKey n (0x100000 + o)) } } (.regData tag (v.setWidth 64))) := by
  have hx' : blkOf (0x100000 + o + 4) = .tally (o + 4) := blkOf_tally (by omega : o + 4 < 0x100000)
  rw [execRegisterRead_served tag h (accessOk_word (by omega)) hn, State.parts_word hl]
  simp only [State.readParts,
    s.readPart_tallyHigh n hx' (blkOf_tally (by omega : o < 0x100000)) (by omega) hw hv]
  simp [wordPart]

end

/-- Settles O58: each access is one part of the TALLY block; the low half latches the high half, which the next read of it takes. -/
theorem tallyReadsAreAtomicOrLatched : Obligations.TallyReadsAreAtomicOrLatched := by
  unfold Obligations.TallyReadsAreAtomicOrLatched
  intro s n x o tag h hn hx hl hh ho h8 hw
  refine ⟨exec_registerRead_tallyWhole tag h (State.served_of_or hn) hx hl hh ho h8,
    _, exec_registerRead_tallyLow tag h (State.served_of_or hn) hx hl ho h8 hw, rfl, rfl, ?high⟩
  intro u tag' hu hnu hlu hlatch
  have hv : alGet u.tally.latch (latchKey n (0x100000 + o)) = some ((s.tallySlot o >>> 32).setWidth 32) := by
    rw [hlatch]
    exact alGet_alSet_same ..
  refine ⟨_, exec_registerRead_tallyHigh tag' hu (State.served_of_or hnu) hx hlu ho h8 hw hv, ?_, rfl, ?_⟩
  · rw [BitVec.high_setWidth]
    rfl
  · exact alGet_alErase_same ..

end Sys2Proof.Machine
end

section
/-!
SUPPORT. The timebase: what a new value of it leaves alone, and what an edge, a holdover and SYNC_IN make of it.
-/

namespace Sys2Proof.Machine

open Sys2Proof

/-- Giving the timebase a value writes the Tally; the token rate beside it may be measured again, by a free value. -/
theorem State.setTb_parts (s : State) (t : Tally) :
    ∃ c r, s.setTb t = { s with tally := { t with tokenRate := r }, freeCtr := c } := by
  unfold State.setTb
  split
  · exact ⟨s.freeCtr, t.tokenRate, rfl⟩
  · exact ⟨_, _, rfl⟩

/-- An edge of a timebase that runs on the reference: 40 ns after the edge before. -/
theorem Tally.edge_sum {tb : BitVec 64} (n : Nat) :
    tb + BitVec.ofInt 64 (40 - (n : Int)) + BitVec.ofNat 64 n = tb + 40 := by
  rw [BitVec.add_assoc, ← BitVec.ofInt_natCast, ← BitVec.ofInt_add, Int.sub_add_cancel]
  rfl

theorem Tally.holdover_sum {tb : BitVec 64} {n : Nat} (h : n ≤ 160) :
    tb + BitVec.ofNat 64 (160 - n) + BitVec.ofNat 64 n = tb + 160 := by
  rw [BitVec.add_assoc, ← BitVec.ofNat_add, Nat.sub_add_cancel h]
  rfl

section
variable {s : State}

theorem completes_timebaseEdge (hh : s.tally.tbHoldover = false) (ho : s.tally.tbOff = 0) :
    Completes .timebaseEdge s fun t =>
      t.tally.tb + BitVec.ofNat 64 s.tally.tbFine = s.tally.tb + 40 ∧ t.tally.tbFine = 0 ∧ t.tally.tbLocked = true ∧
      t.tally.tbHoldover = false ∧ t.tally.count = s.tally.count ∧
      { t with tally := s.tally, freeCtr := s.freeCtr } = s := by
  have hslew : s.tally.slew = 0 := by simp [Tally.slew, ho, tbNear]
  refine ⟨_, show execTimebaseEdge s = _ from if_neg (by simp [hh]), ?_⟩
  obtain ⟨c, r, e⟩ := s.setTb_parts { s.tally with
    tb := s.tally.tb + BitVec.ofInt 64 (40 - s.tally.tbFine + s.tally.slew), up := s.tally.up + (40 - s.tally.tbFine)
    tbFine := 0, tbOff := s.tally.tbOff + s.tally.slew
    slewEdges := if tbNear s.tally.tbOff ∨ 24 ≤ s.tally.slewEdges then 0 else s.tally.slewEdges + 1
    tbLocked := tbNear (s.tally.tbOff + s.tally.slew) }
  rw [e]
  refine ⟨?_, rfl, ?_, hh, rfl, rfl⟩
  · simp only [hslew, Int.add_zero]
    exact Tally.edge_sum _
  · simp [hslew, ho, tbNear]

/-- The first edge after a holdover ends it and steps nothing. -/
theorem completes_timebaseEdge_holdover (hh : s.tally.tbHoldover = true) :
    Completes .timebaseEdge s fun t =>
      t.tally.tb = s.tally.tb ∧ t.tally.tbHoldover = false ∧ t.tally.count = s.tally.count ∧
      { t with tally := s.tally, freeCtr := s.freeCtr } = s :=
  ⟨_, show execTimebaseEdge s = _ from if_pos hh, rfl, rfl, rfl, rfl⟩

theorem completes_tbHoldover (hh : s.tally.tbHoldover = false) (hf : s.tally.tbFine ≤ 160) :
    Completes .tbHoldover s fun t =>
      t.tally.tbLocked = false ∧ t.tally.tbHoldover = true ∧ t.tally.count = s.tally.count ∧
      t.tally.tb + BitVec.ofNat 64 s.tally.tbFine = s.tally.tb + 160 ∧
      { t with tally := s.tally, freeCtr := s.freeCtr } = s := by
  refine ⟨_, show execTbHoldover s = _ from congrArg Host.Outcome.next (if_neg (by simp [hh])), ?_⟩
  obtain ⟨c, r, e⟩ := s.setTb_parts { s.tally with
    tb := s.tally.tb + BitVec.ofNat 64 (160 - s.tally.tbFine), up := s.tally.up + (160 - s.tally.tbFine)
    tbFine := 0, holdNs := 0, tbLocked := false, tbHoldover := true }
  rw [e]
  exact ⟨rfl, rfl, rfl, Tally.holdover_sum hf, rfl⟩

/-- A SYNC_IN edge within 1 µs after the last counted one. -/
theorem execSyncInEdge_ignored {e : Nat} (h : s.tally.lastSync = some e) (hu : s.tally.up < e + 1000) :
    execSyncInEdge s = .next s := by
  unfold execSyncInEdge
  simp only [h]
  rw [if_pos (by simp [hu])]

/-- The Tally after a counted SYNC_IN edge, but for an armed load. -/
def Tally.counted (t : Tally) : Tally :=
  { t with
    syncCount := t.syncCount + 1
    capture := if t.syncMode = 1 then t.tb else t.capture
    lastSync := some t.up }

/-- What a counted edge sends out. -/
def State.syncEcho (s : State) : State := if s.tally.syncOutMode = 1 then s.emit .syncOut else s

theorem State.syncEcho_parts (s : State) : ∃ o, s.syncEcho = { s with outbox := o } := by
  unfold State.syncEcho
  split
  · exact ⟨_, rfl⟩
  · exact ⟨s.outbox, rfl⟩

theorem execSyncInEdge_counted (h : ∀ e, s.tally.lastSync = some e → e + 1000 ≤ s.tally.up) :
    execSyncInEdge s = .next (if s.tally.loadArm then s.syncEcho.setTb { s.tally.counted.loadTb with loadArm := false }
      else { s.syncEcho with tally := s.tally.counted }) := by
  unfold execSyncInEdge
  dsimp only
  cases hl : s.tally.lastSync with
  | none => rw [if_neg (by simp)]; rfl
  | some e =>
    have := h e hl
    rw [if_neg (by simpa using this)]
    rfl

theorem completes_syncInEdge (h : ∀ e, s.tally.lastSync = some e → e + 1000 ≤ s.tally.up) :
    Completes .syncInEdge s fun t =>
      t.tally.syncCount = s.tally.syncCount + 1 ∧
      (s.tally.syncMode = 1 → t.tally.capture = s.tally.tb) ∧
      (s.tally.syncMode ≠ 1 → t.tally.capture = s.tally.capture) ∧
      (s.tally.loadArm = true → t.tally.tb = s.tally.tbSet) ∧ (s.tally.loadArm = false → t.tally.tb = s.tally.tb) ∧
      t.tally.loadArm = false ∧ { t with tally := s.tally, outbox := s.outbox, freeCtr := s.freeCtr } = s := by
  refine ⟨_, execSyncInEdge_counted h, ?_⟩
  obtain ⟨o, ho⟩ := s.syncEcho_parts
  rw [ho]
  cases hl : s.tally.loadArm with
  | true =>
    obtain ⟨c, r, e⟩ := State.setTb_parts { s with outbox := o } { s.tally.counted.loadTb with loadArm := false }
    rw [if_pos rfl, e]
    exact ⟨rfl, fun h => if_pos h, fun h => if_neg h, fun _ => rfl, fun h => absurd h (by decide), rfl, rfl⟩
  | false =>
    rw [if_neg (by decide)]
    exact ⟨rfl, fun h => if_pos h, fun h => if_neg h, fun h => absurd h (by decide), fun _ => rfl, hl, rfl⟩

end

/-- Settles O7: each timebase command is one new value of the timebase, computed from the time interpolated since the edge. -/
theorem timebaseCommandsComplete : Obligations.TimebaseCommandsComplete := by
  unfold Obligations.TimebaseCommandsComplete
  exact ⟨fun _ => completes_timebaseEdge, fun _ => completes_timebaseEdge_holdover, fun _ => completes_tbHoldover,
    fun _ => completes_syncInEdge, fun _ _ => execSyncInEdge_ignored⟩

end Sys2Proof.Machine
end

section
/-!
SUPPORT. Beat groups and their tokens (R69 to R75, R414): what each leaves alone.
-/

namespace Sys2Proof.Machine

open Sys2Proof

theorem guardStep_of_true {b : Bool} {s t : State} (h : b = true) : guardStep b s t = .next t := by
  rw [h, guardStep_true]

/-- A LEAVE that settles writes the Tally alone. -/
theorem State.settleLeave_parts (s : State) : s.settleLeave = { s with tally := s.settleLeave.tally } := by
  unfold State.settleLeave
  split <;> rfl

theorem State.settleLeave_tally (s : State) :
    s.settleLeave.tally = if s.tally.leavePend = true ∧ s.completed = true then s.tally.left else s.tally := by
  unfold State.settleLeave
  by_cases h : s.tally.leavePend = true ∧ s.completed = true
  · simp [h]
  · rw [if_neg h, if_neg (by simpa using h)]

/-- Asking group programs to abort changes the runs alone, and the fold is over the runs as they were. -/
theorem State.abortGroup_parts (s : State) : ∃ l, s.abortGroup = { s with runs := l } := by
  unfold State.abortGroup
  generalize s.runs = rs
  induction rs generalizing s with
  | nil => exact ⟨s.runs, rfl⟩
  | cons r rs ih =>
    rw [List.foldl_cons]
    split
    · obtain ⟨l, e⟩ := ih (s.askAbort r.id _ _)
      exact ⟨l, e.trans rfl⟩
    · exact ih s

/-- The Tally, the links' tokens and what goes out apart, sending tokens changes nothing. -/
theorem State.sendTokens_parts (s : State) (w : Int) : ∃ c o, s.sendTokens w = { s with carry := c, outbox := o } := by
  have go (u : State) (p : BitVec 3) (h : Nat) (k : Packet) :
      ∃ c o, (if h = 0 then u else u.enqueue (portOf p) k) = { u with carry := c, outbox := o } := by
    split
    · exact ⟨u.carry, u.outbox, rfl⟩
    · exact u.enqueue_parts _ _
  exact State.carryOut_trans (go ..) (go ..)

/-! ## The abort that a broken group asks of its programs -/

/-- Run `q` is one that stood as `r`, to which causes may have been added. -/
def Run.AskedFrom (r q : Run) : Prop := q.id = r.id ∧ q.group = r.group ∧ q.aborted = r.aborted ∧ q.endBeat = r.endBeat ∧
  ∀ a ∈ r.aborts, a ∈ q.aborts

theorem Run.askedFrom_refl (r : Run) : Run.AskedFrom r r := ⟨rfl, rfl, rfl, rfl, fun _ h => h⟩

theorem Run.AskedFrom.trans {p q r : Run} (h : Run.AskedFrom p q) (k : Run.AskedFrom q r) : Run.AskedFrom p r := by
  obtain ⟨hi, hg, ha, he, hc⟩ := h
  obtain ⟨ki, kg, ka, ke, kc⟩ := k
  exact ⟨ki.trans hi, kg.trans hg, ka.trans ha, ke.trans he, fun a m => kc a (hc a m)⟩

/-- What asking run `id` to abort makes of a run. -/
def Run.asked (id f : Nat) (c : Code) (r : Run) : Run :=
  if r.id == id then (if r.aborted.isSome || r.endBeat.isSome then r else { r with aborts := r.aborts ++ [(f, c)] }) else r

theorem State.askAbort_runs (s : State) (id f : Nat) (c : Code) : (s.askAbort id f c).runs = s.runs.map (Run.asked id f c) := rfl

theorem Run.asked_askedFrom (id f : Nat) (c : Code) (r : Run) : Run.AskedFrom r (r.asked id f c) := by
  unfold Run.asked
  split
  · split
    · exact r.askedFrom_refl
    · exact ⟨rfl, rfl, rfl, rfl, fun a h => List.mem_append_left _ h⟩
  · exact r.askedFrom_refl

theorem Run.asked_other {id f : Nat} {c : Code} {r : Run} (h : r.id ≠ id) : r.asked id f c = r := if_neg (by simpa using h)

theorem Run.asked_mem {f : Nat} {c : Code} {r : Run} (ha : r.aborted = none) (he : r.endBeat = none) :
    (f, c) ∈ (r.asked r.id f c).aborts := by
  simp [Run.asked, ha, he]

/-- What the request of group-scoped run `p` makes of run `r`, in a group that breaks. -/
def Run.groupAsked (r p : Run) : Run :=
  if p.group then r.asked p.id (((framesOf p.frames).head?.map (·.val)).getD 0) Codes.junctionExpired else r

theorem Run.groupAsked_askedFrom (r p : Run) : Run.AskedFrom r (r.groupAsked p) := by
  unfold Run.groupAsked
  split
  · exact Run.asked_askedFrom ..
  · exact r.askedFrom_refl

theorem Run.groupAsked_other {r p : Run} (h : p.id = r.id → p.group = false) : r.groupAsked p = r := by
  unfold Run.groupAsked
  split
  case isTrue hg => exact Run.asked_other fun hid => absurd ((h hid.symm).symm.trans hg) (by decide)
  case isFalse => rfl

/-- What the requests of a list of runs make of run `r`. -/
def Run.groupAskedAll (rs : List Run) (r : Run) : Run := rs.foldl Run.groupAsked r

/-- The same of the state. -/
def State.groupAsked (s : State) (p : Run) : State :=
  if p.group then s.askAbort p.id (((framesOf p.frames).head?.map (·.val)).getD 0) Codes.junctionExpired else s

theorem State.groupAsked_runs (s : State) (p : Run) : (s.groupAsked p).runs = s.runs.map fun r => r.groupAsked p := by
  unfold State.groupAsked Run.groupAsked
  split
  · exact s.askAbort_runs ..
  · exact (List.map_id _).symm

theorem State.foldl_groupAsked_runs (rs : List Run) (s : State) :
    (rs.foldl State.groupAsked s).runs = s.runs.map (Run.groupAskedAll rs) := by
  induction rs generalizing s with
  | nil => exact (List.map_id _).symm
  | cons p rs ih =>
    rw [List.foldl_cons, ih, State.groupAsked_runs, List.map_map]
    rfl

theorem State.abortGroup_runs (s : State) : s.abortGroup.runs = s.runs.map (Run.groupAskedAll s.runs) :=
  s.foldl_groupAsked_runs s.runs

theorem Run.groupAskedAll_askedFrom (rs : List Run) (r : Run) : Run.AskedFrom r (Run.groupAskedAll rs r) := by
  induction rs generalizing r with
  | nil => exact r.askedFrom_refl
  | cons p rs ih => exact (r.groupAsked_askedFrom p).trans (ih _)

/-- A run whose number no group-scoped run has is asked nothing. -/
theorem Run.groupAskedAll_other {rs : List Run} {r : Run} (h : ∀ p ∈ rs, p.id = r.id → p.group = false) :
    Run.groupAskedAll rs r = r := by
  induction rs with
  | nil => rfl
  | cons p rs ih =>
    rw [Run.groupAskedAll, List.foldl_cons, Run.groupAsked_other (h p (List.mem_cons_self ..))]
    exact ih fun q hq => h q (List.mem_cons_of_mem _ hq)

/-- A run that is neither aborted nor ended, with the number of a group-scoped run of the list, has the cause. -/
theorem Run.groupAskedAll_mem {rs : List Run} {p r : Run} (hp : p ∈ rs) (hid : r.id = p.id) (hg : p.group = true)
    (ha : r.aborted = none) (he : r.endBeat = none) : ∃ f, (f, Codes.junctionExpired) ∈ (Run.groupAskedAll rs r).aborts := by
  induction rs generalizing r with
  | nil => exact absurd hp List.not_mem_nil
  | cons q rs ih =>
    obtain rfl | hp := List.mem_cons.1 hp
    · obtain ⟨-, -, -, -, hkeep⟩ := Run.groupAskedAll_askedFrom rs (r.groupAsked p)
      refine ⟨((framesOf p.frames).head?.map (·.val)).getD 0, hkeep _ ?_⟩
      rw [Run.groupAsked, if_pos hg, ← hid]
      exact Run.asked_mem ha he
    · obtain ⟨qi, -, qa, qe, -⟩ := r.groupAsked_askedFrom q
      exact ih hp (qi.trans hid) (qa.trans ha) (qe.trans he)

/-! ## Where a token goes on to: the ports and what goes out alone -/

/-- Two states that differ in the ports of the links and in what went out alone. -/
def State.PortsOnly (s t : State) : Prop := ∃ ps o, t = { s with carry := { s.carry with ports := ps }, outbox := o }

theorem State.PortsOnly.refl (s : State) : State.PortsOnly s s := ⟨s.carry.ports, s.outbox, rfl⟩

theorem State.PortsOnly.trans {s t u : State} (h : State.PortsOnly s t) (k : State.PortsOnly t u) : State.PortsOnly s u := by
  obtain ⟨_, _, rfl⟩ := h
  obtain ⟨_, _, rfl⟩ := k
  exact ⟨_, _, rfl⟩

theorem State.portsOnly_sendFlit (s : State) (p : Fin 8) (h : FlitHdr) (bs : List Byte) (ks : List Packet) :
    State.PortsOnly s (s.sendFlit p h bs ks) := ⟨_, _, rfl⟩

theorem State.portsOnly_transmit (s : State) (p : Fin 8) (ks : List Packet) : State.PortsOnly s (s.transmit p ks) :=
  State.foldl_induct (State.PortsOnly s) _ _ (fun t _ h => h.trans (t.portsOnly_sendFlit ..)) s (.refl s)

theorem State.portsOnly_enqueue (s : State) (p : Fin 8) (k : Packet) : State.PortsOnly s (s.enqueue p k) := by
  unfold State.enqueue State.pump
  refine .trans ⟨_, s.outbox, rfl⟩ (t := s.queueAt p k) ?_
  dsimp only
  split
  · exact .trans ⟨_, _, rfl⟩ (State.portsOnly_transmit _ p _)
  · exact .refl _

/-! ## The commands -/

section
variable {s : State}

theorem completes_form (h : s.hostOk = true) (hg : s.tally.gstate = .none) : Completes .form s fun t =>
    t.tally.formSend = true ∧ t.tally.formReady = false ∧ t.tally.gstate = .forming ∧
    t.tally.count = s.tally.count ∧ OnlyTally s t := by
  refine ⟨_, show execForm s = _ from (if_neg (by simp [h])).trans (guardStep_of_true (by simp [hg])), ?_⟩
  exact ⟨rfl, rfl, rfl, rfl, rfl⟩

/-- The abort and the log record that a LEAVE brings leave the Tally, the memory and the frames. -/
theorem State.leaveNote_parts (s : State) :
    ∃ l g m h o, (if s.runs.any (·.group) then s.abortGroup.log Codes.junctionExpired .tally {} else s.abortGroup) =
      { s with runs := l, global := g, mgmt := m, hostq := h, outbox := o } := by
  obtain ⟨l, el⟩ := s.abortGroup_parts
  split
  · obtain ⟨g, m, h, o, e⟩ := s.abortGroup.log_parts Codes.junctionExpired .tally {}
    exact ⟨l, g, m, h, o, by rw [e, el]⟩
  · exact ⟨l, s.global, s.mgmt, s.hostq, s.outbox, by rw [el]⟩

theorem completes_leave (h : s.hostOk = true) (hg : s.tally.gstate ≠ .none) : Completes .leave s fun t =>
    (s.completed = false → t.tally = { s.tally with leavePend := true }) ∧
    (s.completed = true → t.tally.gstate = .none ∧ t.tally.leavePend = false ∧ t.tally.count = s.tally.count) ∧
    SameMemory s t ∧ t.frames = s.frames := by
  refine ⟨_, show execLeave s = _ from (if_neg (by simp [h])).trans (guardStep_of_true (by simpa using hg)), ?_⟩
  obtain ⟨l, g, m, hq, o, e⟩ := s.leaveNote_parts
  simp only [e]
  rw [State.settleLeave_parts, State.settleLeave_tally]
  refine ⟨fun hc => if_neg fun k => ?_, fun hc => ?_, ⟨fun _ => rfl, fun _ => rfl⟩, rfl⟩
  · exact absurd (hc.symm.trans k.2) (by decide)
  · dsimp only
    rw [if_pos ⟨rfl, hc⟩]
    exact ⟨rfl, rfl, rfl⟩

/-- A transfer of a window up to `w` that has not landed. -/
def Xfer.unlandedBy (w : Nat) (x : Xfer) : Bool :=
  match x.window with
  | some v => v ≤ w && x.result.isNone
  | none => false

theorem State.none_unlandedBy {w : Nat} (hx : ∀ x ∈ s.xfers, ∀ v, x.window = some v → v ≤ w → x.result ≠ none) :
    s.xfers.any (Xfer.unlandedBy w) = false := by
  rw [List.any_eq_false]
  intro x hm
  unfold Xfer.unlandedBy
  cases hv : x.window with
  | none => simp
  | some v => simpa using fun hle => hx x hm v hv hle

theorem completes_junctionTokenSend {w : Nat} (hw : s.closing = some w) (hc : s.completed = true)
    (hx : ∀ x ∈ s.xfers, ∀ v, x.window = some v → v ≤ w → x.result ≠ none) (hl : s.openLines = false)
    (ht : s.tally.tokenSent = false) (hb : s.inBypass = false) :
    Completes .junctionTokenSend s fun t =>
      t.tally = { s.tally with tokenSent := true } ∧ SameMemory s t ∧ t.frames = s.frames := by
  refine ⟨{ s.sendTokens w with tally := { (s.sendTokens w).tally with tokenSent := true } }, ?_, ?_⟩
  · show execJunctionTokenSend s = _
    unfold execJunctionTokenSend
    rw [hw]
    have hgo : (s.completed && !s.xfers.any (Xfer.unlandedBy w) && !s.openLines && !s.tally.tokenSent && !s.inBypass) = true := by
      simp [hc, State.none_unlandedBy hx, hl, ht, hb]
    exact guardStep_of_true hgo
  · obtain ⟨c, o, e⟩ := s.sendTokens_parts w
    rw [e]
    exact ⟨rfl, ⟨fun _ => rfl, fun _ => rfl⟩, rfl⟩

/-- A token with hops left is sent on. -/
def State.tokenOn (s : State) (i : Inbound) : State :=
  if 1 < i.pkt.addr / 2 ^ 28 % 16 then
    s.enqueue (portOf (if i.port = s.tally.portDown.toNat then s.tally.portUp else s.tally.portDown))
      { i.pkt with
        addr := i.pkt.addr - 2 ^ 28
        dst := s.carry.ports[portOf (if i.port = s.tally.portDown.toNat then s.tally.portUp else s.tally.portDown)].peerDev.toNat }
  else s

theorem State.portsOnly_tokenOn (s : State) (i : Inbound) : State.PortsOnly s (s.tokenOn i) := by
  unfold State.tokenOn
  split
  · exact s.portsOnly_enqueue ..
  · exact .refl s

/-- A token is recorded, but in bypass. -/
def State.tokenKept (s : State) (i : Inbound) : State :=
  if s.inBypass then s else { s with tally := s.tally.takeToken i.pkt }

theorem execJunctionTokenReceive_cons {i : Inbound} {rest : List Inbound} (h : s.carry.tokens = i :: rest) :
    execJunctionTokenReceive s =
      .next ((State.tokenOn { s with carry := { s.carry with tokens := rest } } i).tokenKept i) := by
  unfold execJunctionTokenReceive
  rw [h]
  rfl

theorem completes_junctionTokenReceive {i : Inbound} {rest : List Inbound} (h : s.carry.tokens = i :: rest) :
    Completes .junctionTokenReceive s fun t =>
      t.carry.tokens = rest ∧ t.tally = (if s.inBypass then s.tally else s.tally.takeToken i.pkt) ∧
      { t with carry := s.carry, tally := s.tally, outbox := s.outbox } = s := by
  refine ⟨_, execJunctionTokenReceive_cons h, ?_⟩
  obtain ⟨ps, o, e⟩ := State.portsOnly_tokenOn { s with carry := { s.carry with tokens := rest } } i
  rw [e]
  unfold State.tokenKept
  have hb : State.inBypass { s with carry := { s.carry with ports := ps, tokens := rest }, outbox := o } = s.inBypass := rfl
  rw [hb]
  split
  · exact ⟨rfl, rfl, rfl⟩
  · exact ⟨rfl, rfl, rfl⟩

/-- The junction expires with tokens missing: the group is broken, and its programs are asked to abort. -/
theorem execJunctionExpired_missing (h : s.tally.gstate = .forming ∨ ((∃ w, s.closing = some w) ∧ s.completed = true))
    (ht : s.tally.tokensIn = false) :
    ∃ g m hq o, execJunctionExpired s = .next { s with
      runs := s.abortGroup.runs, global := g, mgmt := m, hostq := hq, outbox := o
      tally := { s.tally with
        junctionExpired := true, missing := s.tally.others &&& ~~~s.tally.tokens, gstate := .broken, formSend := false } } := by
  have hw : ((s.closing.isSome && s.completed) || s.tally.gstate == .forming) = true := by
    obtain hf | ⟨⟨w, hw⟩, hc⟩ := h
    · simp [hf]
    · simp [hw, hc]
  obtain ⟨l, el⟩ := s.abortGroup_parts
  obtain ⟨g, m, hq, o, e⟩ := s.abortGroup.log_parts Codes.junctionExpired .tally
    { detail := (s.tally.others &&& ~~~s.tally.tokens).toNat }
  refine ⟨g, m, hq, o, ?_⟩
  unfold execJunctionExpired
  dsimp only
  rw [if_pos (by simp [hw, ht]), e, el]

theorem completes_junctionExpired (h : s.tally.gstate = .forming ∨ ((∃ w, s.closing = some w) ∧ s.completed = true))
    (ht : s.tally.tokensIn = false) : Completes .junctionExpired s fun t =>
      t.tally.gstate = .broken ∧ t.tally.junctionExpired = true ∧
      t.tally.missing = s.tally.others &&& ~~~s.tally.tokens ∧ t.tally.count = s.tally.count ∧
      (∀ r ∈ s.runs, r.group = true → r.aborted = none → r.endBeat = none →
        ∃ q ∈ t.runs, q.id = r.id ∧ ∃ g, (g, Codes.junctionExpired) ∈ q.aborts) ∧
      (∀ q ∈ t.runs, ∃ r ∈ s.runs, q.id = r.id ∧ ((∀ p ∈ s.runs, p.id = r.id → p.group = false) → q = r)) ∧
      SameMemory s t ∧ t.frames = s.frames := by
  obtain ⟨g, m, hq, o, e⟩ := execJunctionExpired_missing h ht
  refine ⟨_, e, rfl, rfl, rfl, rfl, fun r hr hg ha he => ?_, fun q hq => ?_, ⟨fun _ => rfl, fun _ => rfl⟩, rfl⟩
  · refine ⟨Run.groupAskedAll s.runs r, ?_, (Run.groupAskedAll_askedFrom s.runs r).1,
      Run.groupAskedAll_mem hr rfl hg ha he⟩
    rw [State.abortGroup_runs]
    exact List.mem_map_of_mem hr
  · dsimp only at hq
    rw [State.abortGroup_runs] at hq
    obtain ⟨r, hr, rfl⟩ := List.mem_map.1 hq
    exact ⟨r, hr, (Run.groupAskedAll_askedFrom s.runs r).1, Run.groupAskedAll_other⟩

theorem execJunctionExpired_held (ht : s.tally.tokensIn = true) : execJunctionExpired s = .next s := by
  unfold execJunctionExpired
  dsimp only
  rw [if_neg (by simp [ht])]

end

/-- Settles O8: a group's commands change its Tally; the fold that asks for aborts is followed run by run. -/
theorem groupCommandsComplete : Obligations.GroupCommandsComplete := by
  unfold Obligations.GroupCommandsComplete
  exact ⟨fun _ => completes_form, fun _ => completes_leave, fun _ _ => completes_junctionTokenSend,
    fun _ _ _ => completes_junctionTokenReceive, fun _ => completes_junctionExpired, fun _ => execJunctionExpired_held⟩

end Sys2Proof.Machine
end

section
/-!
SUPPORT. A frame's completion, the grant, the phase groups and the watchdog: what each leaves alone.
-/

namespace Sys2Proof.Machine

open Sys2Proof

theorem State.completed_iff (s : State) : s.completed = true ↔ ∀ f, (s.frame f).active = true → (s.frame f).done = true := by
  simp only [State.completed, List.all_eq_true, Bool.or_eq_true, Bool.not_eq_true', Vector.mem_toList_iff]
  constructor
  · intro h f ha
    obtain h | h := h _ (Vector.getElem_mem f.isLt)
    · exact absurd (h.symm.trans ha) (by decide)
    · exact h
  · intro h fr hm
    obtain ⟨i, hi, rfl⟩ := Vector.mem_iff_getElem.1 hm
    cases ha : s.frames[i].active with
    | false => exact .inl rfl
    | true => exact .inr (h ⟨i, hi⟩ ha)

/-! ## The watchdog and the Tally -/

/-- The watchdog's flags and the beat's number are as before. -/
def State.SameWatch (s t : State) : Prop :=
  t.tally.watchdogFired = s.tally.watchdogFired ∧ t.tally.wdActed = s.tally.wdActed ∧ t.tally.count = s.tally.count

theorem State.SameWatch.refl (s : State) : State.SameWatch s s := ⟨rfl, rfl, rfl⟩

theorem State.SameWatch.trans {s t u : State} (h : State.SameWatch s t) (k : State.SameWatch t u) : State.SameWatch s u := by
  obtain ⟨hf, ha, hc⟩ := h
  obtain ⟨kf, ka, kc⟩ := k
  exact ⟨kf.trans hf, ka.trans ha, kc.trans hc⟩

theorem State.SameWatch.of_tally {s t : State} (h : t.tally = s.tally) : State.SameWatch s t := by
  rw [State.SameWatch, h]
  exact ⟨rfl, rfl, rfl⟩

theorem State.sameWatch_settleLeave (s : State) : State.SameWatch s s.settleLeave := by
  unfold State.settleLeave
  split
  · exact ⟨rfl, rfl, rfl⟩
  · exact .refl s

@[simp] theorem State.report_tally (s : State) (r : Nat) (c : Code) (f : Nat) : (s.report r c f).tally = s.tally := by
  unfold State.report
  dsimp only
  split <;> simp

@[simp] theorem State.logNotice_tally (s : State) (c : Code) (x : LogSrc) (a : LogArgs) : (s.logNotice c x a).tally = s.tally := by
  obtain ⟨_, _, _, _, e⟩ := s.logNotice_parts c x a
  rw [e]

@[simp] theorem State.dropOf_tally (s : State) (x : Xfer) (d : Option Nat) (a : Nat) : (s.dropOf x d a).tally = s.tally := by
  unfold State.dropOf
  split
  · split
    · exact State.updFrame_tally ..
    · rfl
  · rfl

/-- A fold of steps that leave the Tally leaves it. -/
theorem State.foldl_tally {α : Type} (l : List α) (g : State → α → State) (hg : ∀ s x, (g s x).tally = s.tally) (s : State) :
    (l.foldl g s).tally = s.tally :=
  State.foldl_induct (fun t => t.tally = s.tally) l g (fun t x h => (hg t x).trans h) s rfl

@[simp] theorem State.abandonDrops_tally (s : State) (x : Xfer) : (s.abandonDrops x).tally = s.tally :=
  State.foldl_tally _ _ (fun t _ => t.dropOf_tally ..) s

@[simp] theorem State.poisonXfer_tally (s : State) (x : Xfer) : (s.poisonXfer x).tally = s.tally := rfl

@[simp] theorem State.cancel_tally (s : State) (p : Xfer → Bool) : (s.cancel p).tally = s.tally :=
  (State.foldl_tally _ (fun t x => t.poisonXfer x) (fun _ _ => rfl) _).trans
    (State.foldl_tally _ (fun t (x : Xfer) => t.updXfer x.id fun y => t.unreadKeys y) (fun _ _ => rfl) s)

theorem State.pend_tally (s : State) (f : FrameNo) (ps : List Pend) : (s.pend f ps).tally = s.tally := State.updFrame_tally ..

@[simp] theorem State.abandon_tally (s : State) (x : Xfer) : (s.abandon x).tally = s.tally := by
  unfold State.abandon
  dsimp only
  split
  · rw [State.updXfer_tally]
    split <;> simp
  · refine (State.foldl_tally _ _ (fun t p => ?_) _).trans ?_
    · split
      · exact State.pend_tally ..
      · rfl
    · split <;> simp

@[simp] theorem State.fence_tally (s : State) (f : FrameNo) (c : BitVec 2) (k : Code) : (s.fence f c k).tally = s.tally := by
  simp [State.fence]

theorem State.sameWatch_watchdogAbort (s : State) (id f c : Nat) : State.SameWatch s (s.watchdogAbort id f c) := by
  refine .trans (.of_tally (t := ((s.askAbort id f Codes.beatWatchdog).logNotice Codes.beatWatchdog .tally
    { index := f, frame := some f, func := ((s.askAbort id f Codes.beatWatchdog).run? id).map (·.func), detail := c }).cancel
      fun x => x.run == id && !x.flying && x.result.isNone) (by simp)) ?_
  exact ⟨rfl, rfl, rfl⟩

theorem State.sameWatch_watchFrame (was s : State) (f : FrameNo) : State.SameWatch s (State.watchFrame was s f) := by
  unfold State.watchFrame
  dsimp only
  split
  · split
    · exact s.sameWatch_watchdogAbort ..
    · exact (s.sameWatch_watchdogAbort ..).trans (.of_tally (State.fence_tally ..))
  · split
    · exact s.sameWatch_watchdogAbort ..
    · exact .refl s

/-- The watchdog has noted that it acts. -/
def State.watchNoted (s : State) : State := { s with tally := { s.tally with watchdogFired := true, wdActed := true } }

/-- The transfers that are late, given up. -/
def State.lateAbandoned (s : State) : State :=
  (s.xfers.filter fun x => x.owes s.nextCount).foldl (fun (t : State) x => t.abandon x) s.watchNoted

theorem execBeatWatchdog_unmet {s : State} (hr : s.tally.run = true) (ha : s.tally.wdActed = false) (hc : s.completed = false) :
    execBeatWatchdog s =
      .next ((List.finRange 64).foldl (State.watchFrame s.lateAbandoned) s.lateAbandoned).settleLeave :=
  if_pos (by simp [hr, ha, hc])

theorem completes_beatWatchdog {s : State} (hr : s.tally.run = true) (ha : s.tally.wdActed = false) (hc : s.completed = false) :
    Completes .beatWatchdog s fun t =>
      t.tally.watchdogFired = true ∧ t.tally.wdActed = true ∧ t.tally.count = s.tally.count := by
  have late : State.SameWatch s.watchNoted s.lateAbandoned :=
    .of_tally (State.foldl_tally _ _ (fun t x => t.abandon_tally x) _)
  have watch : State.SameWatch s.watchNoted ((List.finRange 64).foldl (State.watchFrame s.lateAbandoned) s.lateAbandoned) :=
    State.foldl_induct (State.SameWatch s.watchNoted) _ _ (fun t f h => h.trans (State.sameWatch_watchFrame _ t f)) _ late
  exact ⟨_, execBeatWatchdog_unmet hr ha hc, watch.trans (State.sameWatch_settleLeave _)⟩

theorem execBeatWatchdog_acted {s : State} (ha : s.tally.wdActed = true) : execBeatWatchdog s = .next s :=
  if_neg (by simp [ha])

/-! ## A frame completes, the grant, the phase groups -/

/-- Frame `f` signals completion of the beat. -/
def State.frameDone (s : State) (f : FrameNo) : State :=
  { s.updFrame f (fun fr => { fr with done := true }) with tally := { s.tally with lastDoneHeld := (s.frame f).rn.lastHeld } }

theorem State.frameDone_same (s : State) (f : FrameNo) : (s.frameDone f).frame f = { s.frame f with done := true } :=
  s.updFrame_same f fun fr => { fr with done := true }

theorem State.frameDone_other {s : State} {f g : FrameNo} (h : g ≠ f) : (s.frameDone f).frame g = s.frame g :=
  s.updFrame_other f g (fun fr => { fr with done := true }) h

theorem State.frameDone_completed {s : State} {f : FrameNo}
    (h : ∀ g, g ≠ f → (s.frame g).active = true → (s.frame g).done = true) : (s.frameDone f).completed = true := by
  rw [State.completed_iff]
  intro g ha
  by_cases e : g = f
  · rw [e, State.frameDone_same]
  · rw [State.frameDone_other e] at ha ⊢
    exact h g e ha

theorem completes_frameBeatComplete {s : State} {f : FrameNo} (h : s.beatDone f = true) :
    Completes (.frameBeatComplete f) s fun t =>
      (t.frame f).done = true ∧ SameOthers f s t ∧ { t with frames := s.frames, tally := s.tally } = s ∧
      t.tally.count = s.tally.count ∧
      (s.tally.leavePend = true → (∀ g, g ≠ f → (s.frame g).active = true → (s.frame g).done = true) →
        t.tally.gstate = .none ∧ t.tally.leavePend = false) := by
  have frames (g : FrameNo) : (s.frameDone f).settleLeave.frame g = (s.frameDone f).frame g := by
    rw [State.settleLeave_parts]
    rfl
  refine ⟨(s.frameDone f).settleLeave, guardStep_of_true h, ?_, fun g hg => ?_, ?_, ?_, fun hl hd => ?_⟩
  · rw [frames, State.frameDone_same]
  · rw [frames, State.frameDone_other hg]
  · rw [State.settleLeave_parts]
    rfl
  · obtain ⟨-, -, hc⟩ := State.sameWatch_settleLeave (s.frameDone f)
    exact hc
  · rw [State.settleLeave_tally, if_pos ⟨hl, State.frameDone_completed hd⟩]
    exact ⟨rfl, rfl⟩

/-- Grant `g` is made for the declarations as they stand. -/
def State.granted (s : State) (g : Grant) : State :=
  { (s.mapFrames fun f fr => { fr with decl := s.declOf f }) with
    adm := { s.adm with
      grant := some g, lastE := BitVec.ofNat 16 g.e, lastP := BitVec.ofNat 2 (phaseLog g.phases)
      declPeak := BitVec.ofNat 16 (max s.adm.declPeak.toNat ((List.finRange 64).map s.declOf).sum) } }

theorem State.granted_decl (s : State) (g : Grant) (f : FrameNo) : ((s.granted g).frame f).decl = s.declOf f := by
  have hf : (s.granted g).frame f = (s.mapFrames fun f fr => { fr with decl := s.declOf f }).frame f := by
    rw [State.granted, State.frame, State.frame]
  rw [hf, State.mapFrames_frame]

theorem State.granted_adm (s : State) (g : Grant) :
    (s.granted g).adm.grant = some g ∧ (s.granted g).adm.lastE = BitVec.ofNat 16 g.e := by
  rw [State.granted]
  exact ⟨rfl, rfl⟩

theorem State.granted_rest (s : State) (g : Grant) : { s.granted g with frames := s.frames, adm := s.adm } = s := by
  rw [State.granted]
  simp only [State.mapFrames]

theorem grantFor_e (decls : List Nat) (e : Nat) : (grantFor decls e).e = e := by rw [grantFor]

theorem execAdmissionGrant_ready {s : State} (hg : s.adm.grant = none) (hw : s.launchWork = false)
    (hs : s.suppliedAll = true) (hd : ∀ f, s.canDeclare f = true) :
    execAdmissionGrant s = .next (s.granted (grantFor ((List.finRange 64).map s.declOf) s.adm.effective)) := by
  have hall : (List.finRange 64).all s.canDeclare = true := List.all_eq_true.2 fun f _ => hd f
  have hgo : (s.adm.grant.isNone && !s.launchWork && s.suppliedAll && (List.finRange 64).all s.canDeclare) = true := by
    rw [hg, hw, hs, hall]
    rfl
  unfold execAdmissionGrant
  exact guardStep_of_true hgo

theorem completes_admissionGrant {s : State} (hg : s.adm.grant = none) (hw : s.launchWork = false)
    (hs : s.suppliedAll = true) (hd : ∀ f, s.canDeclare f = true) : Completes .admissionGrant s fun t =>
      t.adm.grant = some (grantFor ((List.finRange 64).map s.declOf) s.adm.effective) ∧
      (∀ f, (t.frame f).decl = s.declOf f) ∧ t.adm.lastE = BitVec.ofNat 16 s.adm.effective ∧
      { t with frames := s.frames, adm := s.adm } = s := by
  obtain ⟨hgrant, hlast⟩ := s.granted_adm (grantFor ((List.finRange 64).map s.declOf) s.adm.effective)
  rw [grantFor_e] at hlast
  exact ⟨_, execAdmissionGrant_ready hg hw hs hd, hgrant, s.granted_decl _, hlast, s.granted_rest _⟩

theorem completes_phaseGroupStart {s : State} {k : Nat} (hk : nextGroup s.adm.cur.sums s.adm.group = some k)
    (hd : ∀ f : FrameNo, (s.frame f).active = false ∨ (s.frame f).done = true ∨ s.adm.group < f.val % s.adm.cur.phases) :
    Completes .phaseGroupStart s fun t => t.adm.group = k ∧ { t with adm := { t.adm with group := s.adm.group } } = s := by
  refine ⟨{ s with adm := { s.adm with group := k } }, ?_, rfl, rfl⟩
  show execPhaseGroupStart s = _
  unfold execPhaseGroupStart
  simp only [hk]
  refine guardStep_of_true ?_
  rw [List.all_eq_true]
  intro f _
  obtain h | h | h := hd f <;> simp [h]

/-- Settles O4: each command's effect is one record of the Tally, the frames or the grant; the watchdog's aborts and fences
leave its flags. -/
theorem beatCommandsComplete : Obligations.BeatCommandsComplete := by
  unfold Obligations.BeatCommandsComplete
  exact ⟨fun _ _ => completes_frameBeatComplete, fun _ => completes_admissionGrant, fun _ _ => completes_phaseGroupStart,
    fun _ => completes_beatWatchdog, fun _ => execBeatWatchdog_acted⟩

end Sys2Proof.Machine
end

section
/-!
SUPPORT. What writes at their homes leave alone: the Tally, admission, what engines see, and of each frame the effects that
wait, the operations, the wait and the sequencer's registers. A stop makes such writes in the middle of a launch (R254).
-/

namespace Sys2Proof.Machine

open Sys2Proof

/-- What of a frame the arrival of a write leaves alone. -/
structure Frame.Still where
  pend : List Pend
  ops : List EngOp
  wait : Option Wait
  seq : FrmSeq

def Frame.still (fr : Frame) : Frame.Still := ⟨fr.rn.pend, fr.rn.ops, fr.rn.wait, fr.seq⟩

/-- What of the state the arrival of a write leaves alone. -/
structure Still where
  tally : Tally
  adm : Admit
  vis : List Host.Cell
  frames : Vector Frame.Still 64
  runs : List (Nat × Bool)
  xfers : List Xfer

def State.still (s : State) : Still :=
  ⟨s.tally, s.adm, s.vis, s.frames.map Frame.still, s.runs.map fun r => (r.id, r.stopped), s.xfers⟩

theorem State.still_congr {s t : State} (ht : t.tally = s.tally) (ha : t.adm = s.adm) (hv : t.vis = s.vis)
    (hf : t.frames = s.frames) (hr : t.runs = s.runs) (hx : t.xfers = s.xfers) : t.still = s.still := by
  rw [State.still, State.still, ht, ha, hv, hf, hr, hx]

/-- A state that differs in none of this by its record. -/
theorem State.still_mk (s : State) {t : State} (ht : t.tally = s.tally) (ha : t.adm = s.adm) (hv : t.vis = s.vis)
    (hf : t.frames.map Frame.still = s.frames.map Frame.still)
    (hr : t.runs.map (fun r => (r.id, r.stopped)) = s.runs.map fun r => (r.id, r.stopped))
    (hx : t.xfers = s.xfers) : t.still = s.still := by
  rw [State.still, State.still, ht, ha, hv, hf, hr, hx]

theorem Vector.map_set_eq_map {α β : Type} {n : Nat} (v : Vector α n) (f : Fin n) (a : α) (g : α → β) (h : g a = g v[f]) :
    (v.set f a).map g = v.map g := by
  ext i hi
  by_cases e : f.val = i
  · subst e
    simpa using h
  · simp [Vector.getElem_set_ne, e]

theorem State.still_updFrame (s : State) (f : FrameNo) (g : Frame → Frame) (h : ∀ fr, (g fr).still = fr.still) :
    (s.updFrame f g).still = s.still :=
  State.still_mk s rfl rfl rfl (Vector.map_set_eq_map _ _ _ _ (h _)) rfl rfl

theorem State.still_updRun (s : State) (id : Nat) (g : Run → Run) (h : ∀ r, (g r).id = r.id ∧ (g r).stopped = r.stopped) :
    (s.updRun id g).still = s.still := by
  refine State.still_mk s rfl rfl rfl rfl ?_ rfl
  simp only [State.updRun, List.map_map]
  refine List.map_congr_left fun r _ => ?_
  simp only [Function.comp]
  split
  · obtain ⟨hi, hs⟩ := h r
    rw [hi, hs]
  · rfl

theorem State.still_foldl {α : Type} (l : List α) (g : State → α → State) (hg : ∀ t x, (g t x).still = t.still) (s : State) :
    (l.foldl g s).still = s.still :=
  State.foldl_induct (fun t => t.still = s.still) l g (fun t x h => (hg t x).trans h) s rfl

theorem State.still_foldl_fst {α β : Type} (l : List α) (g : State × β → α → State × β)
    (hg : ∀ r x, (g r x).1.still = r.1.still) (r : State × β) : (l.foldl g r).1.still = r.1.still := by
  induction l generalizing r with
  | nil => rfl
  | cons x l ih => exact (ih _).trans (hg r x)

theorem State.still_checkOnly {s t : State} (k : State.CheckOnly s t) : t.still = s.still := by
  obtain ⟨_, _, _, _, _, _, _, rfl⟩ := k
  rfl

@[simp] theorem State.still_lineWrite (s : State) (c : Fin 4) (a n : Nat) (r : Bool) : (s.lineWrite c a n r).still = s.still := by
  obtain ⟨f, k⟩ := s.lineWrite_parts c a n r
  exact (State.still_checkOnly k).trans rfl

@[simp] theorem State.still_lineRead (s : State) (c : Fin 4) (a n : Nat) : (s.lineRead c a n).still = s.still := by
  obtain ⟨f, k⟩ := s.lineRead_parts c a n
  exact (State.still_checkOnly k).trans rfl

@[simp] theorem State.still_log (s : State) (c : Code) (x : LogSrc) (a : LogArgs) : (s.log c x a).still = s.still := by
  obtain ⟨_, _, _, _, e⟩ := s.log_parts c x a
  rw [e]
  rfl

@[simp] theorem State.still_logNotice (s : State) (c : Code) (x : LogSrc) (a : LogArgs) : (s.logNotice c x a).still = s.still := by
  obtain ⟨_, _, _, _, e⟩ := s.logNotice_parts c x a
  rw [e]
  rfl

theorem State.still_marks (l : List Nat) (m : Mark) (s : State) : (l.foldl (fun (t : State) k => t.mark k m) s).still = s.still :=
  State.still_foldl _ (fun (t : State) k => t.mark k m) (fun _ _ => rfl) s

theorem State.still_unmarks (l : List Nat) (s : State) : (l.foldl State.unmark s).still = s.still :=
  State.still_foldl _ State.unmark (fun _ _ => rfl) s

@[simp] theorem State.still_event (s : State) (id : Nat) (c : Code) (f : Nat) : (s.event id c f).still = s.still :=
  State.still_updRun _ _ _ fun r => by split <;> exact ⟨rfl, rfl⟩

@[simp] theorem State.still_report (s : State) (r : Nat) (c : Code) (f : Nat) : (s.report r c f).still = s.still := by
  unfold State.report
  dsimp only
  split <;> simp

@[simp] theorem State.still_noteDrop (s : State) (f : FrameNo) (d : Drop) : (s.noteDrop f d).still = s.still :=
  State.still_updFrame _ _ _ fun _ => rfl

@[simp] theorem State.still_dropOf (s : State) (x : Xfer) (d : Option Nat) (a : Nat) : (s.dropOf x d a).still = s.still := by
  unfold State.dropOf
  split
  · split
    · exact State.still_noteDrop ..
    · rfl
  · rfl

@[simp] theorem State.still_dropWrite (s : State) (x : Xfer) (c : Code) (a : Nat) : (s.dropWrite x c a).still = s.still := by
  simp [State.dropWrite]

@[simp] theorem State.still_dropLogged (s : State) (x : Xfer) (c : Code) (a : Nat) : (s.dropLogged x c a).still = s.still := by
  simp [State.dropLogged]

@[simp] theorem State.still_forget (s : State) (f l : Nat) : (s.forget f l).still = s.still := by
  unfold State.forget
  split
  · exact State.still_updFrame _ _ _ fun _ => rfl
  · rfl

/-! ## A write in device memory -/

@[simp] theorem State.still_store (s : State) (a : Nat) (bs : List Byte) (m : Option Mark) : (s.store a bs m).still = s.still := by
  unfold State.store
  dsimp only
  split
  · exact State.still_marks ..
  · exact State.still_unmarks ..

@[simp] theorem State.still_updLayer (s : State) (i : Fin 64) (g : Layer → Layer) : (s.updLayer i g).still = s.still :=
  State.still_congr rfl rfl rfl rfl rfl rfl

@[simp] theorem State.still_updSet (s : State) (i : Nat) (g : RSet → RSet) : (s.updSet i g).still = s.still := by
  unfold State.updSet
  split
  · exact State.still_congr rfl rfl rfl rfl rfl rfl
  · rfl

@[simp] theorem State.still_ingest (s : State) (i : Fin 64) (a : Nat) (bs : List Byte) (m : Option Mark) :
    (s.ingest i a bs m).still = s.still := by
  unfold State.ingest
  dsimp only
  rw [State.still_updLayer]
  split
  · exact (State.still_marks ..).trans (State.still_lineWrite s 2 a bs.length true)
  · exact State.still_lineWrite s 2 a bs.length true

@[simp] theorem State.still_combine (s : State) (i l : Nat) (bs : List Byte) (m : Option Code) :
    (s.combine i l bs m).still = s.still := by
  unfold State.combine
  dsimp only
  rw [State.still_updSet]
  split
  · rfl
  · have line (d : Bool) : (s.lineWrite 2 (lineBase (s.set? i).contrib + l * 2048) 2048 d).still = s.still :=
      State.still_lineWrite ..
    split
    · exact line _
    · split <;> exact line _

@[simp] theorem State.still_sendRole (s : State) (r : Nat) (k : Packet) : (s.sendRole r k).still = s.still := by
  obtain ⟨_, _, e⟩ := s.sendRole_parts r k
  rw [e]
  rfl

@[simp] theorem State.still_closeLine (s : State) (i l : Nat) (bs : List Byte) (c : Option Code) :
    (s.closeLine i l bs c).still = s.still :=
  (State.still_updSet ..).trans (State.still_foldl _ _ (fun _ _ => State.still_sendRole ..) s)

@[simp] theorem State.still_pumpAll (s : State) : s.pumpAll.still = s.still := by
  obtain ⟨_, _, e⟩ := s.pumpAll_parts
  rw [e]
  rfl

@[simp] theorem State.still_putFlag (s : State) (f : FrameNo) (k : Nat) (add : Bool) (v : Word) :
    (s.putFlag f k add v).still = s.still :=
  State.still_updFrame _ _ _ fun _ => by split <;> rfl

@[simp] theorem State.still_refuseFlag (s : State) (f : FrameNo) : (s.refuseFlag f).still = s.still :=
  (State.still_log ..).trans (State.still_updFrame _ _ _ fun _ => rfl)

@[simp] theorem State.still_offLog (s : State) (f : FrameNo) (n : Option Nat) : (s.offLog f n).still = s.still := State.still_log ..

@[simp] theorem State.still_lineData (s : State) (i l : Nat) : (s.lineData i l).1.still = s.still := by
  unfold State.lineData
  dsimp only
  split
  · rfl
  · exact State.still_lineRead ..

@[simp] theorem State.still_job (s : State) (j : Job) : (s.job j).1.still = s.still := by
  unfold State.job
  cases j with
  | write a bs m c =>
    dsimp only
    split
    · split <;> simp
    · split
      · rfl
      · split <;> simp
  | contribute i l bs m =>
    dsimp only
    split <;> simp
  | complete i l =>
    dsimp only
    split
    · split <;> simp
    · rfl
  | deliver i l bs c =>
    dsimp only
    split <;> simp
  | round i =>
    dsimp only
    split
    · split
      · split
        · simp
        · split
          · simp
          · split <;> simp
      · simp
    · rfl

@[simp] theorem State.still_memArrive (s : State) (a : Nat) (bs : List Byte) (m : Option Mark) (c : Fin 4) :
    (s.memArrive a bs m c).still = s.still :=
  State.work_induct (fun t => t.still = s.still) (fun t j h => (t.still_job j).trans h) (fun t h => t.still_pumpAll.trans h) _ s _ rfl

@[simp] theorem State.still_nibArrive (s : State) (w : PWrite) (m : Option Mark) : (s.nibArrive w m).1.still = s.still := by
  unfold State.nibArrive
  split
  · exact State.still_memArrive ..
  · dsimp only
    split <;> exact State.still_lineWrite s 2 w.addr 1 false

@[simp] theorem State.still_tryArrive (s : State) (a : Nat) (bs : List Byte) (m : Option Mark) :
    (s.tryArrive a bs m).1.still = s.still := State.still_memArrive ..

@[simp] theorem State.still_lineArrive (s : State) (cs : List Host.Cell) (ns : List PWrite) (m : Option Mark) :
    (s.lineArrive cs ns m).1.still = s.still := by
  have lines (l : List (Nat × List Byte)) (r : State × List Code) : (l.foldl (fun (r : State × List Code) x =>
      ((r.1.tryArrive x.1 x.2 m).1, r.2 ++ (r.1.tryArrive x.1 x.2 m).2)) r).1.still = r.1.still :=
    State.still_foldl_fst l (fun (r : State × List Code) x => ((r.1.tryArrive x.1 x.2 m).1, r.2 ++ (r.1.tryArrive x.1 x.2 m).2)) (fun (r : State × List Code) (x : Nat × List Byte) => r.1.still_tryArrive x.1 x.2 m) r
  have nibs (r : State × List Code) : (ns.foldl (fun (r : State × List Code) w =>
      ((r.1.nibArrive w m).1, r.2 ++ (r.1.nibArrive w m).2)) r).1.still = r.1.still :=
    State.still_foldl_fst ns (fun (r : State × List Code) w => ((r.1.nibArrive w m).1, r.2 ++ (r.1.nibArrive w m).2))
      (fun r w => r.1.still_nibArrive w m) r
  unfold State.lineArrive State.oneLine
  dsimp only
  split
  · rw [State.still_updLayer]
    exact (nibs _).trans (lines _ _)
  · exact (nibs _).trans (lines _ _)

/-! ## A write in a scratchpad -/

@[simp] theorem State.still_checkSpad (s : State) (a n : Nat) : (s.checkSpad a n).still = s.still := by
  unfold State.checkSpad
  split
  · rfl
  · refine State.still_foldl _ _ (fun t x => ?_) s
    unfold State.foundSpad
    dsimp only
    split
    · split
      · exact (State.still_logNotice ..).trans rfl
      · exact State.still_updFrame (t.mend (.spad x.1 x.2)) _ (fun fr => { fr with reg := { fr.reg with spadCe := satInc fr.reg.spadCe } })
          fun _ => rfl
    · rfl

@[simp] theorem State.still_sumAt (s : State) (a n : Nat) : (s.sumAt a n).still = s.still := by
  unfold State.sumAt
  split <;> simp

@[simp] theorem State.still_putSpad (s : State) (r : Nat) (ws : List PWrite) (m : Option Mark) : (s.putSpad r ws m).still = s.still := by
  unfold State.putSpad
  dsimp only
  split
  · rfl
  · split <;> rfl

@[simp] theorem State.still_addMem (s : State) (w : PWrite) : (s.addMem w).still = s.still := by
  unfold State.addMem
  dsimp only
  split <;> exact State.still_sumAt ..

@[simp] theorem State.still_putRow (s : State) (r : RRow) : (s.putRow r).still = s.still := by
  have acc : (if r.acc then s.sumAt r.addr r.bytes.length else s).still = s.still := by split <;> simp
  unfold State.putRow
  dsimp only
  split
  · exact acc
  · split <;> exact acc

@[simp] theorem State.still_rowArrive (s : State) (d f : Nat) (r : RRow) : (s.rowArrive d f r).1.still = s.still := by
  have spent (g : FrameNo) (n : Nat) : (s.updFrame g fun fr => fr.updRegion n fun q => q.spend d f).still = s.still :=
    State.still_updFrame _ _ _ fun _ => rfl
  unfold State.rowArrive
  split
  · dsimp only
    split
    · rfl
    · split
      · exact State.still_putRow ..
      · split
        · split
          · exact (State.still_putRow ..).trans (spent ..)
          · rfl
        · split
          · exact (State.still_log ..).trans (spent ..)
          · rfl
        · rfl
  · rfl

@[simp] theorem State.still_takeRow (s : State) (x : Xfer) (r : RRow) : (s.takeRow x r).still = s.still := by
  unfold State.takeRow
  dsimp only
  split
  · simp
  · split
    · simp
    · split <;> simp

/-! ## What a stop cuts short -/

/-- An address of the register window (Table 1.4). -/
def regAddr (a : Nat) : Prop := 0x020000000000 ≤ a ∧ a < 0x020008000000

theorem State.usable_le (s : State) : s.usable ≤ 0x010000000000 := by
  unfold State.usable usableOf
  split <;> decide

theorem State.place_below (s : State) {a : Nat} (h : a < 0x020000000000 ∨ 0x020008000000 ≤ a) (o : Nat) : s.place a ≠ .regs o := by
  have hr : ¬ (0x020000000000 ≤ a ∧ a < 0x020008000000) := by omega
  unfold State.place
  rw [if_neg hr]
  split
  · exact Place.noConfusion
  · split
    · dsimp only
      split
      · split <;> exact Place.noConfusion
      · exact Place.noConfusion
    · exact Place.noConfusion

theorem State.place_regAddr (s : State) {a : Nat} (h : regAddr a) : s.place a = .regs (a - 0x020000000000) := by
  have hu := s.usable_le
  have ha : 0x020000000000 ≤ a := h.1
  have hm : ¬ a < s.usable := by omega
  have hs : ¬ (spadBase ≤ a ∧ a < spadBase + 64 * 0x1000000) := by
    unfold spadBase
    omega
  unfold State.place
  rw [if_neg hm, if_neg hs]
  exact if_pos h

theorem State.regAddr_of_place {s : State} {a o : Nat} (h : s.place a = .regs o) : regAddr a := by
  by_contra hn
  exact s.place_below (by unfold regAddr at hn; omega) o h

/-- The line of an address outside the register window is outside it. -/
theorem State.place_line (s : State) {a : Nat} (h : ¬ regAddr a) (o : Nat) : s.place (a / 2048 * 2048) ≠ .regs o := by
  intro e
  have hl := State.regAddr_of_place e
  unfold regAddr at hl h
  omega

/-- Writes that no register sees. -/
def offRegs (ws : List PWrite) : Prop := ∀ w ∈ ws, ¬ regAddr w.addr

theorem State.still_commitRow (s : State) (x : Xfer) (row : Nat) (ws : List PWrite)
    (h : ∀ o, s.place (row * 2048) ≠ .regs o) : (s.commitRow x row ws).still = s.still := by
  unfold State.commitRow
  dsimp only
  split
  · simp
  · split
    · rename_i o e
      exact absurd e (h o)
    · split
      · simp
      · exact (State.still_foldl _ _ (fun _ _ => State.still_dropLogged ..) _).trans (State.still_lineArrive ..)
    · simp

theorem mem_of_mem_dedup {l : List Nat} {x : Nat} (h : x ∈ dedup l) : x ∈ l := by
  have key (acc : List Nat) (l : List Nat) (h : x ∈ l.foldl (fun acc x => if acc.contains x then acc else acc ++ [x]) acc) :
      x ∈ acc ∨ x ∈ l := by
    induction l generalizing acc with
    | nil => exact .inl h
    | cons y l ih =>
      obtain h | h := ih _ h
      · dsimp only at h
        split at h
        · exact .inl h
        · obtain h | h := List.mem_append.1 h
          · exact .inl h
          · exact .inr (List.mem_cons.2 (.inl (List.mem_singleton.1 h)))
      · exact .inr (List.mem_cons_of_mem _ h)
  exact (key [] l h).resolve_left List.not_mem_nil

theorem State.still_commitWrites (s : State) (x : Xfer) (ws : List PWrite) (h : offRegs ws) :
    (s.commitWrites x ws).still = s.still := by
  unfold State.commitWrites
  have key (rows : List Nat) (hr : ∀ r ∈ rows, ∃ w ∈ ws, w.addr / 2048 = r) (t : State) :
      (rows.foldl (fun (s : State) row => s.commitRow x row (ws.filter fun w => w.addr / 2048 == row)) t).still = t.still := by
    induction rows generalizing t with
    | nil => rfl
    | cons r rows ih =>
      obtain ⟨w, hw, rfl⟩ := hr r (List.mem_cons_self ..)
      exact (ih (fun r hm => hr r (List.mem_cons_of_mem _ hm)) _).trans
        (t.still_commitRow x _ _ (t.place_line (h w hw)))
  exact key _ (fun r hr => List.mem_map.1 (mem_of_mem_dedup hr)) s

theorem State.still_addAt (s : State) (x : Xfer) (w : PWrite) (more : Bool) (h : ¬ regAddr w.addr) :
    (s.addAt x w more).still = s.still := by
  unfold State.addAt
  split
  · simp
  · split
    · rename_i o e
      exact absurd (State.regAddr_of_place e) h
    · split
      · have count : (if more then (s.lineArrive (cellsOf [w]) (nibsOf [w]) w.mark).1.uncounted s w.addr
            else (s.lineArrive (cellsOf [w]) (nibsOf [w]) w.mark).1).still = s.still := by
          split
          · unfold State.uncounted
            split <;> simp
          · simp
        dsimp only
        split
        · rw [State.still_forget, count]
        · exact (State.still_foldl _ _ (fun _ _ => State.still_dropLogged ..) _).trans count
      · simp
    · simp

theorem State.still_addAll (s : State) (x : Xfer) (ws : List PWrite) (h : offRegs ws) : (s.addAll x ws).still = s.still := by
  induction ws generalizing s with
  | nil => rfl
  | cons w ws ih =>
    have hw : ¬ regAddr w.addr := h w (List.mem_cons_self ..)
    refine (ih _ fun v hv => h v (List.mem_cons_of_mem _ hv)).trans ?_
    split
    · exact s.still_commitRow x _ _ (s.place_line hw)
    · exact s.still_addAt x w _ hw

theorem State.still_cutRow (s : State) (x : Xfer) (r : RRow) : (s.cutRow x r).still = s.still := by
  unfold State.cutRow
  split
  · simp
  · rename_i hp
    have hm : s.place r.addr = .mem := by simpa using hp
    have hr : ¬ regAddr r.addr := fun k => Place.noConfusion (hm.symm.trans (s.place_regAddr k))
    split
    · split <;> simp
    · exact s.still_commitRow x _ _ (s.place_line hr)

theorem State.still_cutXfer (s : State) (x : Xfer) (hw : offRegs x.writes) (ha : offRegs x.accs) : (s.cutXfer x).still = s.still := by
  unfold State.cutXfer
  dsimp only
  refine (State.still_foldl _ _ (fun t r => t.still_cutRow x r) _).trans ?_
  rw [State.still_addAll _ _ _ fun w h => ha w (List.mem_of_mem_filter h),
    State.still_commitWrites _ _ _ fun w h => hw w (List.mem_of_mem_filter h)]
  rfl

/-- A dropped line of an operation is noted. -/
theorem State.still_opDrops (t : State) (f : FrameNo) (o : EngOp) (l : Nat) (cs : List Code) :
    (cs.foldl (fun (s : State) c => (s.event o.run c f.val).noteDrop f { beat := some o.lastBeat, addr := l * 2048 }) t).still =
      t.still :=
  State.still_foldl cs (fun (s : State) c => (s.event o.run c f.val).noteDrop f { beat := some o.lastBeat, addr := l * 2048 })
    (fun _ _ => by simp) t

theorem State.still_commitLines (s : State) (f : FrameNo) (o : EngOp) (ls : List Nat) : (s.commitLines f o ls).still = s.still := by
  unfold State.commitLines
  refine State.still_foldl _ _ (fun t l => ?_) s
  dsimp only
  split
  · rw [State.still_forget, State.still_opDrops, State.still_lineArrive]
  · rw [State.still_opDrops, State.still_lineArrive]

theorem State.still_cutOp (s : State) (f : FrameNo) (o : EngOp) : (s.cutOp f o).still = s.still :=
  (State.still_commitLines ..).trans rfl

end Sys2Proof.Machine
end

section
/-!
SUPPORT. The launch (R48 to R56): the state as the effects of the beat become visible, and what its aborts, stops, ends and
starts leave of that.
-/

namespace Sys2Proof.Machine

open Sys2Proof

/-! ## Aborts, ends and starts -/

/-- What aborts, ends and starts leave of a frame. -/
structure Frame.Carried (fr gr : Frame) : Prop where
  scalars : gr.scalars = fr.scalars
  flags : gr.flags = fr.flags
  pend : gr.rn.pend = fr.rn.pend
  ops : gr.rn.ops = fr.rn.ops
  dtab : fr.rn.ops = [] → gr.rn.dtab = fr.rn.dtab
  state : gr.seq.state = fr.seq.state
  wait : gr.rn.wait = fr.rn.wait ∨ gr.rn.wait = none ∧ ∃ w, fr.rn.wait = some w ∧ w.expired = true

theorem Frame.Carried.refl (fr : Frame) : Frame.Carried fr fr := ⟨rfl, rfl, rfl, rfl, fun _ => rfl, rfl, .inl rfl⟩

theorem Frame.Carried.trans {a b c : Frame} (h : Frame.Carried a b) (k : Frame.Carried b c) : Frame.Carried a c where
  scalars := k.scalars.trans h.scalars
  flags := k.flags.trans h.flags
  pend := k.pend.trans h.pend
  ops := k.ops.trans h.ops
  dtab e := (k.dtab (h.ops.trans e)).trans (h.dtab e)
  state := k.state.trans h.state
  wait := by
    obtain hw | ⟨hn, he⟩ := h.wait
    · rw [← hw]
      exact k.wait
    · refine .inr ⟨?_, he⟩
      obtain kw | ⟨kn, -⟩ := k.wait
      · rw [kw, hn]
      · exact kn

/-- The numbers of the runs, and which of them a stop has stopped. -/
def State.stops (s : State) : List (Nat × Bool) := s.runs.map fun r => (r.id, r.stopped)

/-- What aborts, ends and starts leave of the state; of the Tally, all but what a group's end clears. -/
structure State.Carried (s t : State) : Prop where
  tally : t.tally.left = s.tally.left
  adm : t.adm = s.adm
  vis : t.vis = s.vis
  xfers : t.xfers = s.xfers
  stops : t.stops = s.stops
  frame : ∀ f, Frame.Carried (s.frame f) (t.frame f)

theorem State.Carried.refl (s : State) : State.Carried s s := ⟨rfl, rfl, rfl, rfl, rfl, fun _ => .refl _⟩

theorem State.Carried.trans {s t u : State} (h : State.Carried s t) (k : State.Carried t u) : State.Carried s u where
  tally := k.tally.trans h.tally
  adm := k.adm.trans h.adm
  vis := k.vis.trans h.vis
  xfers := k.xfers.trans h.xfers
  stops := k.stops.trans h.stops
  frame f := (h.frame f).trans (k.frame f)

/-- A change of the frames alone. -/
theorem State.carried_mapFrames (s : State) (g : FrameNo → Frame → Frame) (h : ∀ f, Frame.Carried (s.frame f) (g f (s.frame f))) :
    State.Carried s (s.mapFrames g) where
  tally := by rw [State.mapFrames_tally]
  adm := by rw [State.mapFrames_adm]
  vis := by rw [State.mapFrames_vis]
  xfers := by rw [State.mapFrames_xfers]
  stops := by rw [State.stops, State.mapFrames_runs, State.stops]
  frame f := by
    rw [State.mapFrames_frame]
    exact h f

/-- A change of the runs alone that keeps numbers and stops. -/
theorem State.carried_mapRuns (s : State) (g : Run → Run) (h : ∀ r, (g r).id = r.id ∧ (g r).stopped = r.stopped) :
    State.Carried s { s with runs := s.runs.map g } where
  tally := rfl
  adm := rfl
  vis := rfl
  xfers := rfl
  stops := by
    simp only [State.stops, List.map_map]
    refine List.map_congr_left fun r _ => ?_
    obtain ⟨hi, hs⟩ := h r
    simp only [Function.comp, hi, hs]
  frame _ := .refl _

theorem State.carried_foldl {α : Type} (l : List α) (g : State → α → State) (h : ∀ t x, State.Carried t (g t x)) (s : State) :
    State.Carried s (l.foldl g s) :=
  State.foldl_induct (State.Carried s) l g (fun t x k => k.trans (h t x)) s (.refl s)

theorem State.carried_askAbort (s : State) (id f : Nat) (c : Code) : State.Carried s (s.askAbort id f c) :=
  s.carried_mapRuns _ fun r => by
    split
    · dsimp only
      split <;> exact ⟨rfl, rfl⟩
    · exact ⟨rfl, rfl⟩

theorem State.carried_gateRuns (s : State) : State.Carried s s.gateRuns := by
  refine State.carried_foldl _ _ (fun t f => ?_) s
  split
  · split
    · exact t.carried_askAbort ..
    · exact .refl t
  · exact .refl t

/-- With no domain left to gate, no program is asked to abort for it (R463). -/
theorem State.gateRuns_none {s : State} (h : s.adm.forcedPend = []) : s.gateRuns = s := by
  unfold State.gateRuns
  refine State.foldl_induct (fun t => t = s) _ _ (fun t f ht => ?_) s rfl
  subst ht
  split
  · rw [h]
    exact if_neg (by simp)
  · rfl

theorem State.carried_recheck (s : State) : State.Carried s s.recheck := by
  refine State.carried_foldl _ _ (fun t f => ?_) s
  dsimp only
  split
  · split
    · split
      · split
        · exact t.carried_askAbort ..
        · exact .refl t
      · exact .refl t
    · exact .refl t
  · exact .refl t

theorem Run.takeAbort_keeps (r : Run) (count : Nat) : (r.takeAbort count).id = r.id ∧ (r.takeAbort count).stopped = r.stopped := by
  unfold Run.takeAbort
  split
  · exact ⟨rfl, rfl⟩
  · split <;> exact ⟨rfl, rfl⟩

theorem State.carried_settleLeave (s : State) : State.Carried s s.settleLeave := by
  unfold State.settleLeave
  split
  · exact ⟨rfl, rfl, rfl, rfl, rfl, fun _ => .refl _⟩
  · exact .refl s

theorem State.carried_leaveOnAbort (s : State) : State.Carried s s.leaveOnAbort := by
  unfold State.leaveOnAbort
  dsimp only
  split
  · exact State.Carried.trans (t := { s with tally := { s.tally with leavePend := true } })
      ⟨rfl, rfl, rfl, rfl, rfl, fun _ => .refl _⟩ (State.carried_settleLeave _)
  · exact .refl s

theorem Frame.cutDescs_idle {fr : Frame} (h : fr.rn.ops = []) : fr.cutDescs = fr.rn.dtab := by
  unfold Frame.cutDescs
  rw [h]
  rfl

theorem State.carried_quietAborted (s : State) : State.Carried s s.quietAborted := by
  refine State.carried_mapFrames s _ fun f => ?_
  split
  · split
    · refine ⟨rfl, rfl, rfl, rfl, fun h => Frame.cutDescs_idle h, rfl, ?_⟩
      cases hw : (s.frame f).rn.wait with
      | none => exact .inl rfl
      | some w =>
        cases he : w.expired with
        | true => exact .inr ⟨if_pos he, w, rfl, he⟩
        | false => exact .inl (if_neg (by simp [he]))
    · exact .refl _
  · exact .refl _

theorem State.carried_takeAborts (s : State) : State.Carried s s.takeAborts := by
  have runs := s.carried_mapRuns
    (fun r => if r.aborts.isEmpty then r else ({ r with aborts := r.aborts ++ s.expiredCauses r }).takeAbort s.tally.count.toNat)
    fun r => by
      split
      · exact ⟨rfl, rfl⟩
      · exact Run.takeAbort_keeps _ _
  exact runs.trans ((State.carried_quietAborted _).trans (State.carried_leaveOnAbort _))

theorem State.carried_markEnds (s : State) : State.Carried s s.markEnds := by
  refine State.carried_mapFrames s _ fun f => ?_
  split
  · split
    · exact ⟨rfl, rfl, rfl, rfl, fun _ => rfl, rfl, .inl rfl⟩
    · exact .refl _
  · exact .refl _

theorem State.carried_markStarts (s : State) (l : List Nat) : State.Carried s (s.markStarts l) := by
  refine State.Carried.trans (s.carried_mapRuns _ fun r => ?_) (State.carried_mapFrames _ _ fun f => ?_)
  · split <;> exact ⟨rfl, rfl⟩
  · split
    · exact ⟨rfl, rfl, rfl, rfl, fun _ => rfl, rfl, .inl rfl⟩
    · exact .refl _

theorem State.carried_markIdle (s : State) : State.Carried s s.markIdle := by
  refine State.carried_mapFrames s _ fun f => ⟨rfl, rfl, rfl, rfl, fun _ => rfl, ?_, .inl rfl⟩
  dsimp only
  split
  · split <;> rfl
  · rfl

/-- After the stops: the words of the beat are checked, aborts are taken, and parts end and start. -/
def State.launchEnd (s : State) (groupRuns : List Nat) : State :=
  (((s.recheck.takeAborts).markEnds).markStarts groupRuns).markIdle

theorem State.carried_launchEnd (s : State) (l : List Nat) : State.Carried s (s.launchEnd l) :=
  s.carried_recheck.trans <| (State.carried_takeAborts _).trans <| (State.carried_markEnds _).trans <|
    (State.carried_markStarts _ l).trans (State.carried_markIdle _)

/-! ## Stops (R254) -/

/-- The frame is stopped, with nothing under way. -/
def Frame.halted (fr : Frame) : Prop := fr.seq.state = .stopped ∧ fr.rn.ops = [] ∧ fr.rn.wait = none

/-- A run of this number is stopped. -/
def State.isStopped (s : State) (id : Nat) : Prop := ∃ r ∈ s.runs, r.id = id ∧ r.stopped = true

theorem State.isStopped_iff (s : State) (id : Nat) : s.isStopped id ↔ (id, true) ∈ s.stops := by
  simp only [State.isStopped, State.stops, List.mem_map, Prod.mk.injEq]

/-- What stops leave, and what is stopped stays so. -/
structure State.Stopping (s t : State) : Prop where
  tally : t.tally.left = s.tally.left
  adm : t.adm = s.adm
  vis : t.vis = s.vis
  xfers : ∀ x ∈ t.xfers, x ∈ s.xfers
  ids : t.stops.map Prod.fst = s.stops.map Prod.fst
  stopped : ∀ id, s.isStopped id → t.isStopped id
  pend : ∀ f, (t.frame f).rn.pend = (s.frame f).rn.pend
  halted : ∀ f, (s.frame f).halted → (t.frame f).halted

theorem State.Stopping.trans {s t u : State} (h : State.Stopping s t) (k : State.Stopping t u) : State.Stopping s u where
  tally := k.tally.trans h.tally
  adm := k.adm.trans h.adm
  vis := k.vis.trans h.vis
  xfers x m := h.xfers x (k.xfers x m)
  ids := k.ids.trans h.ids
  stopped id m := k.stopped id (h.stopped id m)
  pend f := (k.pend f).trans (h.pend f)
  halted f m := k.halted f (h.halted f m)

theorem State.Carried.stopping {s t : State} (h : State.Carried s t) : State.Stopping s t where
  tally := h.tally
  adm := h.adm
  vis := h.vis
  xfers x m := h.xfers ▸ m
  ids := by rw [h.stops]
  stopped id := by
    rw [State.isStopped_iff, State.isStopped_iff, h.stops]
    exact fun m => m
  pend f := (h.frame f).pend
  halted f := fun ⟨hs, ho, hw⟩ => by
    refine ⟨(h.frame f).state.trans hs, (h.frame f).ops.trans ho, ?_⟩
    obtain k | ⟨k, -⟩ := (h.frame f).wait
    · rw [k, hw]
    · exact k

theorem State.Stopping.refl (s : State) : State.Stopping s s := (State.Carried.refl s).stopping

theorem State.still_frame {s t : State} (h : t.still = s.still) (f : FrameNo) : (t.frame f).still = (s.frame f).still := by
  have e := congrArg (fun x => x.frames[f]) h
  simpa [State.still, State.frame] using e

/-- What writes at their homes leave alone, they leave as a stop does. -/
theorem State.Stopping.of_still {s t : State} (h : t.still = s.still) : State.Stopping s t where
  tally := congrArg (fun x => x.tally.left) h
  adm := congrArg Still.adm h
  vis := congrArg Still.vis h
  xfers x m := by
    have e : t.xfers = s.xfers := congrArg Still.xfers h
    exact e ▸ m
  ids := congrArg (fun x => x.runs.map Prod.fst) h
  stopped id := by
    have e : t.stops = s.stops := congrArg Still.runs h
    rw [State.isStopped_iff, State.isStopped_iff, e]
    exact fun m => m
  pend f := congrArg Frame.Still.pend (State.still_frame h f)
  halted f := fun ⟨hs, ho, hw⟩ =>
    ⟨(congrArg (fun x => x.seq.state) (State.still_frame h f)).trans hs, (congrArg Frame.Still.ops (State.still_frame h f)).trans ho,
      (congrArg Frame.Still.wait (State.still_frame h f)).trans hw⟩

/-- No transfer in progress writes or adds in the register window. -/
def State.offRegs (s : State) : Prop := ∀ x ∈ s.xfers, Machine.offRegs x.writes ∧ Machine.offRegs x.accs

theorem State.NoRegisterWrites.offRegs {s : State} (h : s.NoRegisterWrites) : s.offRegs := by
  have key (x : Xfer) (hx : x ∈ s.xfers) (w : PWrite) (hw : w ∈ x.writes ++ x.accs) : ¬ regAddr w.addr :=
    fun k => h x hx w hw _ (s.place_regAddr k)
  exact fun x hx => ⟨fun w hw => key x hx w (List.mem_append_left _ hw), fun w hw => key x hx w (List.mem_append_right _ hw)⟩

/-- What a stop makes of a frame of its program. -/
def Frame.stop (fr : Frame) : Frame :=
  { fr with
    seq := { fr.seq with state := .stopped, stopHit := fr.seq.stopHit || fr.seq.stopArm, stopArm := false }
    rn := { fr.rn with ops := [], wait := none, issued := true, held := false, stopped := true }
    done := fr.active }

/-- The writes that a stop lets arrive. -/
def State.stopWrites (s : State) (r : Run) : State :=
  let s := (framesOf r.frames).foldl (fun (s : State) f => (s.frame f).rn.ops.foldl (fun (s : State) o => s.cutOp f o) s) s
  (s.xfers.filter fun x => x.run == r.id && !x.flying).foldl (fun (s : State) x => s.cutXfer x)
    { s with xfers := s.xfers.filter fun x => x.run != r.id || x.flying }

/-- The program enters STOPPED. -/
def State.stopFrames (s : State) (r : Run) : State :=
  (s.mapFrames fun f fr => if hasFrame r.frames f then fr.stop else fr).updRun r.id fun r => { r with stopped := true, stopBeat := none }

theorem State.stopRun_eq (s : State) (r : Run) : s.stopRun r = (s.stopWrites r).stopFrames r := rfl

theorem State.stopping_stopWrites (s : State) (r : Run) (h : s.offRegs) : State.Stopping s (s.stopWrites r) := by
  have ops : ((framesOf r.frames).foldl (fun (s : State) f => (s.frame f).rn.ops.foldl (fun (s : State) o => s.cutOp f o) s) s).still =
      s.still :=
    State.still_foldl _ (fun (s : State) f => (s.frame f).rn.ops.foldl (fun (s : State) o => s.cutOp f o) s)
      (fun t f => State.still_foldl _ (fun (s : State) o => s.cutOp f o) (fun u o => u.still_cutOp f o) t) s
  unfold State.stopWrites
  generalize (framesOf r.frames).foldl (fun (s : State) f => (s.frame f).rn.ops.foldl (fun (s : State) o => s.cutOp f o) s) s = t at ops ⊢
  have ht := State.Stopping.of_still ops
  refine ht.trans ?_
  have drop : State.Stopping t { t with xfers := t.xfers.filter fun x => x.run != r.id || x.flying } :=
    ⟨rfl, rfl, rfl, fun x m => List.mem_of_mem_filter m, rfl, fun _ m => m, fun _ => rfl, fun _ m => m⟩
  refine drop.trans (.of_still ?_)
  dsimp only
  have all : ∀ x ∈ t.xfers.filter (fun x => x.run == r.id && !x.flying), Machine.offRegs x.writes ∧ Machine.offRegs x.accs :=
    fun x m => h x (ht.xfers x (List.mem_of_mem_filter m))
  generalize t.xfers.filter (fun x => x.run == r.id && !x.flying) = mine at all
  generalize ({ t with xfers := t.xfers.filter fun x => x.run != r.id || x.flying } : State) = u
  induction mine generalizing u with
  | nil => rfl
  | cons x l ih =>
    obtain ⟨hw, ha⟩ := all x (List.mem_cons_self ..)
    exact (ih (fun y m => all y (List.mem_cons_of_mem _ m)) _).trans (u.still_cutXfer x hw ha)

theorem State.stopFrames_frame (s : State) (r : Run) (f : FrameNo) :
    (s.stopFrames r).frame f = if hasFrame r.frames f then (s.frame f).stop else s.frame f := by
  rw [← s.mapFrames_frame (fun f fr => if hasFrame r.frames f then fr.stop else fr) f, State.stopFrames, State.frame,
    State.updRun_frames, State.frame]

theorem Frame.stop_halted (fr : Frame) : fr.stop.halted := ⟨rfl, rfl, rfl⟩

theorem State.stopFrames_runs (s : State) (r : Run) :
    (s.stopFrames r).runs = s.runs.map fun q => if q.id == r.id then { q with stopped := true, stopBeat := none } else q := by
  rw [State.stopFrames, State.updRun, State.mapFrames_runs]

theorem State.stopping_stopFrames (s : State) (r : Run) : State.Stopping s (s.stopFrames r) where
  tally := by rw [State.stopFrames, State.updRun_tally, State.mapFrames_tally]
  adm := by rw [State.stopFrames, State.updRun_adm, State.mapFrames_adm]
  vis := by rw [State.stopFrames, State.updRun_vis, State.mapFrames_vis]
  xfers x m := by rwa [State.stopFrames, State.updRun_xfers, State.mapFrames_xfers] at m
  ids := by
    rw [State.stops, State.stops, State.stopFrames_runs, List.map_map, List.map_map, List.map_map]
    refine List.map_congr_left fun q _ => ?_
    simp only [Function.comp]
    split <;> rfl
  stopped id := by
    rintro ⟨q, hq, hi, hs⟩
    rw [State.isStopped, State.stopFrames_runs]
    refine ⟨_, List.mem_map_of_mem hq, ?_⟩
    split
    · exact ⟨hi, rfl⟩
    · exact ⟨hi, hs⟩
  pend f := by
    rw [State.stopFrames_frame]
    split <;> rfl
  halted f h := by
    rw [State.stopFrames_frame]
    split
    · exact Frame.stop_halted _
    · exact h

theorem State.stopFrames_isStopped {s : State} {r : Run} (h : r.id ∈ s.stops.map Prod.fst) : (s.stopFrames r).isStopped r.id := by
  simp only [State.stops, List.map_map, List.mem_map, Function.comp] at h
  obtain ⟨q, hq, hi⟩ := h
  rw [State.isStopped, State.stopFrames_runs]
  refine ⟨_, List.mem_map_of_mem hq, ?_⟩
  rw [if_pos (by simpa using hi)]
  exact ⟨hi, rfl⟩

end Sys2Proof.Machine
end

section
/-!
SUPPORT. A frame at a launch: its pending effects, its due results, its wait (R218, R230, R239).
-/

namespace Sys2Proof.Machine

open Sys2Proof

/-! ## One effect -/

theorem Frame.setX_other (fr : Frame) {j : Nat} {i : Fin 32} (v : Scalar) (h : j ≠ i.val) :
    (fr.setX j v).scalars[i] = fr.scalars[i] := by
  unfold Frame.setX
  split
  · split
    · rfl
    · exact Vector.getElem_set_ne (by assumption) _ h
  · rfl

theorem Frame.setX_same (fr : Frame) {i : Fin 32} (v : Scalar) (h : i ≠ 0) : (fr.setX i.val v).scalars[i] = v := by
  have h0 : i.val ≠ 0 := fun e => h (Fin.ext e)
  unfold Frame.setX
  rw [dif_pos i.isLt, if_neg h0]
  exact Vector.getElem_set_self _

/-- A scalar written changes nothing else. -/
theorem Frame.setX_parts (fr : Frame) (j : Nat) (v : Scalar) : fr.setX j v = { fr with scalars := (fr.setX j v).scalars } := by
  unfold Frame.setX
  split
  · split <;> rfl
  · rfl

section
variable (fr : Frame) (p : Pend)

theorem Frame.applyPend_scalar {i : Fin 32} (h : ∀ u, p ≠ .scalar i.val u) : (fr.applyPend p).scalars[i] = fr.scalars[i] := by
  cases p with
  | scalar j v => exact fr.setX_other v fun e => h v (by rw [e])
  | flag j v =>
    unfold Frame.applyPend
    dsimp only
    split <;> rfl
  | _ => rfl

theorem Frame.applyPend_flag {i : Fin 256} (h : ∀ u, p ≠ .flag i.val u) : (fr.applyPend p).flags[i] = fr.flags[i] := by
  cases p with
  | scalar j v =>
    show (fr.setX j v).flags[i] = _
    rw [fr.setX_parts]
  | flag j v =>
    unfold Frame.applyPend
    dsimp only
    split
    · exact Vector.getElem_set_ne (by assumption) _ fun e => h v (by rw [e])
    · rfl
  | _ => rfl

theorem Frame.applyPend_dtab {i : Nat} (h : (∀ e, p ≠ .desc i e) ∧ (∀ m, p ≠ .descPoison i m) ∧ p ≠ .descClean i) :
    (fr.applyPend p).rn.dtab[i]? = fr.rn.dtab[i]? := by
  obtain ⟨hd, hp, hc⟩ := h
  cases p with
  | scalar j v =>
    show (fr.setX j v).rn.dtab[i]? = _
    rw [fr.setX_parts]
  | desc j d => exact List.getElem?_set_ne fun e => hd d (by rw [e])
  | descPoison j m => exact List.getElem?_set_ne fun e => hp m (by rw [e])
  | descClean j => exact List.getElem?_set_ne fun e => hc (by rw [e])
  | flag j v =>
    unfold Frame.applyPend
    dsimp only
    split <;> rfl
  | _ => rfl

/-- An effect changes no wait, operation or run of the frame, and no descriptor's place. -/
theorem Frame.applyPend_keeps : (fr.applyPend p).rn.wait = fr.rn.wait ∧ (fr.applyPend p).rn.ops = fr.rn.ops ∧
    (fr.applyPend p).rn.run = fr.rn.run ∧ (fr.applyPend p).rn.dtab.length = fr.rn.dtab.length := by
  cases p with
  | scalar j v =>
    show (fr.setX j v).rn.wait = _ ∧ (fr.setX j v).rn.ops = _ ∧ (fr.setX j v).rn.run = _ ∧ (fr.setX j v).rn.dtab.length = _
    rw [fr.setX_parts]
    exact ⟨rfl, rfl, rfl, rfl⟩
  | flag j v =>
    unfold Frame.applyPend
    dsimp only
    split <;> exact ⟨rfl, rfl, rfl, rfl⟩
  | desc j d => exact ⟨rfl, rfl, rfl, List.length_set⟩
  | descPoison j m => exact ⟨rfl, rfl, rfl, List.length_set⟩
  | descClean j => exact ⟨rfl, rfl, rfl, List.length_set⟩
  | _ => exact ⟨rfl, rfl, rfl, rfl⟩

end

/-! ## All of them, in order -/

/-- The frame once its pending effects are made. -/
def Frame.applied (fr : Frame) : Frame := fr.rn.pend.foldl Frame.applyPend fr

/-- What no effect of a list changes. -/
theorem Frame.foldl_applyPend {α : Sort _} (q : Frame → α) (ps : List Pend) (h : ∀ p ∈ ps, ∀ fr : Frame, q (fr.applyPend p) = q fr)
    (fr : Frame) : q (ps.foldl Frame.applyPend fr) = q fr := by
  induction ps generalizing fr with
  | nil => rfl
  | cons p ps ih =>
    exact (ih (fun p hp => h p (List.mem_cons_of_mem _ hp)) _).trans (h p (List.mem_cons_self ..) fr)

/-- What the last effect on a place makes of it stands. -/
theorem Frame.foldl_applyPend_last {α : Sort _} (q : Frame → α) (ps qs : List Pend) (p : Pend) (fr : Frame)
    (h : ∀ p' ∈ qs, ∀ fr : Frame, q (fr.applyPend p') = q fr) :
    q ((ps ++ p :: qs).foldl Frame.applyPend fr) = q ((ps.foldl Frame.applyPend fr).applyPend p) := by
  rw [List.foldl_append, List.foldl_cons]
  exact Frame.foldl_applyPend q qs h _

theorem Frame.applied_scalar {fr : Frame} {ps qs : List Pend} {i : Fin 32} {v : Scalar} (hi : i ≠ 0)
    (h : fr.rn.pend = ps ++ .scalar i.val v :: qs) (hq : ∀ u, Pend.scalar i.val u ∉ qs) : fr.applied.scalars[i] = v := by
  rw [Frame.applied, h]
  refine (Frame.foldl_applyPend_last (fun g => g.scalars[i]) ps qs _ fr fun p hp g => ?_).trans (Frame.setX_same _ v hi)
  exact g.applyPend_scalar p fun u e => hq u (e ▸ hp)

theorem Frame.applied_flag {fr : Frame} {ps qs : List Pend} {i : Fin 256} {v : Word}
    (h : fr.rn.pend = ps ++ .flag i.val v :: qs) (hq : ∀ u, Pend.flag i.val u ∉ qs) : fr.applied.flags[i] = v := by
  rw [Frame.applied, h]
  refine (Frame.foldl_applyPend_last (fun g => g.flags[i]) ps qs _ fr fun p hp g => ?_).trans ?_
  · exact g.applyPend_flag p fun u e => hq u (e ▸ hp)
  · unfold Frame.applyPend
    dsimp only
    rw [dif_pos i.isLt]
    exact Vector.getElem_set_self _

theorem Frame.applied_flag_none {fr : Frame} {i : Fin 256} (h : ∀ u, Pend.flag i.val u ∉ fr.rn.pend) :
    fr.applied.flags[i] = fr.flags[i] :=
  Frame.foldl_applyPend (fun g => g.flags[i]) _ (fun p hp g => g.applyPend_flag p fun u e => h u (e ▸ hp)) fr

theorem Frame.applied_keeps (fr : Frame) :
    fr.applied.rn.wait = fr.rn.wait ∧ fr.applied.rn.ops = fr.rn.ops ∧ fr.applied.rn.run = fr.rn.run :=
  ⟨Frame.foldl_applyPend (fun g => g.rn.wait) _ (fun p _ g => (g.applyPend_keeps p).1) fr,
    Frame.foldl_applyPend (fun g => g.rn.ops) _ (fun p _ g => (g.applyPend_keeps p).2.1) fr,
    Frame.foldl_applyPend (fun g => g.rn.run) _ (fun p _ g => (g.applyPend_keeps p).2.2.1) fr⟩

theorem Frame.applied_desc {fr : Frame} {ps qs : List Pend} {i : Nat} {d : Desc} (hi : i < fr.rn.dtab.length)
    (h : fr.rn.pend = ps ++ .desc i d :: qs)
    (hq : ∀ p ∈ qs, (∀ e, p ≠ .desc i e) ∧ (∀ m, p ≠ .descPoison i m) ∧ p ≠ .descClean i) : fr.applied.rn.dtab[i]? = some d := by
  have hl : (ps.foldl Frame.applyPend fr).rn.dtab.length = fr.rn.dtab.length :=
    Frame.foldl_applyPend (fun g => g.rn.dtab.length) ps (fun p _ g => (g.applyPend_keeps p).2.2.2) fr
  rw [Frame.applied, h]
  refine (Frame.foldl_applyPend_last (fun g => g.rn.dtab[i]?) ps qs _ fr fun p hp g => g.applyPend_dtab p (hq p hp)).trans ?_
  exact List.getElem?_set_self (by rw [hl]; exact hi)

/-! ## Results that are due -/

/-- A transfer's result, where it is due, in the scalar it names. -/
def Frame.takeResult (count : Nat) (window : Option Nat) (f run : Nat) (g : Frame) (x : Xfer) : Frame :=
  if x.frame == f && x.run == run then (match x.resultAt count window with | some v => g.setX x.xd v | none => g) else g

theorem Frame.takeResult_parts (count : Nat) (window : Option Nat) (f run : Nat) (g : Frame) (x : Xfer) :
    g.takeResult count window f run x = { g with scalars := (g.takeResult count window f run x).scalars } := by
  unfold Frame.takeResult
  split
  · split
    · exact g.setX_parts ..
    · rfl
  · rfl

theorem Frame.takeResults_parts (count : Nat) (window : Option Nat) (f run : Nat) (xs : List Xfer) (g : Frame) :
    ∃ v, xs.foldl (Frame.takeResult count window f run) g = { g with scalars := v } := by
  induction xs generalizing g with
  | nil => exact ⟨g.scalars, rfl⟩
  | cons x xs ih =>
    obtain ⟨v, e⟩ := ih (g.takeResult count window f run x)
    rw [g.takeResult_parts] at e
    rw [List.foldl_cons, g.takeResult_parts, e]
    exact ⟨v, rfl⟩

/-- A transfer of another frame, or without a result, brings nothing. -/
theorem Frame.takeResult_none {count : Nat} {window : Option Nat} {f run : Nat} {x : Xfer} (g : Frame)
    (h : x.frame = f → x.result = none) : g.takeResult count window f run x = g := by
  unfold Frame.takeResult
  split
  · rename_i hf
    simp only [Bool.and_eq_true, beq_iff_eq] at hf
    unfold Xfer.resultAt
    rw [h hf.1]
  · rfl

theorem Frame.takeResults_none {count : Nat} {window : Option Nat} {f run : Nat} (xs : List Xfer) (g : Frame)
    (h : ∀ x ∈ xs, x.frame = f → x.result = none) : xs.foldl (Frame.takeResult count window f run) g = g := by
  induction xs with
  | nil => rfl
  | cons x xs ih =>
    rw [List.foldl_cons, g.takeResult_none (h x (List.mem_cons_self ..))]
    exact ih fun y hy => h y (List.mem_cons_of_mem _ hy)

/-- A result that is due. -/
theorem Frame.takeResult_due {count : Nat} {window : Option Nat} {f run : Nat} {x : Xfer} {v : Scalar} (g : Frame)
    (hf : x.frame = f) (hr : x.run = run) (hv : x.result = some v) (hd : x.due = some count) :
    g.takeResult count window f run x = g.setX x.xd v := by
  have hres : x.resultAt count window = some v := by
    unfold Xfer.resultAt
    rw [hv, hd]
    exact if_pos rfl
  unfold Frame.takeResult
  rw [if_pos (by simp [hf, hr]), hres]

/-- The one result of a frame that is due stands in its scalar. -/
theorem Frame.takeResults_due {count : Nat} {window : Option Nat} {f run : Nat} {x : Xfer} {v : Scalar} {i : Fin 32}
    {xs : List Xfer} (g : Frame) (hi : i ≠ 0) (hx : x ∈ xs) (hf : x.frame = f) (hr : x.run = run) (hxd : x.xd = i.val)
    (hv : x.result = some v) (hd : x.due = some count) (h : ∀ y ∈ xs, y ≠ x → y.frame = f → y.result = none) :
    (xs.foldl (Frame.takeResult count window f run) g).scalars[i] = v := by
  induction xs generalizing g with
  | nil => exact absurd hx List.not_mem_nil
  | cons y ys ih =>
    rw [List.foldl_cons]
    have hys : ∀ z ∈ ys, z ≠ x → z.frame = f → z.result = none := fun z hz => h z (List.mem_cons_of_mem _ hz)
    by_cases hm : x ∈ ys
    · exact ih _ hm hys
    · have hy : y = x := ((List.mem_cons.1 hx).resolve_right hm).symm
      rw [Frame.takeResults_none ys _ fun z hz => hys z hz fun e => hm (e ▸ hz), hy, g.takeResult_due hf hr hv hd, hxd]
      exact g.setX_same v hi

/-! ## The wait -/

section
variable (fr : Frame) (count : Nat)

/-- The test of a wait leaves scalars, descriptors, effects and operations. -/
theorem Frame.testWait_keeps : (fr.testWait count).scalars = fr.scalars ∧ (fr.testWait count).rn.dtab = fr.rn.dtab ∧
    (fr.testWait count).rn.pend = fr.rn.pend ∧ (fr.testWait count).rn.ops = fr.rn.ops := by
  unfold Frame.testWait
  split
  · exact ⟨rfl, rfl, rfl, rfl⟩
  · split
    · dsimp only
      split
      · exact ⟨rfl, rfl, rfl, rfl⟩
      · split <;> exact ⟨rfl, rfl, rfl, rfl⟩
    · exact ⟨rfl, rfl, rfl, rfl⟩

variable {fr}

theorem Frame.testWait_none (h : fr.rn.wait = none) : fr.testWait count = fr := by
  unfold Frame.testWait
  rw [h]

variable {w : Wait} {i : Fin 256}

theorem Frame.testWait_met (h : fr.rn.wait = some w) (hi : w.flag = i.val) (ht : w.target ≤ fr.flags[i].toNat) :
    (fr.testWait count).rn.wait = none ∧ (fr.testWait count).seq.state = .running ∧
      (fr.testWait count).flags[i] = if w.dec then fr.flags[i] - BitVec.ofNat 32 w.target else fr.flags[i] := by
  have hlt : w.flag < 256 := hi ▸ i.isLt
  have hfl : fr.flags[w.flag] = fr.flags[i] := by simp [hi]
  unfold Frame.testWait
  rw [h]
  dsimp only
  rw [dif_pos hlt, if_pos (hfl ▸ ht)]
  refine ⟨rfl, rfl, ?_⟩
  cases w.dec with
  | true => simp [hi]
  | false => rfl

/-- A wait that is not met leaves the flag, and expires at its time-out at the earliest. -/
theorem Frame.testWait_unmet (h : fr.rn.wait = some w) (hi : w.flag = i.val) (ht : fr.flags[i].toNat < w.target) :
    (fr.testWait count).flags = fr.flags ∧ ((fr.testWait count).rn.wait = some w ∨
      (fr.testWait count).rn.wait = some { w with expired := true } ∧ w.issue + w.timeout ≤ count) := by
  have hlt : w.flag < 256 := hi ▸ i.isLt
  have hfl : fr.flags[w.flag] = fr.flags[i] := by simp [hi]
  unfold Frame.testWait
  rw [h]
  dsimp only
  rw [dif_pos hlt, if_neg (by rw [hfl]; omega)]
  split
  · rename_i he
    exact ⟨rfl, .inr ⟨rfl, he⟩⟩
  · exact ⟨rfl, .inl h⟩

end

/-! ## The frame at the launch -/

/-- The frame with its effects and results visible. -/
def State.visibleFrame (s : State) (window : Option Nat) (f : FrameNo) : Frame :=
  s.xfers.foldl (Frame.takeResult s.tally.count.toNat window f.val (s.frame f).applied.rn.run) (s.frame f).applied

/-- The frame's program issues words. -/
def State.liveAt (s : State) (f : FrameNo) : Bool := match s.runOf f with | some r => r.live | none => false

theorem State.visibleFrame_parts (s : State) (window : Option Nat) (f : FrameNo) :
    (s.visibleFrame window f).flags = (s.frame f).applied.flags ∧ (s.visibleFrame window f).rn = (s.frame f).applied.rn := by
  obtain ⟨v, e⟩ : ∃ v, s.visibleFrame window f = { (s.frame f).applied with scalars := v } := Frame.takeResults_parts ..
  rw [e]
  exact ⟨rfl, rfl⟩

/-- The launch makes effects and results visible, clears what waited, and tests the wait of a frame whose program issues. -/
theorem State.launchFrame_form (s : State) (window : Option Nat) (f : FrameNo) : ∃ gr : Frame,
    s.launchFrame window f = (if s.liveAt f then gr.testWait s.tally.count.toNat else gr) ∧
      gr.scalars = (s.visibleFrame window f).scalars ∧ gr.flags = (s.frame f).applied.flags ∧
      gr.rn.dtab = (s.frame f).applied.rn.dtab ∧ gr.rn.pend = [] ∧ gr.rn.wait = (s.frame f).rn.wait ∧
      gr.rn.ops = (s.frame f).rn.ops := by
  obtain ⟨hf, hr⟩ := s.visibleFrame_parts window f
  obtain ⟨hw, ho, -⟩ := (s.frame f).applied_keeps
  rw [← hr] at hw ho
  rw [← hr, ← hf]
  exact ⟨_, rfl, rfl, rfl, rfl, rfl, hw, ho⟩

/-- What the launch makes of a frame, but for its flags and its wait. -/
theorem State.launchFrame_keeps (s : State) (window : Option Nat) (f : FrameNo) :
    (s.launchFrame window f).scalars = (s.visibleFrame window f).scalars ∧
      (s.launchFrame window f).rn.dtab = (s.frame f).applied.rn.dtab ∧ (s.launchFrame window f).rn.pend = [] ∧
      (s.launchFrame window f).rn.ops = (s.frame f).rn.ops := by
  obtain ⟨gr, e, hs, -, hd, hp, -, ho⟩ := s.launchFrame_form window f
  obtain ⟨ks, kd, kp, ko⟩ := gr.testWait_keeps s.tally.count.toNat
  rw [e]
  split
  · exact ⟨ks.trans hs, kd.trans hd, kp.trans hp, ko.trans ho⟩
  · exact ⟨hs, hd, hp, ho⟩

/-- A frame that does not wait has the flags that its effects leave. -/
theorem State.launchFrame_flags {s : State} {window : Option Nat} {f : FrameNo} (h : (s.frame f).rn.wait = none) :
    (s.launchFrame window f).flags = (s.frame f).applied.flags := by
  obtain ⟨gr, e, -, hf, -, -, hw, -⟩ := s.launchFrame_form window f
  rw [e, Frame.testWait_none _ (hw.trans h), ite_self, hf]

section
variable {s : State} {window : Option Nat} {f : FrameNo} {w : Wait} {i : Fin 256}

theorem State.launchFrame_met (hl : s.liveAt f = true) (h : (s.frame f).rn.wait = some w) (hi : w.flag = i.val)
    (hn : ∀ u, Pend.flag i.val u ∉ (s.frame f).rn.pend) (ht : w.target ≤ (s.frame f).flags[i].toNat) :
    (s.launchFrame window f).rn.wait = none ∧ (s.launchFrame window f).seq.state = .running ∧
      (s.launchFrame window f).flags[i] =
        if w.dec then (s.frame f).flags[i] - BitVec.ofNat 32 w.target else (s.frame f).flags[i] := by
  obtain ⟨gr, e, -, hf, -, -, hw, -⟩ := s.launchFrame_form window f
  have hv : gr.flags[i] = (s.frame f).flags[i] := by rw [hf, Frame.applied_flag_none hn]
  have key := Frame.testWait_met s.tally.count.toNat (hw.trans h) hi (hv.symm ▸ ht)
  rw [hv] at key
  rw [e, if_pos hl]
  exact key

theorem State.launchFrame_unmet (hl : s.liveAt f = true) (h : (s.frame f).rn.wait = some w) (hi : w.flag = i.val)
    (hn : ∀ u, Pend.flag i.val u ∉ (s.frame f).rn.pend) (ht : (s.frame f).flags[i].toNat < w.target) :
    (s.launchFrame window f).flags[i] = (s.frame f).flags[i] ∧ ((s.launchFrame window f).rn.wait = some w ∨
      (s.launchFrame window f).rn.wait = some { w with expired := true } ∧ w.issue + w.timeout ≤ s.tally.count.toNat) := by
  obtain ⟨gr, e, -, hf, -, -, hw, -⟩ := s.launchFrame_form window f
  have hv : gr.flags[i] = (s.frame f).flags[i] := by rw [hf, Frame.applied_flag_none hn]
  obtain ⟨kf, kw⟩ := Frame.testWait_unmet s.tally.count.toNat (hw.trans h) hi (hv.symm ▸ ht)
  rw [e, if_pos hl, kf, hv]
  exact ⟨rfl, kw⟩

end

end Sys2Proof.Machine
end

section
/-!
SUPPORT. The launch as a whole: its head, its stops and its end (R48 to R56, R218, R254), and the Tally after it.
-/

namespace Sys2Proof.Machine

open Sys2Proof

/-! ## The Tally and admission -/

theorem Tally.formed_left (t : Tally) : t.formed.left = t.left := by
  unfold Tally.formed
  split <;> rfl

theorem Tally.left_count (t : Tally) : t.left.count = t.count := rfl

/-- Whether a group is left or formed at the launch, the rest of the Tally is the same. -/
theorem Tally.left_or_formed (b : Bool) (t : Tally) : (if b then t.left else t.formed).left = t.left := by
  split
  · rfl
  · exact t.formed_left

theorem bump_get (v : Vector (BitVec 64) 8) (c n : Nat) (k : Fin 8) :
    (bump v c n)[k] = v[k] + if k.val = c then BitVec.ofNat 64 n else 0 := by
  unfold bump
  split
  · by_cases h : k.val = c
    · subst h
      simp
    · simp [Vector.getElem_set_ne _ _ (Ne.symm h), h]
  · rw [if_neg (by omega)]
    exact (BitVec.add_zero _).symm

/-- The stretch counts that the launch counts on from, zero where they are to clear. -/
theorem cleared_get (b : Bool) (v : Vector (BitVec 64) 8) (k : Fin 8) :
    (if b then Vector.replicate 8 0 else v)[k] = if b then 0 else v[k] := by
  cases b with
  | true => simp
  | false => rfl

/-- The Tally at a launch before a group is left or formed. -/
def State.beatTally (s : State) (ns : Nat) (last : BitVec 8) : Tally :=
  let t := s.tally
  let c := s.chargeTo last
  let beats := if t.strClear then Vector.replicate 8 0 else t.strBeats
  let nss := if t.strClear then Vector.replicate 8 0 else t.strNs
  let newWindow := s.closing.isSome || t.formReady
  let w : Int := match s.closing with | some w => (w : Int) + 1 | none => 0
  let g := if t.gstate = .running then (if t.formReady then 0 else t.gbeat + 1) else t.gbeat
  let held := (t.early.filter fun e => e.2 == w).foldl (fun (m : BitVec 16) e => m ||| (1 <<< e.1)) 0
  let mark := t.markArmed && t.markBeat == t.count + 1
  { t with
    count := t.count + 1, strClear := false, heldInBeat := !t.run
    wdActed := false, lastDoneHeld := false, lastCause := BitVec.ofNat 3 c, floorNow := t.beatFloor
    strBeats := bump beats c 1, strNs := bump nss c (ns - t.floorNow.toNat)
    gbeat := g, formSend := false, formReady := false
    tokens := if t.formReady then t.tokens ||| held else if newWindow then held else t.tokens
    early := if newWindow then t.early.filter fun e => w < e.2 else t.early
    tokenSent := if newWindow then false else t.tokenSent
    markTs := if mark then t.tb else t.markTs
    markDone := t.markDone || mark
    markArmed := t.markArmed && !mark }

section
variable (s : State) (ns : Nat) (last : BitVec 8)

/-- A register of the Tally that neither leaving nor forming a group writes is, after the launch, what the launch makes it. -/
theorem State.launchTally_fields :
    (s.launchTally ns last).count = s.tally.count + 1 ∧ (s.launchTally ns last).floorNow = s.tally.beatFloor ∧
      (s.launchTally ns last).lastCause = BitVec.ofNat 3 (s.chargeTo last) ∧ (s.launchTally ns last).strClear = false ∧
      (s.launchTally ns last).strBeats =
        bump (if s.tally.strClear then Vector.replicate 8 0 else s.tally.strBeats) (s.chargeTo last) 1 ∧
      (s.launchTally ns last).strNs =
        bump (if s.tally.strClear then Vector.replicate 8 0 else s.tally.strNs) (s.chargeTo last) (ns - s.tally.floorNow.toNat) := by
  have e := Tally.left_or_formed s.tally.leavePend (s.beatTally ns last)
  exact ⟨congrArg Tally.count e, congrArg Tally.floorNow e, congrArg Tally.lastCause e, congrArg Tally.strClear e,
    congrArg Tally.strBeats e, congrArg Tally.strNs e⟩

/-- An armed mark that the launch reaches (R67). -/
def Tally.marks (t : Tally) : Bool := t.markArmed && t.markBeat == t.count + 1

theorem State.launchTally_mark :
    (s.launchTally ns last).markBeat = s.tally.markBeat ∧ (s.launchTally ns last).markMissed = s.tally.markMissed ∧
      (s.launchTally ns last).markTs = (if s.tally.marks then s.tally.tb else s.tally.markTs) ∧
      (s.launchTally ns last).markDone = (s.tally.markDone || s.tally.marks) ∧
      (s.launchTally ns last).markArmed = (s.tally.markArmed && !s.tally.marks) := by
  have e := Tally.left_or_formed s.tally.leavePend (s.beatTally ns last)
  exact ⟨(congrArg Tally.markBeat e :), (congrArg Tally.markMissed e :), congrArg Tally.markTs e, congrArg Tally.markDone e,
    congrArg Tally.markArmed e⟩

/-- A state that differs from `s` in what a log record touches and in the counts of split beats. -/
def State.SplitNoted (s t : State) : Prop := ∃ g m h o b c, t =
  { s with global := g, mgmt := m, hostq := h, outbox := o, adm := { s.adm with splitSince := b, splitLogUp := c } }

theorem State.splitNoted_logSplit : State.SplitNoted s s.logSplit := by
  have logged : State.SplitNoted s { s.log Codes.beatSplit .adm { detail := s.adm.splitSince + 1 } with
      adm := { s.adm with splitSince := 0, splitLogUp := some s.tally.up } } := by
    obtain ⟨g, m, h, o, e⟩ := s.log_parts Codes.beatSplit .adm { detail := s.adm.splitSince + 1 }
    rw [e]
    exact ⟨g, m, h, o, 0, some s.tally.up, rfl⟩
  have counted : State.SplitNoted s { s with adm := { s.adm with splitSince := s.adm.splitSince + 1 } } :=
    ⟨s.global, s.mgmt, s.hostq, s.outbox, s.adm.splitSince + 1, s.adm.splitLogUp, rfl⟩
  unfold State.logSplit
  split
  · exact ⟨s.global, s.mgmt, s.hostq, s.outbox, s.adm.splitSince, s.adm.splitLogUp, rfl⟩
  · dsimp only
    split
    · exact logged
    · split
      · exact logged
      · exact counted

/-! ## The head of the launch -/

/-- The registers of the launch, and what engines see from it on. -/
def State.launchHead : State :=
  let send := s.tally.formSend && !s.inBypass
  let s := s.gatherLanes
  let s := { s with tally := s.launchTally ns last, adm := s.launchAdmit }
  let s := s.logSplit
  let s := if send then s.sendTokens (-1) else s
  { s with
    vis := memSlice s.mem spadBase (64 * 0x1000000)
    visPoison := s.poison.filter fun p => spadBase ≤ p.1 * 2048 }

/-- All that the head of a launch changes. -/
theorem State.launchHead_parts : ∃ a c g m h o p, s.launchHead ns last =
    { s with
      runs := s.gatherLanes.runs, tally := s.launchTally ns last, adm := a, carry := c, global := g, mgmt := m, hostq := h
      outbox := o, vis := memSlice s.mem spadBase (64 * 0x1000000), visPoison := p } ∧
    a.cur = s.adm.grant.getD {} ∧ a.grant = none ∧ a.budgetNow = s.adm.budget ∧ a.forcedPend = s.adm.forcedPend := by
  obtain ⟨g, m, h, o, b, d, e⟩ := State.splitNoted_logSplit
    { s.gatherLanes with tally := s.gatherLanes.launchTally ns last, adm := s.gatherLanes.launchAdmit }
  unfold State.launchHead
  dsimp only
  rw [e]
  split
  · obtain ⟨c, q, k⟩ := State.sendTokens_parts
      { s.gatherLanes with
        tally := s.gatherLanes.launchTally ns last, global := g, mgmt := m, hostq := h, outbox := o
        adm := { s.gatherLanes.launchAdmit with splitSince := b, splitLogUp := d } } (-1)
    rw [k]
    exact ⟨_, _, _, _, _, _, _, rfl, rfl, rfl, rfl, rfl⟩
  · exact ⟨_, _, _, _, _, _, _, rfl, rfl, rfl, rfl, rfl⟩

/-- The frames at the launch, and the transfers without the results that it takes. -/
def State.launched : State :=
  let u := s.launchHead ns last
  { u with
    frames := Vector.ofFn fun f => u.launchFrame s.closing f
    xfers := u.xfers.filter fun x =>
      (x.resultAt u.tally.count.toNat s.closing).isNone || (x.abandoned && x.kind == FKind.atom && x.sent) }

theorem State.launch_eq : s.launch ns last =
    ((s.launched ns last).gateRuns.takeAborts.takeStops).launchEnd ((s.runs.filter s.groupDue).map (·.id)) := rfl

theorem State.launched_frame (f : FrameNo) :
    (s.launched ns last).frame f = (s.launchHead ns last).launchFrame s.closing f := by
  rw [State.launched, State.frame, Fin.getElem_fin, Vector.getElem_ofFn]

/-! ## Runs at the launch -/

theorem State.gatherLanes_run? (id : Nat) : (s.gatherLanes.run? id).map Run.live = (s.run? id).map Run.live := by
  simp only [State.gatherLanes, State.run?, List.find?_map, Option.map_map]
  rfl

/-- The head of a launch leaves which frames issue words. -/
theorem State.launchHead_liveAt (f : FrameNo) : (s.launchHead ns last).liveAt f = s.liveAt f := by
  have key (u : State) : u.liveAt f = ((u.run? (u.frame f).rn.run).map Run.live).getD false := by
    unfold State.liveAt State.runOf
    cases u.run? (u.frame f).rn.run <;> rfl
  obtain ⟨_, _, _, _, _, _, _, e, -⟩ := s.launchHead_parts ns last
  rw [key, key, e, ← s.gatherLanes_run?]
  rfl

end

/-! ## Stops at the launch -/

/-- One program's stop at a launch. -/
def State.takeStop (s : State) (r : Run) : State :=
  match r.stopBeat with
  | some b => if r.live && r.startBeat + b + 1 == s.tally.count.toNat then s.stopRun r else s
  | none => s

theorem State.takeStops_eq (s : State) : s.takeStops = s.runs.foldl State.takeStop s := rfl

theorem State.stopping_stopRun {s : State} (r : Run) (h : s.offRegs) : State.Stopping s (s.stopRun r) :=
  (s.stopping_stopWrites r h).trans (State.stopping_stopFrames _ r)

theorem State.stopping_takeStop {s : State} (r : Run) (h : s.offRegs) : State.Stopping s (s.takeStop r) := by
  unfold State.takeStop
  split
  · split
    · exact State.stopping_stopRun r h
    · exact .refl s
  · exact .refl s

theorem State.Stopping.offRegs {s t : State} (h : State.Stopping s t) (k : s.offRegs) : t.offRegs :=
  fun x hx => k x (h.xfers x hx)

theorem State.stopping_takeStopList (rs : List Run) {s : State} (h : s.offRegs) : State.Stopping s (rs.foldl State.takeStop s) := by
  induction rs generalizing s with
  | nil => exact .refl s
  | cons r rs ih =>
    have hr := State.stopping_takeStop r h
    exact hr.trans (ih (hr.offRegs h))

/-- No stop is armed. -/
theorem State.takeStops_none {s : State} (h : ∀ r ∈ s.runs, r.stopBeat = none) : s.takeStops = s := by
  rw [State.takeStops_eq]
  generalize s.runs = rs at h
  induction rs with
  | nil => rfl
  | cons r rs ih =>
    have hr : s.takeStop r = s := by
      unfold State.takeStop
      rw [h r (List.mem_cons_self ..)]
    rw [List.foldl_cons, hr]
    exact ih fun q hq => h q (List.mem_cons_of_mem _ hq)

/-- The program of `r` is stopped, and its frames. -/
def State.Stopped (s : State) (r : Run) : Prop :=
  s.isStopped r.id ∧ ∀ f, hasFrame r.frames f = true → (s.frame f).halted

theorem State.Stopping.stoppedRun {s t : State} {r : Run} (h : State.Stopping s t) (k : s.Stopped r) : t.Stopped r :=
  ⟨h.stopped _ k.1, fun f hf => h.halted f (k.2 f hf)⟩

theorem State.stopRun_stopped {s : State} {r : Run} (h : s.offRegs) (hr : r.id ∈ s.stops.map Prod.fst) : (s.stopRun r).Stopped r := by
  rw [State.stopRun_eq]
  refine ⟨State.stopFrames_isStopped ?_, fun f hf => ?_⟩
  · rw [(s.stopping_stopWrites r h).ids]
    exact hr
  · rw [State.stopFrames_frame, if_pos hf]
    exact Frame.stop_halted _

/-- A live program whose stop is due is stopped. -/
theorem State.takeStopList_stopped {rs : List Run} {s : State} {r : Run} {b : Nat} (h : s.offRegs) (hr : r ∈ rs)
    (hid : r.id ∈ s.stops.map Prod.fst) (hl : r.live = true) (hb : r.stopBeat = some b)
    (hc : r.startBeat + b + 1 = s.tally.count.toNat) : (rs.foldl State.takeStop s).Stopped r := by
  induction rs generalizing s with
  | nil => exact absurd hr List.not_mem_nil
  | cons q rs ih =>
    have hq := State.stopping_takeStop q h
    rw [List.foldl_cons]
    obtain rfl | hm := List.mem_cons.1 hr
    · have hs : s.takeStop r = s.stopRun r := by
        unfold State.takeStop
        rw [hb]
        exact if_pos (by simp [hl, hc])
      refine (State.stopping_takeStopList rs (hq.offRegs h)).stoppedRun ?_
      rw [hs]
      exact State.stopRun_stopped h hid
    · refine ih (hq.offRegs h) hm (by rw [hq.ids]; exact hid) (hc.trans ?_)
      exact (congrArg (fun t : Tally => t.count.toNat) hq.tally.symm :)

/-! ## The launch, from its head to its end -/

section
variable {s : State} {ns : Nat} {last : BitVec 8}

theorem State.launchHead_offRegs (h : s.NoRegisterWrites) : (s.launched ns last).offRegs := by
  obtain ⟨_, _, _, _, _, _, _, e, -⟩ := s.launchHead_parts ns last
  intro x hx
  have hx' : x ∈ (s.launchHead ns last).xfers := List.mem_of_mem_filter hx
  rw [e] at hx'
  exact h.offRegs x hx'

/-- The aborts before the stops. -/
theorem State.carried_gated (t : State) : State.Carried t t.gateRuns.takeAborts :=
  t.carried_gateRuns.trans (State.carried_takeAborts _)

/-- What a launch leaves of what its head makes. -/
theorem State.stopping_launch (h : s.NoRegisterWrites) : State.Stopping (s.launched ns last) (s.launch ns last) := by
  have gated := (State.carried_gated (s.launched ns last)).stopping
  rw [State.launch_eq]
  exact gated.trans ((State.stopping_takeStopList _ (gated.offRegs (State.launchHead_offRegs h))).trans
    (State.carried_launchEnd _ _).stopping)

/-- No run has a stop armed. -/
def State.stopFree (s : State) : Prop := ∀ r ∈ s.runs, r.stopBeat = none

theorem State.stopFree_mapRuns {t : State} (h : t.stopFree) (g : Run → Run) (hg : ∀ r, (g r).stopBeat = r.stopBeat) :
    ({ t with runs := t.runs.map g } : State).stopFree := by
  intro r hr
  obtain ⟨q, hq, rfl⟩ := List.mem_map.1 hr
  rw [hg]
  exact h q hq

theorem State.stopFree_askAbort {t : State} (h : t.stopFree) (id f : Nat) (c : Code) : (t.askAbort id f c).stopFree :=
  State.stopFree_mapRuns h _ fun r => by
    split
    · dsimp only
      split <;> rfl
    · rfl

theorem State.stopFree_gateRuns {t : State} (h : t.stopFree) : t.gateRuns.stopFree := by
  refine State.foldl_induct State.stopFree _ _ (fun u f hu => ?_) t h
  split
  · split
    · exact State.stopFree_askAbort hu _ _ _
    · exact hu
  · exact hu

theorem Run.takeAbort_stopBeat (r : Run) (count : Nat) : (r.takeAbort count).stopBeat = r.stopBeat := by
  unfold Run.takeAbort
  split
  · rfl
  · split <;> rfl

theorem State.leaveOnAbort_runs (t : State) : t.leaveOnAbort.runs = t.runs := by
  unfold State.leaveOnAbort State.settleLeave
  dsimp only
  split
  · split <;> rfl
  · rfl

theorem State.takeAborts_runs (t : State) : t.takeAborts.runs = t.runs.map fun r =>
    if r.aborts.isEmpty then r else ({ r with aborts := r.aborts ++ t.expiredCauses r }).takeAbort t.tally.count.toNat := by
  unfold State.takeAborts
  dsimp only
  rw [State.leaveOnAbort_runs]
  unfold State.quietAborted
  rw [State.mapFrames_runs]

theorem State.stopFree_takeAborts {t : State} (h : t.stopFree) : t.takeAborts.stopFree := by
  intro r hr
  rw [State.takeAborts_runs] at hr
  refine State.stopFree_mapRuns h _ (fun q => ?_) r hr
  split
  · rfl
  · exact Run.takeAbort_stopBeat ..

theorem State.launched_runs : (s.launched ns last).runs = s.gatherLanes.runs := by
  obtain ⟨_, _, _, _, _, _, _, e, -⟩ := s.launchHead_parts ns last
  show (s.launchHead ns last).runs = _
  rw [e]

theorem State.launched_tally : (s.launched ns last).tally = s.launchTally ns last := by
  obtain ⟨_, _, _, _, _, _, _, e, -⟩ := s.launchHead_parts ns last
  show (s.launchHead ns last).tally = _
  rw [e]

theorem State.launched_count : (s.launched ns last).tally.count = s.tally.count + 1 := by
  rw [State.launched_tally]
  exact (s.launchTally_fields ns last).1

/-- With no stop armed, all that follows the head of a launch is aborts, ends and starts. -/
theorem State.carried_launch (h : s.stopFree) : State.Carried (s.launched ns last) (s.launch ns last) := by
  have hfree : (s.launched ns last).stopFree := by
    rw [State.stopFree, State.launched_runs]
    exact State.stopFree_mapRuns h _ fun _ => rfl
  rw [State.launch_eq, State.takeStops_none (State.stopFree_takeAborts (State.stopFree_gateRuns hfree))]
  exact (State.carried_gated _).trans (State.carried_launchEnd ..)

/-- A live program that no cause asks to abort, with a stop at the beat that ends, is stopped by the launch. -/
theorem State.launch_stopped {r : Run} (h : s.NoRegisterWrites) (hr : r ∈ s.runs) (hp : s.adm.forcedPend = []) (hl : r.live = true)
    (ha : r.aborts = []) (hb : r.stopBeat = some (s.tally.count.toNat - r.startBeat)) (hs : r.startBeat ≤ s.tally.count.toNat)
    (hc : (s.tally.count + 1).toNat = s.tally.count.toNat + 1) : (s.launch ns last).Stopped r := by
  obtain ⟨_, _, _, _, _, _, _, e, -, -, -, hforced⟩ := s.launchHead_parts ns last
  have hadm : (s.launched ns last).adm.forcedPend = [] := by
    show (s.launchHead ns last).adm.forcedPend = _
    rw [e]
    exact hforced.trans hp
  obtain ⟨fl, hr'⟩ : ∃ fl, { r with lflags := fl } ∈ s.gatherLanes.runs := ⟨_, List.mem_map_of_mem hr⟩
  have hgo : { r with lflags := fl } ∈ (s.launched ns last).gateRuns.takeAborts.runs := by
    rw [State.gateRuns_none hadm, State.takeAborts_runs, State.launched_runs]
    exact List.mem_map.2 ⟨_, hr', by rw [ha]; rfl⟩
  have hcount : (s.launched ns last).gateRuns.takeAborts.tally.count = s.tally.count + 1 := by
    rw [← Tally.left_count, (State.carried_gated (s.launched ns last)).tally, Tally.left_count, State.launched_count]
  have gated := (State.carried_gated (s.launched ns last)).stopping
  have hid : r.id ∈ (s.launched ns last).gateRuns.takeAborts.stops.map Prod.fst :=
    List.mem_map.2 ⟨_, List.mem_map_of_mem hgo, rfl⟩
  have hstop := State.takeStopList_stopped (r := { r with lflags := fl }) (gated.offRegs (State.launchHead_offRegs h)) hgo hid hl hb
    (by rw [hcount, hc]; simp only; omega)
  rw [State.launch_eq]
  exact (State.carried_launchEnd ..).stopping.stoppedRun hstop

end

end Sys2Proof.Machine
end

section
/-!
SUPPORT. What a launch leaves in the Tally, in admission and in each frame.
-/

namespace Sys2Proof.Machine

open Sys2Proof

/-- What a group's end does not clear. -/
theorem Tally.of_left {t u : Tally} (e : t.left = u.left) :
    t.count = u.count ∧ t.floorNow = u.floorNow ∧ t.lastCause = u.lastCause ∧ t.strClear = u.strClear ∧
      t.strBeats = u.strBeats ∧ t.strNs = u.strNs ∧ t.markBeat = u.markBeat ∧ t.markMissed = u.markMissed ∧
      t.markTs = u.markTs ∧ t.markDone = u.markDone ∧ t.markArmed = u.markArmed :=
  ⟨(congrArg Tally.count e :), (congrArg Tally.floorNow e :), (congrArg Tally.lastCause e :), (congrArg Tally.strClear e :),
    (congrArg Tally.strBeats e :), (congrArg Tally.strNs e :), (congrArg Tally.markBeat e :), (congrArg Tally.markMissed e :),
    (congrArg Tally.markTs e :), (congrArg Tally.markDone e :), (congrArg Tally.markArmed e :)⟩

section
variable {s : State} {ns : Nat} {last : BitVec 8}

theorem execBeatLaunch_ready (h : s.canLaunch ns = true) : execBeatLaunch ns last s = .next (s.launch ns last) :=
  guardStep_of_true h

theorem execBeatLaunch_unready (h : s.canLaunch ns = false) : execBeatLaunch ns last s = .next s := by
  rw [execBeatLaunch, h, guardStep_false]

/-- After a launch the Tally is what its head makes of it, but for a group that is left. -/
theorem State.launch_tally (h : s.NoRegisterWrites) : (s.launch ns last).tally.left = (s.launchTally ns last).left := by
  rw [(State.stopping_launch h).tally, State.launched_tally]

/-- The count, the floor, the cause and the stretch counts after a launch (R51, R53, R55, R56). -/
theorem State.launch_counts (h : s.NoRegisterWrites) :
    (s.launch ns last).tally.count = s.tally.count + 1 ∧ (s.launch ns last).tally.floorNow = s.tally.beatFloor ∧
      (s.launch ns last).tally.lastCause = BitVec.ofNat 3 (s.chargeTo last) ∧ (s.launch ns last).tally.strClear = false ∧
      ∀ k : Fin 8,
        (s.launch ns last).tally.strBeats[k] =
          (if s.tally.strClear then 0 else s.tally.strBeats[k]) + (if k.val = s.chargeTo last then 1 else 0) ∧
        (s.launch ns last).tally.strNs[k] = (if s.tally.strClear then 0 else s.tally.strNs[k]) +
          (if k.val = s.chargeTo last then BitVec.ofNat 64 (ns - s.tally.floorNow.toNat) else 0) := by
  obtain ⟨hc, hf, hl, hs, hb, hn⟩ := s.launchTally_fields ns last
  obtain ⟨ec, ef, el, es, eb, en, -⟩ := Tally.of_left (State.launch_tally (ns := ns) (last := last) h)
  rw [ec, ef, el, es, eb, en]
  refine ⟨hc, hf, hl, hs, fun k => ⟨?_, ?_⟩⟩
  · rw [hb, bump_get, cleared_get]
    rfl
  · rw [hn, bump_get, cleared_get]

/-- The grant in force, the budget in force, and what engines see (R298, R453, R458). -/
theorem State.launch_grant (h : s.NoRegisterWrites) :
    (s.launch ns last).adm.cur = s.adm.grant.getD {} ∧ (s.launch ns last).adm.grant = none ∧
      (s.launch ns last).adm.budgetNow = s.adm.budget ∧ (s.launch ns last).vis = memSlice s.mem spadBase (64 * 0x1000000) := by
  obtain ⟨a, _, _, _, _, _, _, e, hcur, hgrant, hbudget, -⟩ := s.launchHead_parts ns last
  have hadm : (s.launched ns last).adm = a := by
    show (s.launchHead ns last).adm = a
    rw [e]
  have hvis : (s.launched ns last).vis = memSlice s.mem spadBase (64 * 0x1000000) := by
    show (s.launchHead ns last).vis = _
    rw [e]
  rw [(State.stopping_launch h).adm, (State.stopping_launch h).vis, hadm, hvis]
  exact ⟨hcur, hgrant, hbudget, rfl⟩

theorem State.launch_pend (h : s.NoRegisterWrites) (f : FrameNo) : ((s.launch ns last).frame f).rn.pend = [] := by
  rw [(State.stopping_launch h).pend, State.launched_frame]
  exact ((s.launchHead ns last).launchFrame_keeps s.closing f).2.2.1

/-! ## A frame, with no stop armed -/

theorem State.launchHead_frame (f : FrameNo) : (s.launchHead ns last).frame f = s.frame f := by
  obtain ⟨_, _, _, _, _, _, _, e, -⟩ := s.launchHead_parts ns last
  rw [e, State.frame, State.frame]

theorem State.launchHead_xfers : (s.launchHead ns last).xfers = s.xfers := by
  obtain ⟨_, _, _, _, _, _, _, e, -⟩ := s.launchHead_parts ns last
  rw [e]

theorem State.launchHead_count : (s.launchHead ns last).tally.count = s.tally.count + 1 := by
  obtain ⟨_, _, _, _, _, _, _, e, -⟩ := s.launchHead_parts ns last
  rw [e]
  exact (s.launchTally_fields ns last).1

/-- The frame that the launch of a state with no stop armed begins with, seen from that state. -/
theorem State.launch_frame (h : s.stopFree) (f : FrameNo) :
    Frame.Carried ((s.launchHead ns last).launchFrame s.closing f) ((s.launch ns last).frame f) := by
  have hc := (State.carried_launch (ns := ns) (last := last) h).frame f
  rwa [State.launched_frame] at hc

variable {f : FrameNo} {ps qs : List Pend}

theorem State.launch_scalar {i : Fin 32} {v : Scalar} (h : s.stopFree) (hi : i ≠ 0)
    (hp : (s.frame f).rn.pend = ps ++ .scalar i.val v :: qs) (hq : ∀ u, Pend.scalar i.val u ∉ qs)
    (hx : ∀ x ∈ s.xfers, x.frame = f.val → x.result = none) : ((s.launch ns last).frame f).scalars[i] = v := by
  obtain ⟨hs, -⟩ := (s.launchHead ns last).launchFrame_keeps s.closing f
  rw [(State.launch_frame h f).scalars, hs, State.visibleFrame, State.launchHead_xfers, State.launchHead_frame,
    Frame.takeResults_none _ _ hx]
  exact Frame.applied_scalar hi hp hq

theorem State.launch_flag {i : Fin 256} {v : Word} (h : s.stopFree) (hw : (s.frame f).rn.wait = none)
    (hp : (s.frame f).rn.pend = ps ++ .flag i.val v :: qs) (hq : ∀ u, Pend.flag i.val u ∉ qs) :
    ((s.launch ns last).frame f).flags[i] = v := by
  rw [(State.launch_frame h f).flags, State.launchFrame_flags (by rwa [State.launchHead_frame]), State.launchHead_frame]
  exact Frame.applied_flag hp hq

theorem State.launch_desc {i : Nat} {d : Desc} (h : s.stopFree) (ho : (s.frame f).rn.ops = []) (hi : i < (s.frame f).rn.dtab.length)
    (hp : (s.frame f).rn.pend = ps ++ .desc i d :: qs)
    (hq : ∀ p ∈ qs, (∀ e, p ≠ .desc i e) ∧ (∀ m, p ≠ .descPoison i m) ∧ p ≠ .descClean i) :
    ((s.launch ns last).frame f).rn.dtab[i]? = some d := by
  obtain ⟨-, hd, -, hops⟩ := (s.launchHead ns last).launchFrame_keeps s.closing f
  rw [State.launchHead_frame] at hd hops
  rw [(State.launch_frame h f).dtab (hops.trans ho), hd]
  exact Frame.applied_desc hi hp hq

theorem State.launch_result {x : Xfer} {v : Scalar} {i : Fin 32} (h : s.stopFree) (hi : i ≠ 0) (hx : x ∈ s.xfers)
    (hf : x.frame = f.val) (hr : x.run = (s.frame f).rn.run) (hxd : x.xd = i.val) (hv : x.result = some v)
    (hd : x.due = some (s.tally.count + 1).toNat) (ho : ∀ y ∈ s.xfers, y ≠ x → y.frame = f.val → y.result = none) :
    ((s.launch ns last).frame f).scalars[i] = v := by
  obtain ⟨hs, -⟩ := (s.launchHead ns last).launchFrame_keeps s.closing f
  obtain ⟨-, -, hrun⟩ := (s.frame f).applied_keeps
  rw [(State.launch_frame h f).scalars, hs, State.visibleFrame, State.launchHead_xfers, State.launchHead_frame,
    State.launchHead_count]
  exact Frame.takeResults_due _ hi hx hf (hr.trans hrun.symm) hxd hv hd ho

variable {w : Wait} {i : Fin 256} {r : Run}

theorem State.liveAt_of_runOf (hr : s.runOf f = some r) (hl : r.live = true) : s.liveAt f = true := by
  rw [State.liveAt, hr]
  exact hl

theorem State.launch_waitMet (h : s.stopFree) (hl : s.liveAt f = true) (hw : (s.frame f).rn.wait = some w)
    (hi : w.flag = i.val) (hn : ∀ u, Pend.flag i.val u ∉ (s.frame f).rn.pend) (ht : w.target ≤ (s.frame f).flags[i].toNat) :
    ((s.launch ns last).frame f).rn.wait = none ∧ ((s.launch ns last).frame f).seq.state = .running ∧
      ((s.launch ns last).frame f).flags[i] =
        if w.dec then (s.frame f).flags[i] - BitVec.ofNat 32 w.target else (s.frame f).flags[i] := by
  have hc := State.launch_frame (ns := ns) (last := last) h f
  have key := State.launchFrame_met (s := s.launchHead ns last) (window := s.closing) (f := f) (w := w) (i := i)
    (by rwa [State.launchHead_liveAt]) (by rwa [State.launchHead_frame]) hi (by rwa [State.launchHead_frame])
    (by rwa [State.launchHead_frame])
  rw [State.launchHead_frame] at key
  obtain ⟨kw, ks, kf⟩ := key
  refine ⟨?_, hc.state.trans ks, by rw [hc.flags, kf]⟩
  obtain e | ⟨e, -⟩ := hc.wait
  · exact e.trans kw
  · exact e

theorem State.launch_waitUnmet (h : s.stopFree) (hl : s.liveAt f = true) (hw : (s.frame f).rn.wait = some w)
    (hi : w.flag = i.val) (hn : ∀ u, Pend.flag i.val u ∉ (s.frame f).rn.pend) (ht : (s.frame f).flags[i].toNat < w.target) :
    ((s.launch ns last).frame f).flags[i] = (s.frame f).flags[i] ∧
      ∀ u, ((s.launch ns last).frame f).rn.wait = some u → { u with expired := w.expired } = w ∧
        (u.expired = true → w.expired = true ∨ w.issue + w.timeout ≤ (s.tally.count + 1).toNat) := by
  have hc := State.launch_frame (ns := ns) (last := last) h f
  obtain ⟨kf, kw⟩ := State.launchFrame_unmet (s := s.launchHead ns last) (window := s.closing) (f := f) (w := w) (i := i)
    (by rwa [State.launchHead_liveAt]) (by rwa [State.launchHead_frame]) hi (by rwa [State.launchHead_frame])
    (by rwa [State.launchHead_frame])
  rw [State.launchHead_frame] at kf
  rw [State.launchHead_count] at kw
  refine ⟨by rw [hc.flags, kf], fun u hu => ?_⟩
  obtain e | ⟨e, -⟩ := hc.wait
  · rw [e] at hu
    obtain k | ⟨k, ht⟩ := kw
    · obtain rfl := Option.some.inj (k.symm.trans hu)
      exact ⟨rfl, .inl⟩
    · obtain rfl := Option.some.inj (k.symm.trans hu)
      exact ⟨rfl, fun _ => .inr ht⟩
  · rw [e] at hu
    cases hu

/-! ## Marks (R67) -/

theorem State.launch_mark (h : s.NoRegisterWrites) :
    (s.launch ns last).tally.markBeat = s.tally.markBeat ∧ (s.launch ns last).tally.markMissed = s.tally.markMissed ∧
      (s.launch ns last).tally.markTs = (if s.tally.marks then s.tally.tb else s.tally.markTs) ∧
      (s.launch ns last).tally.markDone = (s.tally.markDone || s.tally.marks) ∧
      (s.launch ns last).tally.markArmed = (s.tally.markArmed && !s.tally.marks) := by
  obtain ⟨-, -, -, -, -, -, eb, em, et, ed, ea⟩ := Tally.of_left (State.launch_tally (ns := ns) (last := last) h)
  rw [eb, em, et, ed, ea]
  exact s.launchTally_mark ns last

end

/-- Settles O3: the launch is cut at its head, its stops and its end; what a write that a stop lets arrive, an abort, an end
and a start leave of a frame is said once, and each effect is read off the frame that the head makes. -/
theorem launchBeginsTheNextBeat : Obligations.LaunchBeginsTheNextBeat := by
  unfold Obligations.LaunchBeginsTheNextBeat
  intro s ns last
  refine ⟨fun hgo hn => ⟨_, execBeatLaunch_ready hgo, ?_⟩, execBeatLaunch_unready⟩
  obtain ⟨hcount, hfloor, hcause, -, hstr⟩ := State.launch_counts (ns := ns) (last := last) hn
  obtain ⟨hcur, hgrant, hbudget, hvis⟩ := State.launch_grant (ns := ns) (last := last) hn
  refine ⟨hcount, hfloor, hcause, hstr, hcur, hgrant, hbudget, hvis, State.launch_pend hn, fun hfree f => ⟨?_, ?_, ?_, ?_, ?_⟩, ?_⟩
  · exact fun ps qs i v hi hp hq hx => State.launch_scalar hfree hi hp hq hx
  · exact fun ps qs i v hw hp hq => State.launch_flag hfree hw hp hq
  · exact fun ps qs i d ho hi hp hq => State.launch_desc hfree ho hi hp hq
  · exact fun x v i hi hx hf hr hxd hv hd ho => State.launch_result hfree hi hx hf hr hxd hv hd ho
  · exact fun r w i hr hl hw hi hp =>
      ⟨State.launch_waitMet hfree (State.liveAt_of_runOf hr hl) hw hi hp,
        State.launch_waitUnmet hfree (State.liveAt_of_runOf hr hl) hw hi hp⟩
  · exact fun r hr hp hl ha hb hs hc => State.launch_stopped hn hr hp hl ha hb hs hc

end Sys2Proof.Machine
end

section
/-!
SUPPORT. The Tally's controls: the mark, RUN, the stretch clear, loads of the timebase and SYNC_OUT.
-/

namespace Sys2Proof.Machine

open Sys2Proof

section
variable {s : State}

/-- The beat that the high word of TALLY_MARK_BEAT completes. -/
def Tally.markAt (t : Tally) (high : Word) : BitVec 64 := BitVec.ofNat 64 (high.toNat * 2 ^ 32 + t.markBeat.toNat % 2 ^ 32)

theorem Tally.markAt_toNat (t : Tally) (high : Word) :
    (t.markAt high).toNat = high.toNat * 2 ^ 32 + t.markBeat.toNat % 2 ^ 32 := by
  have h := high.isLt
  rw [Tally.markAt, BitVec.toNat_ofNat]
  exact Nat.mod_eq_of_lt (by omega)

/-- The Tally after the high word is written. -/
def Tally.armMark (t : Tally) (b : BitVec 64) : Tally :=
  if b.toNat ≤ t.count.toNat then { t with markBeat := b, markMissed := true, markArmed := false }
  else { t with markBeat := b, markArmed := true }

theorem Tally.armMark_spec (t : Tally) (b : BitVec 64) : (t.armMark b).markBeat = b ∧
    (t.count.toNat < b.toNat → (t.armMark b).markArmed = true ∧ (t.armMark b).markMissed = t.markMissed) ∧
    (b.toNat ≤ t.count.toNat → (t.armMark b).markArmed = false ∧ (t.armMark b).markMissed = true) ∧
    (t.armMark b).markTs = t.markTs ∧ (t.armMark b).markDone = t.markDone := by
  unfold Tally.armMark
  split
  · exact ⟨rfl, fun h => absurd h (by omega), fun _ => ⟨rfl, rfl⟩, rfl, rfl⟩
  · exact ⟨rfl, fun _ => ⟨rfl, rfl⟩, fun h => absurd h (by omega), rfl, rfl⟩

theorem completes_markArm (high : Word) (h : s.hostOk = true) : Completes (.markArm high) s fun t =>
    t.tally.markBeat.toNat = high.toNat * 2 ^ 32 + s.tally.markBeat.toNat % 2 ^ 32 ∧
    (s.tally.count.toNat < t.tally.markBeat.toNat → t.tally.markArmed = true ∧ t.tally.markMissed = s.tally.markMissed) ∧
    (t.tally.markBeat.toNat ≤ s.tally.count.toNat → t.tally.markArmed = false ∧ t.tally.markMissed = true) ∧
    t.tally.markTs = s.tally.markTs ∧ t.tally.markDone = s.tally.markDone ∧ OnlyTally s t := by
  obtain ⟨hb, harmed, hmissed, hts, hdone⟩ := s.tally.armMark_spec (s.tally.markAt high)
  refine ⟨{ s with tally := s.tally.armMark (s.tally.markAt high) }, show execMarkArm high s = _ from if_neg (by simp [h]),
    ?_, ?_, ?_, hts, hdone, rfl⟩
  · dsimp only
    rw [hb, Tally.markAt_toNat]
  · dsimp only
    rw [hb]
    exact harmed
  · dsimp only
    rw [hb]
    exact hmissed

theorem completes_tallyRun (run : Bool) (h : s.hostOk = true) : Completes (.tallyRun run) s fun t =>
    t.tally = { s.tally with run := run, heldInBeat := s.tally.heldInBeat || !run } ∧ OnlyTally s t :=
  ⟨_, show execTallyRun run s = _ from if_neg (by simp [h]), rfl, rfl⟩

theorem completes_strClear (h : s.hostOk = true) : Completes .strClear s fun t =>
    t.tally = { s.tally with strClear := true } ∧ OnlyTally s t :=
  ⟨_, show execStrClear s = _ from if_neg (by simp [h]), rfl, rfl⟩

theorem completes_loadNow (h : s.hostOk = true) : Completes .loadNow s fun t =>
    t.tally.tb = s.tally.tbSet ∧ t.tally.count = s.tally.count ∧ t.tally.capture = s.tally.capture ∧
    t.tally.loadArm = s.tally.loadArm ∧ { t with tally := s.tally, freeCtr := s.freeCtr } = s := by
  refine ⟨_, show execLoadNow s = _ from if_neg (by simp [h]), ?_⟩
  obtain ⟨c, r, e⟩ := s.setTb_parts s.tally.loadTb
  rw [e]
  exact ⟨rfl, rfl, rfl, rfl, rfl⟩

theorem completes_loadArm (h : s.hostOk = true) : Completes .loadArm s fun t =>
    t.tally = { s.tally with loadArm := true } ∧ OnlyTally s t :=
  ⟨_, show execLoadArm s = _ from if_neg (by simp [h]), rfl, rfl⟩

theorem completes_syncOutPeriodic (hm : s.tally.syncOutMode = 2) (hp : s.tally.period ≠ 0)
    (hc : s.tally.lastPulse.toNat / (s.tally.period.toNat * 1000) < s.tally.tb.toNat / (s.tally.period.toNat * 1000)) :
    Completes .syncOutPeriodic s fun t =>
      t.outbox = s.outbox ++ [.syncOut] ∧ t.tally = { s.tally with lastPulse := s.tally.tb } ∧
      { t with tally := s.tally, outbox := s.outbox } = s := by
  have h0 : s.tally.period.toNat * 1000 ≠ 0 := by
    have : s.tally.period.toNat ≠ 0 := fun e => hp (BitVec.eq_of_toNat_eq e)
    omega
  exact ⟨_, show execSyncOutPeriodic s = _ from guardStep_of_true (by simp [hm, h0, hc]), rfl, rfl, rfl⟩

/-! ## The mark and the stretch counts at a launch -/

variable {ns : Nat} {last : BitVec 8}

theorem Tally.marks_of_reached {t : Tally} (ha : t.markArmed = true) (hb : t.markBeat = t.count + 1) : t.marks = true := by
  simp [Tally.marks, ha, hb]

theorem Tally.marks_of_other {t : Tally} (h : t.markArmed = false ∨ t.markBeat ≠ t.count + 1) : t.marks = false := by
  obtain h | h := h
  · rw [Tally.marks, h, Bool.false_and]
  · rw [Tally.marks, beq_false_of_ne h, Bool.and_false]

theorem completes_beatLaunch_mark (hgo : s.canLaunch ns = true) (hn : s.NoRegisterWrites) :
    Completes (.beatLaunch ns last) s fun t =>
      t.tally.markBeat = s.tally.markBeat ∧ t.tally.markMissed = s.tally.markMissed ∧
      (s.tally.markArmed = true → s.tally.markBeat = s.tally.count + 1 →
        t.tally.markTs = s.tally.tb ∧ t.tally.markDone = true ∧ t.tally.markArmed = false) ∧
      (s.tally.markArmed = false ∨ s.tally.markBeat ≠ s.tally.count + 1 →
        t.tally.markTs = s.tally.markTs ∧ t.tally.markDone = s.tally.markDone ∧ t.tally.markArmed = s.tally.markArmed) := by
  obtain ⟨hb, hm, ht, hd, ha⟩ := State.launch_mark (ns := ns) (last := last) hn
  refine ⟨_, execBeatLaunch_ready hgo, hb, hm, fun harm hreach => ?_, fun hother => ?_⟩
  · rw [ht, hd, ha, Tally.marks_of_reached harm hreach]
    simp
  · rw [ht, hd, ha, Tally.marks_of_other hother]
    simp

theorem completes_beatLaunch_clear (hgo : s.canLaunch ns = true) (hn : s.NoRegisterWrites) (hc : s.tally.strClear = true) :
    Completes (.beatLaunch ns last) s fun t => t.tally.strClear = false ∧
      ∀ k : Fin 8, k.val ≠ s.chargeTo last → t.tally.strBeats[k] = 0 ∧ t.tally.strNs[k] = 0 := by
  obtain ⟨-, -, -, hs, hstr⟩ := State.launch_counts (ns := ns) (last := last) hn
  refine ⟨_, execBeatLaunch_ready hgo, hs, fun k hk => ?_⟩
  obtain ⟨hb, hnano⟩ := hstr k
  rw [hb, hnano, hc, if_neg hk, if_neg hk]
  exact ⟨rfl, rfl⟩

end

/-- Settles O6: each control writes the Tally; the mark and the stretch counts are read off the Tally that a launch makes. -/
theorem tallyControlsComplete : Obligations.TallyControlsComplete := by
  unfold Obligations.TallyControlsComplete
  exact ⟨fun _ => completes_markArm, fun _ _ _ => completes_beatLaunch_mark, fun _ => completes_tallyRun,
    fun _ => completes_strClear, fun _ _ _ => completes_beatLaunch_clear, fun _ => completes_loadNow, fun _ => completes_loadArm,
    fun _ => completes_syncOutPeriodic⟩

end Sys2Proof.Machine
end

section
/-!
SUPPORT. The start of a program: what reading its tables leaves, what is zeroed, and what a frame of it starts with (R219,
R247, R294).
-/

namespace Sys2Proof.Machine

open Sys2Proof

theorem mem_framesOf {m : BitVec 64} {f : FrameNo} : f ∈ framesOf m ↔ hasFrame m f = true := by
  simp [framesOf, hasFrame]

/-! ## Reads of lines with no wipe in progress -/

theorem State.foundSector_wipes (s : State) (x : Nat × SectorErr) : (s.foundSector x).memc.wipes = s.memc.wipes := by
  unfold State.foundSector
  dsimp only
  split
  · rfl
  · unfold State.eccUe
    dsimp only
    obtain ⟨_, _, _, _, e⟩ := State.logNotice_parts ((s.mark (x.1 * 64 / 2048) {}).updMem (s.portAt (x.1 * 64)) fun p =>
      { p with ue := satInc p.ue, eccLine := BitVec.ofNat 37 (x.1 * 64 / 2048) }) Codes.eccUncorrectable .memory
      { index := (s.portAt (x.1 * 64)).val, detail := x.1 * 64 }
    rw [e]
    rfl

/-- A state after reads of device memory: bytes and frames are as before, and the wipes in progress. -/
def State.OnlyRead (s t : State) : Prop := t.mem = s.mem ∧ t.vis = s.vis ∧ t.frames = s.frames ∧ t.memc.wipes = s.memc.wipes

theorem State.OnlyRead.refl (s : State) : State.OnlyRead s s := ⟨rfl, rfl, rfl, rfl⟩

theorem State.OnlyRead.trans {s t u : State} (h : State.OnlyRead s t) (k : State.OnlyRead t u) : State.OnlyRead s u := by
  obtain ⟨hm, hv, hf, hw⟩ := h
  obtain ⟨km, kv, kf, kw⟩ := k
  exact ⟨km.trans hm, kv.trans hv, kf.trans hf, kw.trans hw⟩

theorem State.onlyRead_foundSector (s : State) (x : Nat × SectorErr) : State.OnlyRead s (s.foundSector x) := by
  obtain ⟨_, _, _, _, _, _, _, e⟩ := s.checkOnly_foundSector x
  refine ⟨?_, ?_, ?_, s.foundSector_wipes x⟩ <;> rw [e]

theorem State.onlyRead_lineRead {s : State} (c : Fin 4) (a n : Nat) (h : s.memc.wipes = []) : State.OnlyRead s (s.lineRead c a n) := by
  have reach : s.reachLines (linesOf a n) false = s := if_pos (by rw [h]; rfl)
  unfold State.lineRead
  rw [reach]
  exact .trans (State.foldl_induct (State.OnlyRead s) _ _ (fun t x k => k.trans (t.onlyRead_foundSector x)) s (.refl s))
    ⟨rfl, rfl, rfl, rfl⟩

theorem State.onlyRead_readSpans {s : State} (c : Fin 4) (l : List (Nat × Nat)) (h : s.memc.wipes = []) :
    State.OnlyRead s (s.readSpans c l) := by
  refine State.foldl_induct (State.OnlyRead s) _ _ (fun t x k => ?_) s (.refl s)
  split
  · exact k
  · exact k.trans (State.onlyRead_lineRead c _ _ (k.2.2.2.trans h))

theorem State.readSpans_frames (s : State) (c : Fin 4) (l : List (Nat × Nat)) : (s.readSpans c l).frames = s.frames := by
  refine State.foldl_induct (fun t => t.frames = s.frames) _ _ (fun t x k => ?_) s rfl
  split
  · exact k
  · rw [State.lineRead_frames, k]

/-! ## Bytes that are zeroed -/

/-- From `s` to `t` the bytes of `new` are zeroed, at their homes and as engines see them, and no other byte changes. -/
def State.Zeroed (new : Nat → Prop) (s t : State) : Prop :=
  ∀ a, (new a → memRead t.mem a = 0 ∧ memRead t.vis a = 0) ∧
    (¬ new a → memRead t.mem a = memRead s.mem a ∧ memRead t.vis a = memRead s.vis a)

theorem State.Zeroed.of_mem {s t u : State} {new : Nat → Prop} (h : State.Zeroed new s t) (hm : u.mem = t.mem) (hv : u.vis = t.vis) :
    State.Zeroed new s u := by
  unfold State.Zeroed at h ⊢
  rw [hm, hv]
  exact h

theorem State.zeroed_none (s : State) : State.Zeroed (fun _ => False) s s := fun _ => ⟨False.elim, fun _ => ⟨rfl, rfl⟩⟩

theorem State.Zeroed.trans {s t u : State} {p q r : Nat → Prop} (h : State.Zeroed p s t) (k : State.Zeroed q t u)
    (e : ∀ a, r a ↔ p a ∨ q a) : State.Zeroed r s u := by
  intro a
  obtain ⟨hz, hk⟩ := h a
  obtain ⟨kz, kk⟩ := k a
  by_cases hq : q a
  · exact ⟨fun _ => kz hq, fun n => absurd ((e a).2 (.inr hq)) n⟩
  · obtain ⟨km, kv⟩ := kk hq
    rw [km, kv]
    exact ⟨fun hr => hz (((e a).1 hr).resolve_right hq), fun hr => hk fun hp => hr ((e a).2 (.inl hp))⟩

theorem State.zeroed_wipeBytes (s : State) (b n : Nat) : State.Zeroed (fun a => b ≤ a ∧ a < b + n) s (s.wipeBytes b n) := by
  refine fun a => ⟨fun ⟨hlo, hhi⟩ => ⟨memRead_memZero_inside _ hlo hhi, memRead_memZero_inside _ hlo hhi⟩, fun h => ?_⟩
  have hout : a < b ∨ b + n ≤ a := by omega
  exact ⟨memRead_memZero_outside _ hout, memRead_memZero_outside _ hout⟩

/-- A fold of steps that zero, of which each leaves the frames. -/
theorem State.zeroed_foldl {α : Type} (l : List α) (g : State → α → State) (new : α → Nat → Prop) (s : State)
    (h : ∀ x ∈ l, ∀ t : State, t.frames = s.frames → State.Zeroed (new x) t (g t x) ∧ (g t x).frames = t.frames) :
    State.Zeroed (fun a => ∃ x ∈ l, new x a) s (l.foldl g s) ∧ (l.foldl g s).frames = s.frames := by
  have key (l : List α) (t : State) (ht : t.frames = s.frames)
      (h : ∀ x ∈ l, ∀ t : State, t.frames = s.frames → State.Zeroed (new x) t (g t x) ∧ (g t x).frames = t.frames) :
      State.Zeroed (fun a => ∃ x ∈ l, new x a) t (l.foldl g t) ∧ (l.foldl g t).frames = t.frames := by
    induction l generalizing t with
    | nil => exact ⟨t.zeroed_none.trans t.zeroed_none (by simp), rfl⟩
    | cons x l ih =>
      obtain ⟨hz, hf⟩ := h x (List.mem_cons_self ..) t ht
      obtain ⟨kz, kf⟩ := ih (g t x) (hf.trans ht) fun y hy => h y (List.mem_cons_of_mem _ hy)
      exact ⟨hz.trans kz (by simp), kf.trans hf⟩
  exact key l s rfl h

/-- The bytes of the resident regions that frame `f`'s part creates. -/
def State.createdBy (s : State) (f : FrameNo) (part : FramePart) (a : Nat) : Prop :=
  ∃ e ∈ part.rtab, (s.frame f).creates e = true ∧ spadAddr f e.origin ≤ a ∧ a < spadAddr f e.origin + e.size

theorem State.zeroed_zeroNew (s : State) (f : FrameNo) (part : FramePart) :
    State.Zeroed (s.createdBy f part) s (s.zeroNew f part) ∧ (s.zeroNew f part).frames = s.frames := by
  obtain ⟨hz, hf⟩ := State.zeroed_foldl (part.rtab.filter ((s.frame f).creates ·))
    (fun (s : State) e => s.wipeBytes (spadAddr f e.origin) e.size)
    (fun e a => spadAddr f e.origin ≤ a ∧ a < spadAddr f e.origin + e.size) s fun e _ t _ =>
    ⟨t.zeroed_wipeBytes _ _, State.wipeBytes_frames ..⟩
  refine ⟨hz.trans (State.zeroed_none _) fun a => ?_, hf⟩
  simp only [State.createdBy, List.mem_filter, or_false, and_assoc]

/-! ## The start, in its parts -/

section
variable (s : State) (r : Run) (p : Program)

/-- The program as its start reads it (R247). -/
def State.startProgram : Program := p.reload ((s.readSpans 1 (s.tableSpans p.hdr)).program r.func p.hdr)

/-- The words of beat 0 of these frames fail their checks, and the run is asked to abort (R252). -/
def State.startTested (bad : List FrameNo) : State :=
  if bad.isEmpty then bad.foldl (fun (s : State) f => s.askAbort r.id f.val Codes.issueCheckFail) s
  else (bad.foldl (fun (s : State) f => s.askAbort r.id f.val Codes.issueCheckFail) s).takeAborts

theorem State.dropArms_frame (m : BitVec 64) (k f : FrameNo) : (s.dropArms m k).frame f =
    if hasFrame m f && f != k then { s.frame f with seq := { (s.frame f).seq with stopArm := false } } else s.frame f :=
  State.mapFrames_frame ..

theorem State.dropArms_mem (m : BitVec 64) (k : FrameNo) : (s.dropArms m k).mem = s.mem := State.mapFrames_mem ..

theorem State.dropArms_vis (m : BitVec 64) (k : FrameNo) : (s.dropArms m k).vis = s.vis := State.mapFrames_vis ..

/-- The bytes of the resident regions that the program's parts create. -/
def State.created (q : Program) (a : Nat) : Prop :=
  ∃ f part, ∃ e ∈ part.rtab, hasFrame r.frames f = true ∧ q.part? f = some part ∧
    (s.frame f).creates e = true ∧ spadAddr f e.origin ≤ a ∧ a < spadAddr f e.origin + e.size

/-- A fold over the program's frames that zeroes what each part creates. -/
theorem State.zeroed_created (q : Program) (g : State → FrameNo → State)
    (hg : ∀ t f part, q.part? f = some part → g t f = t.zeroNew f part) (hn : ∀ t f, q.part? f = none → g t f = t) :
    State.Zeroed (s.created r q) s ((framesOf r.frames).foldl g s) ∧ ((framesOf r.frames).foldl g s).frames = s.frames := by
  obtain ⟨hz, hf⟩ := State.zeroed_foldl (framesOf r.frames) g
    (fun f a => ∃ part, q.part? f = some part ∧ s.createdBy f part a) s fun f _ t ht => by
      have hfr : t.frame f = s.frame f := by rw [State.frame, ht, State.frame]
      cases hp : q.part? f with
      | none =>
        rw [hn t f hp]
        exact ⟨t.zeroed_none.trans t.zeroed_none (by simp), rfl⟩
      | some part =>
        rw [hg t f part hp]
        obtain ⟨kz, kf⟩ := t.zeroed_zeroNew f part
        refine ⟨kz.trans (State.zeroed_none _) fun a => ?_, kf⟩
        simp only [Option.some.injEq, exists_eq_left', State.createdBy, hfr, or_false]
  refine ⟨hz.trans (State.zeroed_none _) fun a => ?_, hf⟩
  simp only [State.created, State.createdBy, mem_framesOf, or_false]
  constructor
  · rintro ⟨f, part, e, he, hm, hp, hc⟩
    exact ⟨f, hm, part, hp, e, he, hc⟩
  · rintro ⟨f, hm, part, hp, e, he, hc⟩
    exact ⟨f, part, e, he, hm, hp, hc⟩

/-- The start goes through a state `u`, which differs from `s` in the sequencers' registers of frames at most and, with no wipe in
progress, in no byte, and a state `v` with the new regions zeroed; then the frames begin their parts, and words are tested. -/
theorem State.startRun_parts : ∃ (u v : State) (g : FrameNo → Frame → Frame) (bad : List FrameNo) (count : Nat),
    s.startRun r p = (v.mapFrames g).startTested r bad ∧ (∀ f, ∃ q, u.frame f = { s.frame f with seq := q }) ∧
      (s.memc.wipes = [] → u.mem = s.mem ∧ u.vis = s.vis) ∧ State.Zeroed (u.created r (s.startProgram r p)) u v ∧
      v.frames = u.frames ∧
      (∀ f fr a, hasFrame r.frames f = true → (s.startProgram r p).part? f = some a → g f fr = fr.startPart a r.func count) ∧
      (∀ f fr, hasFrame r.frames f = false → g f fr = fr) := by
  unfold State.startRun
  extract_lets s1 p' count armed stop s2 s3 s4 e s5 s6 s7 bad s8
  have hread (f : FrameNo) : s1.frame f = s.frame f := by
    rw [State.frame, State.readSpans_frames, State.frame]
  have hs2 : s2 = s1 ∨ ∃ k, s2 = s1.dropArms r.frames k := by
    unfold s2
    clear_value armed
    cases armed with
    | none => exact .inl rfl
    | some k => exact .inr ⟨k, rfl⟩
  have hseq (f : FrameNo) : ∃ q, s2.frame f = { s.frame f with seq := q } := by
    obtain h | ⟨k, h⟩ := hs2
    · rw [h, hread]
      exact ⟨_, rfl⟩
    · rw [h, State.dropArms_frame, hread]
      split <;> exact ⟨_, rfl⟩
  have hmem (h : s.memc.wipes = []) : s2.mem = s.mem ∧ s2.vis = s.vis := by
    obtain ⟨hm, hv, -, -⟩ := State.onlyRead_readSpans 1 (s.tableSpans p.hdr) h
    obtain h | ⟨k, h⟩ := hs2
    · rw [h]
      exact ⟨hm, hv⟩
    · rw [h, State.dropArms_mem, State.dropArms_vis]
      exact ⟨hm, hv⟩
  obtain ⟨hz, hf⟩ := s5.zeroed_created r p' (fun (s : State) f => match p'.part? f with | some a => s.zeroNew f a | none => s)
    (fun t f part hp => by simp only [hp]) (fun t f hp => by simp only [hp])
  refine ⟨s5, s6, _, bad, count, rfl, hseq, hmem, hz, hf, fun f fr a hm hp => ?_, fun f fr hm => ?_⟩
  · have hp' : p'.part? f = some a := hp
    simp only [hm, hp']
    rfl
  · simp only [hm]
    rfl

/-- An abort taken changes of a frame what keeps it quiet, and no byte. -/
theorem State.takeAborts_frame (f : FrameNo) : ∃ d i h l w, s.takeAborts.frame f =
    { s.frame f with done := d, rn := { (s.frame f).rn with issued := i, held := h, dtab := l, wait := w } } := by
  have keep (t : State) : t.leaveOnAbort.frame f = t.frame f := by
    unfold State.leaveOnAbort State.settleLeave
    dsimp only
    split
    · split <;> rfl
    · rfl
  have quiet (t : State) : ∃ d i h l w, t.quietAborted.frame f =
      { t.frame f with done := d, rn := { (t.frame f).rn with issued := i, held := h, dtab := l, wait := w } } := by
    unfold State.quietAborted
    rw [State.mapFrames_frame]
    split
    · split <;> exact ⟨_, _, _, _, _, rfl⟩
    · exact ⟨_, _, _, _, _, rfl⟩
  unfold State.takeAborts
  dsimp only
  rw [keep]
  exact quiet _

theorem State.takeAborts_mem : s.takeAborts.mem = s.mem ∧ s.takeAborts.vis = s.vis := by
  have keep (t : State) : t.leaveOnAbort.mem = t.mem ∧ t.leaveOnAbort.vis = t.vis := by
    unfold State.leaveOnAbort State.settleLeave
    dsimp only
    split
    · split <;> exact ⟨rfl, rfl⟩
    · exact ⟨rfl, rfl⟩
  have quiet (t : State) : t.quietAborted.mem = t.mem ∧ t.quietAborted.vis = t.vis :=
    ⟨State.mapFrames_mem .., State.mapFrames_vis ..⟩
  unfold State.takeAborts
  dsimp only
  obtain ⟨km, kv⟩ := keep (State.quietAborted { s with runs := s.runs.map fun (r : Run) =>
    if r.aborts.isEmpty then r else ({ r with aborts := r.aborts ++ s.expiredCauses r }).takeAbort s.tally.count.toNat })
  rw [km, kv]
  exact quiet _

/-- The aborts that the check asks for change the runs alone. -/
theorem State.startAsked_parts (l : List FrameNo) :
    ∃ rs, l.foldl (fun (s : State) f => s.askAbort r.id f.val Codes.issueCheckFail) s = { s with runs := rs } := by
  induction l generalizing s with
  | nil => exact ⟨s.runs, rfl⟩
  | cons f l ih =>
    obtain ⟨rs, e⟩ := ih (s.askAbort r.id f.val Codes.issueCheckFail)
    exact ⟨rs, e.trans rfl⟩

theorem State.startTested_frame (bad : List FrameNo) (f : FrameNo) : ∃ d i h l w, (s.startTested r bad).frame f =
    { s.frame f with done := d, rn := { (s.frame f).rn with issued := i, held := h, dtab := l, wait := w } } := by
  obtain ⟨rs, e⟩ := s.startAsked_parts r bad
  unfold State.startTested
  rw [e]
  split
  · exact ⟨_, _, _, _, _, rfl⟩
  · exact State.takeAborts_frame { s with runs := rs } f

theorem State.startTested_mem (bad : List FrameNo) :
    (s.startTested r bad).mem = s.mem ∧ (s.startTested r bad).vis = s.vis := by
  obtain ⟨rs, e⟩ := s.startAsked_parts r bad
  unfold State.startTested
  rw [e]
  split
  · exact ⟨rfl, rfl⟩
  · exact State.takeAborts_mem { s with runs := rs }

/-! ## What a frame starts with -/

theorem Program.reload_part? {p q : Program} {f : FrameNo} {a : FramePart} (h : p.part? f = some a) :
    ∃ b, (p.reload q).part? f = some b ∧ b.words = a.words := by
  have key (g : FramePart → FramePart) (hg : ∀ a, (g a).frame = a.frame ∧ (g a).words = a.words) (l : List FramePart)
      (h : l.find? (·.frame == f.val) = some a) : ∃ b, (l.map g).find? (·.frame == f.val) = some b ∧ b.words = a.words := by
    refine ⟨g a, ?_, (hg a).2⟩
    rw [List.find?_map]
    have e : ((fun x : FramePart => x.frame == f.val) ∘ g) = fun x => x.frame == f.val := by
      funext x
      simp only [Function.comp, (hg x).1]
    rw [e, h]
    rfl
  exact key _ (fun a => by split <;> exact ⟨rfl, rfl⟩) p.parts h

variable {s r p}

/-- What a frame of the program starts with, the words of its part among it. -/
theorem State.startRun_frame {f : FrameNo} {a : FramePart} (hf : hasFrame r.frames f = true) (hp : p.part? f = some a) :
    ((s.startRun r p).frame f).rn.word = 0 ∧ ((s.startRun r p).frame f).seq.state = .running ∧
      ((s.startRun r p).frame f).scalars = Vector.replicate 32 {} ∧ ((s.startRun r p).frame f).rrc = [] ∧
      ((s.startRun r p).frame f).rn.kcount = 0 ∧ ((s.startRun r p).frame f).rn.words = a.words := by
  obtain ⟨b, hb, hw⟩ := Program.reload_part? (q := (s.readSpans 1 (s.tableSpans p.hdr)).program r.func p.hdr) hp
  obtain ⟨u, v, g, bad, count, e, -, -, -, -, hg, -⟩ := s.startRun_parts r p
  obtain ⟨_, _, _, _, _, et⟩ := (v.mapFrames g).startTested_frame r bad f
  rw [State.mapFrames_frame, hg f _ b hf hb] at et
  rw [e, et]
  exact ⟨rfl, rfl, rfl, rfl, rfl, hw⟩

theorem State.startRun_otherFrame {f : FrameNo} (hf : hasFrame r.frames f = false) :
    ((s.startRun r p).frame f).scalars = (s.frame f).scalars ∧ ((s.startRun r p).frame f).flags = (s.frame f).flags := by
  obtain ⟨u, v, g, bad, count, e, hu, -, -, hv, -, hg⟩ := s.startRun_parts r p
  obtain ⟨q, hq⟩ := hu f
  have hfr : v.frame f = { s.frame f with seq := q } := by rw [State.frame, hv, ← hq, State.frame]
  obtain ⟨_, _, _, _, _, et⟩ := (v.mapFrames g).startTested_frame r bad f
  rw [State.mapFrames_frame, hg f _ hf, hfr] at et
  rw [e, et]
  exact ⟨rfl, rfl⟩

/-- With no wipe in progress the start zeroes the new resident regions, and nothing else. -/
theorem State.zeroed_startRun (h : s.memc.wipes = []) : State.Zeroed (s.created r (s.startProgram r p)) s (s.startRun r p) := by
  obtain ⟨u, v, g, bad, count, e, hu, hm, hz, -, -, -⟩ := s.startRun_parts r p
  obtain ⟨hmem, hvis⟩ := hm h
  have hcreated : ∀ a, u.created r (s.startProgram r p) a ↔ s.created r (s.startProgram r p) a := by
    have hc (f : FrameNo) (e : RegEntry) : (u.frame f).creates e = (s.frame f).creates e := by
      obtain ⟨q, hq⟩ := hu f
      rw [hq]
      rfl
    intro a
    simp only [State.created, hc]
  have hall := (s.zeroed_none.of_mem hmem hvis).trans hz (r := s.created r (s.startProgram r p)) fun a => by
    rw [hcreated, false_or]
  obtain ⟨tm, tv⟩ := (v.mapFrames g).startTested_mem r bad
  rw [e]
  exact hall.of_mem (tm.trans (State.mapFrames_mem ..)) (tv.trans (State.mapFrames_vis ..))

theorem execProgramStart_starting {id : Nat} (hr : s.run? id = some r) (hp : s.program? r.func r.handle = some p)
    (hs : r.starting = true) : execProgramStart id s = .next (s.startRun r p) := by
  unfold execProgramStart
  simp only [hr, hp]
  exact guardStep_of_true hs

end

end Sys2Proof.Machine
end

section
/-!
SUPPORT. The end of a program (R246, R295, R306, R480): what stays of its frames, its transfers and its run, and its completion.
-/

namespace Sys2Proof.Machine

open Sys2Proof

/-! ## The completions that wait -/

@[simp] theorem State.signal_comps (s : State) (f : FuncNo) (v : Nat) : (s.signal f v).hostq.comps = s.hostq.comps := by
  unfold State.signal
  dsimp only
  split <;> rfl

@[simp] theorem State.log_comps (s : State) (c : Code) (x : LogSrc) (a : LogArgs) : (s.log c x a).hostq.comps = s.hostq.comps := by
  have sig (t : State) (n : Nat) : (t.signalLog n).hostq.comps = t.hostq.comps := by
    unfold State.signalLog
    split
    · exact State.signal_comps ..
    · rfl
  obtain ⟨g, hg⟩ := s.noteClass_parts c
  unfold State.log
  dsimp only
  rw [hg]
  split
  · rename_i ring _
    obtain ⟨m, hm⟩ := ({ s with global := g } : State).foldRecord_parts c x.num a.index ring
    rw [hm]
  · split
    · rw [sig]
      rfl
    · rw [sig]
      rfl

/-- A completion is the last of those that wait, but for the note that it waits. -/
theorem State.complete_comps (s : State) (c : Comp) :
    (s.complete c).hostq.comps.length = s.hostq.comps.length + 1 ∧
      ∃ b, (s.complete c).hostq.comps.getLast? = some { c with waited := b } := by
  have counted (t : State) (f : FuncNo) (q : Nat) : (t.countWaits f q).hostq.comps = t.hostq.comps ∨
      ∃ p : Comp → Bool, (t.countWaits f q).hostq.comps = t.hostq.comps.map fun x => if p x then { x with waited := true } else x := by
    unfold State.countWaits
    split
    · split
      · dsimp only
        split <;> exact .inr ⟨_, rfl⟩
      · exact .inl rfl
    · exact .inl rfl
  unfold State.complete
  obtain e | ⟨p, e⟩ := counted { s with hostq := { s.hostq with comps := s.hostq.comps ++ [c] } } (funcNo c.func) c.cqid
  · rw [e]
    exact ⟨by simp, c.waited, by simp⟩
  · rw [e]
    refine ⟨by simp, ?_⟩
    cases h : p c with
    | true => exact ⟨true, by simp [h]⟩
    | false => exact ⟨c.waited, by simp [h]⟩

/-! ## The run's frames and transfers -/

section
variable (s : State)

theorem State.cutOps_parts (f : FrameNo) : ∃ m c p, s.cutOps f = { s with mem := m, freeCtr := c, poison := p } := ⟨_, _, _, rfl⟩

/-- What a cancellation changes besides the transfers. -/
theorem State.cancel_parts (p : Xfer → Bool) : ∃ m c q, ∃ l : List Xfer,
    s.cancel p = { s with mem := m, freeCtr := c, poison := q, xfers := l.filter fun x => !p x } := by
  have upd (l : List Xfer) (t : State) : ∃ xs, l.foldl (fun (s : State) x => s.updXfer x.id fun y => s.unreadKeys y) t =
      { t with xfers := xs } := by
    induction l generalizing t with
    | nil => exact ⟨t.xfers, rfl⟩
    | cons x l ih =>
      obtain ⟨xs, e⟩ := ih (t.updXfer x.id fun y => t.unreadKeys y)
      exact ⟨xs, e.trans rfl⟩
  have poison (l : List Xfer) (t : State) : ∃ m c q, l.foldl (fun (s : State) x => s.poisonXfer x) t =
      { t with mem := m, freeCtr := c, poison := q } := by
    induction l generalizing t with
    | nil => exact ⟨t.mem, t.freeCtr, t.poison, rfl⟩
    | cons x l ih =>
      obtain ⟨m, c, q, e⟩ := ih (t.poisonXfer x)
      exact ⟨m, c, q, e.trans rfl⟩
  unfold State.cancel
  dsimp only
  obtain ⟨xs, e⟩ := upd (s.xfers.filter p) s
  rw [e]
  obtain ⟨m, c, q, k⟩ := poison (({ s with xfers := xs } : State).xfers.filter p) { s with xfers := xs }
  rw [k]
  exact ⟨m, c, q, xs, rfl⟩

/-- What the release of frame `f` leaves alone, and what of the frame it takes. -/
theorem State.releaseFrame_spec (f : FrameNo) :
    (s.releaseFrame f).xfers = s.xfers ∧ (s.releaseFrame f).hostq.comps = s.hostq.comps ∧
      (((s.releaseFrame f).frame f).rn.run = 0 ∧ ((s.releaseFrame f).frame f).rn.ops = []) ∧
      ∀ g, g ≠ f → (s.releaseFrame f).frame g = s.frame g := by
  have wiped (l : List Region) : ∃ m v p q,
      l.foldl (fun (s : State) r => s.wipeBytes (spadAddr f (r.originRow * 2048)) (r.sizeRows * 2048)) s =
        { s with mem := m, vis := v, poison := p, visPoison := q } := by
    refine State.foldl_induct (fun t => ∃ m v p q, t = { s with mem := m, vis := v, poison := p, visPoison := q }) _ _
      (fun t r h => ?_) s ⟨s.mem, s.vis, s.poison, s.visPoison, rfl⟩
    obtain ⟨_, _, _, _, rfl⟩ := h
    exact ⟨_, _, _, _, rfl⟩
  obtain ⟨m, v, p, q, e⟩ := wiped ((s.frame f).regions.filter fun r => r.isSealed && !r.resident)
  unfold State.releaseFrame
  dsimp only
  rw [e, State.updFrame_xfers, State.updFrame_hostq, State.updFrame_same]
  refine ⟨rfl, rfl, ⟨rfl, rfl⟩, fun g hg => ?_⟩
  rw [State.updFrame_other _ _ _ _ hg, State.frame, State.frame]

theorem State.updFrame_rn (f : FrameNo) (u : Frame → Frame) (h : ∀ fr, (u fr).rn = fr.rn) (g : FrameNo) :
    ((s.updFrame f u).frame g).rn = (s.frame g).rn := by
  by_cases e : g = f
  · rw [e, State.updFrame_same, h]
  · rw [State.updFrame_other _ _ _ _ e]

/-- A fence takes transfers away and leaves what runs on a frame. -/
theorem State.fence_spec (f : FrameNo) (c : BitVec 2) (k : Code) :
    (∀ x ∈ (s.fence f c k).xfers, x ∈ s.xfers) ∧ (s.fence f c k).hostq.comps = s.hostq.comps ∧
      ∀ g, ((s.fence f c k).frame g).rn = (s.frame g).rn := by
  unfold State.fence
  dsimp only
  rw [State.log_xfers, State.log_comps]
  refine ⟨fun x hx => ?_, ?_, fun g => ?_⟩
  · exact (State.updFrame_xfers ..) ▸ List.mem_of_mem_filter hx
  · dsimp only
    rw [State.updFrame_hostq]
  · rw [State.frame, State.log_frames]
    exact s.updFrame_rn f (fun fr => { fr with
      seq := { fr.seq with state := .fenced }
      reg := { fr.reg with fenceCause := c }
      active := false, done := false, decl := 0, fencePend := false }) (fun _ => rfl) g

end

/-- What a fold of steps establishes of each element, where every step keeps what holds. -/
theorem State.foldl_each {α : Type} (l : List α) (g : State → α → State) (P : α → State → Prop) (s : State)
    (hg : ∀ t x, P x (g t x)) (hk : ∀ t x y, P x t → P x (g t y)) {x : α} (hx : x ∈ l) : P x (l.foldl g s) := by
  induction l generalizing s with
  | nil => exact absurd hx List.not_mem_nil
  | cons y l ih =>
    by_cases hm : x ∈ l
    · exact ih _ hm
    · obtain rfl : x = y := (List.mem_cons.1 hx).resolve_right hm
      exact State.foldl_induct (P x) l g (fun t y h => hk t x y h) _ (hg s x)

/-! ## The program ends -/

section
variable (s : State) (r : Run)

/-- The frames that still run the program. -/
def State.ownFrames : List FrameNo := (framesOf r.frames).filter fun f => (s.frame f).rn.run == r.id

/-- What an abort leaves of operations and transfers. -/
def State.residued : State :=
  if r.aborted.isSome then ((s.ownFrames r).foldl State.cutOps s).cancelXfers r.id else s

/-- A frame at its check limit is fenced as its program ends (R483). -/
def State.endFence (s : State) (f : FrameNo) : State :=
  if (s.frame f).fencePend && !(s.frame f).gone then s.fence f 2 Codes.transformCheckFail else s

/-- The program's frames are released. -/
def State.runReleased : State :=
  (s.ownFrames r).foldl State.endFence ((s.ownFrames r).foldl State.releaseFrame (s.residued r))

theorem State.residued_parts : ∃ m c p, ∃ l : List Xfer, s.residued r = { s with mem := m, freeCtr := c, poison := p, xfers := l } ∧
    (r.aborted.isSome = true → ∀ x ∈ l, x.run = r.id → x.flying = true) := by
  have cut (l : List FrameNo) (t : State) : ∃ m c p, l.foldl State.cutOps t = { t with mem := m, freeCtr := c, poison := p } := by
    induction l generalizing t with
    | nil => exact ⟨t.mem, t.freeCtr, t.poison, rfl⟩
    | cons f l ih =>
      obtain ⟨m, c, p, e⟩ := ih (t.cutOps f)
      exact ⟨m, c, p, e.trans rfl⟩
  unfold State.residued
  split
  · obtain ⟨m, c, p, e⟩ := cut (s.ownFrames r) s
    obtain ⟨m', c', p', l, k⟩ := ((s.ownFrames r).foldl State.cutOps s).cancel_parts fun x => x.run == r.id && !x.flying
    refine ⟨m', c', p', l.filter fun x => !(x.run == r.id && !x.flying), ?_, fun _ x hx hr => ?_⟩
    · rw [State.cancelXfers, k, e]
    · have hkeep := (List.mem_filter.1 hx).2
      simpa [hr] using hkeep
  · rename_i h
    exact ⟨s.mem, s.freeCtr, s.poison, s.xfers, rfl, fun ha => absurd ha h⟩

theorem State.endFence_spec (f : FrameNo) :
    (∀ x ∈ (s.endFence f).xfers, x ∈ s.xfers) ∧ (s.endFence f).hostq.comps = s.hostq.comps ∧
      ∀ g, ((s.endFence f).frame g).rn = (s.frame g).rn := by
  unfold State.endFence
  split
  · exact s.fence_spec ..
  · exact ⟨fun _ h => h, rfl, fun _ => rfl⟩

/-- The frames released hold no program and run no operation; transfers go only, and completions wait as before. -/
theorem State.runReleased_spec :
    (r.aborted.isSome = true → ∀ x ∈ (s.runReleased r).xfers, x.run = r.id → x.flying = true) ∧
      (s.runReleased r).hostq.comps = s.hostq.comps ∧
      ∀ f ∈ s.ownFrames r, ((s.runReleased r).frame f).rn.run = 0 ∧ ((s.runReleased r).frame f).rn.ops = [] := by
  obtain ⟨m, c, p, l, e, hl⟩ := s.residued_parts r
  have released (t : State) : ((s.ownFrames r).foldl State.releaseFrame t).xfers = t.xfers ∧
      ((s.ownFrames r).foldl State.releaseFrame t).hostq.comps = t.hostq.comps :=
    State.foldl_induct (fun u => u.xfers = t.xfers ∧ u.hostq.comps = t.hostq.comps) _ _
      (fun u f ⟨hx, hc⟩ => ⟨(u.releaseFrame_spec f).1.trans hx, (u.releaseFrame_spec f).2.1.trans hc⟩) t ⟨rfl, rfl⟩
  have fenced (t : State) : (∀ x ∈ ((s.ownFrames r).foldl State.endFence t).xfers, x ∈ t.xfers) ∧
      ((s.ownFrames r).foldl State.endFence t).hostq.comps = t.hostq.comps ∧
      ∀ g, (((s.ownFrames r).foldl State.endFence t).frame g).rn = (t.frame g).rn :=
    State.foldl_induct (fun u => (∀ x ∈ u.xfers, x ∈ t.xfers) ∧ u.hostq.comps = t.hostq.comps ∧ ∀ g, (u.frame g).rn = (t.frame g).rn)
      _ _ (fun u f ⟨hx, hc, hr⟩ => by
        obtain ⟨kx, kc, kr⟩ := u.endFence_spec f
        exact ⟨fun x h => hx x (kx x h), kc.trans hc, fun g => (kr g).trans (hr g)⟩) t ⟨fun _ h => h, rfl, fun _ => rfl⟩
  obtain ⟨fx, fc, fr⟩ := fenced ((s.ownFrames r).foldl State.releaseFrame (s.residued r))
  obtain ⟨rx, rc⟩ := released (s.residued r)
  refine ⟨fun ha x hx => hl ha x ?_, ?_, fun f hf => ?_⟩
  · have hx' := fx x hx
    rwa [rx, e] at hx'
  · exact fc.trans (rc.trans (by rw [e]))
  · have free := State.foldl_each (s.ownFrames r) State.releaseFrame
      (fun f t => (t.frame f).rn.run = 0 ∧ (t.frame f).rn.ops = []) (s.residued r)
      (fun t f => (t.releaseFrame_spec f).2.2.1) (fun t f g h => by
        by_cases hg : f = g
        · rw [hg]
          exact (t.releaseFrame_spec g).2.2.1
        · rw [(t.releaseFrame_spec g).2.2.2 f hg]
          exact h) hf
    unfold State.runReleased
    rw [fr]
    exact free

/-- The run is gone, and its function's counts go up. -/
def State.runClosed : State :=
  ({ s.runReleased r with runs := (s.runReleased r).runs.filter (·.id != r.id) } : State).updHostFn (funcNo r.func) fun h => { h with
    launches := satAdd h.launches (if r.silent then 0 else 1)
    frameBeats := satAdd h.frameBeats ((framesOf r.frames).length * r.beats) }

/-- The completion of the launch, which waits for its transfers. -/
def State.launchComp : Comp :=
  { r.comp ((s.runClosed r).entry r.index).cqid ((s.runClosed r).entry r.index).cookie with
    after := (s.xfers.filter (·.run == r.id)).map (·.id) }

theorem State.finishRun_eq : s.finishRun r =
    if r.silent then ((s.runClosed r).closeRec r.recId).settleLeave
    else (((s.runClosed r).setEntry r.index { (s.runClosed r).entry r.index with state := .done }).complete
      (s.launchComp r)).settleLeave := rfl

theorem State.settleLeave_hostq : s.settleLeave.hostq = s.hostq := by
  rw [State.settleLeave_parts]

/-- After the end: the run is gone, and frames and transfers are as the release left them. -/
theorem State.finishRun_spec :
    (∀ q ∈ (s.finishRun r).runs, q.id ≠ r.id) ∧ (s.finishRun r).xfers = (s.runReleased r).xfers ∧
      (s.finishRun r).frames = (s.runReleased r).frames := by
  have closed : (∀ q ∈ (s.runClosed r).runs, q.id ≠ r.id) ∧ (s.runClosed r).xfers = (s.runReleased r).xfers ∧
      (s.runClosed r).frames = (s.runReleased r).frames :=
    ⟨fun q hq => by simpa using (List.mem_filter.1 hq).2, rfl, rfl⟩
  have settled (t : State) : t.settleLeave.runs = t.runs ∧ t.settleLeave.xfers = t.xfers ∧ t.settleLeave.frames = t.frames := by
    rw [State.settleLeave_parts]
    exact ⟨rfl, rfl, rfl⟩
  rw [State.finishRun_eq]
  split
  · obtain ⟨hr, hx, hf⟩ := settled ((s.runClosed r).closeRec r.recId)
    rw [hr, hx, hf]
    exact closed
  · obtain ⟨hr, hx, hf⟩ := settled (((s.runClosed r).setEntry r.index { (s.runClosed r).entry r.index with state := .done }).complete
      (s.launchComp r))
    rw [hr, hx, hf, State.complete_runs, State.complete_xfers, State.complete_frames]
    exact closed

/-- A launch that is not silent has a completion more, the last. -/
theorem State.finishRun_comps (h : r.silent = false) :
    (s.finishRun r).hostq.comps.length = s.hostq.comps.length + 1 ∧
      ∃ b, (s.finishRun r).hostq.comps.getLast? = some { s.launchComp r with waited := b } := by
  have hc : ((s.runClosed r).setEntry r.index { (s.runClosed r).entry r.index with state := .done }).hostq.comps = s.hostq.comps := by
    obtain ⟨-, e, -⟩ := s.runReleased_spec r
    exact e
  obtain ⟨hl, b, hb⟩ := State.complete_comps ((s.runClosed r).setEntry r.index { (s.runClosed r).entry r.index with state := .done })
    (s.launchComp r)
  rw [hc] at hl
  rw [State.finishRun_eq, if_neg (by rw [h]; decide), State.settleLeave_hostq]
  exact ⟨hl, b, hb⟩

end

end Sys2Proof.Machine
end

section
/-!
SUPPORT. The commands of a program's life: its parts' ends, its abort, its stop and its release (R246, R253, R255, R480).
-/

namespace Sys2Proof.Machine

open Sys2Proof

section
variable {s : State} {r : Run} {f : FrameNo}

/-! ## A part ends -/

/-- Frame `f`'s part has ended. -/
def State.partEnded (s : State) (f : FrameNo) : State :=
  s.updFrame f fun fr => { fr with done := fr.active, rn := { fr.rn with endMark := false, ended := true, issued := true } }

theorem State.partEnded_same (s : State) (f : FrameNo) : (s.partEnded f).frame f =
    { s.frame f with
      done := (s.frame f).active, rn := { (s.frame f).rn with endMark := false, ended := true, issued := true } } :=
  s.updFrame_same f fun fr => { fr with done := fr.active, rn := { fr.rn with endMark := false, ended := true, issued := true } }

theorem State.partEnded_other {g : FrameNo} (h : g ≠ f) : (s.partEnded f).frame g = s.frame g :=
  s.updFrame_other f g (fun fr => { fr with
    done := fr.active, rn := { fr.rn with endMark := false, ended := true, issued := true } }) h

/-- Every part of the run has ended, the one of `f` with it. -/
def State.allEnded (s : State) (f : FrameNo) (r : Run) : Bool :=
  (framesOf r.frames).all fun g => ((s.partEnded f).frame g).rn.ended || ((s.partEnded f).frame g).rn.run != r.id

theorem execFramePartEnd_marked (hr : s.runOf f = some r) (hm : (s.frame f).rn.endMark = true) :
    execFramePartEnd f s = .next (if s.allEnded f r && r.aborted.isNone then
      (s.partEnded f).finishRun { r with endBeat := some s.tally.count.toNat } else (s.partEnded f).settleLeave) := by
  unfold execFramePartEnd
  simp only [hr]
  exact guardStep_of_true hm

theorem State.partEnded_completed (h : ∀ g, g ≠ f → (s.frame g).active = true → (s.frame g).done = true) :
    (s.partEnded f).completed = true := by
  rw [State.completed_iff]
  intro g ha
  by_cases e : g = f
  · rw [e, State.partEnded_same] at ha ⊢
    exact ha
  · rw [State.partEnded_other e] at ha ⊢
    exact h g e ha

/-- A part ends that is not the last. -/
theorem completes_framePartEnd (hr : s.runOf f = some r) (hm : (s.frame f).rn.endMark = true)
    (ho : ∃ g ∈ framesOf r.frames, g ≠ f ∧ (s.frame g).rn.ended = false ∧ (s.frame g).rn.run = r.id) :
    Completes (.framePartEnd f) s fun t =>
      (t.frame f).rn.ended = true ∧ (t.frame f).rn.endMark = false ∧ SameOthers f s t ∧
      { t with frames := s.frames, tally := s.tally } = s ∧ (s.tally.leavePend = false → t.tally = s.tally) ∧
      (s.tally.leavePend = true → (∀ g, g ≠ f → (s.frame g).active = true → (s.frame g).done = true) →
        t.tally.gstate = .none) := by
  obtain ⟨g, hg, hne, he, hrun⟩ := ho
  have hall : s.allEnded f r = false := by
    rw [State.allEnded, List.all_eq_false]
    refine ⟨g, hg, ?_⟩
    rw [State.partEnded_other hne, he, hrun]
    simp
  have frames (k : FrameNo) : (s.partEnded f).settleLeave.frame k = (s.partEnded f).frame k := by
    rw [State.settleLeave_parts, State.frame, State.frame]
  have tally : (s.partEnded f).tally = s.tally := State.updFrame_tally ..
  refine ⟨(s.partEnded f).settleLeave, ?_, ?_, ?_, fun k hk => ?_, ?_, fun hl => ?_, fun hl hd => ?_⟩
  · exact (execFramePartEnd_marked hr hm).trans (by rw [hall]; rfl)
  · rw [frames, State.partEnded_same]
  · rw [frames, State.partEnded_same]
  · rw [frames, State.partEnded_other hk]
  · rw [State.settleLeave_parts]
    rfl
  · rw [State.settleLeave_tally, tally, hl, if_neg (by simp)]
  · rw [State.settleLeave_tally, tally, if_pos ⟨hl, State.partEnded_completed hd⟩]
    rfl

/-- The last part ends, and the program with it. -/
theorem completes_framePartEnd_last (hr : s.runOf f = some r) (hm : (s.frame f).rn.endMark = true)
    (ho : ∀ g ∈ framesOf r.frames, g = f ∨ (s.frame g).rn.ended = true ∨ (s.frame g).rn.run ≠ r.id) (ha : r.aborted = none) :
    Completes (.framePartEnd f) s fun t =>
      (∀ q ∈ t.runs, q.id ≠ r.id) ∧
      (r.silent = false → t.hostq.comps.length = s.hostq.comps.length + 1 ∧ ∃ c, t.hostq.comps.getLast? = some c ∧
        c.func = r.func ∧ c.index = r.index ∧ c.rkind = 4 ∧ (r.fault = none → r.event = none → c.status = Codes.ok)) := by
  have hall : s.allEnded f r = true := by
    rw [State.allEnded, List.all_eq_true]
    intro g hg
    by_cases e : g = f
    · rw [e, State.partEnded_same]
      rfl
    · rw [State.partEnded_other e]
      obtain h | h | h := ho g hg
      · exact absurd h e
      · rw [h]
        rfl
      · simp [h]
  have hexec : execFramePartEnd f s = .next ((s.partEnded f).finishRun { r with endBeat := some s.tally.count.toNat }) := by
    rw [execFramePartEnd_marked hr hm, hall, if_pos (by rw [ha]; rfl)]
  refine ⟨_, hexec, ?_, fun hs => ?_⟩
  · exact (State.finishRun_spec (s.partEnded f) { r with endBeat := some s.tally.count.toNat }).1
  · obtain ⟨hl, b, hb⟩ := (s.partEnded f).finishRun_comps { r with endBeat := some s.tally.count.toNat } hs
    rw [State.partEnded, State.updFrame_hostq, ← State.partEnded] at hl
    refine ⟨hl, _, hb, rfl, rfl, rfl, fun hf hv => ?_⟩
    simp only [State.launchComp, Run.comp, ha, hf, hv]

/-! ## An abort is completed -/

theorem completes_programAbort {id : Nat} (hr : s.run? id = some r) (hres : r.residue = true) :
    Completes (.programAbort id) s fun t =>
      (∀ q ∈ t.runs, q.id ≠ r.id) ∧ ∀ c, r.aborted = some c →
        (∀ x ∈ t.xfers, x.run = r.id → x.flying = true) ∧
        (∀ f, hasFrame r.frames f = true → (s.frame f).rn.run = r.id → (t.frame f).rn.run = 0 ∧ (t.frame f).rn.ops = []) ∧
        (r.silent = false → ∃ x, t.hostq.comps.getLast? = some x ∧ x.func = r.func ∧ x.index = r.index ∧ x.status = c) := by
  have hexec : execProgramAbort id s = .next (s.finishRun r) := by
    unfold execProgramAbort
    simp only [hr]
    exact guardStep_of_true hres
  obtain ⟨hruns, hxfers, hframes⟩ := s.finishRun_spec r
  obtain ⟨hfly, -, hfree⟩ := s.runReleased_spec r
  refine ⟨_, hexec, hruns, fun c hc => ⟨fun x hx => ?_, fun f hf hrun => ?_, fun hs => ?_⟩⟩
  · rw [hxfers] at hx
    exact hfly (by rw [hc]; rfl) x hx
  · rw [State.frame, hframes]
    exact hfree f (List.mem_filter.2 ⟨mem_framesOf.2 hf, by simpa using hrun⟩)
  · obtain ⟨-, b, hb⟩ := s.finishRun_comps r hs
    refine ⟨_, hb, rfl, rfl, ?_⟩
    simp only [State.launchComp, Run.comp, hc]

/-! ## A stop is armed, and released -/

/-- A stop at beat `b` is armed on frame `f`. -/
def State.stopArmed (s : State) (f : FrameNo) (b : BitVec 48) : State :=
  s.updFrame f fun fr => { fr with seq := { fr.seq with stopBeat := b, stopArm := true, stopOrd := s.lastArm + 1 } }

/-- Its run has that stop and no other. -/
def State.stopNoted (s : State) (f : FrameNo) (b : BitVec 48) : Option Run → State
  | some r => ((s.stopArmed f b).dropArms r.frames f).updRun r.id fun r => { r with stopBeat := some b.toNat }
  | none => s.stopArmed f b

theorem State.frmWrite_powered (h : s.powered f = true) (t : State) : s.frmWrite f t = .next t :=
  congrArg Host.Outcome.next (if_pos h)

theorem execBeatStopArm_ahead {b : BitVec 48} (h : s.hostOk = true) (hp : s.powered f = true)
    (hb : ∀ r, s.runOf f = some r → r.started = true → r.endBeat = none → s.progBeat r ≤ b.toNat) :
    execBeatStopArm f b s = .next (s.stopNoted f b (s.runOf f)) := by
  unfold execBeatStopArm
  rw [if_neg (by simp [h])]
  dsimp only
  rw [State.frmWrite_powered hp]
  cases hr : s.runOf f with
  | none => rfl
  | some r =>
    have hpass : (r.started && r.endBeat.isNone && decide (b.toNat < s.progBeat r)) = false := by
      cases hs : r.started with
      | false => rfl
      | true =>
        cases he : r.endBeat with
        | some _ => rfl
        | none => simpa using hb r hr hs he
    simp only [hpass]
    rfl

theorem State.stopArmed_same (s : State) (f : FrameNo) (b : BitVec 48) : (s.stopArmed f b).frame f =
    { s.frame f with seq := { (s.frame f).seq with stopBeat := b, stopArm := true, stopOrd := s.lastArm + 1 } } :=
  s.updFrame_same f fun fr => { fr with seq := { fr.seq with stopBeat := b, stopArm := true, stopOrd := s.lastArm + 1 } }

theorem State.stopArmed_other {g : FrameNo} (b : BitVec 48) (h : g ≠ f) : (s.stopArmed f b).frame g = s.frame g :=
  s.updFrame_other f g (fun fr => { fr with seq := { fr.seq with stopBeat := b, stopArm := true, stopOrd := s.lastArm + 1 } }) h

theorem State.stopNoted_frame (s : State) (f : FrameNo) (b : BitVec 48) (o : Option Run) (g : FrameNo) :
    (s.stopNoted f b o).frame g = match o with
      | some r => ((s.stopArmed f b).dropArms r.frames f).frame g
      | none => (s.stopArmed f b).frame g := by
  cases o with
  | none => rfl
  | some r =>
    dsimp only
    rw [State.stopNoted, State.frame, State.updRun_frames, State.frame]

/-- The frame armed. -/
theorem State.stopNoted_same (s : State) (f : FrameNo) (b : BitVec 48) (o : Option Run) :
    (s.stopNoted f b o).frame f = (s.stopArmed f b).frame f := by
  rw [State.stopNoted_frame]
  cases o with
  | none => rfl
  | some r =>
    dsimp only
    rw [State.dropArms_frame, if_neg (by simp)]

/-- Of another frame the sequencer's registers alone change. -/
theorem State.stopNoted_other {g : FrameNo} (b : BitVec 48) (o : Option Run) (h : g ≠ f) :
    { (s.stopNoted f b o).frame g with seq := (s.frame g).seq } = s.frame g := by
  rw [State.stopNoted_frame]
  cases o with
  | none =>
    dsimp only
    rw [State.stopArmed_other b h]
  | some r =>
    dsimp only
    rw [State.dropArms_frame, State.stopArmed_other b h]
    split <;> rfl

theorem State.stopNoted_mem (s : State) (f : FrameNo) (b : BitVec 48) (o : Option Run) : SameMemory s (s.stopNoted f b o) := by
  have hm : (s.stopNoted f b o).mem = s.mem ∧ (s.stopNoted f b o).vis = s.vis := by
    cases o with
    | none => exact ⟨State.updFrame_mem .., State.updFrame_vis ..⟩
    | some r =>
      rw [State.stopNoted, State.updRun_mem, State.updRun_vis, State.dropArms_mem, State.dropArms_vis]
      exact ⟨State.updFrame_mem .., State.updFrame_vis ..⟩
  rw [SameMemory, hm.1, hm.2]
  exact ⟨fun _ => rfl, fun _ => rfl⟩

theorem State.stopNoted_run {g : FrameNo} (b : BitVec 48) :
    (g ≠ f → hasFrame r.frames g = true → ((s.stopNoted f b (some r)).frame g).seq.stopArm = false) ∧
      ∀ q ∈ (s.stopNoted f b (some r)).runs, q.id = r.id → q.stopBeat = some b.toNat := by
  refine ⟨fun hne hg => ?_, fun q hq hid => ?_⟩
  · rw [State.stopNoted_frame]
    dsimp only
    rw [State.dropArms_frame, if_pos (by simp [hg, hne])]
  · obtain ⟨p, hp, rfl⟩ := List.mem_map.1 hq
    split
    · rfl
    · rename_i hn
      rw [if_neg hn] at hid
      exact absurd (beq_iff_eq.2 hid) hn

theorem completes_beatStopArm {b : BitVec 48} (h : s.hostOk = true) (hp : s.powered f = true)
    (hb : ∀ r, s.runOf f = some r → r.started = true → r.endBeat = none → s.progBeat r ≤ b.toNat) :
    Completes (.beatStopArm f b) s fun t =>
      (t.frame f).seq.stopBeat = b ∧ (t.frame f).seq.stopArm = true ∧ SameRegisters f s t ∧ SameMemory s t ∧
      (∀ g, g ≠ f → { t.frame g with seq := (s.frame g).seq } = s.frame g) ∧
      ∀ r, s.runOf f = some r → (∀ g, g ≠ f → hasFrame r.frames g = true → (t.frame g).seq.stopArm = false) ∧
        ∀ q ∈ t.runs, q.id = r.id → q.stopBeat = some b.toNat := by
  have hf : (s.stopNoted f b (s.runOf f)).frame f =
      { s.frame f with seq := { (s.frame f).seq with stopBeat := b, stopArm := true, stopOrd := s.lastArm + 1 } } := by
    rw [State.stopNoted_same, State.stopArmed_same]
  refine ⟨_, execBeatStopArm_ahead h hp hb, ?_, ?_, ?_, s.stopNoted_mem f b _, fun g hg => State.stopNoted_other b _ hg,
    fun r hr => ?_⟩
  · rw [hf]
  · rw [hf]
  · rw [SameRegisters, hf]
    exact ⟨fun _ => rfl, rfl, rfl, rfl⟩
  · rw [hr]
    exact ⟨fun g => (State.stopNoted_run b).1, (State.stopNoted_run (g := f) b).2⟩

/-- A stop at a beat passed. -/
def State.stopMissedAt (s : State) (f : FrameNo) : State :=
  s.updFrame f fun fr => { fr with seq := { fr.seq with stopMissed := true } }

theorem completes_beatStopArm_passed {b : BitVec 48} (h : s.hostOk = true) (hp : s.powered f = true)
    (hb : ∃ r, s.runOf f = some r ∧ r.started = true ∧ r.endBeat = none ∧ b.toNat < s.progBeat r) :
    Completes (.beatStopArm f b) s fun t => (t.frame f).seq.stopMissed = true ∧ OnlyFrame f s t := by
  obtain ⟨r, hr, hs, he, hlt⟩ := hb
  have hexec : execBeatStopArm f b s = .next (s.stopMissedAt f) := by
    unfold execBeatStopArm
    rw [if_neg (by simp [h])]
    dsimp only
    rw [State.frmWrite_powered hp]
    simp only [hr, hs, he, hlt]
    rfl
  have hsame := s.updFrame_same f fun fr => { fr with seq := { fr.seq with stopMissed := true } }
  refine ⟨_, hexec, ?_, fun g hg => ?_, ?_⟩
  · rw [State.stopMissedAt, hsame]
  · exact s.updFrame_other f g (fun fr => { fr with seq := { fr.seq with stopMissed := true } }) hg
  · rw [State.stopMissedAt, State.updFrame]

theorem completes_beatStopRelease (h : s.hostOk = true) (hp : s.powered f = true) (hr : s.runOf f = some r)
    (hs : r.stopped = true) (ha : r.aborted = none) (he : r.endBeat = none) : Completes (.beatStopRelease f) s fun t =>
      t.frames = s.frames ∧ SameMemory s t ∧ ∃ q ∈ t.runs, q.id = r.id ∧ (f.val, Codes.beatStopped) ∈ q.aborts := by
  have hexec : execBeatStopRelease f s = .next (s.askAbort r.id f.val Codes.beatStopped) := by
    unfold execBeatStopRelease
    rw [if_neg (by simp [h])]
    simp only [hr, hs]
    exact State.frmWrite_powered hp _
  have hmem : r ∈ s.runs := List.mem_of_find?_eq_some hr
  refine ⟨_, hexec, rfl, ⟨fun _ => rfl, fun _ => rfl⟩, r.asked r.id f.val Codes.beatStopped, ?_, ?_, Run.asked_mem ha he⟩
  · rw [State.askAbort_runs]
    exact List.mem_map_of_mem hmem
  · exact (Run.asked_askedFrom ..).1

theorem completes_programStart {id : Nat} {p : Program} (hr : s.run? id = some r) (hp : s.program? r.func r.handle = some p)
    (hs : r.starting = true) : Completes (.programStart id) s fun t =>
      (∀ (f : FrameNo) (a : FramePart), hasFrame r.frames f = true → p.part? f = some a →
        (t.frame f).rn.word = 0 ∧ (t.frame f).seq.state = .running ∧ (t.frame f).scalars = Vector.replicate 32 {} ∧
        (t.frame f).rrc = [] ∧ (t.frame f).rn.kcount = 0 ∧ (t.frame f).rn.words = a.words) ∧
      (∀ f, hasFrame r.frames f = false → (t.frame f).scalars = (s.frame f).scalars ∧ (t.frame f).flags = (s.frame f).flags) ∧
      (s.memc.wipes = [] → State.Zeroed (s.created r (s.startProgram r p)) s t) :=
  ⟨_, execProgramStart_starting hr hp hs, fun _ _ => State.startRun_frame, fun _ => State.startRun_otherFrame,
    State.zeroed_startRun⟩

end

/-- Settles O24: the start is cut at the zeroing and the parts' first words, the end at the release of the frames; each command
is then read off what those leave. -/
theorem programLifeCompletes : Obligations.ProgramLifeCompletes := by
  unfold Obligations.ProgramLifeCompletes
  exact ⟨fun _ _ _ _ => completes_programStart,
    fun _ _ _ hr hm => ⟨completes_framePartEnd hr hm, completes_framePartEnd_last hr hm⟩,
    fun _ _ _ => completes_programAbort, fun _ _ _ h hp => ⟨completes_beatStopArm h hp, completes_beatStopArm_passed h hp⟩,
    fun _ _ _ => completes_beatStopRelease⟩

end Sys2Proof.Machine
end

section

/-!
SUPPORT. What the invariants on operations, transfers and queues speak of (R43, R244, R299, R430 to R433), and the two ways in
which a command keeps them: it leaves that as it was (`Rests`), or it has what it had of the four (`Leads`).
-/

namespace Sys2Proof.Machine

open Sys2Proof

/-- A transfer's number, its frame, its Feeder, and whether it holds a place there. -/
abbrev XferTag := Nat × Nat × Nat × Bool

/-- A queue's enable bit, head, tail and last place. -/
abbrev QueueEnd := Bool × BitVec 16 × BitVec 16 × BitVec 16

/-- The ends of a function's SQs, or of its CQs. -/
abbrev QueueEnds := Vector QueueEnd 64

/-- The ends of every queue of every function. -/
abbrev FnEnds := Vector (QueueEnds × QueueEnds) 64

/-- A transfer's number, its Feeder, and whether it holds a place there. -/
def Xfer.tag (x : Xfer) : XferTag := (x.id, x.frame, x.feeder, x.holdsPlace)

/-- What says whether an SQ is enabled, and whether its ends lie inside it. -/
def Sq.ends (q : Sq) : QueueEnd := (q.enable, q.head, q.tail, q.sizeM1)

/-- What says whether a CQ is enabled, and whether its ends lie inside it. -/
def Cq.ends (q : Cq) : QueueEnd := (q.enable, q.head, q.tail, q.sizeM1)

/-- The ends of every queue of a function. -/
def HostFn.ends (h : HostFn) : QueueEnds × QueueEnds :=
  (h.sqs.map Sq.ends, h.cqs.map Cq.ends)

/-- What the four invariants speak of, and nothing else of the state. -/
structure Core where
  ops : Vector (List EngOp) 64
  tags : List XferTag
  next : Nat
  ends : FnEnds

/-- The operations in progress, the transfers' tags, the next number, and the queues' ends. -/
def State.core (s : State) : Core :=
  ⟨(s.frames.map fun fr => fr.rn.ops), s.xfers.map Xfer.tag, s.nextXfer, s.hostq.fns.map HostFn.ends⟩

theorem State.core_congr {s t : State} (hf : t.frames = s.frames) (hx : t.xfers = s.xfers)
    (hn : t.nextXfer = s.nextXfer)
    (hh : t.hostq.fns = s.hostq.fns) : t.core = s.core := by
  simp only [State.core, hf, hx, hn, hh]

@[simp] theorem Core.mk_core (s : State) :
    Core.mk (s.frames.map fun fr => fr.rn.ops) (s.xfers.map Xfer.tag) s.nextXfer (s.hostq.fns.map HostFn.ends) =
      s.core := by rw [State.core]

@[simp] theorem State.core_mk (a : List Instr) (b : Vector Frame 64) (c d : List Host.Cell) (e : List Upset)
    (f g : List (Nat × Mark)) (h : Tally) (i : Admit) (j : Global) (k : MemC) (l : Mas) (m : Carry) (n : HostQ)
    (o : Mgmt) (p : Lne) (q : Boot) (r : Jtag) (t : List Program) (u : List Run) (v : List Xfer) (w : List OutEvt) (x y z : Nat) :
    State.core ⟨a,b,c,d,e,f,g,h,i,j,k,l,m,n,o,p,q,r,t,u,v,w,x,y,z⟩ =
      ⟨(b.map fun fr => fr.rn.ops), v.map Xfer.tag, x, n.fns.map HostFn.ends⟩ := by rw [State.core]

@[simp] theorem State.updFrame_ops (s : State) (f : FrameNo) (g : Frame → Frame) (h : ∀ fr, (g fr).rn.ops = fr.rn.ops) :
    ((s.updFrame f g).frames.map fun fr => fr.rn.ops) = (s.frames.map fun fr => fr.rn.ops) :=
      Vector.map_set_eq_map _ _ _ _ (h _)

@[simp] theorem State.core_updFrame (s : State) (f : FrameNo) (g : Frame → Frame)
    (h : ∀ fr, (g fr).rn.ops = fr.rn.ops) :
    (s.updFrame f g).core = s.core := by
  simp only [State.core, State.updFrame_ops s f g h, State.updFrame_xfers, State.updFrame_nextXfer,
    State.updFrame_hostq]

@[simp] theorem State.core_mapFrames (s : State) (g : FrameNo → Frame → Frame)
    (h : ∀ f fr, (g f fr).rn.ops = fr.rn.ops) :
    (s.mapFrames g).core = s.core := by
  have e : ((s.mapFrames g).frames.map fun fr => fr.rn.ops) = (s.frames.map fun fr => fr.rn.ops) := by
    ext1 i hi
    simp only [State.mapFrames, Vector.getElem_map, Vector.getElem_ofFn]
    exact h ⟨i, hi⟩ _
  simp only [State.core, e, State.mapFrames_xfers, State.mapFrames_nextXfer, State.mapFrames_hostq]

@[simp] theorem State.core_updXfer (s : State) (id : Nat) (g : Xfer → Xfer) (h : ∀ x, (g x).tag = x.tag) :
    (s.updXfer id g).core = s.core := by
  simp only [State.core, State.updXfer, List.map_map]
  congr 1
  apply List.map_congr_left
  intro x _
  simp only [Function.comp]
  split
  · exact h x
  · rfl

@[simp] theorem State.core_updHostFn (s : State) (f : FuncNo) (g : HostFn → HostFn)
    (h : ∀ x, (g x).ends = x.ends) : (s.updHostFn f g).core = s.core := by
  simp only [State.core, State.updHostFn]
  rw [Vector.map_set_eq_map _ _ _ _ (h _)]

@[simp] theorem State.core_foldl {α : Type} (l : List α) (g : State → α → State) (s : State)
    (h : ∀ u x, (g u x).core = u.core) :
    (l.foldl g s).core = s.core := by
  induction l generalizing s with
  | nil => rfl
  | cons x l ih => rw [List.foldl_cons, ih, h]

@[simp] theorem State.core_ite (c : Prop) [Decidable c] (s t : State) :
    (if c then s else t).core = if c then s.core else t.core := apply_ite ..

@[simp] theorem Frame.ops_ite (c : Prop) [Decidable c] (a b : Frame) :
    (if c then a else b).rn.ops = if c then a.rn.ops else b.rn.ops := by split <;> rfl

@[simp] theorem State.core_ite_fst {α : Type} (c : Prop) [Decidable c] (a b : State × α) :
    (if c then a else b).1.core = if c then a.1.core else b.1.core := by split <;> rfl

@[simp] theorem State.core_ite_snd {α : Type} (c : Prop) [Decidable c] (a b : α × State) :
    (if c then a else b).2.core = if c then a.2.core else b.2.core := by split <;> rfl

@[simp] theorem HostFn.ends_mk (a b c d e f g h i j k l) :
    HostFn.ends ⟨a, b, c, d, e, f, g, h, i, j, k, l⟩ = (c.map Sq.ends, d.map Cq.ends) := by rw [HostFn.ends]

@[simp] theorem HostFn.ends_eta (h : HostFn) : (h.sqs.map Sq.ends, h.cqs.map Cq.ends) = h.ends := by rw [HostFn.ends]

/-- A command leaves what the invariants speak of. -/
structure Rests (s : State) (o : Host.Outcome State Fault Refusal) : Prop where
  next : ∀ t, o = .next t → t.core = s.core

@[simp] theorem rests_next (s t : State) : Rests s (.next t) ↔ t.core = s.core := by
  refine ⟨fun h => h.next t rfl, fun h => ⟨?_⟩⟩
  rintro _ ⟨⟩
  exact h

@[simp] theorem rests_fault (s : State) (r : Fault) :
    Rests s (.fault r) ↔ True := iff_true_intro ⟨fun _ h => by cases h⟩

@[simp] theorem rests_guardStep (s u v : State) (b : Bool) :
    Rests s (guardStep b u v) ↔ (if b then v else u).core = s.core := rests_next ..

@[simp] theorem rests_ite (s : State) (c : Prop) [Decidable c] (a b : Host.Outcome State Fault Refusal) :
    Rests s (if c then a else b) ↔ if c then Rests s a else Rests s b := by split <;> rfl

/-- A fold that carries a list beside the state. -/
theorem State.core_foldl_fst {α β : Type} (l : List α) (g : State × β → α → State × β) (r : State × β)
    (h : ∀ u x, (g u x).1.core = u.1.core) : (l.foldl g r).1.core = r.1.core := by
  induction l generalizing r with
  | nil => rfl
  | cons x l ih => rw [List.foldl_cons, ih, h]

/-- The ends of a queue lie inside it where it is enabled. -/
def EndsInside (e : QueueEnd) : Prop :=
  e.1 = true → e.2.1.toNat ≤ e.2.2.2.toNat ∧ e.2.2.1.toNat ≤ e.2.2.2.toNat

/-- No two operations of a frame occupy one engine. -/
def Core.apart (c : Core) : Prop := ∀ f : FrameNo, c.ops[f].Pairwise fun a b => ∀ e ∈ a.engines, e ∉ b.engines

/-- Each transfer has a number of its own, below the next to be given. -/
def Core.numbered (c : Core) : Prop := (∀ t ∈ c.tags, t.1 < c.next) ∧ (c.tags.map (·.1)).Nodup

/-- The transfers that hold a place of Feeder `k` of frame `f`. -/
def Core.held (c : Core) (f : FrameNo) (k : Nat) : List XferTag :=
  c.tags.filter fun t => t.2.1 == f.val && t.2.2.1 == k && t.2.2.2

/-- No Feeder holds more than its 16 places (R244). -/
def Core.fits (c : Core) : Prop := ∀ (f : FrameNo) (k : Nat), (c.held f k).length ≤ 16

/-- The ends of every enabled queue lie inside it (R430). -/
def Core.inside (c : Core) : Prop := ∀ (f : FuncNo) (q : Fin 64), EndsInside c.ends[f].1[q] ∧ EndsInside c.ends[f].2[q]

theorem State.enginesApart_iff (s : State) : s.enginesApart ↔ s.core.apart := by
  simp [-Core.mk_core, State.enginesApart, Core.apart, State.core, State.frame]

theorem State.xfersNumbered_iff (s : State) : s.xfersNumbered ↔ s.core.numbered := by
  have e : (fun x : XferTag => x.1) ∘ Xfer.tag = Xfer.id := rfl
  simp [-Core.mk_core, State.xfersNumbered, Core.numbered, State.core, Xfer.tag, e]

theorem State.core_held_length (s : State) (f : FrameNo) (k : Nat) :
    (s.core.held f k).length = (s.xfers.filter fun x => x.frame == f.val && x.feeder == k && x.holdsPlace).length := by
  simp [-Core.mk_core, Core.held, State.core, List.filter_map, Function.comp_def, Xfer.tag]

theorem State.feedersHold_iff (s : State) : s.feedersHold ↔ s.core.fits := by
  simp only [State.feedersHold, Core.fits, State.core_held_length]

theorem State.queuesInside_iff (s : State) : s.queuesInside ↔ s.core.inside := by
  simp [-Core.mk_core, -HostFn.ends_eta, State.queuesInside, Core.inside, State.core, HostFn.ends, EndsInside, Sq.ends,
    Cq.ends]

/-- Each of the four properties that `s` has, `t` has too. -/
structure State.Leads (s t : State) : Prop where
  apart : s.core.apart → t.core.apart
  numbered : s.core.numbered → t.core.numbered
  fits : s.core.fits → t.core.fits
  inside : s.core.inside → t.core.inside

theorem State.leads_of_core {s t : State} (h : t.core = s.core) : s.Leads t := by
  constructor <;> rw [h] <;> exact id

theorem State.Leads.refl (s : State) : s.Leads s := State.leads_of_core rfl

theorem State.Leads.trans {s t u : State} (h : s.Leads t) (k : t.Leads u) : s.Leads u :=
  ⟨k.apart ∘ h.apart, k.numbered ∘ h.numbered, k.fits ∘ h.fits, k.inside ∘ h.inside⟩

/-- After it, a step that leaves what the properties speak of. -/
theorem State.Leads.rest {s t u : State} (h : s.Leads t) (k : u.core = t.core) :
    s.Leads u := h.trans (State.leads_of_core k)

theorem State.leads_ite {s a b : State} (c : Prop) [Decidable c] (ha : s.Leads a) (hb : s.Leads b) :
    s.Leads (if c then a else b) := by
  split
  · exact ha
  · exact hb

theorem State.leads_foldl {α : Type} (l : List α) (g : State → α → State) (h : ∀ (u : State) x, u.Leads (g u x))
    (s : State) :
    s.Leads (l.foldl g s) := by
  induction l generalizing s with
  | nil => exact .refl s
  | cons x l ih => exact (h s x).trans (ih _)

/-- Fewer operations and transfers, the numbers and the queues as they were. -/
theorem State.leads_of_less {s t : State} (ho : ∀ f : FrameNo, (t.frames[f].rn.ops).Sublist s.frames[f].rn.ops)
    (hx : (t.xfers.map Xfer.tag).Sublist (s.xfers.map Xfer.tag)) (hn : t.nextXfer = s.nextXfer)
    (he : t.hostq.fns.map HostFn.ends = s.hostq.fns.map HostFn.ends) : s.Leads t where
  apart h f := by
    have e : t.core.ops[f].Sublist s.core.ops[f] := by simpa [-Core.mk_core, State.core] using ho f
    exact (h f).sublist e
  numbered h := by
    refine ⟨fun x m => ?_, h.2.sublist (hx.map _)⟩
    have := h.1 x (hx.subset m)
    simpa [-Core.mk_core, State.core, hn] using this
  fits h f k := ((hx.filter _).length_le).trans (h f k)
  inside h := by simpa [-Core.mk_core, State.core, Core.inside, he] using h

theorem State.leads_updFrame (s : State) (f : FrameNo) (g : Frame → Frame)
    (h : (g s.frames[f]).rn.ops.Sublist s.frames[f].rn.ops) : s.Leads (s.updFrame f g) := by
  refine State.leads_of_less (fun k => ?_) ?_ ?_ ?_
  · by_cases e : f = k
    · subst e
      simpa [State.updFrame] using h
    · have : f.val ≠ k.val := fun e' => e (Fin.ext e')
      simp [State.updFrame, Vector.getElem_set_ne _ _ this]
  all_goals simp

theorem State.leads_mapFrames (s : State) (g : FrameNo → Frame → Frame)
    (h : ∀ f fr, (g f fr).rn.ops.Sublist fr.rn.ops) :
    s.Leads (s.mapFrames g) := by
  refine State.leads_of_less (fun k => ?_) ?_ ?_ ?_
  · simpa [State.mapFrames, State.frame] using h k s.frames[k]
  all_goals simp

theorem State.leads_keepXfers (s : State) (p : Xfer → Bool) : s.Leads { s with xfers := s.xfers.filter p } :=
  State.leads_of_less (fun _ => .refl _) ((List.filter_sublist).map _) rfl rfl

/-- A transfer changed keeps its number and Feeder, and gains no place. -/
def Xfer.Ages (x y : Xfer) : Prop :=
  y.id = x.id ∧ y.frame = x.frame ∧ y.feeder = x.feeder ∧ (y.holdsPlace = true → x.holdsPlace = true)

theorem Xfer.Ages.refl (x : Xfer) : x.Ages x := ⟨rfl, rfl, rfl, fun h => h⟩

theorem State.leads_mapXfers (s : State) (g : Xfer → Xfer) (h : ∀ x : Xfer, x.Ages (g x)) :
    s.Leads { s with xfers := s.xfers.map g } where
  apart h := h
  numbered k := by
    have e : (s.xfers.map g).map Xfer.id = s.xfers.map Xfer.id := by
      rw [List.map_map]
      exact List.map_congr_left fun x _ => (h x).1
    rw [← State.xfersNumbered_iff] at k ⊢
    refine ⟨fun y m => ?_, by rw [e]; exact k.2⟩
    obtain ⟨x, mx, rfl⟩ := List.mem_map.mp m
    rw [(h x).1]
    exact k.1 x mx
  fits k f n := by
    refine le_trans ?_ (k f n)
    rw [State.core_held_length, State.core_held_length, ← List.countP_eq_length_filter, ← List.countP_eq_length_filter,
      List.countP_map]
    refine List.countP_mono_left fun x _ hx => ?_
    obtain ⟨-, ef, ek, ep⟩ := h x
    simp only [Function.comp, ef, ek, Bool.and_eq_true] at hx ⊢
    exact ⟨hx.1, ep hx.2⟩
  inside h := h

theorem State.leads_updXfer (s : State) (id : Nat) (g : Xfer → Xfer) (h : ∀ x : Xfer, x.Ages (g x)) :
    s.Leads (s.updXfer id g) := by
  refine State.leads_mapXfers s _ fun x => ?_
  split
  · exact h x
  · exact .refl x

theorem State.leads_updHostFn (s : State) (f : FuncNo) (g : HostFn → HostFn)
    (h : ∀ q : Fin 64, (EndsInside s.hostq.fns[f].sqs[q].ends → EndsInside (g s.hostq.fns[f]).sqs[q].ends) ∧
      (EndsInside s.hostq.fns[f].cqs[q].ends → EndsInside (g s.hostq.fns[f]).cqs[q].ends)) :
    s.Leads (s.updHostFn f g) where
  apart h := h
  numbered h := h
  fits h := h
  inside k n q := by
    have kn := k n q
    by_cases e : f = n
    · subst e
      simp [-Core.mk_core, -HostFn.ends_eta, State.core, State.updHostFn, HostFn.ends] at kn ⊢
      exact ⟨(h q).1 kn.1, (h q).2 kn.2⟩
    · have : f.val ≠ n.val := fun e' => e (Fin.ext e')
      simp [-Core.mk_core, -HostFn.ends_eta, State.core, State.updHostFn, Vector.getElem_set_ne _ _ this] at kn ⊢
      exact kn

theorem State.leads_updSq (s : State) (f : FuncNo) (q : Fin 64) (g : Sq → Sq)
    (h : EndsInside s.hostq.fns[f].sqs[q].ends → EndsInside (g s.hostq.fns[f].sqs[q]).ends) :
    s.Leads (s.updSq f q g) := by
  refine State.leads_updHostFn s f _ fun k => ⟨fun a => ?_, fun a => a⟩
  by_cases e : q = k
  · subst e
    simpa using h a
  · have : q.val ≠ k.val := fun e' => e (Fin.ext e')
    simpa [Vector.getElem_set_ne _ _ this] using a

theorem State.leads_updCq (s : State) (f : FuncNo) (q : Fin 64) (g : Cq → Cq)
    (h : EndsInside s.hostq.fns[f].cqs[q].ends → EndsInside (g s.hostq.fns[f].cqs[q]).ends) :
    s.Leads (s.updCq f q g) := by
  refine State.leads_updHostFn s f _ fun k => ⟨fun a => a, fun a => ?_⟩
  by_cases e : q = k
  · subst e
    simpa using h a
  · have : q.val ≠ k.val := fun e' => e (Fin.ext e')
    simpa [Vector.getElem_set_ne _ _ this] using a

/-- The outcome's next state keeps what this one has of the four. -/
structure Leading (s : State) (o : Host.Outcome State Fault Refusal) : Prop where
  next : ∀ t, o = .next t → s.Leads t

theorem leading_next {s t : State} (h : s.Leads t) : Leading s (.next t) := by
  refine ⟨?_⟩
  rintro _ ⟨⟩
  exact h

theorem leading_fault (s : State) (r : Fault) : Leading s (.fault r) := ⟨fun _ h => by cases h⟩

theorem leading_of_rests {s : State} {o : Host.Outcome State Fault Refusal} (h : Rests s o) : Leading s o :=
  ⟨fun t e => State.leads_of_core (h.next t e)⟩

theorem leading_guardStep {s t : State} {b : Bool} (h : b = true → s.Leads t) : Leading s (guardStep b s t) := by
  unfold guardStep
  refine leading_next ?_
  split
  next hb => exact h hb
  next => exact .refl s

theorem leading_when {s : State} {b : Bool} {e : State → Host.Outcome State Fault Refusal} (h : Leading s (e s)) :
    s.Leads (s.when b e) := by
  unfold State.when afterCmd
  split
  · split
    next t e => exact h.next t e
    next => exact .refl s
  · exact .refl s

theorem powerDown_ops (fr : Frame) (off : Bool) : (fr.powerDown off).rn.ops.Sublist fr.rn.ops := by
  unfold Frame.powerDown
  dsimp only
  split
  · exact List.nil_sublist _
  · exact .refl _

theorem leads_powerDown (s : State) (fs : List FrameNo) (off : Bool) :
    s.Leads (s.mapFrames fun f fr => if fs.contains f then fr.powerDown off else fr) := by
  refine State.leads_mapFrames _ _ fun f fr => ?_
  split
  · exact powerDown_ops ..
  · exact .refl _

/-- What the properties speak of right after a power-on. -/
def Core.blank (n : Nat) : Core :=
  ⟨.replicate 64 [], [], n, .replicate 64 (.replicate 64 (Sq.ends {}), .replicate 64 (Cq.ends {}))⟩

theorem State.leads_of_blank {s t : State} {n : Nat} (h : t.core = Core.blank n) : s.Leads t := by
  constructor <;> intro _ <;> rw [h]
  · intro f
    simp [Core.blank]
  · simp [Core.numbered, Core.blank]
  · intro f k
    simp [Core.held, Core.blank]
  · intro f q
    simp [EndsInside, Core.blank, Sq.ends, Cq.ends]

theorem State.core_reset (n : Nat) : ({ ({} : State) with nextXfer := n } : State).core = Core.blank n := by
  have h : HostFn.ends {} = (.replicate 64 (Sq.ends {}), .replicate 64 (Cq.ends {})) := by
    rw [HostFn.ends, Vector.map_replicate, Vector.map_replicate]
  rw [State.core, Vector.map_replicate, Vector.map_replicate, h, List.map_nil, Core.blank]

theorem core_afterCmd {s : State} {o : Host.Outcome State Fault Refusal} (h : Rests s o) :
    (afterCmd s o).core = s.core := by
  unfold afterCmd
  split
  next t => exact h.next t rfl
  next => rfl

theorem core_when {s : State} {b : Bool} {e : State → Host.Outcome State Fault Refusal} (h : Rests s (e s)) :
    (s.when b e).core = s.core := by
  unfold State.when
  split
  · exact core_afterCmd h
  · rfl

theorem core_when_when {s : State} {a b : Bool} {d e : State → Host.Outcome State Fault Refusal} (h : Rests s (d s))
    (k : ∀ t, Rests t (e t)) :
    ((s.when a d).when b e).core = s.core := (core_when (k _)).trans (core_when h)

theorem State.leads_newFrames (u : State) (g : FrameNo → Frame) (p : Xfer → Bool)
    (h : ∀ f, (g f).rn.ops = (u.frame f).rn.ops) :
    u.Leads { u with frames := Vector.ofFn g, xfers := u.xfers.filter p } := by
  refine State.leads_of_less (fun f => ?_) ((List.filter_sublist).map _) rfl rfl
  simp only [Fin.getElem_fin, Vector.getElem_ofFn]
  rw [h]
  exact .refl _

theorem State.core_setAdm (s : State) (a : Admit) : ({ s with adm := a } : State).core = s.core :=
  State.core_congr rfl rfl rfl rfl

theorem Xfer.ages_of_tag {x y : Xfer} (h : y.tag = x.tag) : x.Ages y := by
  simp only [Xfer.tag, Prod.mk.injEq] at h
  obtain ⟨hi, hf, hk, hp⟩ := h
  exact ⟨hi, hf, hk, fun h => hp ▸ h⟩

theorem Xfer.ages_abandoned {x y : Xfer} (hi : y.id = x.id) (hf : y.frame = x.frame) (hk : y.feeder = x.feeder)
    (h : y.abandoned = true) : x.Ages y :=
  ⟨hi, hf, hk, fun hp => by simp [Xfer.holdsPlace, h] at hp⟩

theorem Xfer.ages_result {x y : Xfer} (hi : y.id = x.id) (hf : y.frame = x.frame) (hk : y.feeder = x.feeder)
    (h : y.result.isSome = true) : x.Ages y :=
  ⟨hi, hf, hk, fun hp => by
    obtain ⟨r, hr⟩ := Option.isSome_iff_exists.mp h
    simp [Xfer.holdsPlace, hr] at hp⟩

theorem State.ops_of_core {s t : State} (h : t.core = s.core) (f : FrameNo) :
    (t.frame f).rn.ops = (s.frame f).rn.ops := by
  have e : t.core.ops[f] = s.core.ops[f] := by rw [h]
  simpa [-Core.mk_core, State.core, State.frame] using e

theorem State.core_updFrame_at (s : State) (f : FrameNo) (g : Frame → Frame)
    (h : (g (s.frame f)).rn.ops = (s.frame f).rn.ops) :
    (s.updFrame f g).core = s.core := by
  have e : ((s.updFrame f g).frames.map fun fr => fr.rn.ops) = (s.frames.map fun fr => fr.rn.ops) :=
    Vector.map_set_eq_map _ _ _ _ h
  simp only [State.core, e, State.updFrame_xfers, State.updFrame_nextXfer, State.updFrame_hostq]

/-- The place after `p` of a queue of `n + 1` places lies inside it. -/
theorem toNat_ofNat_next_le (p n : BitVec 16) : (BitVec.ofNat 16 ((p.toNat + 1) % (n.toNat + 1))).toNat ≤ n.toNat := by
  have h : (p.toNat + 1) % (n.toNat + 1) < n.toNat + 1 := Nat.mod_lt _ (Nat.succ_pos _)
  rw [BitVec.toNat_ofNat]
  exact (Nat.mod_le _ _).trans (Nat.le_of_lt_succ h)

theorem core_setHostq (s : State) (h : HostQ) (e : h.fns = s.hostq.fns) :
    ({ s with hostq := h } : State).core = s.core :=
  State.core_congr rfl rfl rfl e

theorem core_answer_ite {s : State} (c : Prop) [Decidable c] {a b : MbAnswer} (ha : a.2.2.core = s.core)
    (hb : b.2.2.core = s.core) :
    (if c then a else b).2.2.core = s.core := by
  split
  · exact ha
  · exact hb

theorem core_answer_dite {s : State} (c : Prop) [Decidable c] {a : c → MbAnswer} {b : MbAnswer}
    (ha : ∀ h, (a h).2.2.core = s.core)
    (hb : b.2.2.core = s.core) : (if h : c then a h else b).2.2.core = s.core := by
  split
  · exact ha _
  · exact hb

theorem core_setMgmt (s : State) (m : Mgmt) : ({ s with mgmt := m } : State).core = s.core :=
  State.core_congr rfl rfl rfl rfl

theorem core_ite {s t u : State} (c : Prop) [Decidable c] (ht : t.core = s.core) (hu : u.core = s.core) :
    (if c then t else u).core = s.core := by
  split
  · exact ht
  · exact hu

theorem leads_afterCmd {s : State} {o : Host.Outcome State Fault Refusal} (h : Leading s o) :
    s.Leads (afterCmd s o) := by
  unfold afterCmd
  split
  next t => exact h.next t rfl
  next => exact .refl s

end Sys2Proof.Machine
end

section

/-!
SUPPORT. Operations, transfers and queues under the state's shared operations and under Carry.
-/

namespace Sys2Proof.Machine

open Sys2Proof

/-! From the model's `Ops`. -/

@[simp] theorem core_updRun (s : State) (id : Nat) (g : Run → Run) : (s.updRun id g).core = s.core :=
  State.core_congr rfl rfl rfl rfl

@[simp] theorem core_fault (s : State) (id : Nat) (code : Code) (frame : Nat) : (s.fault id code frame).core = s.core :=
  State.core_congr rfl rfl rfl rfl

@[simp] theorem core_event (s : State) (id : Nat) (code : Code) (frame : Nat) : (s.event id code frame).core = s.core :=
  State.core_congr rfl rfl rfl rfl

@[simp] theorem core_askAbort (s : State) (id : Nat) (frame : Nat) (code : Code) :
    (s.askAbort id frame code).core = s.core :=
  State.core_congr rfl rfl rfl rfl

@[simp] theorem core_emit (s : State) (e : OutEvt) : (s.emit e).core = s.core := State.core_congr rfl rfl rfl rfl

@[simp] theorem core_signal (s : State) (f : FuncNo) (vec : Nat) : (s.signal f vec).core = s.core := by
  simp [State.signal]

@[simp] theorem core_noteClass (s : State) (code : Code) : (s.noteClass code).core = s.core := by
  simp [State.noteClass]

@[simp] theorem core_noteEvent (s : State) (code : Code) (seq : BitVec 32) : (s.noteEvent code seq).core = s.core :=
  State.core_congr rfl rfl rfl rfl

@[simp] theorem core_newRecord (s : State) (code : Code) (src : LogSrc) (a : LogArgs) (sev : Nat) :
    (s.newRecord code src a sev).core = s.core :=
  State.core_congr rfl rfl rfl rfl

@[simp] theorem core_signalLog (s : State) (sev : Nat) : (s.signalLog sev).core = s.core := by
  simp [State.signalLog]

@[simp] theorem core_foldRecord (s : State) (code : Code) (src : Nat) (idx : Nat) (ring : List LogRec) :
    (s.foldRecord code src idx ring).core = s.core := by
  unfold State.foldRecord
  split
  · split <;> rfl
  · rfl

@[simp] theorem core_log (s : State) (code : Code) (src : LogSrc) (a : LogArgs) : (s.log code src a).core = s.core := by
  unfold State.log
  dsimp only
  split <;> simp

@[simp] theorem ends_log (s : State) (c : Code) (x : LogSrc) (a : LogArgs) :
    (s.log c x a).hostq.fns.map HostFn.ends = s.hostq.fns.map HostFn.ends := congrArg Core.ends (core_log s c x a)

@[simp] theorem core_report (s : State) (run : Nat) (code : Code) (frame : Nat) :
    (s.report run code frame).core = s.core := by
  simp [State.report]

@[simp] theorem core_noteDrop (s : State) (f : FrameNo) (d : Drop) : (s.noteDrop f d).core = s.core := by
  simp [State.noteDrop]

@[simp] theorem core_dropOf (s : State) (x : Xfer) (device : Option Nat) (addr : Nat) :
    (s.dropOf x device addr).core = s.core := by
  unfold State.dropOf
  split <;> simp

@[simp] theorem core_pfErr (s : State) (code : Code) (func : Nat) : (s.pfErr code func).core = s.core :=
  State.core_congr rfl rfl rfl rfl

@[simp] theorem core_postNotice (s : State) (code : Code) (src : LogSrc) (a : LogArgs) :
    (s.postNotice code src a).core = s.core :=
  State.core_congr rfl rfl rfl rfl

@[simp] theorem core_notice (s : State) (code : Code) (src : LogSrc) (a : LogArgs) :
    (s.notice code src a).core = s.core := by
  simp [State.notice]

@[simp] theorem core_logNotice (s : State) (code : Code) (src : LogSrc) (a : LogArgs) :
    (s.logNotice code src a).core = s.core := by
  simp [State.logNotice]

@[simp] theorem core_alert (s : State) : s.alert.core = s.core := State.core_congr rfl rfl rfl rfl

@[simp] theorem core_offLog (s : State) (f : FrameNo) (func : Option Nat) :
    (s.offLog f func).core = s.core := by
  simp [State.offLog]

@[simp] theorem core_offAccess (s : State) (f : FrameNo) (func : Nat) : (s.offAccess f func).core = s.core := by
  simp [State.offAccess]

theorem leads_frmWrite {s t : State} (f : FrameNo) (h : s.Leads t) : Leading s (s.frmWrite f t) :=
  leading_next (State.leads_ite _ h (State.leads_of_core (core_offAccess ..)))

@[simp] theorem core_openVal (s : State) : s.openVal.2.core = s.core := State.core_congr rfl rfl rfl rfl

@[simp] theorem core_mark (s : State) (l : Nat) (m : Mark) : (s.mark l m).core = s.core :=
  State.core_congr rfl rfl rfl rfl

@[simp] theorem core_unmark (s : State) (l : Nat) : (s.unmark l).core = s.core := State.core_congr rfl rfl rfl rfl

@[simp] theorem core_wipeBytes (s : State) (a : Nat) (n : Nat) : (s.wipeBytes a n).core = s.core :=
  State.core_congr rfl rfl rfl rfl

@[simp] theorem core_wipeFrame (s : State) (f : FrameNo) : (State.wipeFrame s f).core = s.core := by
  unfold State.wipeFrame
  dsimp only
  split <;> simp

@[simp] theorem core_startWipe (s : State) (k : WipeKind) (base : Nat) (size : Nat) :
    (s.startWipe k base size).core = s.core := by
  simp [State.startWipe]

/-! From the model's `Carry`. -/

@[simp] theorem core_updPort (s : State) (p : Fin 8) (g : Port → Port) : (s.updPort p g).core = s.core :=
  State.core_congr rfl rfl rfl rfl

@[simp] theorem core_emitFlit (s : State) (p : Fin 8) (h : FlitHdr) (payload : List Byte) :
    (s.emitFlit p h payload).core = s.core :=
  State.core_congr rfl rfl rfl rfl

@[simp] theorem core_sendFlit (s : State) (p : Fin 8) (h : FlitHdr) (payload : List Byte) (pkts : List Packet) :
    (s.sendFlit p h payload pkts).core = s.core :=
  State.core_congr rfl rfl rfl rfl

@[simp] theorem core_idleFlit (s : State) (p : Fin 8) (nak : Bool) (vc : Nat) (n : Nat) :
    (s.idleFlit p nak vc n).core = s.core :=
  State.core_congr rfl rfl rfl rfl

@[simp] theorem core_transmit (s : State) (p : Fin 8) (ks : List Packet) : (State.transmit s p ks).core = s.core :=
  State.core_foldl _ _ _ fun _ _ => core_sendFlit ..

@[simp] theorem core_pump (s : State) (p : Fin 8) : (State.pump s p).core = s.core := by
  unfold State.pump
  dsimp only
  split <;> simp

@[simp] theorem core_pumpAll (s : State) : (State.pumpAll s).core = s.core := State.core_foldl _ _ _ core_pump

@[simp] theorem core_queueAt (s : State) (p : Fin 8) (k : Packet) : (s.queueAt p k).core = s.core :=
  State.core_congr rfl rfl rfl rfl

@[simp] theorem core_enqueue (s : State) (p : Fin 8) (k : Packet) : (State.enqueue s p k).core = s.core := by
  simp [State.enqueue]

@[simp] theorem core_dropPacket (s : State) (k : Packet) (status : Code) (port : Nat) :
    (s.dropPacket k status port).core = s.core := by
  simp [State.dropPacket]

@[simp] theorem core_place1 (s : State) (k : Packet) (arr : Option (Fin 8)) : (s.place1 k arr).core = s.core := by
  unfold State.place1
  dsimp only
  split
  · split <;> rfl
  · rw [core_dropPacket]
    split
    · exact core_updPort ..
    · rfl
  · split
    · exact core_queueAt ..
    · rfl

@[simp] theorem core_route (s : State) (k : Packet) (arr : Option (Fin 8)) : (s.route k arr).core = s.core := by
  simp [State.route]

@[simp] theorem core_sendReq (s : State) (owner : ReqOwner) (feeder : Nat) (k : Packet) :
    (s.sendReq owner feeder k).core = s.core := by
  simp [State.sendReq]

@[simp] theorem core_sendRole (s : State) (role : Nat) (k : Packet) : (s.sendRole role k).core = s.core := by
  unfold State.sendRole
  split <;> simp

theorem leads_dropXfer (s : State) (id : Nat) : s.Leads (s.dropXfer id) := State.leads_keepXfers ..

@[simp] theorem core_sendRows (s : State) (id : Nat) : (State.sendRows s id).core = s.core := by
  unfold State.sendRows
  split
  · rfl
  · refine State.core_foldl _ _ _ fun u r => ?_
    split
    · split
      · rfl
      · split
        · exact (core_dropOf ..).trans ((core_report ..).trans (State.core_updXfer _ _ _ fun _ => rfl))
        · split
          · rfl
          · exact (core_sendReq ..).trans (State.core_updXfer _ _ _ fun _ => rfl)
    · rfl

@[simp] theorem core_sendAtom (s : State) (id : Nat) : (State.sendAtom s id).core = s.core := by
  unfold State.sendAtom
  split
  · rfl
  · split
    · split
      · rfl
      · exact (core_sendReq ..).trans (State.core_updXfer _ _ _ fun _ => rfl)
    · rfl

@[simp] theorem core_sendAll (s : State) : (State.sendAll s).core = s.core := by
  refine (core_pumpAll _).trans (State.core_foldl _ _ _ fun u x => ?_)
  simp

theorem leads_forgetXfer (s : State) (id : Nat) : s.Leads (s.forgetXfer id) := by
  unfold State.forgetXfer
  split
  · exact State.leads_ite _ (leads_dropXfer ..) (.refl s)
  · exact .refl s

theorem leads_answer (s : State) (tag : Nat) (c : Code) (old : Nat) (p : Bool) : s.Leads (s.answer tag c old p) := by
  unfold State.answer
  split
  · exact .refl s
  next q _ =>
    extract_lets ca u told lost v
    have hu : s.Leads u := State.leads_of_core (State.core_congr rfl rfl rfl rfl)
    have ht : ∀ id (t : State), (told id t).core = t.core := by
      intro id t
      simp only [told]
      split
      · split
        · rfl
        · split <;> simp
      · rfl
    have hl : ∀ id (t : State), (lost id t).core = t.core := by
      intro id t
      simp only [lost]
      split
      · split <;> simp
      · rfl
    clear_value u told lost
    refine State.Leads.rest ?_ (core_sendAll _)
    simp only [v]
    split
    next id _ =>
      refine ((hu.rest ((hl ..).trans (ht ..))).trans
        (State.leads_of_core (State.core_updXfer _ _ _ fun _ => by rfl))).trans (leads_forgetXfer ..)
    next id _ => exact (hu.rest (ht ..)).trans (leads_dropXfer ..)
    next id _ =>
      refine ((hu.rest ((hl ..).trans (ht ..))).trans (State.leads_updXfer _ _ _ fun y => ?_)).trans
        (leads_forgetXfer ..)
      split
      · exact Xfer.ages_of_tag rfl
      · exact Xfer.ages_result rfl rfl rfl rfl
    next => exact hu

theorem leading_execResponseArrival (s : State) : Leading s (execResponseArrival s) := by
  unfold execResponseArrival
  split
  · exact leading_next (.refl s)
  · extract_lets ca u
    have hu : s.Leads u := State.leads_of_core (State.core_congr rfl rfl rfl rfl)
    clear_value u
    split
    · exact leading_next (hu.trans (leads_answer ..))
    · exact leading_next (hu.trans (leads_answer ..))

theorem leading_execAckTimeout (t : BitVec 12) (s : State) : Leading s (execAckTimeout t s) :=
  leading_guardStep fun _ => (State.leads_of_core (core_log _ _ _ _)).trans (leads_answer ..)

@[simp] theorem core_retrainPort (s : State) (p : Fin 8) : (s.retrainPort p).core = s.core := by
  simp [State.retrainPort]

@[simp] theorem core_replay (s : State) (p : Fin 8) : (s.replay p).core = s.core := by
  simp [State.replay]

@[simp] theorem core_returnCredits (s : State) (p : Fin 8) (vc k n : Nat) :
    (State.returnCredits s p vc k n).core = s.core := by
  induction k generalizing s n with
  | zero => rfl
  | succ k ih =>
    unfold State.returnCredits
    split <;> simp [ih]

@[simp] theorem core_giveBack (s : State) (p : Fin 8) (k : Packet) : (State.giveBack s p k).core = s.core := by
  unfold State.giveBack
  split <;> simp

@[simp] theorem core_payOwed (s : State) (p : Fin 8) : (State.payOwed s p).core = s.core :=
  State.core_foldl _ _ _ fun u v => by simp

@[simp] theorem core_receivePacket (s : State) (p : Fin 8) (k : Packet) :
    (State.receivePacket s p k).core = s.core := by
  unfold State.receivePacket
  split
  · simp
  · split
    · simp
    · split
      · simp
      · split <;> simp

@[simp] theorem core_refuseFlit (s : State) (p : Fin 8) : (s.refuseFlit p).core = s.core :=
  State.core_congr rfl rfl rfl rfl

@[simp] theorem core_acceptFlit (s : State) (p : Fin 8) (h : FlitHdr) (l : List Byte) :
    (State.acceptFlit s p h l).core = s.core := by
  unfold State.acceptFlit
  dsimp only
  split
  · split <;> simp
  · refine (State.core_foldl _ _ _ fun _ _ => core_receivePacket ..).trans ?_
    split <;> simp

theorem rests_execFlitReceive (port : Fin 8) (lost : Option Nat) (flit : List Byte) (s : State) :
    Rests s (execFlitReceive port lost flit s) := by
  unfold execFlitReceive
  split
  · simp
  · split
    · simp
    · split <;> simp

theorem rests_execPacketRoute (s : State) : Rests s (execPacketRoute s) := by
  unfold execPacketRoute
  split
  · simp
  · split <;> simp

@[simp] theorem core_portOffAccess (s : State) (p : Fin 8) (func : Nat) : (s.portOffAccess p func).core = s.core := by
  simp [State.portOffAccess]

theorem rests_execPortEnable (port : Fin 8) (enable : Bool) (s : State) : Rests s (execPortEnable port enable s) := by
  simp [execPortEnable]

theorem rests_execEqualizeDone (port : Fin 8) (s : State) : Rests s (execEqualizeDone port s) := by
  simp [execEqualizeDone]

theorem rests_execAlignDone (port : Fin 8) (good : BitVec 34) (s : State) : Rests s (execAlignDone port good s) := by
  simp [execAlignDone]

theorem rests_execRetrain (port : Fin 8) (s : State) : Rests s (execRetrain port s) := by
  simp [execRetrain]

@[simp] theorem core_linkDown (s : State) (p : Fin 8) : (s.linkDown p).core = s.core := by
  simp [State.linkDown]

theorem rests_execIdent (port : Fin 8) (peerRole : BitVec 4) (peerDev : BitVec 12) (peerProfile : BitVec 2)
    (s : State) :
    Rests s (execIdent port peerRole peerDev peerProfile s) := by
  simp [execIdent]

theorem rests_execLinkHoldExpiry (port : Fin 8) (s : State) : Rests s (execLinkHoldExpiry port s) := by
  simp [execLinkHoldExpiry]

theorem rests_execDownRetry (port : Fin 8) (s : State) : Rests s (execDownRetry port s) := by
  simp [execDownRetry]

@[simp] theorem core_swapLane (s : State) (p : Fin 8) (lane : Fin 34) (spare : Fin 34) :
    (s.swapLane p lane spare).core = s.core :=
  State.core_congr rfl rfl rfl rfl

theorem rests_execLaneLockLoss (port : Fin 8) (lane : Fin 34) (spareTrained : Bool) (s : State) :
    Rests s (execLaneLockLoss port lane spareTrained s) := by
  unfold execLaneLockLoss
  split
  · dsimp only
    split
    · simp
    · split <;> simp
  · simp

theorem rests_execLaneSwap (port : Fin 8) (lane : Fin 34) (spare : Fin 34) (s : State) :
    Rests s (execLaneSwap port lane spare s) := by
  simp [execLaneSwap]

theorem rests_execPing (port : Fin 8) (s : State) : Rests s (execPing port s) := by
  simp [execPing]

theorem core_takeTime {s t : State} {b : Bool} {p : Fin 8} {k : Packet} {n : BitVec 64}
    (h : s.takeTime b = some (p, k, n, t)) :
    t.core = s.core := by
  unfold State.takeTime at h
  dsimp only at h
  split at h
  · exact absurd h (by simp)
  · obtain ⟨_, -, e⟩ := Option.map_eq_some_iff.mp h
    cases e
    exact State.core_congr rfl rfl rfl rfl

theorem rests_execTimePingReceive (s : State) : Rests s (execTimePingReceive s) := by
  unfold execTimePingReceive
  split
  next e => exact (rests_next ..).mpr ((core_enqueue ..).trans (core_takeTime e))
  next => simp

theorem rests_execTimeEchoReceive (s : State) : Rests s (execTimeEchoReceive s) := by
  unfold execTimeEchoReceive
  split
  next e => exact (rests_next ..).mpr ((core_updPort ..).trans (core_takeTime e))
  next => simp

end Sys2Proof.Machine
end

section

/-!
SUPPORT. Operations, transfers and queues under accesses to memory and scratchpads, writes at their homes, and the
issue of words.
-/

namespace Sys2Proof.Machine

open Sys2Proof

/-! From the model's `Ports`. -/

@[simp] theorem core_updMem (s : State) (p : Fin 16) (g : MemPort → MemPort) : (s.updMem p g).core = s.core :=
  State.core_congr rfl rfl rfl rfl

@[simp] theorem core_moved (s : State) (c : Fin 4) (a : Nat) (n : Nat) : (s.moved c a n).core = s.core :=
  State.core_congr rfl rfl rfl rfl

@[simp] theorem core_movedSpan (s : State) (c : Fin 4) (base : Nat) (size : Nat) :
    (s.movedSpan c base size).core = s.core :=
  State.core_congr rfl rfl rfl rfl

@[simp] theorem core_upset (s : State) (us : List Upset) : (s.upset us).core = s.core :=
  State.core_congr rfl rfl rfl rfl

@[simp] theorem core_mend (s : State) (u : Upset) : (s.mend u).core = s.core := State.core_congr rfl rfl rfl rfl

@[simp] theorem core_eccUe (s : State) (port : Fin 16) (a : Nat) : (s.eccUe port a).core = s.core := by
  simp [State.eccUe]

@[simp] theorem core_foundSector (s : State) (x : Nat × SectorErr) : (s.foundSector x).core = s.core := by
  unfold State.foundSector
  split <;> simp

@[simp] theorem core_checkRead (s : State) (a : Nat) (n : Nat) : (s.checkRead a n).core = s.core := by
  simp [State.checkRead]

@[simp] theorem core_checkWrite (s : State) (a : Nat) (n : Nat) (reads : Bool) :
    (s.checkWrite a n reads).core = s.core := by
  simp [State.checkWrite]

@[simp] theorem core_foundSpad (s : State) (x : Nat × Bool) : (s.foundSpad x).core = s.core := by
  unfold State.foundSpad
  dsimp only
  split <;> simp

@[simp] theorem core_checkSpad (s : State) (a : Nat) (n : Nat) : (s.checkSpad a n).core = s.core := by
  simp [State.checkSpad]

@[simp] theorem core_checkCache (s : State) (f : FrameNo) (l : Nat) : (s.checkCache f l).core = s.core := by
  simp [State.checkCache]

@[simp] theorem core_reachLines (s : State) (lines : List Nat) (write : Bool) :
    (s.reachLines lines write).core = s.core := by
  simp [State.reachLines]

@[simp] theorem core_lineRead (s : State) (c : Fin 4) (a : Nat) (n : Nat) : (s.lineRead c a n).core = s.core := by
  simp [State.lineRead]

@[simp] theorem core_lineWrite (s : State) (c : Fin 4) (a : Nat) (n : Nat) (sums : Bool) :
    (s.lineWrite c a n sums).core = s.core := by
  simp [State.lineWrite]

@[simp] theorem tags_lineWrite (s : State) (c : Fin 4) (a n : Nat) (r : Bool) :
    (s.lineWrite c a n r).xfers.map Xfer.tag = s.xfers.map Xfer.tag := congrArg Core.tags (core_lineWrite s c a n r)

@[simp] theorem next_lineWrite (s : State) (c : Fin 4) (a n : Nat) (r : Bool) :
    (s.lineWrite c a n r).nextXfer = s.nextXfer :=
  congrArg Core.next (core_lineWrite s c a n r)

@[simp] theorem ends_lineWrite (s : State) (c : Fin 4) (a n : Nat) (r : Bool) :
    (s.lineWrite c a n r).hostq.fns.map HostFn.ends = s.hostq.fns.map HostFn.ends :=
      congrArg Core.ends (core_lineWrite s c a n r)

@[simp] theorem core_mendSpan (s : State) (base : Nat) (size : Nat) (p : Nat → Bool) :
    (s.mendSpan base size p).core = s.core :=
  State.core_congr rfl rfl rfl rfl

@[simp] theorem core_wroteSpan (s : State) (c : Fin 4) (base : Nat) (size : Nat) :
    (s.wroteSpan c base size).core = s.core := by
  simp [State.wroteSpan]

@[simp] theorem core_readSpans (s : State) (c : Fin 4) (spans : List (Nat × Nat)) :
    (s.readSpans c spans).core = s.core := by
  simp [State.readSpans]

@[simp] theorem core_sumAt (s : State) (a : Nat) (n : Nat) : (s.sumAt a n).core = s.core := by
  unfold State.sumAt
  split <;> simp

/-! From the model's `Home`. -/

@[simp] theorem core_updSet (s : State) (i : Nat) (g : RSet → RSet) : (s.updSet i g).core = s.core := by
  unfold State.updSet
  split <;> simp

@[simp] theorem core_updLayer (s : State) (i : Fin 64) (g : Layer → Layer) : (s.updLayer i g).core = s.core :=
  State.core_congr rfl rfl rfl rfl

@[simp] theorem core_ingest (s : State) (i : Fin 64) (a : Nat) (bs : List Byte) (m : Option Mark) :
    (State.ingest s i a bs m).core = s.core := by
  unfold State.ingest
  cases m <;> simp

@[simp] theorem core_store (s : State) (a : Nat) (bs : List Byte) (m : Option Mark) :
    (State.store s a bs m).core = s.core := by
  unfold State.store
  cases m <;> simp

@[simp] theorem core_putFlag (s : State) (f : FrameNo) (flag : Nat) (add : Bool) (v : Word) :
    (s.putFlag f flag add v).core = s.core := by
  unfold State.putFlag
  split <;> simp

@[simp] theorem core_refuseFlag (s : State) (f : FrameNo) : (s.refuseFlag f).core = s.core := by
  simp [State.refuseFlag]

@[simp] theorem core_lineData (s : State) (i : Nat) (line : Nat) : (s.lineData i line).1.core = s.core := by
  simp [State.lineData]

@[simp] theorem core_combine (s : State) (i l : Nat) (bs : List Byte) (m : Option Code) :
    (State.combine s i l bs m).core = s.core := by
  unfold State.combine
  dsimp only
  split
  · simp
  · split <;> simp

@[simp] theorem core_spoil (s : State) (i : Nat) (line : Nat) (c : Code) : (s.spoil i line c).core = s.core := by
  simp [State.spoil]

@[simp] theorem core_closeLine (s : State) (i : Nat) (line : Nat) (bytes : List Byte) (cause : Option Code) :
    (s.closeLine i line bytes cause).core = s.core := by
  simp [State.closeLine]

@[simp] theorem core_job (s : State) (j : Job) : (State.job s j).1.core = s.core := by
  cases j with
  | write a bs m cls =>
    unfold State.job
    dsimp only
    split
    · split <;> simp
    · split
      · rfl
      · split <;> simp
  | contribute i l bs m =>
    unfold State.job
    dsimp only
    split <;> simp
  | complete i l =>
    unfold State.job
    dsimp only
    split
    · split <;> simp
    · rfl
  | deliver i l bs c => simp [State.job]
  | round i =>
    unfold State.job
    dsimp only
    split
    · split <;> simp
    · rfl

@[simp] theorem core_work (n : Nat) (s : State) (js : List Job) : (State.work n s js).core = s.core :=
  State.work_induct (fun t => t.core = s.core) (fun t j h => (core_job t j).trans h)
    (fun t h => (core_pumpAll t).trans h) n s js rfl

@[simp] theorem core_memArrive (s : State) (a : Nat) (bs : List Byte) (m : Option Mark) (c : Fin 4) :
    (State.memArrive s a bs m c).core = s.core := core_work ..

@[simp] theorem core_tryArrive (s : State) (a : Nat) (bs : List Byte) (m : Option Mark) :
    (State.tryArrive s a bs m).1.core = s.core :=
  core_memArrive ..

@[simp] theorem core_nibArrive (s : State) (w : PWrite) (m : Option Mark) :
    (State.nibArrive s w m).1.core = s.core := by
  unfold State.nibArrive
  split
  · simp
  · cases m <;> simp

@[simp] theorem core_oneLine (s t : State) (a : Nat) : (State.oneLine s t a).core = s.core := by
  unfold State.oneLine
  split <;> simp

@[simp] theorem core_lineArrive (s : State) (cs : List Host.Cell) (ns : List PWrite) (m : Option Mark) :
    (State.lineArrive s cs ns m).1.core = s.core := by
  refine (core_oneLine ..).trans
    ((State.core_foldl_fst _ _ _ fun u w => ?_).trans (State.core_foldl_fst _ _ _ fun u w => ?_)) <;> simp

@[simp] theorem core_atomAt (s : State) (addr : Nat) (aop : Nat) (a : Nat) (c : Nat) (q : Nat) :
    (s.atomAt addr aop a c q).1.core = s.core := by
  unfold State.atomAt
  dsimp only
  split <;> simp

/-! From the model's `Issue`. -/

@[simp] theorem core_next (s : State) (f : FrameNo) (w : BcWord) : (State.next s f w).core = s.core :=
  State.core_updFrame _ _ _ fun _ => rfl

@[simp] theorem core_pend (s : State) (f : FrameNo) (ps : List Pend) : (s.pend f ps).core = s.core := by
  simp [State.pend]

/-- A word that issues leaves it where its effect does. -/
theorem rests_issueStep (s : State) (f : FrameNo) (op : Op) (g : Iss → State) (h : ∀ i, (g i).core = s.core) :
    Rests s (issueStep s f op g) := by
  unfold issueStep
  split <;> simp [h]

@[simp] theorem core_consume (s : State) (r : Nat) (f : FrameNo) (ms : List Mark) :
    (s.consume r f ms).core = s.core := by
  unfold State.consume
  split <;> simp

theorem State.core_useX_fold (g : Frame) (r : Nat) (xs : List Nat) :
    (xs.foldl (fun (g : Frame) i =>
      match (g.x i).poison with
      | some m => g.setX i { g.x i with poison := some { m with run := r } }
      | none => g) g).rn.ops = g.rn.ops := by
  induction xs generalizing g with
  | nil => rfl
  | cons x xs ih =>
    rw [List.foldl_cons, ih]
    split
    · rw [Frame.setX_parts]
    · rfl

@[simp] theorem core_useX (s : State) (f : FrameNo) (r : Nat) (xs : List Nat) :
    (State.useX s f r xs).core = s.core := by
  unfold State.useX
  refine (State.core_updFrame _ _ _ fun fr => State.core_useX_fold fr r xs).trans ?_
  simp

@[simp] theorem core_fillLine (s : State) (f : FrameNo) (l : Nat) (fresh : Bool) :
    (s.fillLine f l fresh).core = s.core := by
  simp [State.fillLine]

@[simp] theorem core_fetchLines (s : State) (f : FrameNo) (ls : List Nat) :
    (State.fetchLines s f ls).1.core = s.core := by
  induction ls generalizing s with
  | nil => rfl
  | cons l rest ih =>
    unfold State.fetchLines
    dsimp only
    split <;> simp [ih]

@[simp] theorem core_reader (s : State) (f : FrameNo) (r : Run) (b : Bool) (rows : List Nat) :
    (State.reader s f r b rows).1.core = s.core := by
  unfold State.reader
  dsimp only
  split <;> simp

@[simp] theorem core_constLines (s : State) (f : FrameNo) (rd : Reader) (ls : List Nat) :
    (State.constLines s f rd ls).1.core = s.core := core_fetchLines ..

end Sys2Proof.Machine
end

section

/-!
SUPPORT. Operations, transfers and queues under the sequencers' own words, the fences, the watchdog and the beat's
other commands.
-/

namespace Sys2Proof.Machine

open Sys2Proof

/-! From the model's `Sequencer`. -/

@[simp] theorem core_settleLeave (s : State) : s.settleLeave.core = s.core := by
  simp [State.settleLeave]

@[simp] theorem core_quietAborted (s : State) : (State.quietAborted s).core = s.core := by
  refine State.core_mapFrames _ _ fun f => ?_
  dsimp only
  split <;> simp

@[simp] theorem core_leaveOnAbort (s : State) : s.leaveOnAbort.core = s.core := by
  simp [State.leaveOnAbort]

theorem rests_execNop (f : FrameNo) (s : State) : Rests s (execNop f s) := rests_issueStep _ _ _ _ fun _ => rfl

theorem rests_execEndWord (f : FrameNo) (s : State) : Rests s (execEndWord f s) :=
  rests_issueStep _ _ _ _ fun _ => State.core_updFrame _ _ _ fun _ => rfl

theorem Frame.branch_ops (fr : Frame) (l : List Nat) (w : BcWord) (n : Nat) : (fr.branch l w n).rn.ops = fr.rn.ops := by
  unfold Frame.branch
  extract_lets w0 w1 pc join arm start n' either
  split <;> rfl

theorem Frame.enterLoop_ops (fr : Frame) (l : List Nat) (w : BcWord) (n : Nat) :
    (fr.enterLoop l w n).rn.ops = fr.rn.ops := by
  unfold Frame.enterLoop
  dsimp only
  split <;> rfl

/-- A word that takes its frame elsewhere, its scalars as the reading left them. -/
theorem core_goneTo (s : State) (f : FrameNo) (r : Nat) (xs : List Nat) (g : Frame)
    (h : g.rn.ops = (s.frame f).rn.ops) :
    ((s.useX f r xs).updFrame f fun fr => { g with scalars := fr.scalars }).core = s.core :=
  (State.core_updFrame_at _ _ _ (h.trans (State.ops_of_core (core_useX ..) f).symm)).trans (core_useX ..)

theorem rests_execBr (f : FrameNo) (s : State) : Rests s (execBr f s) := by
  unfold execBr
  split
  · exact (rests_next ..).mpr (core_goneTo _ _ _ _ _ (Frame.branch_ops ..))
  · simp

theorem rests_execLoop (f : FrameNo) (s : State) : Rests s (execLoop f s) := by
  unfold execLoop
  split
  · exact (rests_next ..).mpr (core_goneTo _ _ _ _ _ (Frame.enterLoop_ops ..))
  · simp

theorem rests_execSop (f : FrameNo) (s : State) : Rests s (execSop f s) := rests_issueStep _ _ _ _ fun _ => core_pend ..

theorem rests_execFlagSet (f : FrameNo) (s : State) : Rests s (execFlagSet f s) :=
  rests_issueStep _ _ _ _ fun _ => (core_pend ..).trans (core_useX ..)

@[simp] theorem core_startWait (s : State) (f : FrameNo) (i : Iss) (b : Bool) :
    (State.startWait s f i b).core = s.core := by
  simp [State.startWait]

theorem rests_execFlagWait (f : FrameNo) (s : State) : Rests s (execFlagWait f s) :=
  rests_issueStep _ _ _ _ fun _ => core_startWait ..

theorem rests_execFlagAcq (f : FrameNo) (s : State) : Rests s (execFlagAcq f s) :=
  rests_issueStep _ _ _ _ fun _ => core_startWait ..

theorem rests_execWaitExpired (f : FrameNo) (s : State) : Rests s (execWaitExpired f s) := by
  unfold execWaitExpired
  split <;> simp

theorem rests_execLdrop (f : FrameNo) (s : State) : Rests s (execLdrop f s) := by
  refine rests_issueStep _ _ _ _ fun i => ?_
  dsimp only
  split
  · exact (core_pend ..).trans (core_consume ..)
  · split
    · exact core_pend ..
    · exact (core_pend ..).trans (core_fault ..)

theorem rests_execWordFetch (f : Met FrameNo) (s : State) : Rests s (execWordFetch f s) := by
  simp [execWordFetch]

@[simp] theorem core_forget (s : State) (frame : Nat) (line : Nat) : (s.forget frame line).core = s.core := by
  unfold State.forget
  split <;> simp

@[simp] theorem core_commitLines (s : State) (f : FrameNo) (o : EngOp) (ls : List Nat) :
    (State.commitLines s f o ls).core = s.core := by
  refine State.core_foldl _ _ _ fun u l => ?_
  simp

@[simp] theorem core_commitOp (s : State) (f : FrameNo) (o : EngOp) : (State.commitOp s f o).core = s.core := by
  simp [State.commitOp]

@[simp] theorem core_failOp (s : State) (f : FrameNo) (o : EngOp) (c : Code) : (s.failOp f o c).core = s.core := by
  simp [State.failOp]

@[simp] theorem core_countCheckFail (s : State) (f : FrameNo) (limb : Option Nat) :
    (s.countCheckFail f limb).core = s.core := by
  simp [State.countCheckFail]

@[simp] theorem core_endOp (s : State) (f : FrameNo) (o : EngOp) (fail : Bool) : (s.endOp f o fail).core = s.core := by
  unfold State.endOp
  split
  · simp
  · split <;> simp

theorem leading_execEngineOperationEnd (f : FrameNo) (te fail : Bool) (s : State) :
    Leading s (execEngineOperationEnd f te fail s) := by
  unfold execEngineOperationEnd
  extract_lets ops due stopped
  split
  · exact leading_next ((State.leads_updFrame _ _ _ (List.eraseP_sublist)).rest (core_endOp ..))
  · exact leading_next (.refl s)

theorem rests_execFrameBeatComplete (f : FrameNo) (s : State) : Rests s (execFrameBeatComplete f s) := by
  simp [execFrameBeatComplete]

@[simp] theorem core_dropArms (s : State) (frames : BitVec 64) (keep : FrameNo) :
    (s.dropArms frames keep).core = s.core := by
  simp [State.dropArms]

theorem rests_execBeatStopArm (f : FrameNo) (b : BitVec 48) (s : State) : Rests s (execBeatStopArm f b s) := by
  unfold execBeatStopArm State.frmWrite
  split
  · simp
  · extract_lets passed t u
    have ht : t.core = s.core := State.core_updFrame _ _ _ fun _ => rfl
    have hu : u.core = s.core := by
      simp only [u]
      split
      · simp [ht]
      · exact ht
    have hm : (s.updFrame f fun fr => { fr with seq := { fr.seq with stopMissed := true } }).core = s.core :=
      State.core_updFrame _ _ _ fun _ => rfl
    rw [rests_next]
    split
    · split
      · exact hm
      · exact hu
    · simp

/-! From the model's `Beat`. -/

@[simp] theorem core_logSplit (s : State) : (State.logSplit s).core = s.core := by
  unfold State.logSplit
  split
  · rfl
  · split <;> simp

@[simp] theorem core_gateRuns (s : State) : (State.gateRuns s).core = s.core := by
  refine State.core_foldl _ _ _ fun u f => ?_
  split <;> simp

@[simp] theorem core_takeAborts (s : State) : (State.takeAborts s).core = s.core := by
  simp [State.takeAborts]

@[simp] theorem core_recheck (s : State) : (State.recheck s).core = s.core := by
  refine State.core_foldl _ _ _ fun u f => ?_
  dsimp only
  split
  · split
    · split
      · split <;> simp
      · rfl
    · rfl
  · rfl

@[simp] theorem core_markEnds (s : State) : (State.markEnds s).core = s.core := by
  refine State.core_mapFrames _ _ fun f fr => ?_
  split
  · split <;> rfl
  · rfl

@[simp] theorem core_markStarts (s : State) (groupRuns : List Nat) : (s.markStarts groupRuns).core = s.core := by
  simp [State.markStarts]

@[simp] theorem core_markIdle (s : State) : s.markIdle.core = s.core := by
  simp [State.markIdle]

@[simp] theorem core_sendTokens (s : State) (w : Int) : (State.sendTokens s w).core = s.core := by
  simp [State.sendTokens]

@[simp] theorem core_gatherLanes (s : State) : s.gatherLanes.core = s.core := State.core_congr rfl rfl rfl rfl

theorem rests_execAdmissionGrant (s : State) : Rests s (execAdmissionGrant s) := by
  have h : (s.mapFrames fun f fr => { fr with decl := s.declOf f }).core = s.core :=
    State.core_mapFrames _ _ fun _ _ => rfl
  unfold execAdmissionGrant
  extract_lets decls g ad
  rw [rests_guardStep]
  split
  · exact (State.core_setAdm ..).trans h
  · rfl

theorem rests_execPhaseGroupStart (s : State) : Rests s (execPhaseGroupStart s) := by
  unfold execPhaseGroupStart
  dsimp only
  split <;> simp

theorem leads_fence (s : State) (f : FrameNo) (b : BitVec 2) (c : Code) : s.Leads (s.fence f b c) := by
  unfold State.fence
  extract_lets u phys gl fa bo v
  have h : s.Leads u := State.leads_of_core (by simp [u])
  have k : u.Leads v := by
    clear_value u
    exact State.leads_of_less (fun _ => .refl _) ((List.filter_sublist).map _) rfl rfl
  exact (h.trans k).rest (by simp)

theorem leads_checkFences (s : State) : s.Leads s.checkFences := by
  refine State.leads_foldl _ _ (fun u f => ?_) _
  refine State.leads_ite _ (.refl u) (State.leads_ite _ (leads_fence ..) (State.leads_of_core ?_))
  simp

@[simp] theorem core_poisonXfer (s : State) (x : Xfer) : (s.poisonXfer x).core = s.core :=
  State.core_congr rfl rfl rfl rfl

theorem unreadKeys_tag (s : State) (x : Xfer) : (s.unreadKeys x).tag = x.tag := by
  unfold State.unreadKeys
  split <;> rfl

theorem leads_cancel (s : State) (p : Xfer → Bool) : s.Leads (s.cancel p) := by
  have h : ∀ (l : List Xfer) (u : State),
      (l.foldl (fun (s : State) x => s.updXfer x.id fun y => s.unreadKeys y) u).core = u.core :=
    fun l u => State.core_foldl _ _ _ fun u x => State.core_updXfer _ _ _ (unreadKeys_tag u)
  have k : ∀ (l : List Xfer) (u : State), (l.foldl (fun (s : State) x => s.poisonXfer x) u).core = u.core :=
    fun l u => State.core_foldl _ _ _ fun u x => core_poisonXfer ..
  exact (State.leads_of_core ((k _ _).trans (h _ _))).trans (State.leads_keepXfers _ _)

@[simp] theorem core_abandonDrops (s : State) (x : Xfer) : (s.abandonDrops x).core = s.core := by
  simp [State.abandonDrops]

theorem leads_abandon (s : State) (x : Xfer) : s.Leads (s.abandon x) := by
  unfold State.abandon
  extract_lets u v w waits a b
  have hu : s.Leads u := State.leads_of_core (core_report ..)
  have aged : ∀ (t : State) (id : Nat) (g : Xfer → Xfer), (∀ y : Xfer, y.Ages (g y)) → s.Leads t →
      s.Leads (t.updXfer id g) :=
    fun t id g hg ht => ht.trans (State.leads_updXfer t id g hg)
  split
  · refine aged _ _ _ (fun y => Xfer.ages_abandoned rfl rfl rfl rfl)
      (State.leads_ite _ (hu.rest (core_abandonDrops ..)) hu)
  · have ha : s.Leads a := hu.rest ((core_poisonXfer ..).trans (core_abandonDrops ..))
    have hb : s.Leads b := by
      refine State.leads_ite _ (ha.trans (State.leads_keepXfers ..)) (aged _ _ _ (fun y => ?_) ha)
      exact Xfer.ages_abandoned rfl rfl rfl rfl
    refine hb.trans (State.leads_foldl _ _ (fun t p => State.leads_of_core ?_) _)
    split <;> simp

theorem leads_watchdogAbort (s : State) (id f c : Nat) : s.Leads (s.watchdogAbort id f c) := by
  unfold State.watchdogAbort
  extract_lets u a v lost w late ta y
  have hv : s.Leads v := State.leads_of_core ((core_logNotice ..).trans (core_askAbort ..))
  have hw : s.Leads w := hv.trans (leads_cancel ..)
  clear_value w
  have hy : s.Leads y := hw.rest (State.core_congr rfl rfl rfl rfl)
  clear_value y
  refine hy.rest (State.core_mapFrames _ _ fun _ fr => ?_)
  split <;> rfl

theorem leads_watchFrame (was s : State) (f : FrameNo) : s.Leads (was.watchFrame s f) :=
  State.leads_ite _ (State.leads_ite _ (leads_watchdogAbort ..) ((leads_watchdogAbort ..).trans (leads_fence ..)))
    (State.leads_ite _ (leads_watchdogAbort ..) (.refl s))

theorem leading_execBeatWatchdog (s : State) : Leading s (execBeatWatchdog s) := by
  unfold execBeatWatchdog
  extract_lets unmet late ta u v
  have hu : s.Leads u := State.leads_of_core (State.core_congr rfl rfl rfl rfl)
  have hv : s.Leads v := hu.trans (State.leads_foldl _ _ leads_abandon _)
  split
  · exact leading_next ((hv.trans (State.leads_foldl _ _ (leads_watchFrame v) _)).rest (core_settleLeave _))
  · exact leading_next (.refl s)

theorem rests_execTallyRun (run : Bool) (s : State) : Rests s (execTallyRun run s) := by
  simp [execTallyRun]

theorem rests_execStrClear (s : State) : Rests s (execStrClear s) := by
  simp [execStrClear]

theorem rests_execMarkArm (high : Word) (s : State) : Rests s (execMarkArm high s) := by
  simp [execMarkArm]

@[simp] theorem core_setTb (s : State) (t : Tally) : (s.setTb t).core = s.core := by
  simp [State.setTb]

theorem rests_execTimebaseEdge (s : State) : Rests s (execTimebaseEdge s) := by
  simp [execTimebaseEdge]

theorem rests_execTbHoldover (s : State) : Rests s (execTbHoldover s) := by
  simp [execTbHoldover]

theorem rests_execSyncInEdge (s : State) : Rests s (execSyncInEdge s) := by
  simp [execSyncInEdge]

theorem rests_execLoadNow (s : State) : Rests s (execLoadNow s) := by
  simp [execLoadNow]

theorem rests_execLoadArm (s : State) : Rests s (execLoadArm s) := by
  simp [execLoadArm]

theorem rests_execSyncOutPeriodic (s : State) : Rests s (execSyncOutPeriodic s) := by
  simp [execSyncOutPeriodic]

theorem rests_execForm (s : State) : Rests s (execForm s) := by
  simp [execForm]

@[simp] theorem core_abortGroup (s : State) : s.abortGroup.core = s.core := by
  simp [State.abortGroup]

theorem rests_execLeave (s : State) : Rests s (execLeave s) := by
  simp [execLeave]

theorem rests_execJunctionTokenSend (s : State) : Rests s (execJunctionTokenSend s) := by
  unfold execJunctionTokenSend
  split <;> simp

theorem rests_execJunctionTokenReceive (s : State) : Rests s (execJunctionTokenReceive s) := by
  unfold execJunctionTokenReceive
  split <;> simp

theorem rests_execJunctionExpired (s : State) : Rests s (execJunctionExpired s) := by
  simp [execJunctionExpired]

end Sys2Proof.Machine
end

section

/-!
SUPPORT. Operations, transfers and queues under the flash, the entropy source, images and lanes' seeds.
-/

namespace Sys2Proof.Machine

open Sys2Proof

/-! From the model's `FlashImage`. -/

@[simp] theorem core_flashWrite (s : State) (a : Nat) (bytes : List Byte) : (s.flashWrite a bytes).core = s.core :=
  State.core_congr rfl rfl rfl rfl

@[simp] theorem core_flashErase (s : State) (a : Nat) (n : Nat) : (s.flashErase a n).core = s.core :=
  State.core_congr rfl rfl rfl rfl

@[simp] theorem core_commitSlot (s : State) (k : Fin 3) (g : SlotState → SlotState) :
    (s.commitSlot k g).core = s.core :=
  State.core_congr rfl rfl rfl rfl

@[simp] theorem core_takeCopy (s : State) (second : Bool) (seq : Nat) : (s.takeCopy second seq).core = s.core :=
  State.core_congr rfl rfl rfl rfl

@[simp] theorem core_readSlots (s : State) : s.readSlots.core = s.core := by
  unfold State.readSlots
  split <;> simp

@[simp] theorem core_markFailed (s : State) (comp : Nat) (slot : Nat) : (s.markFailed comp slot).core = s.core :=
  State.core_congr rfl rfl rfl rfl

/-! From the model's `Drbg`. -/

@[simp] theorem core_setDrbg (s : State) (k : Nat) (d : Drbg) : (s.setDrbg k d).core = s.core := by
  unfold State.setDrbg
  split <;> simp

@[simp] theorem core_raw (s : State) : s.raw.2.core = s.core := State.core_congr rfl rfl rfl rfl

@[simp] theorem core_startDrbg (s : State) (k : Nat) : (s.startDrbg k).core = s.core := by
  simp [State.startDrbg]

@[simp] theorem core_entropyFail (s : State) : s.entropyFail.core = s.core := by
  simp [State.entropyFail]

@[simp] theorem core_reseedDrbg (s : State) (k : Nat) : (s.reseedDrbg k).core = s.core := by
  simp [State.reseedDrbg]

@[simp] theorem core_drbgDraw (s : State) (k : Nat) : (s.drbgDraw k).2.core = s.core := by
  simp [State.drbgDraw]

/-! From the model's `Image`. -/

@[simp] theorem core_installPset (s : State) (slot : Nat) (b : Nat) : (s.installPset slot b).core = s.core := by
  simp [State.installPset]

/-! From the model's `Lane`. -/

@[simp] theorem core_seedFor (s : State) (f : FrameNo) (k : Nat) (fresh : Bool) :
    (s.seedFor f k fresh).2.core = s.core := by
  unfold State.seedFor
  extract_lets cur put x
  have hput : ∀ t v, (put t v).core = t.core := fun _ _ => State.core_updFrame _ _ _ fun _ => rfl
  clear_value put
  split
  · split
    · exact (hput ..).trans (core_drbgDraw ..)
    · exact (hput ..).trans (core_drbgDraw ..)
  · rfl

@[simp] theorem core_setSession (s : State) (k : Nat) (x : Session) : (s.setSession k x).core = s.core := by
  unfold State.setSession
  split <;> simp

end Sys2Proof.Machine
end

section

/-!
SUPPORT. Operations, transfers and queues under programs, reduction sets and the host's submission and completion
queues.
-/

namespace Sys2Proof.Machine

open Sys2Proof

/-! From the model's `Program`. -/

@[simp] theorem core_setEntry (s : State) (i : Nat) (e : Entry) : (s.setEntry i e).core = s.core :=
  State.core_congr rfl rfl rfl rfl

@[simp] theorem core_countWaits (s : State) (f : FuncNo) (q : Nat) : (s.countWaits f q).core = s.core := by
  unfold State.countWaits
  split <;> simp

@[simp] theorem core_complete (s : State) (c : Comp) : (s.complete c).core = s.core := by
  simp [State.complete]

@[simp] theorem core_zeroNew (s : State) (f : FrameNo) (a : FramePart) : (s.zeroNew f a).core = s.core := by
  simp [State.zeroNew]

theorem leads_startRun (s : State) (r : Run) (p : Program) : s.Leads (s.startRun r p) := by
  unfold State.startRun
  extract_lets u p' count armed stop v w x e y z a bad b
  have hv : v.core = s.core := by
    clear_value stop armed
    simp only [v]
    split <;> simp [u]
  clear_value v
  have hy : y.core = v.core := by simp [y, x, w]
  have hz : z.core = y.core := State.core_foldl _ _ _ fun t f => by split <;> simp
  have ha : s.Leads a := by
    refine (State.leads_of_core (hz.trans (hy.trans hv))).trans (State.leads_mapFrames _ _ fun f fr => ?_)
    split
    · split
      · exact List.nil_sublist _
      · exact .refl _
    · exact .refl _
  have hb : s.Leads b := ha.rest (State.core_foldl _ _ _ fun _ _ => core_askAbort ..)
  exact State.leads_ite _ hb (hb.rest (core_takeAborts _))

theorem leading_execProgramStart (run : Nat) (s : State) : Leading s (execProgramStart run s) := by
  unfold execProgramStart
  split
  · split
    · exact leading_guardStep fun _ => leads_startRun ..
    · exact leading_next (.refl s)
  · exact leading_next (.refl s)

@[simp] theorem core_cutOps (s : State) (f : FrameNo) : (s.cutOps f).core = s.core := State.core_congr rfl rfl rfl rfl

theorem leads_cancelXfers (s : State) (r : Nat) : s.Leads (s.cancelXfers r) := leads_cancel ..

theorem leads_releaseFrame (s : State) (f : FrameNo) : s.Leads (s.releaseFrame f) := by
  unfold State.releaseFrame
  refine (State.leads_of_core ?_).trans (State.leads_updFrame _ _ _ (List.nil_sublist _))
  simp

@[simp] theorem core_closeRec (s : State) (id : Nat) : (s.closeRec id).core = s.core := State.core_congr rfl rfl rfl rfl

theorem leads_finishRun (s : State) (r : Run) : s.Leads (s.finishRun r) := by
  unfold State.finishRun
  extract_lets own after u v w x y e
  have hu : s.Leads u := by
    refine State.leads_ite _ (.trans (State.leads_of_core ?_) (leads_cancelXfers ..)) (.refl s)
    simp
  have hv : s.Leads v := hu.trans (State.leads_foldl _ _ leads_releaseFrame _)
  have hw : s.Leads w := hv.trans (State.leads_foldl _ _ (fun u f => State.leads_ite _ (leads_fence ..) (.refl u)) _)
  have hy : s.Leads y := hw.rest (by simp [y, x])
  refine State.leads_ite _ (hy.rest ?_) (hy.rest ?_) <;> simp

theorem leading_execFramePartEnd (f : FrameNo) (s : State) : Leading s (execFramePartEnd f s) := by
  unfold execFramePartEnd
  split
  · extract_lets u all
    have hu : s.Leads u := State.leads_of_core (State.core_updFrame _ _ _ fun _ => rfl)
    exact leading_guardStep fun _ => State.leads_ite _ (hu.trans (leads_finishRun ..)) (hu.rest (core_settleLeave _))
  · exact leading_next (.refl s)

theorem leading_execProgramAbort (run : Nat) (s : State) : Leading s (execProgramAbort run s) := by
  unfold execProgramAbort
  split
  · exact leading_guardStep fun _ => leads_finishRun ..
  · exact leading_next (.refl s)

theorem rests_execBeatStopRelease (f : FrameNo) (s : State) : Rests s (execBeatStopRelease f s) := by
  unfold execBeatStopRelease State.frmWrite
  split
  · simp
  · split <;> simp

theorem rests_execRegionFree (f : FrameNo) (number : BitVec 8) (s : State) : Rests s (execRegionFree f number s) := by
  unfold execRegionFree
  split
  · simp
  · split
    · simp
    · split
      · simp
      · dsimp only
        split
        · simp
        · split <;> simp

theorem rests_execRegionFreeComplete (f : FrameNo) (s : State) : Rests s (execRegionFreeComplete f s) := by
  simp [execRegionFreeComplete]

@[simp] theorem core_barSealed (s : State) (n : FuncNo) (a : Nat) : (s.barSealed n a).core = s.core := by
  simp [State.barSealed]

@[simp] theorem core_copyRow (s : State) (f : FrameNo) (b : Bool) (r a : Nat) :
    (State.copyRow s f b r a).1.core = s.core := by
  unfold State.copyRow
  generalize List.replicate 2048 (0 : Byte) = z
  dsimp only
  split
  · split
    · split
      · simp
      · simp
    · simp
  · split <;> simp

@[simp] theorem core_copyRows (s : State) (f : FrameNo) (b : Bool) (n r a : Nat) :
    (State.copyRows s f b n r a).1.core = s.core := by
  induction n generalizing s r a with
  | zero => rfl
  | succ n ih => simp [State.copyRows, ih]

theorem rests_execSpadXferGo (f : FrameNo) (first : BitVec 12) (rows : BitVec 13) (toMem : Bool) (s : State) :
    Rests s (execSpadXferGo f first rows toMem s) := by
  simp [execSpadXferGo]

theorem rests_execSpadXferComplete (f : FrameNo) (s : State) : Rests s (execSpadXferComplete f s) := by
  simp [execSpadXferComplete]

@[simp] theorem core_settleFunc (s : State) (n : FuncNo) : (s.settleFunc n).core = s.core := by
  simp [State.settleFunc]

@[simp] theorem core_settle (s : State) : s.settle.core = s.core := by
  simp [State.settle]

theorem rests_execFrameWipeComplete (f : FrameNo) (s : State) : Rests s (execFrameWipeComplete f s) := by
  simp [execFrameWipeComplete]

/-! From the model's `ReduceSets`. -/

theorem rests_execRsArm (set : Fin 64) (s : State) : Rests s (execRsArm set s) := by
  simp [execRsArm]

@[simp] theorem core_disarmSet (s : State) (i : Fin 64) : (s.disarmSet i).core = s.core := by
  simp [State.disarmSet]

@[simp] theorem core_disarmAll (s : State) : s.disarmAll.core = s.core := by
  simp [State.disarmAll]

theorem rests_execRsDisarm (set : Fin 64) (s : State) : Rests s (execRsDisarm set s) := by
  simp [execRsDisarm]

theorem rests_execBypass (on : Bool) (s : State) : Rests s (execBypass on s) := by
  simp [execBypass]

theorem rests_execContribution (set : Fin 64) (addr : Nat) (bytes : List Byte) (poison : Bool) (s : State) :
    Rests s (execContribution set addr bytes poison s) := by
  simp [execContribution]

@[simp] theorem core_answerBroken (s : State) (i : Inbound) : (s.answerBroken i).core = s.core := by
  unfold State.answerBroken
  split <;> simp

@[simp] theorem core_logHash (s : State) (set : Nat) (round : Nat) : (s.logHash set round).core = s.core := by
  simp [State.logHash]

@[simp] theorem core_takeRed (s : State) (i : Inbound) : (s.takeRed i).core = s.core := by
  simp [State.takeRed]

@[simp] theorem core_takeReddown (s : State) (i : Inbound) : (s.takeReddown i).core = s.core := by
  simp [State.takeReddown]

theorem core_takeRedOf {s t : State} {n : Nat} {i : Inbound} (h : s.takeRedOf n = some (i, t)) : t.core = s.core := by
  unfold State.takeRedOf at h
  obtain ⟨_, -, e⟩ := Option.map_eq_some_iff.mp h
  cases e
  exact State.core_congr rfl rfl rfl rfl

theorem rests_execRedReceive (s : State) : Rests s (execRedReceive s) := by
  unfold execRedReceive
  split
  next e => exact (rests_next ..).mpr ((core_takeRed ..).trans (core_takeRedOf e))
  next => simp

theorem rests_execReddownReceive (s : State) : Rests s (execReddownReceive s) := by
  unfold execReddownReceive
  split
  next e => exact (rests_next ..).mpr ((core_takeReddown ..).trans (core_takeRedOf e))
  next => simp

theorem rests_execRedLineTimeout (set : Fin 64) (line : Nat) (s : State) : Rests s (execRedLineTimeout set line s) := by
  simp [execRedLineTimeout]

/-! From the model's `HostQ`. -/

theorem leading_execSqTail (n : FuncNo) (q : Fin 64) (t : BitVec 16) (s : State) : Leading s (execSqTail n q t s) := by
  unfold execSqTail
  dsimp only
  split
  · exact leading_next (.refl s)
  · split
    · refine leading_next
        (.trans (State.leads_updSq _ n q _ fun h => h) (State.leads_of_core (State.core_updHostFn _ _ _ fun _ => rfl)))
    next h =>
      refine leading_next (State.leads_updSq _ n q _ fun k e => ⟨(k e).1, Nat.le_of_not_lt h⟩)

theorem leading_execCqHead (n : FuncNo) (q : Fin 64) (t : BitVec 16) (s : State) : Leading s (execCqHead n q t s) := by
  unfold execCqHead
  dsimp only
  split
  · exact leading_next (.refl s)
  · split
    · exact leading_next (State.leads_of_core (State.core_updHostFn _ _ _ fun _ => rfl))
    next h =>
      exact leading_next (State.leads_updCq _ n q _ fun k e => ⟨Nat.le_of_not_lt h, (k e).2⟩)

theorem leading_execQueueEnable (n : FuncNo) (cq : Bool) (q : Fin 64) (e : Bool) (s : State) :
    Leading s (execQueueEnable n cq q e s) := by
  unfold execQueueEnable
  extract_lets g limit
  split
  · exact leading_next (.refl s)
  · split
    · refine leading_next (.trans (State.leads_updCq _ n q _ fun h => ?_) (State.leads_of_core (core_countWaits ..)))
      simp only [EndsInside, Cq.ends] at h ⊢
      split <;> simp_all
    · refine leading_next (State.leads_updSq _ n q _ fun h => ?_)
      simp only [EndsInside, Sq.ends] at h ⊢
      split <;> simp_all

@[simp] theorem core_answerRec (s : State) (r : Rec) (status : Code) (index : Nat) :
    (s.answerRec r status index).core = s.core := by
  simp [State.answerRec]

theorem leads_acceptRec (s : State) (n : FuncNo) (q : Fin 64) (b : BitVec 512) : s.Leads (s.acceptRec n q b) := by
  unfold State.acceptRec
  extract_lets r u hq v hq'
  have moved : s.Leads
      (s.updSq n q fun x => { x with head := BitVec.ofNat 16 ((x.head.toNat + 1) % (x.sizeM1.toNat + 1)) }) :=
    State.leads_updSq _ _ _ _ fun h e => ⟨toNat_ofNat_next_le _ _, (h e).2⟩
  have hu : s.Leads u := moved.rest (State.core_updHostFn _ _ _ fun _ => rfl)
  clear_value u
  have hv : s.Leads v := hu.rest (core_setHostq _ _ rfl)
  clear_value v
  exact State.leads_ite _ (hv.rest (core_answerRec ..)) (hv.rest (core_setHostq _ _ rfl))

theorem leads_acceptAll (s : State) (n : FuncNo) (q : Fin 64) (l : List (BitVec 512)) :
    s.Leads (s.acceptAll n q l) := by
  induction l generalizing s with
  | nil => exact .refl s
  | cons b bs ih => exact State.leads_ite _ (.refl s) ((leads_acceptRec ..).trans (ih _))

theorem leading_execRecordFetch (n : FuncNo) (q : Fin 64) (l : List (BitVec 512)) (b : Bool) (s : State) :
    Leading s (execRecordFetch n q l b s) := by
  unfold execRecordFetch
  extract_lets ok hq u v
  have hu : s.Leads u := State.leads_of_core (core_setHostq _ _ rfl)
  have hv : s.Leads v := hu.rest (State.core_updHostFn _ _ _ fun _ => rfl)
  refine leading_guardStep fun _ => State.leads_ite _
    (.trans (hv.trans ?_) (State.leads_of_core (State.core_updHostFn _ _ _ fun _ => rfl)))
    (hv.trans (leads_acceptAll ..))
  exact State.leads_updSq _ n q _ fun h => h

theorem core_nextRecord {s t : State} {op : Nat} {r : Rec} (h : s.nextRecord op = some (r, t)) : t.core = s.core := by
  unfold State.nextRecord at h
  split at h
  · exact absurd h (by simp)
  · split at h
    · cases h
      exact core_setHostq _ _ rfl
    · exact absurd h (by simp)

@[simp] theorem core_tryLoad (s : State) (n : FuncNo) (hdr : Nat) : (s.tryLoad n hdr).2.2.core = s.core := by
  unfold State.tryLoad
  dsimp only
  split
  · rfl
  · split
    · rfl
    · split
      · rfl
      · split
        · rfl
        · split <;> simp

@[simp] theorem core_refuseLocked (s : State) (r : Rec) (index : Nat) : (s.refuseLocked r index).core = s.core := by
  simp [State.refuseLocked]

theorem rests_execLoad (s : State) : Rests s (execLoad s) := by
  unfold execLoad
  split
  next r t e =>
    have ht := core_nextRecord e
    split
    · simp [ht]
    · simp [ht]
  next => simp

theorem rests_execUnload (s : State) : Rests s (execUnload s) := by
  unfold execUnload
  split
  next r t e =>
    have ht := core_nextRecord e
    split
    · simp [ht]
    · split <;> simp [ht]
  next => simp

@[simp] theorem core_updCache (s : State) (g : List Nat → List Nat) : (s.updCache g).core = s.core :=
  State.core_congr rfl rfl rfl rfl

@[simp] theorem ends_updCache (s : State) (g : List Nat → List Nat) :
    (s.updCache g).hostq.fns.map HostFn.ends = s.hostq.fns.map HostFn.ends := rfl

@[simp] theorem core_evict (s : State) : s.evict.core = s.core := by
  unfold State.evict
  split
  · rfl
  · dsimp only
    split <;> simp

@[simp] theorem core_fetchEntry (s : State) (i : Nat) : (s.fetchEntry i).core = s.core := by
  unfold State.fetchEntry
  split <;> simp

@[simp] theorem core_lookup (s : State) (i : Nat) : (s.lookup i).core = s.core := by
  simp [State.lookup]

@[simp] theorem core_addBound (s : State) (handle : Nat) (up : Bool) : (s.addBound handle up).core = s.core :=
  State.core_congr rfl rfl rfl rfl

theorem rests_execBind (s : State) : Rests s (execBind s) := by
  unfold execBind
  split
  next r t e =>
    have ht := core_nextRecord e
    dsimp only
    split
    · simp [ht]
    · split <;> simp [ht]
  next => simp

theorem rests_execUnbind (s : State) : Rests s (execUnbind s) := by
  unfold execUnbind
  split
  next r t e =>
    have ht := core_nextRecord e
    dsimp only
    split
    · simp [ht]
    · split <;> simp [ht]
  next => simp

theorem rests_execLaunch (s : State) : Rests s (execLaunch s) := by
  unfold execLaunch
  split
  next r t e =>
    have ht := core_nextRecord e
    extract_lets i u en fs seq v hq
    have hu : u.core = s.core := by
      simp only [u]
      split <;> simp [ht]
    clear_value u
    split
    · simp [ht]
    · split
      · simp [hu]
      · exact (rests_next ..).mpr ((core_setHostq _ _ rfl).trans ((core_setEntry ..).trans hu))
  next => simp

theorem leads_assign (s : State) (l : Launch) : s.Leads (s.assign l) := by
  unfold State.assign
  extract_lets hq u e v id fr
  have hu : s.Leads u := State.leads_of_core (core_setHostq _ _ rfl)
  split
  · exact hu
  · split
    · refine hu.rest ((core_complete ..).trans ((core_setEntry ..).trans (State.core_updHostFn _ _ _ fun _ => by rfl)))
    · extract_lets r w
      have hw : s.Leads w := hu.rest (State.core_congr rfl rfl rfl rfl)
      refine hw.trans (State.leads_foldl _ _ (fun t a => ?_) _)
      split
      · exact State.leads_updFrame _ _ _ (List.nil_sublist _)
      · exact .refl t

theorem leading_execLaunchAdmit (s : State) : Leading s (execLaunchAdmit s) := by
  unfold execLaunchAdmit
  extract_lets held ls hq u
  have hu : s.Leads u := State.leads_of_core (core_setHostq _ _ rfl)
  exact leading_next (hu.trans (State.leads_foldl _ _ leads_assign _))

theorem rests_execHcopy (s : State) : Rests s (execHcopy s) := by
  unfold execHcopy
  split
  next r t e =>
    have ht := core_nextRecord e
    dsimp only
    split
    · simp [ht]
    · split <;> simp [ht]
  next => simp

@[simp] theorem core_copyIn (s : State) (n : FuncNo) (a : Nat) (bytes : List Byte) (mark : Option Mark) :
    (s.copyIn n a bytes mark).core = s.core := by
  unfold State.copyIn
  split <;> simp

@[simp] theorem core_copyOut (s : State) (n : FuncNo) (a : Nat) (len : Nat) : (s.copyOut n a len).1.core = s.core := by
  unfold State.copyOut
  split <;> simp

@[simp] theorem core_moveCopy (s : State) (h : HCopy) (data : List Byte) (poisoned : List (Nat × Nat)) :
    (s.moveCopy h data poisoned).core = s.core := by
  simp [State.moveCopy]

theorem rests_execHcopyComplete (rec : Nat) (data : List Byte) (ep : List (Nat × Nat)) (dmaFault : Bool) (s : State) :
    Rests s (execHcopyComplete rec data ep dmaFault s) := by
  unfold execHcopyComplete
  split <;> simp

@[simp] theorem core_coalesce (s : State) (f : FuncNo) (q : Fin 64) : (State.coalesce s f q).core = s.core := by
  have h : (s.updCq f q fun x => { x with unsignalled := 0 }).core = s.core :=
    State.core_updHostFn _ _ _ fun h => congrArg (h.sqs.map Sq.ends, ·) (Vector.map_set_eq_map _ _ _ _ rfl)
  unfold State.coalesce
  dsimp only
  split
  · exact (core_signal ..).trans h
  · rfl

theorem leads_writeComp (s : State) (c : Comp) (q : Fin 64) : s.Leads (s.writeComp c q) := by
  unfold State.writeComp
  extract_lets f cq head next u v w e x
  have hu : s.Leads u := State.leads_of_core (core_emit ..)
  have hv : s.Leads v := hu.trans (State.leads_updCq _ _ _ _ fun h k => ⟨(h k).1, toNat_ofNat_next_le _ _⟩)
  have hw : s.Leads w := hv.rest ((core_closeRec ..).trans (State.core_updHostFn _ _ _ fun _ => by rfl))
  have hx : x.core = w.core := by
    clear_value w
    simp only [x]
    split
    · exact (core_setEntry ..).trans (core_lookup ..)
    · rfl
  exact hw.rest ((core_countWaits ..).trans ((core_coalesce ..).trans hx))

theorem leading_execCompletionRecordWrite (k : Nat) (s : State) : Leading s (execCompletionRecordWrite k s) := by
  unfold execCompletionRecordWrite
  split
  · exact leading_next (.refl s)
  · extract_lets first f hq t
    split
    · extract_lets cq
      have ht : s.Leads t := State.leads_of_core (core_setHostq _ _ rfl)
      exact leading_guardStep fun _ => ht.trans (leads_writeComp ..)
    · exact leading_next (.refl s)

theorem leading_execCoalTimeExpiry (f : FuncNo) (q : Fin 64) (s : State) : Leading s (execCoalTimeExpiry f q s) := by
  unfold execCoalTimeExpiry
  refine leading_guardStep fun _ => ?_
  exact .trans (State.leads_updCq _ f q _ fun h => h) (State.leads_of_core (core_signal ..))

@[simp] theorem core_updFunc (s : State) (n : FuncNo) (g : Func → Func) : (s.updFunc n g).core = s.core :=
  State.core_congr rfl rfl rfl rfl

theorem rests_execFuncEnable (func : FuncNo) (s : State) : Rests s (execFuncEnable func s) := by
  simp [execFuncEnable]

theorem leads_dropPrograms (s : State) (n : FuncNo) : s.Leads (s.dropPrograms n) := by
  unfold State.dropPrograms
  extract_lets u v w
  have hv : s.Leads v := State.leads_of_core (by simp [v, u])
  have hw : s.Leads w := hv.trans (State.leads_foldl _ _ leads_finishRun _)
  exact hw.rest (State.core_congr rfl rfl rfl rfl)

@[simp] theorem core_freeEntries (s : State) (n : FuncNo) : (s.freeEntries n).core = s.core := by
  unfold State.freeEntries
  dsimp only
  split <;> simp

@[simp] theorem core_dropSessions (s : State) (n : FuncNo) : (s.dropSessions n).core = s.core :=
  State.core_congr rfl rfl rfl rfl

@[simp] theorem core_dropSpans (s : State) (n : FuncNo) (all : Bool) : (State.dropSpans s n all).core = s.core := by
  unfold State.dropSpans
  extract_lets part wins spans hits u layer set
  have hu : u.core = s.core := State.core_foldl _ _ _ fun _ _ => core_startWipe ..
  exact (State.core_congr rfl rfl rfl rfl).trans ((core_dropSessions u n).trans hu)

theorem leads_resetFunc (s : State) (n : FuncNo) (all : Bool) : s.Leads (s.resetFunc n all) := by
  unfold State.resetFunc
  extract_lets g u v w x part y
  have hu : s.Leads u := State.leads_updHostFn _ _ _ fun q => by simp [EndsInside, Sq.ends, Cq.ends]
  have hv : s.Leads v := (hu.trans (leads_dropPrograms u n)).rest (by simp [v])
  have hw : s.Leads w := by
    refine hv.trans (State.leads_foldl _ _ (fun u f => ?_) _)
    dsimp only
    refine .trans (t := u.updFrame f fun fr => { fr with flags := Vector.replicate 256 0 }) ?_
      (State.leads_ite _ (.refl _) (State.leads_of_core ?_))
    · exact State.leads_of_core (by simp)
    · simp
  exact hw.rest (by simp [y, x])

theorem leading_execFunctionReset (f : FuncNo) (s : State) : Leading s (execFunctionReset f s) := by
  unfold execFunctionReset
  dsimp only
  split
  · exact leading_next (.refl s)
  · split
    · exact leading_next ((leads_resetFunc s f false).rest (by simp))
    · refine leading_next (State.leads_of_core ?_)
      rw [core_emit]
      split <;> simp

theorem leads_pfReset (s : State) : s.Leads s.pfReset := by
  unfold State.pfReset
  extract_lets vfs u v w
  have hu : s.Leads u := State.leads_foldl _ _ (fun u n => leads_resetFunc u n false) _
  have hv : s.Leads v := hu.rest (by simp [v])
  have hw : s.Leads w := hv.trans (leads_resetFunc v 0 true)
  clear_value w
  exact hw.rest ((core_settle _).trans (State.core_congr rfl rfl rfl rfl))

theorem leading_execPfFunctionReset (s : State) : Leading s (execPfFunctionReset s) := by
  unfold execPfFunctionReset
  split
  · exact leading_next (State.leads_of_core (by simp))
  · split
    · exact leading_next (.refl s)
    · exact leading_next (leads_pfReset s)

end Sys2Proof.Machine
end

section

/-!
SUPPORT. Operations, transfers and queues under domains, faults, the LNE, resets and boot stages.
-/

namespace Sys2Proof.Machine

open Sys2Proof

/-! From the model's `Power`. -/

@[simp] theorem core_writeBudget (s : State) (b : BitVec 16) : (s.writeBudget b).core = s.core :=
  State.core_congr rfl rfl rfl rfl

theorem rests_execBudgetWrite (budget : BitVec 16) (s : State) : Rests s (execBudgetWrite budget s) := by
  simp [execBudgetWrite]

theorem rests_execBudgetStale (s : State) : Rests s (execBudgetStale s) := by
  simp [execBudgetStale]

theorem rests_execCntClear (s : State) : Rests s (execCntClear s) := by
  simp [execCntClear]

@[simp] theorem core_readAvs (s : State) (got : Nat) : (s.readAvs got).core = s.core := by
  simp [State.readAvs]

theorem rests_execBudgetUpdate (avs : Nat) (pkgMw : Nat) (s : State) : Rests s (execBudgetUpdate avs pkgMw s) := by
  simp [execBudgetUpdate]

theorem rests_execVcoreSet (rail : Fin 2) (point : BitVec 10 × Bool) (s : State) :
    Rests s (execVcoreSet rail point s) := by
  simp [execVcoreSet]

@[simp] theorem core_updDomain (s : State) (d : Nat) (g : Domain → Domain) : (s.updDomain d g).core = s.core := by
  unfold State.updDomain
  split <;> simp

theorem leads_enterRetain (s : State) (d : Nat) : s.Leads (s.enterRetain d) := by
  exact (leads_powerDown s (s.framesIn d) false).rest (by simp [State.enterRetain])

@[simp] theorem core_dieDrbg (s : State) (d : Nat) (on : Bool) : (s.dieDrbg d on).core = s.core := by
  simp [State.dieDrbg]

theorem leads_enterOff (s : State) (d : Nat) : s.Leads (s.enterOff d) := by
  unfold State.enterOff
  extract_lets fs u v
  have hu : s.Leads u := leads_powerDown ..
  have hv : v.core = u.core := by
    simp only [v]
    split <;> simp
  exact hu.rest (by simp [hv])

@[simp] theorem core_wakeFrames (s : State) (d : Nat) : (s.wakeFrames d).core = s.core := by
  simp [State.wakeFrames]

@[simp] theorem core_dieBack (s : State) (d : Nat) : (s.dieBack d).core = s.core := by
  simp [State.dieBack]

@[simp] theorem core_enterOn (s : State) (d : Nat) : (s.enterOn d).core = s.core := by
  unfold State.enterOn
  split <;> simp

theorem leads_enterDomain (s : State) (d : Nat) (t : DomState) : s.Leads (s.enterDomain d t) := by
  cases t
  case on => exact State.leads_of_core (core_enterOn ..)
  case retain => exact leads_enterRetain ..
  case off => exact leads_enterOff ..
  case switching => exact .refl s

@[simp] theorem core_gateDone (s : State) (d : Nat) : (s.gateDone d).core = s.core := by
  simp [State.gateDone]

@[simp] theorem core_runQueue (s : State) (l : List DomTrans) : (State.runQueue s l).core = s.core := by
  induction l generalizing s with
  | nil => rfl
  | cons t ts ih =>
    unfold State.runQueue
    split
    · rw [ih]
      split <;> simp
    · dsimp only
      split
      · exact core_updDomain ..
      · rfl

@[simp] theorem core_startHead (s : State) : s.startHead.core = s.core := by
  simp [State.startHead]

@[simp] theorem core_askTrans (s : State) (t : DomTrans) : (State.askTrans s t).core = s.core := core_runQueue ..

@[simp] theorem core_dropTrans (s : State) (p : Nat → Bool) : (s.dropTrans p).core = s.core := by
  simp [State.dropTrans]

@[simp] theorem core_domainGo (s : State) (d : Fin 36) (target : BitVec 2) (t : DomState) :
    (s.domainGo d target t).core = s.core := by
  simp [State.domainGo]

theorem rests_execDomainOn (domain : Fin 36) (s : State) : Rests s (execDomainOn domain s) := by
  simp [execDomainOn]

theorem rests_execDomainRetain (domain : Fin 36) (s : State) : Rests s (execDomainRetain domain s) := by
  simp [execDomainRetain]

theorem rests_execDomainOff (domain : Fin 36) (s : State) : Rests s (execDomainOff domain s) := by
  simp [execDomainOff]

theorem leads_endTrans (s : State) (t : DomTrans) (r : List DomTrans) : s.Leads (s.endTrans t r) := by
  unfold State.endTrans
  extract_lets fs u
  have hu : s.Leads u :=
    State.leads_ite _ (((State.leads_keepXfers ..).trans (leads_enterDomain ..)).rest (core_gateDone ..))
      (leads_enterDomain ..)
  exact hu.rest (core_runQueue ..)

theorem leading_execDomainTransitionComplete (s : State) : Leading s (execDomainTransitionComplete s) := by
  unfold execDomainTransitionComplete
  split
  · exact leading_next (State.leads_ite _ (leads_endTrans ..) (State.leads_of_core (core_startHead ..)))
  · exact leading_next (.refl s)

theorem rests_execGateWaitExpiry (s : State) : Rests s (execGateWaitExpiry s) := by
  unfold execGateWaitExpiry
  split <;> simp

@[simp] theorem core_scanHot (s : State) : s.scanHot.core = s.core := by
  simp [State.scanHot]

@[simp] theorem core_scanCrit (s : State) : (State.scanCrit s).core = s.core := by
  unfold State.scanCrit
  split
  · extract_lets doms lost fs u ad v w ad'
    have hu : u.core = s.core := State.core_foldl _ _ _ fun t f => by split <;> simp
    clear_value u
    have hv : v.core = s.core := (core_alert _).trans ((core_log _ _ _ _).trans hu)
    have hw : w.core = s.core := by
      refine (State.core_mapFrames _ _ fun f fr => ?_).trans hv
      split <;> rfl
    clear_value w
    split
    · exact (State.core_setAdm ..).trans hu
    · exact (State.core_setAdm ..).trans hw
  · rfl

theorem rests_execThermalScan (s : State) : Rests s (execThermalScan s) := by
  simp [execThermalScan]

theorem rests_execForceDrainExpiry (domain : Fin 36) (s : State) : Rests s (execForceDrainExpiry domain s) := by
  simp [execForceDrainExpiry]

/-! From the model's `Faults`. -/

@[simp] theorem core_showMap (s : State) : s.showMap.core = s.core := by
  simp [State.showMap]

@[simp] theorem core_keepOn (s : State) (d : Nat) : (s.keepOn d).core = s.core := State.core_congr rfl rfl rfl rfl

theorem leads_mapSpare (s : State) (f : FrameNo) (p : Nat) : s.Leads (s.mapSpare f p) := by
  unfold State.mapSpare
  extract_lets d warm u v
  have hu : s.Leads u := State.leads_updFrame _ _ _ (List.nil_sublist _)
  have hv : v.core = u.core := by simp [v]
  refine hu.rest ?_
  split
  · exact (core_wipeFrame ..).trans hv
  · exact (core_askTrans ..).trans hv

@[simp] theorem core_dropPair (s : State) (d : Nat) : (s.dropPair d).core = s.core := by
  simp [State.dropPair]

theorem leading_execRemap (f : FrameNo) (s : State) : Leading s (execRemap f s) := by
  unfold execRemap
  split
  · exact leading_next (.refl s)
  · extract_lets c t
    have ht : s.Leads t := State.leads_of_core (State.core_updFrame _ _ _ fun _ => rfl)
    split
    · exact leading_next (.refl s)
    · refine leads_frmWrite f (State.leads_ite _ (leads_mapSpare ..) (State.leads_ite _ (ht.rest ?_) ht))
      simp

theorem rests_execRemapComplete (f : FrameNo) (s : State) : Rests s (execRemapComplete f s) := by
  simp [execRemapComplete]

theorem rests_execHealthClear (f : FrameNo) (s : State) : Rests s (execHealthClear f s) := by
  unfold execHealthClear State.frmWrite
  split
  · simp
  · rw [rests_next]
    split
    · exact State.core_updFrame _ _ _ fun _ => rfl
    · simp

theorem rests_execFaultRingHead (head : BitVec 16) (s : State) : Rests s (execFaultRingHead head s) := by
  simp [execFaultRingHead]

theorem rests_execAlertClr (s : State) : Rests s (execAlertClr s) := by
  simp [execAlertClr]

theorem leads_noXfers (s : State) : s.Leads { s with
    runs := [], xfers := []
    hostq := { s.hostq with accepted := [], open_ := [], launches := [], comps := [], hcopies := [] } } :=
  State.leads_of_less (fun _ => .refl _) (List.nil_sublist _) rfl rfl

theorem leads_dropAll (s : State) : s.Leads s.dropAll :=
  (State.leads_mapFrames s
    (fun _ fr => { fr with rn := {}, active := false, done := false, decl := 0, fencePend := false })
    fun _ _ => List.nil_sublist _).trans (leads_noXfers _)

@[simp] theorem core_idleUnits (s : State) : s.idleUnits.core = s.core := State.core_congr rfl rfl rfl rfl

@[simp] theorem core_emptySessions (s : State) : s.emptySessions.core = s.core := State.core_congr rfl rfl rfl rfl

@[simp] theorem core_dropLne (s : State) : s.dropLne.core = s.core := State.core_congr rfl rfl rfl rfl

theorem leads_offs (ds : List Nat) (s : State) :
    s.Leads (ds.foldl (fun (t : State) d => if isFrameDom d then t.enterOff d else t) s) :=
  State.leads_foldl _ _ (fun u _ => State.leads_ite _ (leads_enterOff ..) (.refl u)) _

theorem leads_computeOff (s : State) : s.Leads s.computeOff := by
  have h := ((leads_offs (List.range 20) s).trans (leads_enterOff _ 9)).trans (leads_enterOff _ 19)
  exact h.rest (by simp [State.computeOff])

@[simp] theorem core_finishOrphan (s : State) (rec_ : BitVec 512) : (s.finishOrphan rec_).core = s.core := by
  simp [State.finishOrphan]

theorem leads_fenceAll (s : State) : s.Leads (s.mapFrames fun _ fr => { fr with
    seq := { fr.seq with state := if fr.seq.state = .unavailable then .unavailable else .fenced }
    reg := { fr.reg with fenceCause := 3 } }) :=
  State.leads_of_core (State.core_mapFrames _ _ fun _ _ => rfl)

theorem leads_enterOrphan (s : State) (a : Code × BitVec 64) (b : Code) (pc : Nat) :
    s.Leads (s.enterOrphan a b pc) := by
  have h := ((leads_dropAll s).trans (leads_fenceAll _)).trans (leads_computeOff _)
  refine h.rest ?_
  unfold State.enterOrphan
  dsimp only
  split <;> simp

@[simp] theorem core_restartFw (s : State) : s.restartFw.core = s.core := by
  unfold State.restartFw
  dsimp only
  split <;> simp

@[simp] theorem core_loosenLne (s : State) : s.loosenLne.core = s.core := State.core_congr rfl rfl rfl rfl

@[simp] theorem core_failTrial (s : State) : s.failTrial.core = s.core := by
  simp [State.failTrial]

@[simp] theorem core_endMailbox (s : State) (c : Nat) (result : Nat) (bytes : List Byte) :
    (s.endMailbox c result bytes).core = s.core := by
  unfold State.endMailbox
  split <;> simp

theorem leads_expire (s : State) (c : Code) : s.Leads (s.expire c) := by
  have head : ∀ u : State, (match u.mgmt.goQueue with | c :: _ => u.endMailbox c 6 [] | [] => u).core = u.core := by
    intro u
    split <;> simp
  unfold State.expire
  dsimp only
  split
  · refine .trans (State.leads_of_core ?_) (leads_enterOrphan ..)
    simp
    exact fun _ => (head _).trans (by simp)
  · refine State.leads_of_core ?_
    simp
    exact fun _ => (head _).trans (by simp)

theorem leading_execReckonerWatchdog (b : Bool) (s : State) : Leading s (execReckonerWatchdog b s) :=
  leading_guardStep fun _ => leads_expire ..

theorem rests_execWatchdogKick (s : State) : Rests s (execWatchdogKick s) := by
  simp [execWatchdogKick]

theorem core_powerOn (s : State) : s.powerOn.core = Core.blank s.tearRecord.nextXfer := by
  unfold State.powerOn
  exact (State.core_congr rfl rfl rfl rfl).trans (State.core_reset _)

theorem leads_powerOn (s : State) : s.Leads s.powerOn := State.leads_of_blank (core_powerOn s)

theorem leads_finishReset (s : State) (c : BitVec 3) : s.Leads (s.finishReset c) := by
  unfold State.finishReset
  extract_lets kept t
  have ht : s.Leads t := leads_powerOn s
  clear_value t
  exact ht.rest (State.core_congr rfl rfl rfl rfl)

theorem leads_deviceReset (s : State) (c : BitVec 3) : s.Leads (s.deviceReset c) := by
  unfold State.deviceReset
  extract_lets kept u tl bo v
  have hu : s.Leads u := ((leads_dropAll s).trans (leads_enterOff s.dropAll 32)).rest (core_dropLne _)
  have hv : s.Leads v := by
    clear_value u
    exact hu.rest (State.core_congr rfl rfl rfl rfl)
  exact State.leads_ite _ (hv.trans (leads_finishReset v c)) hv

/-! From the model's `Lne`. -/

@[simp] theorem core_lneAccept (s : State) (x : LneOp) : (s.lneAccept x).core = s.core := by
  simp [State.lneAccept]

@[simp] theorem core_lneGo (s : State) (op : Nat) (lenW : BitVec 8) (msgLen : BitVec 9) :
    (s.lneGo op lenW msgLen).core = s.core := by
  simp [State.lneGo]

@[simp] theorem rests_lneCmd (s : State) (op : Nat) (lenW : BitVec 8) (msgLen : BitVec 9) :
    Rests s (s.lneCmd op lenW msgLen) := by
  simp [State.lneCmd]

theorem rests_execModmul (lenW : BitVec 8) (s : State) : Rests s (execModmul lenW s) := by
  simp [execModmul]

theorem rests_execModexp (lenW : BitVec 8) (s : State) : Rests s (execModexp lenW s) := by
  simp [execModexp]

theorem rests_execModinv (lenW : BitVec 8) (s : State) : Rests s (execModinv lenW s) := by
  simp [execModinv]

theorem rests_execEcPub (lenW : BitVec 8) (p384 : Bool) (s : State) : Rests s (execEcPub lenW p384 s) := by
  simp [execEcPub]

theorem rests_execEcdh (lenW : BitVec 8) (p384 : Bool) (s : State) : Rests s (execEcdh lenW p384 s) := by
  simp [execEcdh]

theorem rests_execEcdsaSign (lenW : BitVec 8) (p384 : Bool) (s : State) : Rests s (execEcdsaSign lenW p384 s) := by
  simp [execEcdsaSign]

theorem rests_execEcdsaVerify (lenW : BitVec 8) (p384 : Bool) (s : State) : Rests s (execEcdsaVerify lenW p384 s) := by
  simp [execEcdsaVerify]

theorem rests_execX25519 (lenW : BitVec 8) (s : State) : Rests s (execX25519 lenW s) := by
  simp [execX25519]

theorem rests_execEd25519Pub (lenW : BitVec 8) (s : State) : Rests s (execEd25519Pub lenW s) := by
  simp [execEd25519Pub]

theorem rests_execEd25519Sign (lenW : BitVec 8) (msgLen : BitVec 9) (s : State) :
    Rests s (execEd25519Sign lenW msgLen s) := by
  simp [execEd25519Sign]

theorem rests_execEd25519Verify (lenW : BitVec 8) (msgLen : BitVec 9) (s : State) :
    Rests s (execEd25519Verify lenW msgLen s) := by
  simp [execEd25519Verify]

theorem rests_execLneReservedOp (op : BitVec 8) (lenW : BitVec 8) (msgLen : BitVec 9) (s : State) :
    Rests s (execLneReservedOp op lenW msgLen s) := by
  simp [execLneReservedOp]

theorem rests_execLnePendingStart (s : State) : Rests s (execLnePendingStart s) := by
  unfold execLnePendingStart
  split <;> simp

@[simp] theorem core_lneNext (s : State) : s.lneNext.core = s.core := by
  unfold State.lneNext
  split <;> simp

theorem leads_lneFree (s : State) : s.Leads s.lneFree := by
  unfold State.lneFree
  extract_lets l u
  have hu : s.Leads u := State.leads_of_core (State.core_congr rfl rfl rfl rfl)
  split
  · exact hu.trans (leads_finishReset ..)
  · exact hu.rest (by simp)
  · exact hu.rest (by simp)

theorem leading_execLneDone (s : State) : Leading s (execLneDone s) := by
  unfold execLneDone
  split
  next x _ =>
    have h : s.Leads { s with lne := s.lne.finish x } := State.leads_of_core (State.core_congr rfl rfl rfl rfl)
    exact leading_next (State.leads_ite _ (h.trans (leads_lneFree _)) (State.leads_ite _ (leads_lneFree s) (.refl s)))
  next => exact leading_next (.refl s)

/-! From the model's `Boot`. -/

theorem leading_execPowerOn (s : State) : Leading s (execPowerOn s) := leading_next (leads_powerOn s)

theorem leading_execDeviceReset (c : BitVec 3) (s : State) : Leading s (execDeviceReset c s) := by
  unfold execDeviceReset
  extract_lets j u asked t
  have hu : s.Leads u := State.leads_ite _ (State.leads_of_core (State.core_congr rfl rfl rfl rfl)) (.refl s)
  have ht : s.Leads t := hu.trans (leads_deviceReset u c)
  clear_value t u
  refine leading_next (State.leads_ite _ (State.leads_ite _ (ht.rest (State.core_congr rfl rfl rfl rfl)) ht) hu)

theorem leading_execHostReset (s : State) : Leading s (execHostReset s) := by
  unfold execHostReset
  extract_lets b m t busy
  have ht : s.Leads t := State.leads_of_core (State.core_congr rfl rfl rfl rfl)
  exact leading_guardStep fun _ => State.leads_ite _ (ht.trans (leads_pfReset t)) ht

theorem rests_execHostLinkTraining (s : State) : Rests s (execHostLinkTraining s) := by
  simp [execHostLinkTraining]

@[simp] theorem core_enterStage (s : State) (k : Nat) : (s.enterStage k).core = s.core := by
  simp [State.enterStage]

@[simp] theorem core_switchOn (s : State) (ds : List Nat) : (s.switchOn ds).core = s.core := by
  simp [State.switchOn]

@[simp] theorem core_setTopology (s : State) : s.setTopology.core = s.core := State.core_congr rfl rfl rfl rfl

@[simp] theorem core_trainPorts (s : State) : s.trainPorts.core = s.core := by
  simp [State.trainPorts]

@[simp] theorem core_losePorts (s : State) : s.losePorts.core = s.core := by
  simp [State.losePorts]

theorem leads_switchOff (s : State) (ds : List Nat) : s.Leads (s.switchOff ds) :=
  State.leads_foldl _ _ (fun u _ => State.leads_ite _ (leads_enterOff ..) (.refl u)) _

@[simp] theorem core_setMemory (s : State) (ok : BitVec 32) : (s.setMemory ok).core = s.core :=
  State.core_congr rfl rfl rfl rfl

@[simp] theorem core_setProfile (s : State) : s.setProfile.core = s.core := State.core_congr rfl rfl rfl rfl

theorem leads_enterRecovery (s : State) (ms : Nat) : s.Leads (s.enterRecovery ms) := by
  unfold State.enterRecovery
  dsimp only
  split
  · refine State.leads_of_core ?_
    simp
  · refine .trans (State.leads_of_core ?_) (leads_switchOff ..)
    simp

@[simp] theorem core_trySlots (s : State) (ok : BitVec 32) (l : List Nat) : (State.trySlots s ok l).core = s.core := by
  induction l generalizing s with
  | nil => rfl
  | cons k ks ih =>
    unfold State.trySlots
    extract_lets c trial e bo u image bo' mg v
    split
    · rfl
    · rw [ih]
      have hv : v.core = s.core := by
        simp only [v]
        split <;> simp [u]
      split <;> simp [hv]

@[simp] theorem core_loadCode (s : State) : s.loadCode.1.core = s.core := by
  unfold State.loadCode
  dsimp only
  split
  · simp
  · split <;> simp

@[simp] theorem core_bringUp (s : State) (r : BitVec 32) : (State.bringUp s r).core = s.core := by
  unfold State.bringUp
  extract_lets u lost v bad w x dies y groups pairs
  have hv : v.core = s.core := by simp [v, u]
  have hw : w.core = v.core := by
    refine State.core_mapFrames _ _ fun f fr => ?_
    split <;> rfl
  have hy : y.core = s.core := by simp [y, x, hw, hv]
  clear_value y
  exact (State.core_congr (s := y.switchOn (groups ++ pairs)) rfl rfl rfl rfl).trans ((core_switchOn ..).trans hy)

@[simp] theorem core_trainMemory (s : State) (ok : BitVec 32) (ms : Nat) : (s.trainMemory ok ms).core = s.core := by
  simp [State.trainMemory]

@[simp] theorem core_commitConfig (s : State) : s.commitConfig.core = s.core := by
  simp [State.commitConfig]

@[simp] theorem core_finishBoot (s : State) (pcie : Bool) (ms : Nat) : (s.finishBoot pcie ms).core = s.core := by
  simp [State.finishBoot]

@[simp] theorem core_wipeScratchpads (s : State) : s.wipeScratchpads.core = s.core := by
  simp [State.wipeScratchpads]

@[simp] theorem core_startLinksAndWipes (s : State) : s.startLinksAndWipes.core = s.core := by
  simp [State.startLinksAndWipes]

@[simp] theorem core_findFlash (s : State) : s.findFlash.core = s.core := by
  simp [State.findFlash]

theorem leads_bootNext (s : State) (ms : Nat) (ok : BitVec 32) : s.Leads (s.bootNext ms ok) := by
  unfold State.bootNext
  dsimp only
  split
  · exact State.leads_of_core (by simp)
  · exact State.leads_of_core (by simp)
  · exact State.leads_ite _ (State.leads_of_core (by simp)) (leads_enterRecovery ..)
  · refine State.leads_ite _ (State.leads_of_core (by simp)) (.trans (State.leads_of_core ?_) (leads_enterRecovery ..))
    simp
  · refine State.leads_ite _ (State.leads_of_core ?_) (.trans (State.leads_of_core ?_) (leads_enterRecovery ..)) <;>
      simp
  · exact State.leads_of_core (by simp)
  · exact State.leads_of_core (by simp)
  · refine State.leads_of_core ?_
    split <;> simp
  · exact State.leads_ite _ (.refl s) (State.leads_of_core (by simp))
  · exact State.leads_ite _ (State.leads_ite _ (.refl s) (State.leads_of_core (by simp)))
      (State.leads_ite _ (.refl s) (leads_expire ..))
  · exact State.leads_ite _ (State.leads_of_core (by simp)) (.refl s)

theorem leading_execBootStageAdvance (ms : Nat) (ok : BitVec 32) (s : State) :
    Leading s (execBootStageAdvance ms ok s) := by
  have h : s.Leads { s with jtag := { s.jtag with pinLow := false } } :=
    State.leads_of_core (State.core_congr rfl rfl rfl rfl)
  exact leading_guardStep fun _ => h.trans (leads_bootNext _ ms ok)

theorem rests_execSupplyFault (sensor : Fin 24) (s : State) : Rests s (execSupplyFault sensor s) := by
  simp [execSupplyFault]

theorem leads_dieLoss (s : State) (d : Nat) : s.Leads (s.dieLoss d) := by
  unfold State.dieLoss
  extract_lets fs u doms v w rest am y z bo
  have hu : s.Leads u := State.leads_of_core (State.core_foldl _ _ _ fun t f => by split <;> simp)
  have hv : s.Leads v := hu.trans (State.leads_foldl _ _ leads_enterOff _)
  have hw : w.core = v.core := State.core_foldl _ _ _ fun t f => core_wipeBytes ..
  clear_value w
  refine hv.rest (.trans ?_ hw)
  simp [y, z]

theorem leading_execBrownOut (r : Fin 4) (s : State) : Leading s (execBrownOut r s) :=
  leading_next (State.leads_ite _ (leads_dieLoss ..) (leads_powerOn s))

theorem rests_execRefclkLinkLoss (s : State) : Rests s (execRefclkLinkLoss s) := by
  simp [execRefclkLinkLoss]

theorem rests_execRefclkPcieLoss (s : State) : Rests s (execRefclkPcieLoss s) := by
  simp [execRefclkPcieLoss]

theorem rests_execBypassInstruction (code : BitVec 8) (tdi : Bool) (s : State) :
    Rests s (execBypassInstruction code tdi s) := by
  simp [execBypassInstruction]

theorem rests_execSamplePreload (pins : BitVec 2413) (s : State) : Rests s (execSamplePreload pins s) := by
  simp [execSamplePreload]

@[simp] theorem core_testInstr (s : State) (ir : TapInstr) (resetLow : Bool) :
    (s.testInstr ir resetLow).core = s.core :=
  State.core_congr rfl rfl rfl rfl

theorem rests_execExtest (resetLow : Bool) (s : State) : Rests s (execExtest resetLow s) := by
  simp [execExtest]

theorem rests_execHighz (resetLow : Bool) (s : State) : Rests s (execHighz resetLow s) := by
  simp [execHighz]

theorem rests_execClamp (resetLow : Bool) (s : State) : Rests s (execClamp resetLow s) := by
  simp [execClamp]

theorem rests_execTapReset (s : State) : Rests s (execTapReset s) := by
  simp [execTapReset]

end Sys2Proof.Machine
end

section

/-!
SUPPORT. Operations, transfers and queues under memory control, prime sets, MAS layers and the Reckoner's mailbox.
-/

namespace Sys2Proof.Machine

open Sys2Proof

/-! From the model's `Memc`. -/

theorem rests_execSealSet (s : State) : Rests s (execSealSet s) := by
  simp [execSealSet]

theorem rests_execSealRelease (s : State) : Rests s (execSealRelease s) := by
  simp [execSealRelease]

theorem rests_execSealOpComplete (s : State) : Rests s (execSealOpComplete s) := by
  unfold execSealOpComplete
  split <;> simp

theorem rests_execMemcWipeGo (s : State) : Rests s (execMemcWipeGo s) := by
  simp [execMemcWipeGo]

@[simp] theorem core_overwrite (s : State) (w : Wipe) : (s.overwrite w).core = s.core :=
  State.core_congr rfl rfl rfl rfl

theorem rests_execWipeComplete (k : Nat) (s : State) : Rests s (execWipeComplete k s) := by
  unfold execWipeComplete
  split
  · simp
  · split <;> split <;> simp

theorem rests_execHostBar2Read (func : FuncNo) (offset : Met Nat) (len : Nat) (tag : Nat) (s : State) :
    Rests s (execHostBar2Read func offset len tag s) := by
  unfold execHostBar2Read
  split
  · simp
  · split
    · simp
    · dsimp only
      split <;> split <;> simp

theorem rests_execHeldAccessRelease (s : State) : Rests s (execHeldAccessRelease s) := by
  unfold execHeldAccessRelease
  split <;> simp

theorem rests_execWipePending (s : State) : Rests s (execWipePending s) := by
  unfold execWipePending
  split <;> simp

theorem rests_execHostBar2Write (func : FuncNo) (offset : Nat) (bytes : List Byte) (ep : Bool) (s : State) :
    Rests s (execHostBar2Write func offset bytes ep s) := by
  unfold execHostBar2Write
  split
  · simp
  · split
    · simp
    · split
      · dsimp only
        split <;> simp
      · dsimp only
        split <;> simp

theorem rests_execScrubRead (port : Fin 16) (ce : List Nat) (ue : List Nat) (s : State) :
    Rests s (execScrubRead port ce ue s) := by
  simp [execScrubRead]

theorem rests_execMemRetrain (port : Fin 16) (s : State) : Rests s (execMemRetrain port s) := by
  simp [execMemRetrain]

/-! From the model's `Prime`. -/

theorem rests_execPrimeCommit (index : BitVec 8) (rootLog : BitVec 5) (s : State) :
    Rests s (execPrimeCommit index rootLog s) := by
  simp [execPrimeCommit]

theorem rests_execPrimeCommitComplete (s : State) : Rests s (execPrimeCommitComplete s) := by
  simp [execPrimeCommitComplete]

/-! From the model's `Mas`. -/

@[simp] theorem rests_layerCmd (s : State) (i : Fin 64) (ok : LState → Bool) (g : Layer → Layer) :
    Rests s (s.layerCmd i ok g) := by
  simp [State.layerCmd]

theorem rests_execMasDefine (layer : Fin 64) (s : State) : Rests s (execMasDefine layer s) := by
  simp [execMasDefine]

theorem rests_execMasOpen (layer : Fin 64) (s : State) : Rests s (execMasOpen layer s) := by
  simp [execMasOpen]

theorem rests_execMasClose (layer : Fin 64) (s : State) : Rests s (execMasClose layer s) := by
  simp [execMasClose]

theorem rests_execClosingDone (layer : Fin 64) (s : State) : Rests s (execClosingDone layer s) := by
  simp [execClosingDone]

theorem rests_execMasRelease (layer : Fin 64) (s : State) : Rests s (execMasRelease layer s) := by
  simp [execMasRelease]

theorem rests_execEtaWrite (layer : Fin 64) (eta : BitVec 64) (s : State) : Rests s (execEtaWrite layer eta s) := by
  simp [execEtaWrite]

theorem rests_execStepsWrite (layer : Fin 64) (steps : BitVec 64) (s : State) :
    Rests s (execStepsWrite layer steps s) := by
  simp [execStepsWrite]

theorem rests_execIngestAdd (layer : Fin 64) (addr : Nat) (bytes : List Byte) (poison : Bool) (s : State) :
    Rests s (execIngestAdd layer addr bytes poison s) := by
  simp [execIngestAdd]

@[simp] theorem core_stepOutcome (s : State) (i : Fin 64) (c : Code) : (s.stepOutcome i c).core = s.core := by
  simp [State.stepOutcome]

@[simp] theorem core_enterStep (s : State) (i : Fin 64) (eta : BitVec 64) : (s.enterStep i eta).core = s.core := by
  unfold State.enterStep
  dsimp only
  split <;> simp

theorem rests_execMasStep (layer : Fin 64) (clearM : Bool) (solo : Bool) (s : State) :
    Rests s (execMasStep layer clearM solo s) := by
  simp [execMasStep]

theorem rests_execVoteResult (layer : Fin 64) (s : State) : Rests s (execVoteResult layer s) := by
  unfold execVoteResult
  dsimp only
  split
  · simp
  · split
    · split <;> simp
    · simp

theorem rests_execStepVoteExpired (layer : Fin 64) (s : State) : Rests s (execStepVoteExpired layer s) := by
  simp [execStepVoteExpired]

theorem rests_execStepComplete (layer : Fin 64) (s : State) : Rests s (execStepComplete layer s) := by
  simp [execStepComplete]

/-! From the model's `Mgmt`. -/

theorem rests_execSensorSample (sensor : Fin 189) (value : Int) (s : State) :
    Rests s (execSensorSample sensor value s) := by
  simp [execSensorSample]

@[simp] theorem core_flushRecord (s : State) (r : LogRec) : (s.flushRecord r).core = s.core := by
  simp [State.flushRecord]

theorem rests_execLogFlush (s : State) : Rests s (execLogFlush s) := by
  simp [execLogFlush]

theorem rests_execDrbgReseed (die : Fin 3) (s : State) : Rests s (execDrbgReseed die s) := by
  simp [execDrbgReseed]

theorem rests_execEntropyHealth (s : State) : Rests s (execEntropyHealth s) := by
  simp [execEntropyHealth]

@[simp] theorem core_kick (s : State) : s.kick.core = s.core := by
  unfold State.kick
  split <;> simp

theorem rests_execAlive (s : State) : Rests s (execAlive s) := by
  simp [execAlive]

@[simp] theorem core_go (s : State) (c : Fin 2) : (s.go c).core = s.core := by
  simp [State.go]

theorem leading_serve {s : State} {op : Nat} {ok : Nat → Bool} {body : List Byte → State → MbAnswer}
    (h : ∀ req, (body req s).2.2.core = s.core) : Leading s (s.serve op ok body) := by
  unfold State.serve
  split
  next c op' _ =>
    split
    · extract_lets b req a t u
      have ha : a.2.2.core = s.core := by
        simp only [a]
        split
        · rfl
        · split
          · exact core_log _ _ _ _
          · split
            · rfl
            · exact h _
      have ht : s.Leads t := State.leads_of_core ((core_endMailbox ..).trans ha)
      have hu : s.Leads u := State.leads_ite _ (ht.trans (leads_lneFree t)) ht
      exact leading_next (hu.rest (core_kick _))
    · split
      · refine leading_next (State.leads_of_core ?_)
        simp
      · exact leading_next (.refl s)
  next => exact leading_next (.refl s)

theorem leading_execMailboxUndefinedOpcode (s : State) : Leading s (execMailboxUndefinedOpcode s) := by
  unfold execMailboxUndefinedOpcode
  split
  · split
    · exact leading_next (.refl s)
    · exact leading_serve fun _ => rfl
  · exact leading_next (.refl s)

theorem leading_execGetInfo (s : State) : Leading s (execGetInfo s) := leading_serve fun _ => rfl

theorem leading_execReadSensors (s : State) :
    Leading s (execReadSensors s) := leading_serve fun _ => core_answer_ite _ rfl rfl

theorem leading_execSetThreshold (s : State) : Leading s (execSetThreshold s) :=
  leading_serve fun _ => core_answer_dite _ (fun _ => core_answer_ite _ rfl (State.core_congr rfl rfl rfl rfl)) rfl

theorem leading_execReadLog (s : State) : Leading s (execReadLog s) := leading_serve fun _ => core_answer_ite _ rfl rfl

theorem leading_execSetPower (s : State) : Leading s (execSetPower s) :=
  leading_serve fun _ => core_answer_ite _ rfl (State.core_congr rfl rfl rfl rfl)

@[simp] theorem core_stage (s : State) (comp : Nat) (size : Nat) :
    ∀ t, (s.stage comp size) = some t → t.core = s.core := by
  unfold State.stage
  split <;> simp

theorem leading_execFwBegin (s : State) : Leading s (execFwBegin s) := leading_serve fun req => by
  split
  next t e =>
    dsimp only
    split
    · rfl
    · exact core_stage _ _ _ t e
  next => rfl

theorem leading_execFwWrite (s : State) : Leading s (execFwWrite s) := leading_serve fun req => by
  split
  · refine core_answer_ite _ rfl ?_
    dsimp only
    split
    · rfl
    · rw [core_setMgmt]
      exact core_flashWrite ..
  · rfl

@[simp] theorem core_verifyStaged (s : State) (g : Staging) : (s.verifyStaged g).2.core = s.core := by
  simp [State.verifyStaged]

theorem leading_execFwVerify (s : State) : Leading s (execFwVerify s) := leading_serve fun req => by
  split
  · exact core_verifyStaged ..
  · rfl

@[simp] theorem core_activate (s : State) (g : Staging) (atOnce : Bool) : (s.activate g atOnce).core = s.core := by
  simp [State.activate]

theorem leading_execFwActivate (s : State) : Leading s (execFwActivate s) := leading_serve fun req => by
  refine core_answer_ite _ rfl (core_answer_ite _ rfl ?_)
  split
  · exact core_answer_ite _ rfl (core_answer_ite _ rfl (core_activate ..))
  · rfl

theorem leading_execFwCommitSvn (s : State) : Leading s (execFwCommitSvn s) := leading_serve fun _ =>
  core_answer_ite _ (State.core_congr rfl rfl rfl rfl) (core_answer_ite _ (State.core_congr rfl rfl rfl rfl) rfl)

theorem rests_execTrialCommit (s : State) : Rests s (execTrialCommit s) := by
  simp [execTrialCommit]

@[simp] theorem core_security (s : State) : (State.security s).2.core = s.core := by
  have h : (s.drbgDraw 2).2.core = s.core := by simp
  unfold State.security
  split
  · rename_i x t e
    rw [e] at h; exact h
  · rename_i t e
    rw [e] at h; simpa using h

theorem leading_execLcNonce (s : State) : Leading s (execLcNonce s) := leading_serve fun req => by
  have h := core_security s
  split
  next e =>
    rw [e] at h
    exact (State.core_congr rfl rfl rfl rfl).trans h
  next e => rwa [e] at h

theorem core_lcChange (s : State) (n : Nat) (a b : List Byte) : (s.lcChange n a b).2.2.core = s.core := by
  unfold State.lcChange
  split
  · rfl
  · extract_lets mg u key trusted
    have hu : u.core = s.core := core_setMgmt ..
    have h := (core_security u).trans hu
    refine core_answer_ite _ (core_answer_ite _ ?_ ((State.core_congr rfl rfl rfl rfl).trans hu)) hu
    split
    next e =>
      rw [e] at h
      exact (State.core_congr rfl rfl rfl rfl).trans h
    next e => rwa [e] at h

theorem leading_execLcSet (s : State) : Leading s (execLcSet s) := by
  unfold execLcSet
  extract_lets r
  have h : Leading s r := leading_serve fun _ => by
    refine core_answer_ite _ rfl (core_answer_ite _ ?_ (core_answer_ite _ rfl (core_lcChange ..)))
    exact core_log _ _ _ _
  clear_value r
  split
  next t => exact leading_next (State.leads_ite _ (h.next t rfl) ((h.next t rfl).trans (leads_deviceReset t 4)))
  next => exact h

theorem core_agree (s : State) (k : Fin 64) (o : Nat) (r : Bool) (a b : List Byte) :
    (s.agree k o r a b).2.2.core = s.core := by
  have h := core_security s
  unfold State.agree
  extract_lets old set
  have hset : ∀ t x, (set t x).core = t.core := fun _ _ => State.core_congr rfl rfl rfl rfl
  clear_value set
  refine core_answer_ite _ rfl (core_answer_ite _ rfl ?_)
  split
  next e => rwa [e] at h
  next t e =>
    rw [e] at h
    extract_lets priv z pub key msg
    clear_value msg z
    refine core_answer_ite _ ((hset ..).trans h) ?_
    split
    · exact h
    · exact (hset ..).trans h

theorem leading_execSessionAgree (s : State) : Leading s (execSessionAgree s) := leading_serve fun _ =>
  core_answer_dite _ (fun _ => core_answer_ite _ rfl (core_agree ..)) rfl

theorem leading_execSessionClear (s : State) : Leading s (execSessionClear s) := leading_serve fun _ =>
  core_answer_dite _ (fun _ => State.core_congr rfl rfl rfl rfl) rfl

theorem leading_execGetCert (s : State) : Leading s (execGetCert s) := leading_serve fun _ => core_answer_ite _ rfl rfl

theorem leading_execGetMeasurements (s : State) : Leading s (execGetMeasurements s) := leading_serve fun req => by
  dsimp only
  split <;> rfl

end Sys2Proof.Machine
end

section

/-!
SUPPORT. Operations, transfers and queues under register accesses of the host.
-/

namespace Sys2Proof.Machine

open Sys2Proof

/-! From the model's `RegWrite`. -/

@[simp] theorem core_msixWrite (s : State) (n : FuncNo) (o : Nat) (x : Wr) : (s.msixWrite n o x).core = s.core := by
  simp [State.msixWrite]

@[simp] theorem core_globalWrite (s : State) (o : Nat) (x : Wr) : (s.globalWrite o x).core = s.core := by
  simp [State.globalWrite]

@[simp] theorem core_tallyWrite (s : State) (o : Nat) (x : Wr) : (s.tallyWrite o x).core = s.core :=
  State.core_congr rfl rfl rfl rfl

@[simp] theorem core_admitWrite (s : State) (o : Nat) (x : Wr) : (s.admitWrite o x).core = s.core :=
  State.core_congr rfl rfl rfl rfl

theorem Sq.write_ends (q : Sq) (o : Nat) (x : Wr) (h : EndsInside q.ends) : EndsInside (q.write o x).ends := by
  unfold Sq.write
  split
  · exact h
  next e =>
    split
    · exact h
    · exact fun k => absurd k e
    · exact h

theorem Cq.write_ends (q : Cq) (b : Bool) (o : Nat) (x : Wr) (h : EndsInside q.ends) :
    EndsInside (q.write b o x).ends := by
  unfold Cq.write
  split
  · exact h
  next e =>
    split
    · exact h
    · exact fun k => absurd k e
    · exact h

theorem leads_hostqWrite (s : State) (n : FuncNo) (o : Nat) (x : Wr) : s.Leads (s.hostqWrite n o x) := by
  unfold State.hostqWrite
  split
  · exact State.leads_of_core (State.core_updHostFn _ _ _ fun _ => rfl)
  · split
    · exact State.leads_updSq _ _ _ _ fun h => Sq.write_ends _ _ _ h
    · split
      · exact State.leads_updCq _ _ _ _ fun h => Cq.write_ends _ _ _ _ h
      · exact .refl s

@[simp] theorem core_memcWrite (s : State) (p : Fin 16) (o : Nat) (x : Wr) : (s.memcWrite p o x).core = s.core := by
  simp [State.memcWrite]

@[simp] theorem core_masWrite (s : State) (o : Nat) (x : Wr) : (s.masWrite o x).core = s.core := by
  simp [State.masWrite]

@[simp] theorem core_portWrite (s : State) (p : Fin 8) (o : Nat) (x : Wr) : (s.portWrite p o x).core = s.core := by
  unfold State.portWrite
  split <;> simp

@[simp] theorem core_carryWrite (s : State) (o : Nat) (x : Wr) : (s.carryWrite o x).core = s.core := by
  simp [State.carryWrite]

@[simp] theorem core_lneWrite (s : State) (o : Nat) (x : Wr) : (s.lneWrite o x).core = s.core := by
  simp [State.lneWrite]

@[simp] theorem core_mgmtWrite (s : State) (o : Nat) (x : Wr) : (s.mgmtWrite o x).core = s.core := by
  simp [State.mgmtWrite]

theorem Frame.write_ops (fr : Frame) (b : Bool) (o : Nat) (x : Wr) : (fr.write b o x).rn.ops = fr.rn.ops := by
  unfold Frame.write
  extract_lets q r
  split
  any_goals rfl
  all_goals split <;> rfl

@[simp] theorem core_frmSlotWrite (s : State) (f : FrameNo) (o : Nat) (x : Wr) :
    (State.frmSlotWrite s f o x).core = s.core := by
  unfold State.frmSlotWrite
  extract_lets t
  have ht : t.core = s.core := State.core_updFrame _ _ _ fun fr => Frame.write_ops ..
  split
  · split
    · simp [ht]
    · exact ht
  · exact ht

theorem leads_slotWrite (s : State) (o : Nat) (x : Wr) : s.Leads (s.slotWrite o x) := by
  unfold State.slotWrite
  split
  case h_4 => exact leads_hostqWrite ..
  all_goals exact State.leads_of_core (by simp)

@[simp] theorem core_slotRead (s : State) (o : Nat) (m : BitVec 64) : (s.slotRead o m).core = s.core := by
  unfold State.slotRead
  split
  · rfl
  · rfl
  · rfl
  · rfl
  · rfl
  · split <;> simp
  · rfl
  · simp
  · rfl
  · simp
  · rfl

@[simp] theorem core_sampleRefresh (s : State) (o : Nat) (m : BitVec 64) : (s.sampleRefresh o m).core = s.core := by
  unfold State.sampleRefresh
  split
  · simp
  · split
    · simp
    · rfl
  · rfl

/-! From the model's `Registers`. -/

@[simp] theorem core_pfFlag (s : State) (f : FrameNo) (flag : BitVec 8) (value : Word) :
    (s.pfFlag f flag value).core = s.core := by
  simp [State.pfFlag]

theorem rests_execPfFlagWrite (f : FrameNo) (flag : BitVec 8) (value : Word) (s : State) :
    Rests s (execPfFlagWrite f flag value s) := by
  simp [execPfFlagWrite]

@[simp] theorem core_blockOff (s : State) (n : FuncNo) (o : Nat) :
    ∀ t, (s.blockOff n o) = some t → t.core = s.core := by
  unfold State.blockOff
  split <;> simp

@[simp] theorem core_readPart (s : State) (n : FuncNo) (p : Part) : (State.readPart s n p).2.core = s.core := by
  unfold State.readPart
  split
  · rfl
  · rfl
  · rfl
  · split
    · rename_i t e
      exact core_blockOff s n _ t e
    · extract_lets b u v t key wide hi
      have h : t.core = s.core := (core_slotRead ..).trans (core_sampleRefresh ..)
      split
      · exact h
      · split
        · exact h
        · split <;> exact h

@[simp] theorem core_readParts (s : State) (n : FuncNo) (ps : List Part) :
    (State.readParts s n ps).2.core = s.core := by
  induction ps generalizing s with
  | nil => rfl
  | cons p ps ih => exact (ih _).trans (core_readPart ..)

theorem rests_execRegisterRead (n : FuncNo) (o w t : Nat) (s : State) : Rests s (execRegisterRead n o w t s) := by
  unfold execRegisterRead
  split
  · simp
  · split
    · simp
    · split
      · simp
      · split
        · simp
        · split <;> simp

theorem leads_globalAct (s : State) (o : Nat) (x : Wr) : s.Leads (s.globalAct o x) := by
  unfold State.globalAct
  split
  · refine (State.leads_of_core (core_when (rests_execFuncEnable ..))).trans (leading_when ?_)
    split
    · exact leading_execPfFunctionReset _
    · exact leading_execFunctionReset ..
  · split
    · exact leading_when (leading_execDeviceReset ..)
    · exact State.leads_of_core (core_when (rests_execAlertClr s))
    · exact State.leads_ite _ (leads_checkFences s) (.refl s)
    · exact State.leads_of_core (core_when (rests_execFaultRingHead ..))
    · refine State.leads_of_core (core_when ?_)
      split
      · exact rests_execSealRelease s
      · exact rests_execSealSet s
    · exact State.leads_of_core (core_when (rests_execPrimeCommit ..))
    · exact .refl s

@[simp] theorem core_tallyAct (s : State) (o : Nat) (x : Wr) : (State.tallyAct s o x).core = s.core := by
  unfold State.tallyAct
  split
  · exact core_when_when (rests_execTallyRun ..) fun t => rests_execStrClear t
  · exact core_when_when (rests_execForm s) fun t => rests_execLeave t
  · exact core_when_when (rests_execLoadNow s) fun t => rests_execLoadArm t
  · exact core_when (rests_execMarkArm ..)
  · rfl

@[simp] theorem core_admitAct (s : State) (o : Nat) (x : Wr) : (State.admitAct s o x).core = s.core := by
  unfold State.admitAct
  split
  · exact core_when (rests_execCntClear s)
  · split
    · refine core_when ?_
      split
      · exact rests_execDomainOn ..
      · split
        · exact rests_execDomainRetain ..
        · exact rests_execDomainOff ..
    · rfl
  · rfl

theorem leads_hostqAct (s : State) (n : FuncNo) (o : Nat) (x : Wr) : s.Leads (s.hostqAct n o x) := by
  unfold State.hostqAct
  split
  · exact leading_when (leading_execQueueEnable ..)
  · split
    · exact leading_when (leading_execQueueEnable ..)
    · split
      · exact (leading_when (leading_execSqTail ..)).trans (leading_when (leading_execCqHead ..))
      · exact .refl s

@[simp] theorem core_masAct (s : State) (o : Nat) (x : Wr) : (State.masAct s o x).core = s.core := by
  unfold State.masAct
  split
  · rfl
  · dsimp only
    split
    · exact core_afterCmd (rests_execEtaWrite ..)
    · exact core_afterCmd (rests_execStepsWrite ..)
    · split
      · rfl
      · split
        · exact core_afterCmd (rests_execMasDefine ..)
        · exact core_afterCmd (rests_execMasOpen ..)
        · exact core_afterCmd (rests_execMasClose ..)
        · exact core_afterCmd (rests_execMasStep ..)
        · exact core_afterCmd (rests_execMasRelease ..)
        · rfl
    · rfl

@[simp] theorem core_carryAct (s : State) (o : Nat) (x : Wr) : (State.carryAct s o x).core = s.core := by
  unfold State.carryAct
  split
  · exact core_when (rests_execBypass ..)
  · split
    · dsimp only
      split
      · exact core_afterCmd (rests_execRsArm ..)
      · exact core_afterCmd (rests_execRsDisarm ..)
      · rfl
    · rfl

theorem leads_frmAct (s : State) (f : FrameNo) (o : Nat) (x : Wr) : s.Leads (s.frmAct f o x) := by
  unfold State.frmAct
  extract_lets r
  split
  · exact State.leads_of_core (core_when_when (rests_execBeatStopArm ..) fun t => rests_execBeatStopRelease f t)
  · exact State.leads_of_core (core_when (rests_execRegionFree ..))
  · exact State.leads_of_core (core_when (rests_execSpadXferGo ..))
  · exact (State.leads_of_core (core_when (rests_execHealthClear ..))).trans (leading_when (leading_execRemap ..))
  · split
    · exact State.leads_of_core (core_when_when (rests_execPfFlagWrite ..) fun t => rests_execPfFlagWrite ..)
    · exact .refl s

theorem leads_slotAct (s : State) (o : Nat) (x : Wr) : s.Leads (s.slotAct o x) := by
  unfold State.slotAct
  split
  · exact leads_globalAct ..
  · exact State.leads_of_core (core_tallyAct ..)
  · exact State.leads_of_core (core_admitAct ..)
  · exact leads_hostqAct ..
  · exact State.leads_of_core (core_when (rests_execMemcWipeGo s))
  · exact State.leads_of_core (core_masAct ..)
  · split
    · exact State.leads_of_core (core_when (rests_execPortEnable ..))
    · split
      · exact State.leads_of_core (core_when_when (rests_execRetrain ..) fun t => rests_execPing _ t)
      · exact .refl s
  · exact State.leads_of_core (core_carryAct ..)
  · split
    · exact State.leads_of_core (core_lneGo ..)
    · exact .refl s
  · exact .refl s
  · exact leads_frmAct ..
  · exact .refl s

theorem leads_slot (s : State) (o : Nat) (x : Wr) : s.Leads ((s.slotWrite o x).slotAct o x) :=
  (leads_slotWrite ..).trans (leads_slotAct ..)

theorem leads_writePart (s : State) (n : FuncNo) (v : BitVec 64) (p : Part) : s.Leads (s.writePart n v p) := by
  unfold State.writePart
  extract_lets x
  split
  · exact .refl s
  · exact .refl s
  · exact State.leads_of_core (core_msixWrite ..)
  · split
    next t e => exact State.leads_of_core (core_blockOff s _ _ t e)
    next => exact leads_slot ..

theorem leads_writeParts (s : State) (n : FuncNo) (v : BitVec 64) (ps : List Part) : s.Leads (s.writeParts n v ps) :=
  State.leads_foldl _ _ (fun _ _ => leads_writePart ..) _

@[simp] theorem core_aerIf (s : State) (ep : Bool) (n : FuncNo) : (s.aerIf ep n).core = s.core := by
  simp [State.aerIf]

theorem leads_configure (s : State) (l : HostLink) : s.Leads (s.configure l) := by
  unfold State.configure
  split
  · exact .refl s
  · extract_lets gone u g
    have hu : s.Leads u :=
      State.leads_ite _ (State.leads_foldl _ _ (fun t n => leads_afterCmd (leading_execFunctionReset n t)) _) (.refl s)
    clear_value u
    exact hu.rest (State.core_congr rfl rfl rfl rfl)

theorem leading_execRegisterWrite (n : FuncNo) (o w : Nat) (v : HostWrite) (s : State) :
    Leading s (execRegisterWrite n o w v s) := by
  unfold execRegisterWrite
  split
  · exact leading_fault ..
  · split
    · exact leading_next (leads_configure ..)
    · split
      · exact leading_next (.refl s)
      · split
        · exact leading_next (State.leads_of_core (core_emit ..))
        · split
          · exact leading_next (.refl s)
          · exact leading_next ((leads_writeParts s n v.bits (s.parts n o w)).rest (core_aerIf ..))

theorem leads_aliasWrite (s : State) (o : Nat) (v : Word) : s.Leads (s.aliasWrite o v) := by
  unfold State.aliasWrite
  extract_lets sh x b
  split
  next t e => exact State.leads_of_core (core_blockOff s _ _ t e)
  next => exact leads_slot ..

@[simp] theorem core_aliasRead (s : State) (o : Nat) : (State.aliasRead s o).2.core = s.core := core_readPart ..

end Sys2Proof.Machine
end

section

/-!
SUPPORT. Operations, transfers and queues as transfers move and land, and at a beat's launch.
-/

namespace Sys2Proof.Machine

open Sys2Proof

/-! From the model's `FeederMove`. -/

@[simp] theorem core_homeRead (s : State) (x : Xfer) (a k : Nat) : (State.homeRead s x a k).1.core = s.core := by
  unfold State.homeRead
  split
  · split <;> simp
  all_goals rfl

@[simp] theorem core_tellReads (s : State) (x : Xfer) (addrs : List Nat) : (s.tellReads x addrs).core = s.core := by
  simp [State.tellReads]

@[simp] theorem core_readElem (s : State) (x : Xfer) (f : FrameNo) (d : Desc) (k : Nat) :
    (State.readElem s x f d k).1.core = s.core :=
  core_homeRead ..

@[simp] theorem core_readIndices (s : State) (x : Xfer) (f : FrameNo) (b : Desc) (n : Nat) :
    (State.readIndices s x f b n).1.core = s.core := State.core_foldl_fst _ _ _ fun _ _ => core_readElem ..

@[simp] theorem core_readItems (s : State) (x : Xfer) (f : FrameNo) (a : Desc) (l : List Item) :
    (State.readItems s x f a l).1.core = s.core := State.core_foldl_fst _ _ _ fun u i => by split <;> simp

@[simp] theorem core_spendRead (s : State) (x : Xfer) (a : Desc) (addrs : List Nat) :
    (s.spendRead x a addrs).core = s.core := by
  simp [State.spendRead]

@[simp] theorem core_stageData (s : State) (x : Xfer) (f : FrameNo) (r : XRec) (k : Nat) (d a b : Desc)
    (m : Option Mark) :
    (State.stageData s x f r k d a b m).core = s.core := by
  unfold State.stageData
  extract_lets ixs u items read addrs iaddrs v inside base out w ws ms al y z ws' c far how rows near foot e
  have hu : u.core = s.core := (core_consume ..).trans (core_readIndices ..)
  have hread : read.1.core = s.core := (core_readItems ..).trans hu
  clear_value read
  have hv : v.core = s.core := by
    simp only [v]
    split
    · exact hread
    · exact (core_spendRead ..).trans ((core_tellReads ..).trans hread)
  clear_value v
  have hw : w.core = s.core := (State.core_foldl _ _ _ fun t _ => (core_dropOf ..).trans (core_report ..)).trans hv
  clear_value w
  have hy : y.core = s.core := (core_consume ..).trans hw
  have hz : z.core = s.core := by
    simp only [z]
    split
    · exact hy
    · exact (core_log _ _ _ _).trans ((core_fault ..).trans hy)
  clear_value z
  have hc : c.core = s.core := (State.core_congr rfl rfl rfl rfl).trans hz
  have he : e.core = s.core := (State.core_updXfer _ _ _ fun _ => by rfl).trans hc
  split
  · exact he
  · exact (core_pend ..).trans he

@[simp] theorem core_stageKeys (s : State) (x : Xfer) (key : Nat) (d : Desc) (g e n r : Nat) (m : Option Mark) :
    (State.stageKeys s x key d g e n r m).core = s.core := by
  unfold State.stageKeys
  extract_lets p blk words hd u lines v vals w hmark force ts rings ws pends ws'
  have hu : u.core = s.core := core_homeRead ..
  have hv : v.core = s.core := (State.core_foldl _ _ _ fun t l => core_homeRead ..).trans hu
  clear_value v
  have hw : w.core = s.core := by
    simp only [w]
    split
    · exact hv
    · exact (core_tellReads ..).trans hv
  clear_value w
  exact (State.core_updXfer _ _ _ fun _ => by rfl).trans ((State.core_congr rfl rfl rfl rfl).trans hw)

@[simp] theorem core_tryStage (s : State) (id : Nat) : (State.tryStage s id).core = s.core := by
  unfold State.tryStage
  split
  · rfl
  · split
    · split
      · exact core_stageData ..
      · rfl
    · split
      · exact core_stageKeys ..
      · rfl
    · rfl

@[simp] theorem core_runFeeders (s : State) : (State.runFeeders s).core = s.core :=
  (core_sendAll _).trans (State.core_foldl _ _ _ fun _ _ => core_tryStage ..)

/-! From the model's `Feeder`. -/

@[simp] theorem core_feedTo (s : State) (f : FrameNo) (k : Nat) (due : Option Nat) :
    (s.feedTo f k due).core = s.core := by
  unfold State.feedTo
  split <;> simp

@[simp] theorem core_xferPoison (s : State) (f : FrameNo) (i : Iss) (kind : Nat) (slot_ : Nat) (d : Desc) (a : Desc) :
    (s.xferPoison f i kind slot_ d a).1.core = s.core := by
  unfold State.xferPoison
  split
  · simp
  · split <;> simp

theorem rests_execRrcFill (f : FrameNo) (line : Met Nat) (s : State) : Rests s (execRrcFill f line s) := by
  simp [execRrcFill]

/-! From the model's `FeederLand`. -/

@[simp] theorem core_dropWrite (s : State) (x : Xfer) (c : Code) (addr : Nat) :
    (s.dropWrite x c addr).core = s.core := by
  simp [State.dropWrite]

@[simp] theorem core_dropLogged (s : State) (x : Xfer) (c : Code) (addr : Nat) :
    (s.dropLogged x c addr).core = s.core := by
  simp [State.dropLogged]

@[simp] theorem core_putSpad (s : State) (row : Nat) (ws : List PWrite) (mark : Option Mark) :
    (s.putSpad row ws mark).core = s.core := by
  unfold State.putSpad
  split <;> simp

theorem leads_putReg (s : State) (x : Xfer) (w : PWrite) : s.Leads (s.putReg x w) :=
  State.leads_ite _ (leads_aliasWrite ..) (State.leads_of_core (core_dropWrite ..))

theorem core_forgetDropped (s : State) (x : Xfer) (row : Nat) (r : State × List Code) (h : r.1.core = s.core) :
    (if r.2.isEmpty then r.1.forget x.frame row
      else r.2.foldl (fun (s : State) c => s.dropLogged x c (row * 2048)) r.1).core = s.core := by
  split
  · simp [h]
  · exact (State.core_foldl _ _ _ fun _ _ => core_dropLogged ..).trans h

theorem leads_commitRow (s : State) (x : Xfer) (row : Nat) (ws : List PWrite) : s.Leads (s.commitRow x row ws) := by
  unfold State.commitRow
  extract_lets mark
  split
  · exact State.leads_of_core (core_dropWrite ..)
  · split
    · exact State.leads_foldl _ _ (fun _ _ => leads_putReg ..) _
    · exact State.leads_of_core (core_forgetDropped _ _ _ _ (core_lineArrive ..))
    · exact State.leads_of_core (core_putSpad ..)

theorem leads_commitWrites (s : State) (x : Xfer) (ws : List PWrite) : s.Leads (s.commitWrites x ws) :=
  State.leads_foldl _ _ (fun _ _ => leads_commitRow ..) _

@[simp] theorem core_overrun (s : State) (g : FrameNo) (n : Nat) : (State.overrun s g n).core = s.core := by
  have h : ∀ u : State, (u.updFrame g fun fr => fr.updRegion n fun (r : Region) => { r with overrun := true }).core =
      u.core :=
    fun u => State.core_updFrame _ _ _ fun _ => rfl
  unfold State.overrun
  dsimp only
  split
  · split
    · exact h s
    · exact (core_report ..).trans (h s)
  · exact h s

@[simp] theorem core_advance (s : State) (g : FrameNo) (n : Nat) (t : Bool) (b : Nat) :
    (State.advance s g n t b).core = s.core := by
  unfold State.advance
  dsimp only
  split <;> simp

@[simp] theorem core_landPend (s : State) (p : Nat × Pend) : (State.landPend s p).core = s.core := by
  unfold State.landPend
  split <;> simp

@[simp] theorem core_advanceAt (s : State) (a r : Nat) : (State.advanceAt s a r).core = s.core := by
  unfold State.advanceAt
  split
  · split <;> simp
  · rfl

theorem leads_land (s : State) (x : Xfer) : s.Leads (s.land x) := by
  unfold State.land
  extract_lets u v w
  have hu : s.Leads u := (leads_commitWrites ..).trans (leads_dropXfer ..)
  have hv : s.Leads v := hu.rest (State.core_foldl _ _ _ core_landPend)
  have hw : w.core = v.core := by
    simp only [w]
    split <;> simp
  exact hv.rest ((core_runFeeders _).trans hw)

theorem leading_execTransferLanded (id : Nat) (s : State) : Leading s (execTransferLanded id s) := by
  unfold execTransferLanded
  split
  · exact leading_guardStep fun _ => leads_land ..
  · exact leading_next (.refl s)

@[simp] theorem core_putRow (s : State) (r : RRow) : (s.putRow r).core = s.core := by
  unfold State.putRow
  dsimp only
  split <;> simp

@[simp] theorem core_rowArrive (s : State) (d f : Nat) (r : RRow) : (State.rowArrive s d f r).1.core = s.core := by
  have spent : ∀ (g : FrameNo) (n : Nat) (h : Region → Region), (s.updFrame g fun fr => fr.updRegion n h).core =
      s.core :=
    fun g n h => State.core_updFrame _ _ _ fun _ => rfl
  unfold State.rowArrive
  split
  · extract_lets spend
    have hs : ∀ reg, (spend reg).core = s.core := fun reg => spent ..
    clear_value spend
    split
    · rfl
    · split
      · simp
      · split
        · split <;> simp [hs]
        · split <;> simp [hs]
        · rfl
  · rfl

@[simp] theorem core_takeRow (s : State) (x : Xfer) (r : RRow) : (State.takeRow s x r).core = s.core := by
  unfold State.takeRow
  dsimp only
  split
  · simp
  · split
    · simp
    · split <;> simp

theorem rests_execRemoteRowArrival (id : Nat) (s : State) : Rests s (execRemoteRowArrival id s) := by
  have h : ∀ r, (s.updXfer id fun y => { y with rows := y.rows.erase r }).core = s.core := fun r =>
    State.core_updXfer _ _ _ fun _ => rfl
  unfold execRemoteRowArrival
  split
  · split
    · simp [h]
    · simp
  · simp

theorem leading_execGrantApply (id : Nat) (s : State) : Leading s (execGrantApply id s) := by
  unfold execGrantApply
  split
  · split
    · exact leading_guardStep fun _ =>
        ((State.leads_of_core (State.core_updFrame _ _ _ fun _ => by rfl)).trans (leads_dropXfer ..)).rest
        (core_runFeeders _)
    · exact leading_next (.refl s)
  · exact leading_next (.refl s)

@[simp] theorem core_addMem (s : State) (w : PWrite) : (s.addMem w).core = s.core := by
  unfold State.addMem
  dsimp only
  split <;> simp

@[simp] theorem core_uncounted (s was : State) (a : Nat) : (s.uncounted was a).core = s.core := by
  unfold State.uncounted
  split <;> simp

theorem leads_addAt (s : State) (x : Xfer) (w : PWrite) (more : Bool) : s.Leads (s.addAt x w more) := by
  unfold State.addAt
  split
  · exact State.leads_of_core (core_dropWrite ..)
  · split
    · exact (State.leads_of_core (core_aliasRead ..)).trans (leads_putReg ..)
    · refine State.leads_of_core ?_
      split
      · extract_lets r t
        have ht : t.core = s.core := by
          simp only [t]
          split <;> simp [r]
        split
        · exact (core_forget ..).trans ht
        · exact (State.core_foldl _ _ _ fun _ _ => core_dropLogged ..).trans ht
      · simp
    · exact State.leads_of_core (core_addMem ..)

theorem leading_execAccWriteApply (id : Nat) (s : State) : Leading s (execAccWriteApply id s) := by
  have h : ∀ g : List PWrite → List PWrite, s.Leads (s.updXfer id fun y => { y with accs := g y.accs }) := fun g =>
    State.leads_of_core (State.core_updXfer _ _ _ fun _ => rfl)
  unfold execAccWriteApply
  split
  · split
    · exact leading_next (.refl s)
    next w rest _ =>
      dsimp only
      split
      · exact leading_guardStep fun _ => (h fun l => l.filter fun v => v.addr / 2048 != w.addr / 2048).trans
          (leads_commitRow ..)
      · exact leading_guardStep fun _ => (h fun _ => rest).trans (leads_addAt ..)
  · exact leading_next (.refl s)

@[simp] theorem core_countDrop (s : State) (a : Nat) : (s.countDrop a).core = s.core := by
  unfold State.countDrop
  split <;> simp

theorem leads_atomHome (s : State) (x : Xfer) : s.Leads (s.atomHome x).1 := by
  unfold State.atomHome
  extract_lets lost q home r
  have hh : (home s).1.core = s.core := by
    simp only [home]
    split <;> simp
  have hr : r.1.core = s.core := hh
  clear_value r home
  split
  · exact State.leads_of_core (by simp)
  · exact State.leads_of_core (by simp)
  · exact State.leads_of_core (by simp)
  · split
    · dsimp only
      split
      · exact State.leads_of_core (core_aliasRead ..)
      · exact State.leads_ite _ ((State.leads_of_core (core_aliasRead ..)).trans (leads_aliasWrite ..))
          (State.leads_of_core (core_aliasRead ..))
    · split
      · exact State.leads_of_core (by simp)
      · exact State.leads_of_core hh
    · split
      · exact State.leads_of_core (by simp)
      · refine State.leads_of_core ?_
        dsimp only
        split <;> simp [hr]

theorem leads_result (s : State) (id : Nat) (r : Scalar) :
    s.Leads ((s.updXfer id fun y => { y with result := some r }).runFeeders) :=
  (State.leads_updXfer _ _ _ fun _ => by exact Xfer.ages_result rfl rfl rfl rfl).rest (core_runFeeders _)

theorem leading_execAtomApply (id : Nat) (s : State) : Leading s (execAtomApply id s) := by
  unfold execAtomApply
  split
  · exact leading_guardStep fun _ => (leads_atomHome ..).trans (leads_result ..)
  · exact leading_next (.refl s)

@[simp] theorem core_sldHome (s : State) (x : Xfer) : (s.sldHome x).1.core = s.core := by
  simp [State.sldHome]

theorem leading_execSldHomeRead (id : Nat) (s : State) : Leading s (execSldHomeRead id s) := by
  unfold execSldHomeRead
  split
  · exact leading_guardStep fun _ => (State.leads_of_core (core_sldHome ..)).trans (leads_result ..)
  · exact leading_next (.refl s)

theorem leads_sendRelease (s : State) (f : FrameNo) (x : Xfer) : s.Leads (s.sendRelease f x) := by
  unfold State.sendRelease
  split
  · extract_lets t
    have ht : s.Leads t := State.leads_of_core (State.core_updFrame _ _ _ fun _ => rfl)
    exact ((ht.rest (core_report ..)).trans (leads_dropXfer ..)).rest (core_runFeeders _)
  · extract_lets t
    have ht : s.Leads t := State.leads_of_core (State.core_updXfer _ _ _ fun _ => rfl)
    split
    · exact ht.rest ((core_pumpAll _).trans (core_sendReq ..))
    · exact ht

theorem leading_execReleaseUpdateSend (id : Nat) (s : State) : Leading s (execReleaseUpdateSend id s) := by
  unfold execReleaseUpdateSend
  split
  · split
    · exact leading_guardStep fun _ => leads_sendRelease ..
    · exact leading_next (.refl s)
  · exact leading_next (.refl s)

@[simp] theorem core_flagHome (s : State) (x : Xfer) (g : FrameNo) : (s.flagHome x g).core = s.core := by
  simp [State.flagHome]

theorem leading_execFlagUpdateApply (id : Nat) (s : State) : Leading s (execFlagUpdateApply id s) := by
  unfold execFlagUpdateApply
  split
  · split
    · exact leading_guardStep fun _ => ((State.leads_of_core (core_flagHome ..)).trans (leads_dropXfer ..)).rest
        (core_runFeeders _)
    · exact leading_next (.refl s)
  · exact leading_next (.refl s)

@[simp] theorem core_serveFlag (s : State) (k : Packet) : (s.serveFlag k).1.core = s.core := by
  unfold State.serveFlag
  split <;> simp

@[simp] theorem core_forgetOwn (s : State) (k : Packet) : (s.forgetOwn k).core = s.core := by
  simp [State.forgetOwn]

@[simp] theorem core_serveWrite (s : State) (k : Packet) : (State.serveWrite s k).1.core = s.core := by
  unfold State.serveWrite
  extract_lets r t u
  have ht : t.core = s.core := by
    simp only [t]
    split <;> simp
  have hu : u.1.core = s.core := core_rowArrive ..
  split
  · split
    · simp
    · exact (core_forgetOwn ..).trans ht
  · split
    · dsimp only
      split
      · exact (core_advanceAt ..).trans hu
      · exact hu
    · split
      · exact hu
      · exact (core_log _ _ _ _).trans hu
  · rfl

@[simp] theorem core_serveAtom (s : State) (k : Packet) : (s.serveAtom k).1.core = s.core := by
  unfold State.serveAtom
  split
  · split <;> simp
  · simp
  · simp

@[simp] theorem core_serveRequest (s : State) (k : Packet) : (State.serveRequest s k).1.core = s.core := by
  unfold State.serveRequest
  split
  · simp
  · split
    · simp
    · split
      · simp
      · split
        · simp
        · split
          · rfl
          · split <;> simp

theorem rests_execRequestArrival (s : State) : Rests s (execRequestArrival s) := by
  unfold execRequestArrival
  split
  · simp
  · rw [rests_next]
    dsimp only
    rw [core_route, core_serveRequest]
    exact State.core_congr rfl rfl rfl rfl

/-! From the model's `BeatLaunch`. -/

@[simp] theorem core_cutOp (s : State) (f : FrameNo) (o : EngOp) : (State.cutOp s f o).core = s.core := by
  simp [State.cutOp]

theorem leads_addAll (s : State) (x : Xfer) (ws : List PWrite) : s.Leads (s.addAll x ws) := by
  induction ws generalizing s with
  | nil => exact .refl s
  | cons w ws ih => exact (State.leads_ite _ (leads_commitRow ..) (leads_addAt ..)).trans (ih _)

theorem leads_cutRow (s : State) (x : Xfer) (r : RRow) : s.Leads (s.cutRow x r) := by
  unfold State.cutRow
  split
  · exact State.leads_of_core (core_takeRow ..)
  · split
    · refine State.leads_of_core ?_
      split <;> simp
    · exact leads_commitRow ..

theorem leads_cutXfer (s : State) (x : Xfer) : s.Leads (s.cutXfer x) := by
  unfold State.cutXfer
  extract_lets keep u v w
  have hu : s.Leads u := State.leads_of_core (State.core_congr rfl rfl rfl rfl)
  exact ((hu.trans (leads_commitWrites ..)).trans (leads_addAll ..)).trans
    (State.leads_foldl _ _ (fun _ _ => leads_cutRow ..) _)

theorem leads_stopRun (s : State) (r : Run) : s.Leads (s.stopRun r) := by
  unfold State.stopRun
  extract_lets u mine v w
  have hu : s.Leads u :=
    State.leads_foldl _ _ (fun t f => State.leads_of_core (State.core_foldl _ _ _ fun _ _ => core_cutOp ..)) _
  have hv : s.Leads v :=
    (hu.trans (State.leads_keepXfers ..)).trans (State.leads_foldl _ _ leads_cutXfer _)
  have hw : s.Leads w := by
    refine hv.trans (State.leads_mapFrames _ _ fun f fr => ?_)
    split
    · exact List.nil_sublist _
    · exact .refl _
  exact hw.rest (core_updRun ..)

theorem leads_takeStops (s : State) : s.Leads s.takeStops := by
  refine State.leads_foldl _ _ (fun t r => ?_) _
  split
  · exact State.leads_ite _ (leads_stopRun ..) (.refl t)
  · exact .refl t

@[simp] theorem core_launchHead (s : State) (ns : Nat) (last : BitVec 8) : (s.launchHead ns last).core = s.core := by
  unfold State.launchHead
  dsimp only
  split <;> simp

theorem leads_launched (s : State) (ns : Nat) (last : BitVec 8) : s.Leads (s.launched ns last) := by
  have h := State.leads_newFrames (s.launchHead ns last) ((s.launchHead ns last).launchFrame s.closing)
    (fun x => (x.resultAt (s.launchHead ns last).tally.count.toNat s.closing).isNone ||
      (x.abandoned && x.kind == FKind.atom && x.sent))
    fun f => ((s.launchHead ns last).launchFrame_keeps s.closing f).2.2.2
  exact (State.leads_of_core (core_launchHead s ns last)).trans h

@[simp] theorem core_launchEnd (s : State) (l : List Nat) : (s.launchEnd l).core = s.core := by
  simp [State.launchEnd]

theorem leads_launch (s : State) (ns : Nat) (last : BitVec 8) : s.Leads (s.launch ns last) := by
  rw [State.launch_eq]
  refine State.Leads.rest ?_ (core_launchEnd ..)
  refine .trans ((leads_launched s ns last).rest ?_) (leads_takeStops _)
  simp

theorem leading_execBeatLaunch (ns : Nat) (last : BitVec 8) (s : State) : Leading s (execBeatLaunch ns last s) :=
  leading_guardStep fun _ => leads_launch ..

end Sys2Proof.Machine
end

section

/-!
SUPPORT. Operations, transfers and queues under the management protocols.
-/

namespace Sys2Proof.Machine

open Sys2Proof

@[simp] theorem core_respond (s : State) (mtype : Byte) (cmd : Byte) (cc : Byte) (payload : List Byte) :
    (s.respond mtype cmd cc payload).core = s.core :=
  State.core_congr rfl rfl rfl rfl

@[simp] theorem core_updPort' (s : State) (g : MgmtPort → MgmtPort) : (s.updPort' g).core = s.core :=
  State.core_congr rfl rfl rfl rfl

@[simp] theorem core_respondPort (s : State) (g : MgmtPort → MgmtPort) (a b c : Byte) (l : List Byte) :
    ((s.updPort' g).respond a b c l).core = s.core := (core_respond ..).trans (core_updPort' ..)

theorem rests_portAnswer {s t : State} {b : Bool} (h : t.core = s.core) : Rests s (s.portAnswer b t) := by
  unfold State.portAnswer
  rw [rests_next]
  split
  · exact core_emit ..
  · split
    · exact h
    · rfl

theorem rests_control {s t : State} {d : BitVec 8} (h : t.core = s.core) : Rests s (s.control d t) := rests_portAnswer h

theorem rests_execSetEndpointId (d e : BitVec 8) (s : State) : Rests s (execSetEndpointId d e s) :=
  rests_control (core_ite _ (core_respond ..) (core_respondPort ..))

theorem rests_execGetEndpointId (d : BitVec 8) (s : State) :
    Rests s (execGetEndpointId d s) := rests_control (core_respond ..)

theorem rests_execGetEndpointUuid (d : BitVec 8) (s : State) :
    Rests s (execGetEndpointUuid d s) := rests_control (core_respond ..)

theorem rests_execGetMctpVersionSupport (d m : BitVec 8) (s : State) : Rests s (execGetMctpVersionSupport d m s) :=
  rests_control (core_ite _ (core_respond ..) (core_respond ..))

theorem rests_execGetMessageTypeSupport (d : BitVec 8) (s : State) : Rests s (execGetMessageTypeSupport d s) :=
  rests_control (core_respond ..)

theorem rests_execGetVendorDefinedMessageSupport (d v : BitVec 8) (s : State) :
    Rests s (execGetVendorDefinedMessageSupport d v s) :=
  rests_control (core_ite _ (core_respond ..) (core_respond ..))

theorem rests_managed {s t : State} {d : BitVec 8} (h : t.core = s.core) : Rests s (s.managed d t) := rests_portAnswer h

theorem rests_execGetTid (d : BitVec 8) (s : State) : Rests s (execGetTid d s) := rests_managed (core_respond ..)

theorem rests_execGetPldmVersion (d p : BitVec 8) (s : State) : Rests s (execGetPldmVersion d p s) :=
  rests_managed (core_ite _ (core_respond ..) (core_respond ..))

theorem rests_execGetPldmTypes (d : BitVec 8) (s : State) :
    Rests s (execGetPldmTypes d s) := rests_managed (core_respond ..)

theorem rests_execGetPldmCommands (d p : BitVec 8) (s : State) : Rests s (execGetPldmCommands d p s) :=
  rests_managed (core_ite _ (core_respond ..) (core_respond ..))

theorem rests_execGetPdr (d : BitVec 8) (r : Word) (s : State) : Rests s (execGetPdr d r s) :=
  rests_managed (core_ite _ (core_respond ..) (core_respond ..))

theorem rests_execGetSensorReading (d : BitVec 8) (n : BitVec 16) (s : State) :
    Rests s (execGetSensorReading d n s) := by
  refine rests_managed ?_
  split <;> exact core_respond ..

theorem rests_execGetStateSensorReadings (d : BitVec 8) (n : BitVec 16) (s : State) :
    Rests s (execGetStateSensorReadings d n s) := by
  refine rests_managed ?_
  split <;> exact core_respond ..

theorem rests_execPollForPlatformEventMessage (d : BitVec 8) (s : State) :
    Rests s (execPollForPlatformEventMessage d s) := by
  refine rests_managed ?_
  split
  · exact core_respondPort ..
  · exact core_respond ..

theorem rests_execQueryDeviceIdentifiers (d : BitVec 8) (s : State) : Rests s (execQueryDeviceIdentifiers d s) :=
  rests_managed (core_respond ..)

theorem rests_execGetFirmwareParameters (d : BitVec 8) (s : State) : Rests s (execGetFirmwareParameters d s) :=
  rests_managed (core_respond ..)

theorem rests_execRequestUpdate (d : BitVec 8) (s : State) : Rests s (execRequestUpdate d s) :=
  rests_managed
    (core_ite _ (core_respond ..) (core_ite _ ((core_respond ..).trans (core_log _ _ _ _)) (core_respondPort ..)))

@[simp] theorem core_wrongState (s : State) (cmd : Byte) : (s.wrongState cmd).core = s.core :=
  State.core_congr rfl rfl rfl rfl

theorem rests_execPassComponentTable (d : BitVec 8) (l : List (BitVec 16)) (s : State) :
    Rests s (execPassComponentTable d l s) :=
  rests_managed (core_ite _ (core_respondPort ..) (core_wrongState ..))

@[simp] theorem core_pull (s : State) : s.pull.core = s.core := State.core_congr rfl rfl rfl rfl

theorem rests_execUpdateComponent (d : BitVec 8) (c : BitVec 16) (n : Word) (s : State) :
    Rests s (execUpdateComponent d c n s) := by
  refine rests_managed (core_ite _ (core_wrongState ..) ?_)
  split
  next t e =>
    refine (core_pull _).trans ((core_respondPort ..).trans ?_)
    split at e
    · exact core_stage _ _ _ t e
    · exact absurd e (by simp)
  next => exact core_respond ..

@[simp] theorem core_endTransfer (s : State) (g : Staging) : (s.endTransfer g).core = s.core := by
  simp [State.endTransfer]

theorem rests_execRequestFirmwareData (bytes : List Byte) (transferDone : Bool) (s : State) :
    Rests s (execRequestFirmwareData bytes transferDone s) := by
  unfold execRequestFirmwareData
  split <;> simp

theorem rests_execActivateFirmware (d : BitVec 8) (s : State) : Rests s (execActivateFirmware d s) :=
  rests_managed (core_ite _ ((core_respondPort ..).trans (State.core_foldl _ _ _ fun _ _ => core_activate ..))
    (core_wrongState ..))

theorem rests_execGetStatus (d : BitVec 8) (s : State) : Rests s (execGetStatus d s) := rests_managed (core_respond ..)

theorem rests_execCancelUpdate (d : BitVec 8) (s : State) : Rests s (execCancelUpdate d s) :=
  rests_managed (core_ite _ (core_wrongState ..) ((core_respondPort ..).trans (core_setMgmt ..)))

theorem rests_execCancelUpdateComponent (d : BitVec 8) (s : State) : Rests s (execCancelUpdateComponent d s) :=
  rests_managed (core_ite _ ((core_respondPort ..).trans (core_setMgmt ..)) (core_wrongState ..))

@[simp] theorem core_spdmError (s : State) (code : Byte) : (s.spdmError code).core = s.core :=
  State.core_congr rfl rfl rfl rfl

theorem rests_spdm {s t : State} {d : BitVec 8} {b : Bool} (h : t.core = s.core) : Rests s (s.spdm d b t) := by
  refine rests_managed ?_
  split
  · exact core_spdmError ..
  · split
    · exact h
    · exact core_spdmError ..

theorem rests_execGetVersion (d : BitVec 8) (s : State) :
    Rests s (execGetVersion d s) := rests_spdm (core_respondPort ..)

theorem rests_execGetCapabilities (d : BitVec 8) (s : State) :
    Rests s (execGetCapabilities d s) := rests_spdm (core_respondPort ..)

theorem rests_execNegotiateAlgorithms (d : BitVec 8) (p h : Bool) (s : State) :
    Rests s (execNegotiateAlgorithms d p h s) :=
  rests_spdm (core_ite _ (core_respondPort ..) (core_spdmError ..))

theorem rests_execGetDigests (d : BitVec 8) (s : State) : Rests s (execGetDigests d s) := rests_spdm (core_respond ..)

theorem rests_execGetCertificate (d k : BitVec 8) (o l : BitVec 16) (s : State) :
    Rests s (execGetCertificate d k o l s) :=
  rests_spdm (core_ite _ (core_respond ..) (core_spdmError ..))

@[simp] theorem core_signedAnswer (s : State) (cmd : Byte) (n : BitVec 256) (l : List Byte) :
    (State.signedAnswer s cmd n l).core = s.core := by
  have h : s.security.2.core = s.core := core_security s
  unfold State.signedAnswer
  split
  · rename_i x t e
    rw [e] at h
    dsimp only
    split <;> simpa using h
  · rename_i t e
    rw [e] at h; simpa using h

theorem rests_execChallenge (d k : BitVec 8) (n : BitVec 256) (s : State) : Rests s (execChallenge d k n s) :=
  rests_spdm (core_ite _ (core_signedAnswer ..) (core_spdmError ..))

theorem rests_execSpdmGetMeasurements (d k : BitVec 8) (n : BitVec 256) (s : State) :
    Rests s (execSpdmGetMeasurements d k n s) := by
  refine rests_spdm (core_ite _ (core_respond ..) (core_ite _ (core_signedAnswer ..) ?_))
  split
  · exact core_signedAnswer ..
  · exact core_spdmError ..

theorem rests_execDrenilVendorMessage (d o : BitVec 8) (l : List Byte) (s : State) :
    Rests s (execDrenilVendorMessage d o l s) := by
  unfold execDrenilVendorMessage
  exact rests_portAnswer ((core_go ..).trans (State.core_congr rfl rfl rfl rfl))

theorem rests_execUnsupportedMctpMessage (d t : BitVec 8) (c : BitVec 16) (s : State) :
    Rests s (execUnsupportedMctpMessage d t c s) :=
  rests_portAnswer (core_ite _ (core_respond ..) (core_ite _ (core_respond ..) (core_ite _ (core_spdmError ..) rfl)))

end Sys2Proof.Machine
end

section

/-!
SUPPORT. Words that a Feeder accepts: a transfer more, where it has a place for one (R244).
-/

namespace Sys2Proof.Machine

open Sys2Proof

/-- A transfer more, with the next number. -/
theorem core_accept (s : State) (f : FrameNo) (i : Iss) (x : Xfer) : (s.accept f i x).core =
    { s.core with
      tags := s.core.tags ++ [(s.nextXfer, f.val, wFeeder i.w, x.holdsPlace)]
      next := s.core.next + 1 } := by
  unfold State.accept
  extract_lets y
  rw [core_runFeeders, core_feedTo]
  simp only [State.core, List.map_append, List.map_cons, List.map_nil]
  rfl

theorem State.leads_append {s t : State} {f : FrameNo} {k : Nat} {b : Bool} (hf : s.feederFull f k = false)
    (h : t.core = { s.core with tags := s.core.tags ++ [(s.nextXfer, f.val, k, b)], next := s.core.next + 1 }) :
    s.Leads t where
  apart a := by rwa [h]
  numbered a := by
    obtain ⟨ha, hn⟩ := a
    rw [h]
    refine ⟨fun x m => ?_, ?_⟩
    · rcases List.mem_append.mp m with m | m
      · exact (ha x m).trans (Nat.lt_succ_self _)
      · rw [List.mem_singleton.mp m]
        exact Nat.lt_succ_self _
    · rw [List.map_append, List.map_cons, List.map_nil, ← List.concat_eq_append]
      refine hn.concat fun m => ?_
      obtain ⟨x, mx, e⟩ := List.mem_map.mp m
      exact absurd (ha x mx) (by rw [e]; exact Nat.lt_irrefl _)
  fits a g n := by
    have room : (s.core.held f k).length < 16 := by
      rw [State.core_held_length]
      simpa [State.feederFull] using hf
    rw [h]
    simp only [Core.held, List.filter_append, List.length_append] at room ⊢
    by_cases e : g = f ∧ n = k
    · obtain ⟨rfl, rfl⟩ := e
      exact Nat.le_trans (Nat.add_le_add_left ((List.length_filter_le ..)) _) room
    · have : ([(s.nextXfer, f.val, k, b)].filter fun t => t.2.1 == g.val && t.2.2.1 == n && t.2.2.2) = [] := by
        refine List.filter_eq_nil_iff.mpr fun x m hx => e ?_
        rw [List.mem_singleton.mp m] at hx
        simp only [Bool.and_eq_true, beq_iff_eq] at hx
        exact ⟨Fin.ext hx.1.1.symm, hx.1.2.symm⟩
      rw [this]
      exact a g n
  inside a := by rwa [h]

theorem leads_accept {s u : State} {f : FrameNo} {i : Iss} (x : Xfer) (hf : s.feederFull f (wFeeder i.w) = false)
    (h : u.core = s.core) : s.Leads (u.accept f i x) := by
  refine State.leads_append (b := x.holdsPlace) hf ((core_accept ..).trans ?_)
  rw [h, show u.nextXfer = s.nextXfer from congrArg Core.next h]

theorem core_consumed (s : State) (p : Prop) [Decidable p] (r : Nat) (f : FrameNo) (l : List Mark) (c : Code)
    (n : Nat) :
    (if p then (s.consume r f l).fault r c n else s.consume r f l).core = s.core := by
  split
  · exact (core_fault ..).trans (core_consume ..)
  · exact core_consume ..

section

variable {s : State} {f : FrameNo} {i : Iss} (hf : s.feederFull f (wFeeder i.w) = false)

include hf

theorem leads_moveIssue (x : XRec) : s.Leads (s.moveIssue f i x) := by
  unfold State.moveIssue
  exact leads_accept _ hf (core_xferPoison ..)

theorem leads_xferIssue : s.Leads (s.xferIssue f i) := by
  unfold State.xferIssue
  split
  · exact .refl s
  · split
    · exact State.leads_ite _ (.refl s) (leads_accept _ hf rfl)
    · exact State.leads_ite _ (.refl s) (leads_moveIssue hf _)

theorem leads_kstreamIssue : s.Leads (s.kstreamIssue f i) := by
  unfold State.kstreamIssue
  exact State.leads_ite _ (.refl s) (leads_accept _ hf (core_consumed ..))

theorem leads_relIssue : s.Leads (s.relIssue f i) := leads_accept _ hf (core_useX ..)

theorem leads_atomIssue : s.Leads (s.atomIssue f i) := leads_accept _ hf ((core_useX ..).trans (core_consume ..))

theorem leads_sldIssue : s.Leads (s.sldIssue f i) := by
  exact leads_accept _ hf (core_consumed ..)

theorem leads_feederIssue (op : Op) : s.Leads (s.feederIssue f op i) := by
  unfold State.feederIssue
  split
  · exact leads_xferIssue hf
  · exact leads_kstreamIssue hf
  · exact leads_relIssue hf
  · exact leads_atomIssue hf
  · exact leads_sldIssue hf

end

theorem leading_feederStep (s : State) (f : FrameNo) (op : Op) : Leading s (feederStep s f op) := by
  unfold feederStep
  split
  · split
    · exact leading_next (.refl s)
    · split
      · exact leading_next (State.leads_of_core (State.core_updFrame _ _ _ fun _ => rfl))
      next h => exact leading_next ((leads_feederIssue (Bool.eq_false_iff.mpr h) op).rest (core_next ..))
  · exact leading_next (.refl s)

theorem leading_execFeederAccept (f : FrameNo) (s : State) : Leading s (execFeederAccept f s) := by
  unfold execFeederAccept
  split
  · refine leading_guardStep fun h => ((leads_feederIssue ?_ _).rest (core_next ..))
    simpa using (Bool.and_eq_true_iff.mp h).2
  · exact leading_next (.refl s)

end Sys2Proof.Machine
end

section

/-!
SUPPORT. Words that an engine executes: an operation more, on engines that are free (R43).
-/

namespace Sys2Proof.Machine

open Sys2Proof

/-- What the properties speak of beside the operations. -/
def State.besides (s : State) : List XferTag × Nat × FnEnds :=
  (s.core.tags, s.core.next, s.core.ends)

theorem State.besides_of_core {s t : State} (h : t.core = s.core) : t.besides = s.besides := by
  rw [State.besides, h, State.besides]

theorem State.besides_updFrame (s : State) (f : FrameNo) (g : Frame → Frame) :
    (s.updFrame f g).besides = s.besides := rfl

section

variable (s : State) (f : FrameNo) (i : Iss) (op : Op)

theorem besides_startNothing (ps : List Pend) : (s.startNothing f i op ps).besides = s.besides := rfl

theorem besides_startOp (wr : Writes) (ds : List Nat) (ps : List Pend) (b : Bool) (c : Option Code) (l : Option Nat) :
    (s.startOp f i op wr ds ps b c l).besides = s.besides := by
  unfold State.startOp
  refine (State.besides_updFrame ..).trans (State.besides_of_core ((State.core_foldl _ _ _ fun t d => ?_).trans ?_))
  · simp
  · exact State.core_congr rfl rfl rfl rfl

theorem besides_startPoisoned (x : Ops) (rd : Reader) (rows : Dest → List Nat) (ps : List Pend) (nd : Dest → Pend)
    (m : Mark) (extra : Writes) : (s.startPoisoned f i op x rd rows ps nd m extra).besides = s.besides :=
  (State.besides_updFrame ..).trans (besides_startOp ..)

theorem besides_startChecked (x : Ops) (b : Bool) (rows : Dest → List Nat) (ps : List Pend)
    (run : State → Reader → State)
    (extra : Writes) (h : ∀ t rd, (run t rd).besides = t.besides) :
    (s.startChecked f i op x b rows ps run extra).besides = s.besides := by
  unfold State.startChecked
  dsimp only
  split
  · exact (besides_startPoisoned ..).trans (State.besides_of_core (core_consume ..))
  · split
    · refine (besides_startPoisoned ..).trans (State.besides_of_core ?_)
      rw [core_fault]
      split
      · exact core_log _ _ _ _
      · rfl
    · exact (h _ _).trans (State.besides_of_core ((core_constLines ..).trans (core_reader ..)))

theorem besides_startWhole (x : Ops) (chunks : State → Reader → List Chunk) (ps : List Pend) (b : Bool)
    (bad : State → Reader → Option Nat) : (s.startWhole f i op x chunks ps b bad).besides = s.besides := by
  refine besides_startChecked _ _ _ _ _ _ _ _ _ _ fun t rd => ?_
  dsimp only
  split
  · exact (besides_startPoisoned ..).trans (State.besides_of_core (core_consume ..))
  · exact (State.besides_updFrame ..).trans (besides_startOp ..)

theorem besides_startLane (x : Ops) (b : Bool) (n : Nat) (rows : Dest → List Nat) (ps : List Pend)
    (body : State → Reader → LaneOut)
    (extra : Writes) : (s.startLane f i op x b n rows ps body extra).besides = s.besides :=
  besides_startChecked _ _ _ _ _ _ _ _ _ _ fun _ _ =>
    (State.besides_updFrame ..).trans ((besides_startOp ..).trans (State.besides_of_core (core_consume ..)))

theorem besides_startNamed (b : Bool) (d : Desc) (rows : List Nat) (ps : List Pend) :
    (s.startNamed f i op b d rows ps).besides = s.besides := by
  unfold State.startNamed
  split
  · exact (besides_startPoisoned ..).trans (State.besides_of_core (core_fault ..))
  · rfl

end

theorem besides_ite {s t u : State} (c : Prop) [Decidable c] (ht : t.besides = s.besides) (hu : u.besides = s.besides) :
    (if c then t else u).besides = s.besides := by
  split
  · exact ht
  · exact hu

section

variable (s : State) (f : FrameNo) (i : Iss)

theorem besides_nttIssue (fwd : Bool) : (s.nttIssue f fwd i).besides = s.besides := by
  unfold State.nttIssue
  exact besides_ite _ rfl ((besides_startWhole ..).trans (State.besides_updFrame ..))

theorem besides_bconvIssue : (s.bconvIssue f i).besides = s.besides := by
  unfold State.bconvIssue
  exact besides_startWhole ..

theorem besides_ksipIssue : (s.ksipIssue f i).besides = s.besides := by
  unfold State.ksipIssue
  exact besides_ite _ rfl (besides_startWhole ..)

theorem besides_pmatIssue : (s.pmatIssue f i).besides = s.besides := by
  unfold State.pmatIssue
  exact besides_ite _ rfl (besides_startWhole ..)

theorem besides_autIssue : (s.autIssue f i).besides = s.besides := by
  unfold State.autIssue
  exact besides_ite _ (besides_startNamed ..) (besides_startWhole ..)

theorem besides_trpIssue : (s.trpIssue f i).besides = s.besides := by
  unfold State.trpIssue
  exact besides_ite _ rfl (besides_startWhole ..)

theorem besides_lchainIssue : (s.lchainIssue f i).besides = s.besides := by
  unfold State.lchainIssue State.lchainTensor State.lchainRing
  exact besides_ite _ rfl (besides_ite _ (besides_ite _ rfl (besides_startLane ..))
    (besides_ite _ (besides_startNamed ..) (besides_startLane ..)))

theorem besides_lexpIssue : (s.lexpIssue f i).besides = s.besides := by
  unfold State.lexpIssue
  exact besides_ite _ rfl (besides_startLane ..)

theorem besides_startOpen {t : State} (h : t.besides = s.besides) (op : Op) (ps : List Pend) (n : Nat) :
    ({ t.startNothing f i op ps with freeCtr := n } : State).besides = s.besides := h

theorem besides_lredIssue : (s.lredIssue f i).besides = s.besides := by
  unfold State.lredIssue
  refine besides_ite _ rfl ?_
  dsimp only
  split
  · exact besides_startOpen _ _ _ (State.besides_of_core (core_consume ..)) _ _ _
  · split
    · exact besides_startOpen _ _ _ (State.besides_of_core (core_fault ..)) _ _ _
    · refine besides_ite _ (besides_startOpen _ _ _ (State.besides_of_core (core_fault ..)) _ _ _) (besides_ite _
        (besides_startOpen _ _ _ (State.besides_of_core ((core_consume ..).trans (core_reader ..))) _ _ _)
        ((besides_startNothing ..).trans (State.besides_of_core (core_reader ..))))

theorem besides_smulOpenIssue : (s.smulOpenIssue f i).besides = s.besides := by
  unfold State.smulOpenIssue
  exact besides_ite _ rfl (besides_startLane ..)

theorem besides_smulCloseIssue : (s.smulCloseIssue f i).besides = s.besides := by
  unfold State.smulCloseIssue
  exact besides_ite _ rfl (besides_startLane ..)

theorem besides_seeded {t : State} (k : Nat) (b : Bool) (h : t.besides = (s.seedFor f k b).2.besides) :
    t.besides = s.besides :=
  h.trans (State.besides_of_core (core_seedFor ..))

theorem besides_sreshareIssue : (s.sreshareIssue f i).besides = s.besides := by
  unfold State.sreshareIssue
  exact besides_ite _ rfl (besides_seeded _ _ _ _ (besides_startLane ..))

theorem besides_nfloodIssue : (s.nfloodIssue f i).besides = s.besides := by
  unfold State.nfloodIssue
  exact besides_ite _ rfl (besides_seeded _ _ _ _ (besides_startLane ..))

theorem besides_encPkIssue : (s.encPkIssue f i).besides = s.besides := by
  unfold State.encPkIssue
  exact besides_ite _ rfl (besides_seeded _ _ _ _ (besides_startLane ..))

theorem besides_sexportIssue : (s.sexportIssue f i).besides = s.besides := by
  unfold State.sexportIssue
  exact besides_ite _ rfl
    ((besides_startLane ..).trans (besides_ite _ (State.besides_of_core (core_setSession ..)) rfl))

theorem besides_simportIssue : (s.simportIssue f i).besides = s.besides := by
  unfold State.simportIssue
  exact besides_ite _ rfl (besides_startLane ..)

theorem besides_kregenIssue : (s.kregenIssue f i).besides = s.besides := by
  unfold State.kregenIssue
  refine besides_ite _ rfl ?_
  dsimp only
  split
  · rfl
  · exact besides_ite _ rfl (besides_startOp ..)

end

/-- A word issues where no operation in progress occupies an engine that it needs. -/
theorem State.iss?_free {s : State} {f : FrameNo} {op : Op} {i : Iss} (h : s.iss? f op = some i) :
    ∀ o ∈ (s.frame f).rn.ops, ∀ e ∈ o.engines, e ∉ op.engines := by
  unfold State.iss? at h
  dsimp only at h
  split at h
  · exact absurd h (by simp)
  · split at h
    · split at h
      next hc =>
        obtain ⟨-, -, -, -, -, -, -, -, -, -, -, -, -, -, hb⟩ := hc
        intro o ho e he hop
        rw [List.any_eq_false] at hb
        exact hb e hop (List.contains_iff_mem.mpr (List.mem_flatMap.mpr ⟨o, ho, he⟩))
      next => exact absurd h (by simp)
    · exact absurd h (by simp)

/-- An operation more, on engines that are free. -/
theorem State.Starts.leads {s t : State} {f : FrameNo} {op : Op} {i : Iss} (h : State.Starts s t f op i)
    (hb : t.besides = s.besides) (hi : s.iss? f op = some i) : s.Leads t := by
  obtain ⟨o, ho, he, -, -⟩ := h.starts
  simp only [State.besides, Prod.mk.injEq] at hb
  obtain ⟨ht, hn, hq⟩ := hb
  refine ⟨fun a => ?_, fun a => by rwa [Core.numbered, ht, hn], fun a g n => ?_, fun a => by rwa [Core.inside, hq]⟩
  · rw [← State.enginesApart_iff] at a ⊢
    intro g
    by_cases e : g = f
    · subst e
      rw [ho, List.pairwise_append]
      refine ⟨a g, List.pairwise_singleton _ _, fun x hx y hy => ?_⟩
      rw [List.mem_singleton.mp hy, he]
      exact State.iss?_free hi x hx
    · rw [h.others g e]
      exact a g
  · rw [Core.held, ht]
    exact a g n

theorem leading_engineWord {s : State} {f : FrameNo} {op : Op} {g : Iss → State} (hs : ∀ i, State.Starts s (g i) f op i)
    (hb : ∀ i, (g i).besides = s.besides) : Leading s (issueStep s f op g) := by
  unfold issueStep
  split
  next i hi => exact leading_next (((hs i).leads (hb i) hi).rest (core_next ..))
  next => exact leading_next (.refl s)

end Sys2Proof.Machine
end

section

/-!
SUPPORT. Every command and every step, and the settlement of O55.
-/

namespace Sys2Proof.Machine

open Sys2Proof

/-- Every command keeps each of the four properties. -/
theorem leading_exec (c : Instr) (s : State) : Leading s (exec c s) := by
  cases c with
  | beatLaunch ns last => exact leading_execBeatLaunch ..
  | frameBeatComplete f => exact leading_of_rests (rests_execFrameBeatComplete ..)
  | phaseGroupStart => exact leading_of_rests (rests_execPhaseGroupStart ..)
  | admissionGrant => exact leading_of_rests (rests_execAdmissionGrant ..)
  | beatWatchdog => exact leading_execBeatWatchdog ..
  | tallyRun run => exact leading_of_rests (rests_execTallyRun ..)
  | strClear => exact leading_of_rests (rests_execStrClear ..)
  | markArm high => exact leading_of_rests (rests_execMarkArm ..)
  | timebaseEdge => exact leading_of_rests (rests_execTimebaseEdge ..)
  | tbHoldover => exact leading_of_rests (rests_execTbHoldover ..)
  | syncInEdge => exact leading_of_rests (rests_execSyncInEdge ..)
  | loadNow => exact leading_of_rests (rests_execLoadNow ..)
  | loadArm => exact leading_of_rests (rests_execLoadArm ..)
  | syncOutPeriodic => exact leading_of_rests (rests_execSyncOutPeriodic ..)
  | form => exact leading_of_rests (rests_execForm ..)
  | leave => exact leading_of_rests (rests_execLeave ..)
  | junctionTokenSend => exact leading_of_rests (rests_execJunctionTokenSend ..)
  | junctionTokenReceive => exact leading_of_rests (rests_execJunctionTokenReceive ..)
  | junctionExpired => exact leading_of_rests (rests_execJunctionExpired ..)
  | primeCommit index rootLog => exact leading_of_rests (rests_execPrimeCommit ..)
  | primeCommitComplete => exact leading_of_rests (rests_execPrimeCommitComplete ..)
  | nop f => exact leading_of_rests (rests_execNop ..)
  | endWord f => exact leading_of_rests (rests_execEndWord ..)
  | br f => exact leading_of_rests (rests_execBr ..)
  | loop f => exact leading_of_rests (rests_execLoop ..)
  | sop f => exact leading_of_rests (rests_execSop ..)
  | flagSet f => exact leading_of_rests (rests_execFlagSet ..)
  | flagWait f => exact leading_of_rests (rests_execFlagWait ..)
  | flagAcq f => exact leading_of_rests (rests_execFlagAcq ..)
  | waitExpired f => exact leading_of_rests (rests_execWaitExpired ..)
  | ldrop f => exact leading_of_rests (rests_execLdrop ..)
  | nttF f => exact leading_engineWord (fun i => s.nttIssue_starts f i true) (fun i => besides_nttIssue ..)
  | nttI f => exact leading_engineWord (fun i => s.nttIssue_starts f i false) (fun i => besides_nttIssue ..)
  | bconv f => exact leading_engineWord (State.bconvIssue_starts s f) (besides_bconvIssue s f)
  | ksip f => exact leading_engineWord (State.ksipIssue_starts s f) (besides_ksipIssue s f)
  | pmat f => exact leading_engineWord (State.pmatIssue_starts s f) (besides_pmatIssue s f)
  | lchain f => exact leading_engineWord (State.lchainIssue_starts s f) (besides_lchainIssue s f)
  | lexp f => exact leading_engineWord (State.lexpIssue_starts s f) (besides_lexpIssue s f)
  | lred f => exact leading_engineWord (State.lredIssue_starts s f) (besides_lredIssue s f)
  | smulOpen f => exact leading_engineWord (State.smulOpenIssue_starts s f) (besides_smulOpenIssue s f)
  | smulClose f => exact leading_engineWord (State.smulCloseIssue_starts s f) (besides_smulCloseIssue s f)
  | sreshare f => exact leading_engineWord (State.sreshareIssue_starts s f) (besides_sreshareIssue s f)
  | nflood f => exact leading_engineWord (State.nfloodIssue_starts s f) (besides_nfloodIssue s f)
  | encPk f => exact leading_engineWord (State.encPkIssue_starts s f) (besides_encPkIssue s f)
  | sexport f => exact leading_engineWord (State.sexportIssue_starts s f) (besides_sexportIssue s f)
  | simport f => exact leading_engineWord (State.simportIssue_starts s f) (besides_simportIssue s f)
  | aut f => exact leading_engineWord (State.autIssue_starts s f) (besides_autIssue s f)
  | trp f => exact leading_engineWord (State.trpIssue_starts s f) (besides_trpIssue s f)
  | kregen f => exact leading_engineWord (State.kregenIssue_starts s f) (besides_kregenIssue s f)
  | xfer f => exact leading_feederStep ..
  | kstream f => exact leading_feederStep ..
  | flagRel f => exact leading_feederStep ..
  | atom f => exact leading_feederStep ..
  | sld f => exact leading_feederStep ..
  | feederAccept f => exact leading_execFeederAccept ..
  | wordFetch f => exact leading_of_rests (rests_execWordFetch ..)
  | engineOperationEnd f te fail => exact leading_execEngineOperationEnd ..
  | transferLanded id => exact leading_execTransferLanded ..
  | remoteRowArrival id => exact leading_of_rests (rests_execRemoteRowArrival ..)
  | grantApply id => exact leading_execGrantApply ..
  | accWriteApply id => exact leading_execAccWriteApply ..
  | atomApply id => exact leading_execAtomApply ..
  | sldHomeRead id => exact leading_execSldHomeRead ..
  | rrcFill f line => exact leading_of_rests (rests_execRrcFill ..)
  | releaseUpdateSend id => exact leading_execReleaseUpdateSend ..
  | flagUpdateApply id => exact leading_execFlagUpdateApply ..
  | pfFlagWrite f flag value => exact leading_of_rests (rests_execPfFlagWrite ..)
  | programStart run => exact leading_execProgramStart ..
  | framePartEnd f => exact leading_execFramePartEnd ..
  | programAbort run => exact leading_execProgramAbort ..
  | beatStopArm f beat => exact leading_of_rests (rests_execBeatStopArm ..)
  | beatStopRelease f => exact leading_of_rests (rests_execBeatStopRelease ..)
  | sealSet => exact leading_of_rests (rests_execSealSet ..)
  | sealRelease => exact leading_of_rests (rests_execSealRelease ..)
  | sealOpComplete => exact leading_of_rests (rests_execSealOpComplete ..)
  | regionFree f number => exact leading_of_rests (rests_execRegionFree ..)
  | regionFreeComplete f => exact leading_of_rests (rests_execRegionFreeComplete ..)
  | spadXferGo f first rows toMem => exact leading_of_rests (rests_execSpadXferGo ..)
  | spadXferComplete f => exact leading_of_rests (rests_execSpadXferComplete ..)
  | frameWipeComplete f => exact leading_of_rests (rests_execFrameWipeComplete ..)
  | memcWipeGo => exact leading_of_rests (rests_execMemcWipeGo ..)
  | wipeComplete k => exact leading_of_rests (rests_execWipeComplete ..)
  | heldAccessRelease => exact leading_of_rests (rests_execHeldAccessRelease ..)
  | wipePending => exact leading_of_rests (rests_execWipePending ..)
  | scrubRead port ce ue => exact leading_of_rests (rests_execScrubRead ..)
  | memRetrain port => exact leading_of_rests (rests_execMemRetrain ..)
  | hostBar2Read func offset len tag => exact leading_of_rests (rests_execHostBar2Read ..)
  | hostBar2Write func offset bytes ep => exact leading_of_rests (rests_execHostBar2Write ..)
  | masDefine layer => exact leading_of_rests (rests_execMasDefine ..)
  | masOpen layer => exact leading_of_rests (rests_execMasOpen ..)
  | masClose layer => exact leading_of_rests (rests_execMasClose ..)
  | closingDone layer => exact leading_of_rests (rests_execClosingDone ..)
  | masStep layer clearM solo => exact leading_of_rests (rests_execMasStep ..)
  | masRelease layer => exact leading_of_rests (rests_execMasRelease ..)
  | etaWrite layer eta => exact leading_of_rests (rests_execEtaWrite ..)
  | stepsWrite layer steps => exact leading_of_rests (rests_execStepsWrite ..)
  | ingestAdd layer addr bytes poison => exact leading_of_rests (rests_execIngestAdd ..)
  | voteResult layer => exact leading_of_rests (rests_execVoteResult ..)
  | stepVoteExpired layer => exact leading_of_rests (rests_execStepVoteExpired ..)
  | stepComplete layer => exact leading_of_rests (rests_execStepComplete ..)
  | flitReceive port decodes flit => exact leading_of_rests (rests_execFlitReceive ..)
  | packetRoute => exact leading_of_rests (rests_execPacketRoute ..)
  | requestArrival => exact leading_of_rests (rests_execRequestArrival ..)
  | responseArrival => exact leading_execResponseArrival ..
  | ackTimeout tag => exact leading_execAckTimeout ..
  | portEnable port enable => exact leading_of_rests (rests_execPortEnable ..)
  | equalizeDone port => exact leading_of_rests (rests_execEqualizeDone ..)
  | alignDone port good => exact leading_of_rests (rests_execAlignDone ..)
  | ident port peerRole peerDev peerProfile => exact leading_of_rests (rests_execIdent ..)
  | retrain port => exact leading_of_rests (rests_execRetrain ..)
  | linkHoldExpiry port => exact leading_of_rests (rests_execLinkHoldExpiry ..)
  | downRetry port => exact leading_of_rests (rests_execDownRetry ..)
  | laneLockLoss port lane spareTrained => exact leading_of_rests (rests_execLaneLockLoss ..)
  | laneSwap port lane spare => exact leading_of_rests (rests_execLaneSwap ..)
  | bypass on => exact leading_of_rests (rests_execBypass ..)
  | ping port => exact leading_of_rests (rests_execPing ..)
  | timePingReceive => exact leading_of_rests (rests_execTimePingReceive ..)
  | timeEchoReceive => exact leading_of_rests (rests_execTimeEchoReceive ..)
  | rsArm set => exact leading_of_rests (rests_execRsArm ..)
  | rsDisarm set => exact leading_of_rests (rests_execRsDisarm ..)
  | contribution set addr bytes poison => exact leading_of_rests (rests_execContribution ..)
  | redReceive => exact leading_of_rests (rests_execRedReceive ..)
  | reddownReceive => exact leading_of_rests (rests_execReddownReceive ..)
  | redLineTimeout set line => exact leading_of_rests (rests_execRedLineTimeout ..)
  | sqTail func q tail => exact leading_execSqTail ..
  | cqHead func q head => exact leading_execCqHead ..
  | queueEnable func cq q enable => exact leading_execQueueEnable ..
  | recordFetch func q records dmaFault => exact leading_execRecordFetch ..
  | load => exact leading_of_rests (rests_execLoad ..)
  | unload => exact leading_of_rests (rests_execUnload ..)
  | bind => exact leading_of_rests (rests_execBind ..)
  | unbind => exact leading_of_rests (rests_execUnbind ..)
  | launch => exact leading_of_rests (rests_execLaunch ..)
  | hcopy => exact leading_of_rests (rests_execHcopy ..)
  | hcopyComplete rec data ep dmaFault => exact leading_of_rests (rests_execHcopyComplete ..)
  | launchAdmit => exact leading_execLaunchAdmit ..
  | completionRecordWrite k => exact leading_execCompletionRecordWrite ..
  | coalTimeExpiry func q => exact leading_execCoalTimeExpiry ..
  | funcEnable func => exact leading_of_rests (rests_execFuncEnable ..)
  | functionReset func => exact leading_execFunctionReset ..
  | pfFunctionReset => exact leading_execPfFunctionReset ..
  | budgetWrite budget => exact leading_of_rests (rests_execBudgetWrite ..)
  | budgetStale => exact leading_of_rests (rests_execBudgetStale ..)
  | cntClear => exact leading_of_rests (rests_execCntClear ..)
  | thermalScan => exact leading_of_rests (rests_execThermalScan ..)
  | forceDrainExpiry domain => exact leading_of_rests (rests_execForceDrainExpiry ..)
  | domainOn domain => exact leading_of_rests (rests_execDomainOn ..)
  | domainRetain domain => exact leading_of_rests (rests_execDomainRetain ..)
  | domainOff domain => exact leading_of_rests (rests_execDomainOff ..)
  | domainTransitionComplete => exact leading_execDomainTransitionComplete ..
  | gateWaitExpiry => exact leading_of_rests (rests_execGateWaitExpiry ..)
  | vcoreSet rail point => exact leading_of_rests (rests_execVcoreSet ..)
  | remap f => exact leading_execRemap ..
  | remapComplete f => exact leading_of_rests (rests_execRemapComplete ..)
  | healthClear f => exact leading_of_rests (rests_execHealthClear ..)
  | faultRingHead head => exact leading_of_rests (rests_execFaultRingHead ..)
  | alertClr => exact leading_of_rests (rests_execAlertClr ..)
  | reckonerWatchdog lockstep => exact leading_execReckonerWatchdog ..
  | watchdogKick => exact leading_of_rests (rests_execWatchdogKick ..)
  | alive => exact leading_of_rests (rests_execAlive ..)
  | budgetUpdate meanAu pkgMw => exact leading_of_rests (rests_execBudgetUpdate ..)
  | sensorSample sensor value => exact leading_of_rests (rests_execSensorSample ..)
  | logFlush => exact leading_of_rests (rests_execLogFlush ..)
  | drbgReseed die => exact leading_of_rests (rests_execDrbgReseed ..)
  | entropyHealth => exact leading_of_rests (rests_execEntropyHealth ..)
  | getInfo => exact leading_execGetInfo ..
  | readSensors => exact leading_execReadSensors ..
  | setThreshold => exact leading_execSetThreshold ..
  | readLog => exact leading_execReadLog ..
  | setPower => exact leading_execSetPower ..
  | fwBegin => exact leading_execFwBegin ..
  | fwWrite => exact leading_execFwWrite ..
  | fwVerify => exact leading_execFwVerify ..
  | fwActivate => exact leading_execFwActivate ..
  | fwCommitSvn => exact leading_execFwCommitSvn ..
  | trialCommit => exact leading_of_rests (rests_execTrialCommit ..)
  | lcNonce => exact leading_execLcNonce ..
  | lcSet => exact leading_execLcSet ..
  | sessionAgree => exact leading_execSessionAgree ..
  | sessionClear => exact leading_execSessionClear ..
  | getCert => exact leading_execGetCert ..
  | getMeasurements => exact leading_execGetMeasurements ..
  | drenilVendorMessage dest opcode request => exact leading_of_rests (rests_execDrenilVendorMessage ..)
  | setEndpointId dest eid => exact leading_of_rests (rests_execSetEndpointId ..)
  | getEndpointId dest => exact leading_of_rests (rests_execGetEndpointId ..)
  | getEndpointUuid dest => exact leading_of_rests (rests_execGetEndpointUuid ..)
  | getMctpVersionSupport dest mtype => exact leading_of_rests (rests_execGetMctpVersionSupport ..)
  | getMessageTypeSupport dest => exact leading_of_rests (rests_execGetMessageTypeSupport ..)
  | getVendorDefinedMessageSupport dest selector => exact leading_of_rests (rests_execGetVendorDefinedMessageSupport ..)
  | getTid dest => exact leading_of_rests (rests_execGetTid ..)
  | getPldmVersion dest ptype => exact leading_of_rests (rests_execGetPldmVersion ..)
  | getPldmTypes dest => exact leading_of_rests (rests_execGetPldmTypes ..)
  | getPldmCommands dest ptype => exact leading_of_rests (rests_execGetPldmCommands ..)
  | getPdr dest record => exact leading_of_rests (rests_execGetPdr ..)
  | getSensorReading dest sensor => exact leading_of_rests (rests_execGetSensorReading ..)
  | getStateSensorReadings dest sensor => exact leading_of_rests (rests_execGetStateSensorReadings ..)
  | pollForPlatformEventMessage dest => exact leading_of_rests (rests_execPollForPlatformEventMessage ..)
  | queryDeviceIdentifiers dest => exact leading_of_rests (rests_execQueryDeviceIdentifiers ..)
  | getFirmwareParameters dest => exact leading_of_rests (rests_execGetFirmwareParameters ..)
  | requestUpdate dest => exact leading_of_rests (rests_execRequestUpdate ..)
  | passComponentTable dest comps => exact leading_of_rests (rests_execPassComponentTable ..)
  | updateComponent dest comp size => exact leading_of_rests (rests_execUpdateComponent ..)
  | requestFirmwareData bytes transferDone => exact leading_of_rests (rests_execRequestFirmwareData ..)
  | activateFirmware dest => exact leading_of_rests (rests_execActivateFirmware ..)
  | getStatus dest => exact leading_of_rests (rests_execGetStatus ..)
  | cancelUpdate dest => exact leading_of_rests (rests_execCancelUpdate ..)
  | cancelUpdateComponent dest => exact leading_of_rests (rests_execCancelUpdateComponent ..)
  | getVersion dest => exact leading_of_rests (rests_execGetVersion ..)
  | getCapabilities dest => exact leading_of_rests (rests_execGetCapabilities ..)
  | negotiateAlgorithms dest p384 sha384 => exact leading_of_rests (rests_execNegotiateAlgorithms ..)
  | getDigests dest => exact leading_of_rests (rests_execGetDigests ..)
  | getCertificate dest slot offset length => exact leading_of_rests (rests_execGetCertificate ..)
  | challenge dest slot nonce => exact leading_of_rests (rests_execChallenge ..)
  | spdmGetMeasurements dest index nonce => exact leading_of_rests (rests_execSpdmGetMeasurements ..)
  | modmul lenW => exact leading_of_rests (rests_execModmul ..)
  | modexp lenW => exact leading_of_rests (rests_execModexp ..)
  | modinv lenW => exact leading_of_rests (rests_execModinv ..)
  | ecPub lenW p384 => exact leading_of_rests (rests_execEcPub ..)
  | ecdh lenW p384 => exact leading_of_rests (rests_execEcdh ..)
  | ecdsaSign lenW p384 => exact leading_of_rests (rests_execEcdsaSign ..)
  | ecdsaVerify lenW p384 => exact leading_of_rests (rests_execEcdsaVerify ..)
  | x25519 lenW => exact leading_of_rests (rests_execX25519 ..)
  | ed25519Pub lenW => exact leading_of_rests (rests_execEd25519Pub ..)
  | ed25519Sign lenW msgLen => exact leading_of_rests (rests_execEd25519Sign ..)
  | ed25519Verify lenW msgLen => exact leading_of_rests (rests_execEd25519Verify ..)
  | lnePendingStart => exact leading_of_rests (rests_execLnePendingStart ..)
  | lneDone => exact leading_execLneDone ..
  | powerOn => exact leading_execPowerOn ..
  | deviceReset cause => exact leading_execDeviceReset ..
  | hostReset => exact leading_execHostReset ..
  | bootStageAdvance ms ok => exact leading_execBootStageAdvance ..
  | hostLinkTraining => exact leading_of_rests (rests_execHostLinkTraining ..)
  | supplyFault sensor => exact leading_of_rests (rests_execSupplyFault ..)
  | brownOut rail => exact leading_execBrownOut ..
  | refclkLinkLoss => exact leading_of_rests (rests_execRefclkLinkLoss ..)
  | refclkPcieLoss => exact leading_of_rests (rests_execRefclkPcieLoss ..)
  | bypassInstruction code tdi => exact leading_of_rests (rests_execBypassInstruction ..)
  | samplePreload pins => exact leading_of_rests (rests_execSamplePreload ..)
  | extest resetLow => exact leading_of_rests (rests_execExtest ..)
  | highz resetLow => exact leading_of_rests (rests_execHighz ..)
  | clamp resetLow => exact leading_of_rests (rests_execClamp ..)
  | registerWrite func offset width value => exact leading_execRegisterWrite ..
  | registerRead func offset width tag => exact leading_of_rests (rests_execRegisterRead ..)
  | lneReservedOp op lenW msgLen => exact leading_of_rests (rests_execLneReservedOp ..)
  | mailboxUndefinedOpcode => exact leading_execMailboxUndefinedOpcode ..
  | unsupportedMctpMessage dest mtype command => exact leading_of_rests (rests_execUnsupportedMctpMessage ..)
  | tapReset => exact leading_of_rests (rests_execTapReset ..)

theorem core_idle (s : State) : s.idle.core = s.core := by
  simp [State.idle, State.tick]

theorem leading_step (s : State) : Leading s (step s) := by
  unfold step
  split
  · exact leading_next (State.leads_of_core (core_idle s))
  next c rest _ =>
    have h : s.Leads { s with pending := rest } := State.leads_of_core (State.core_congr rfl rfl rfl rfl)
    exact ⟨fun t e => h.trans ((leading_exec c _).next t e)⟩

/-- Settles O55: what each command changes of operations, transfers and queues keeps each of the four. -/
theorem everyStepKeepsEnginesTransfersAndQueues : Obligations.EveryStepKeepsEnginesTransfersAndQueues := by
  unfold Obligations.EveryStepKeepsEnginesTransfersAndQueues
  intro s t h
  have hl : s.Leads t := (leading_step s).next t h
  rw [State.enginesApart_iff, State.enginesApart_iff, State.xfersNumbered_iff, State.xfersNumbered_iff,
    State.feedersHold_iff,
    State.feedersHold_iff, State.queuesInside_iff, State.queuesInside_iff]
  exact ⟨hl.apart, hl.numbered, hl.fits, hl.inside⟩

end Sys2Proof.Machine
end

section

/-!
SUPPORT. What the invariant on memory speaks of (R108, R298, R344, R370), and the two ways in which an operation keeps
it: it leaves the bytes as they were (`bytes_…`), or it leaves canonical memories canonical (`canonical_…`, and `kept_…`
of a command).
-/

namespace Sys2Proof.Machine

open Sys2Proof

/-- Memory as homes hold it, and as engines see it. -/
def State.bytes (s : State) : List Host.Cell × List Host.Cell := (s.mem, s.vis)

/-- Both memories are in canonical form. -/
def Canonical (b : List Host.Cell × List Host.Cell) : Prop := memWf b.1 = true ∧ memWf b.2 = true

theorem State.memOk_iff_canonical (s : State) : s.memOk ↔ Canonical s.bytes := Iff.rfl

theorem State.bytes_congr {s t : State} (hm : t.mem = s.mem) (hv : t.vis = s.vis) : t.bytes = s.bytes := by
  simp only [State.bytes, hm, hv]

@[simp] theorem State.mk_bytes (s : State) : (s.mem, s.vis) = s.bytes := by rw [State.bytes]

@[simp] theorem State.bytes_mk (a : List Instr) (b : Vector Frame 64) (c d : List Host.Cell) (e : List Upset)
    (f g : List (Nat × Mark)) (h : Tally) (i : Admit) (j : Global) (k : MemC) (l : Mas) (m : Carry) (n : HostQ)
    (o : Mgmt) (p : Lne) (q : Boot) (r : Jtag) (t : List Program) (u : List Run) (v : List Xfer)
    (w : List OutEvt) (x y z : Nat) :
    State.bytes ⟨a,b,c,d,e,f,g,h,i,j,k,l,m,n,o,p,q,r,t,u,v,w,x,y,z⟩ = (c, d) := by rw [State.bytes]

@[simp] theorem State.bytes_ite (c : Prop) [Decidable c] (s t : State) :
    (if c then s else t).bytes = if c then s.bytes else t.bytes := apply_ite ..

@[simp] theorem State.bytes_ite_fst {α : Type} (c : Prop) [Decidable c] (a b : State × α) :
    (if c then a else b).1.bytes = if c then a.1.bytes else b.1.bytes := by split <;> rfl

@[simp] theorem State.bytes_ite_snd {α : Type} (c : Prop) [Decidable c] (a b : α × State) :
    (if c then a else b).2.bytes = if c then a.2.bytes else b.2.bytes := by split <;> rfl

@[simp] theorem canonical_ite (c : Prop) [Decidable c] (a b : List Host.Cell × List Host.Cell) :
    Canonical (if c then a else b) ↔ if c then Canonical a else Canonical b := by split <;> rfl

@[simp] theorem State.bytes_foldl {α : Type} (l : List α) (g : State → α → State) (s : State)
    (h : ∀ u x, (g u x).bytes = u.bytes) : (l.foldl g s).bytes = s.bytes := by
  induction l generalizing s with
  | nil => rfl
  | cons x l ih => rw [List.foldl_cons, ih, h]

theorem State.canonical_foldl {α : Type} (l : List α) (g : State → α → State) {s : State}
    (hg : ∀ (u : State) x, Canonical u.bytes → Canonical (g u x).bytes) (h : Canonical s.bytes) :
    Canonical (l.foldl g s).bytes :=
  State.foldl_induct (fun u => Canonical u.bytes) l g hg s h

/-- A fold that carries a value beside the state. -/
theorem State.canonical_foldl_fst {α β : Type} (l : List α) (g : State × β → α → State × β) {r : State × β}
    (hg : ∀ (u : State × β) x, Canonical u.1.bytes → Canonical (g u x).1.bytes) (h : Canonical r.1.bytes) :
    Canonical (l.foldl g r).1.bytes := by
  induction l generalizing r with
  | nil => exact h
  | cons x l ih => exact ih (hg r x h)

/-- Other bytes in the homes' memory, in canonical form. -/
theorem canonical_setMem {s t : State} (h : Canonical s.bytes) (hm : memWf t.mem = true) (hv : t.vis = s.vis) :
    Canonical t.bytes := ⟨hm, by rw [State.bytes, hv]; exact h.2⟩

/-- What engines see after a launch is part of what homes hold. -/
theorem canonical_showSpad {t : State} {a n : Nat} (h : Canonical t.bytes) : Canonical (t.mem, memSlice t.mem a n) :=
  ⟨h.1, memWf_memSlice a n h.1⟩

@[simp] theorem State.bytes_ite_snd_snd {α β : Type} (c : Prop) [Decidable c] (a b : α × β × State) :
    (if c then a else b).2.2.bytes = if c then a.2.2.bytes else b.2.2.bytes := by split <;> rfl

/-- The outcome's next state, where there is one, holds its memories in canonical form. -/
def Kept (o : Host.Outcome State Fault Refusal) : Prop := ∀ t, o = .next t → Canonical t.bytes

@[simp] theorem kept_next (t : State) : Kept (.next t) ↔ Canonical t.bytes := by
  refine ⟨fun h => h t rfl, fun h => ?_⟩
  rintro _ ⟨⟩
  exact h

@[simp] theorem kept_fault (r : Fault) : Kept (.fault r) := fun _ h => by cases h

@[simp] theorem kept_refused (r : Refusal) : Kept (.refused r) := fun _ h => by cases h

@[simp] theorem kept_ite (c : Prop) [Decidable c] (a b : Host.Outcome State Fault Refusal) :
    Kept (if c then a else b) ↔ if c then Kept a else Kept b := by split <;> rfl

@[simp] theorem kept_guardStep (b : Bool) (s t : State) :
    Kept (guardStep b s t) ↔ Canonical (if b then t else s).bytes := kept_next _

@[simp] theorem canonical_mk (m v : List Host.Cell) : Canonical (m, v) ↔ memWf m = true ∧ memWf v = true := Iff.rfl

theorem canonical_afterCmd {s : State} {o : Host.Outcome State Fault Refusal} (h : Canonical s.bytes) (k : Kept o) :
    Canonical (afterCmd s o).bytes := by
  unfold afterCmd
  split
  next t => exact k t rfl
  next => exact h

theorem canonical_iteState (c : Prop) [Decidable c] {s t : State} (hs : Canonical s.bytes) (ht : Canonical t.bytes) :
    Canonical (if c then s else t).bytes := by
  split
  · exact hs
  · exact ht

theorem canonical_mem {s : State} (h : Canonical s.bytes) : memWf s.mem = true := h.1

theorem canonical_vis {s : State} (h : Canonical s.bytes) : memWf s.vis = true := h.2

end Sys2Proof.Machine
end

section

/-!
SUPPORT. The bytes under the state's shared operations, the links, the memory ports and the work at the homes.
-/

namespace Sys2Proof.Machine

open Sys2Proof

/-! From the model's `Ops`. -/

@[simp] theorem bytes_updFrame (s : State) (f : FrameNo) (g : Frame → Frame) :
    (s.updFrame f g).bytes = s.bytes := State.bytes_congr rfl rfl

@[simp] theorem bytes_mapFrames (s : State) (g : FrameNo → Frame → Frame) : (s.mapFrames g).bytes = s.bytes := by
  simp [State.mapFrames]

@[simp] theorem bytes_updRun (s : State) (id : Nat) (g : Run → Run) :
    (s.updRun id g).bytes = s.bytes := State.bytes_congr rfl rfl

@[simp] theorem bytes_fault (s : State) (id : Nat) (code : Code) (frame : Nat) :
    (s.fault id code frame).bytes = s.bytes := State.bytes_congr rfl rfl

@[simp] theorem bytes_event (s : State) (id : Nat) (code : Code) (frame : Nat) :
    (s.event id code frame).bytes = s.bytes := State.bytes_congr rfl rfl

@[simp] theorem bytes_askAbort (s : State) (id : Nat) (frame : Nat) (code : Code) :
    (s.askAbort id frame code).bytes = s.bytes := State.bytes_congr rfl rfl

@[simp] theorem bytes_emit (s : State) (e : OutEvt) : (s.emit e).bytes = s.bytes := State.bytes_congr rfl rfl

@[simp] theorem bytes_updHostFn (s : State) (f : FuncNo) (g : HostFn → HostFn) :
    (s.updHostFn f g).bytes = s.bytes := State.bytes_congr rfl rfl

@[simp] theorem bytes_signal (s : State) (f : FuncNo) (vec : Nat) : (s.signal f vec).bytes = s.bytes := by
  simp [State.signal]

@[simp] theorem bytes_noteClass (s : State) (code : Code) : (s.noteClass code).bytes = s.bytes := by
  simp [State.noteClass]

@[simp] theorem bytes_noteEvent (s : State) (code : Code) (seq : BitVec 32) :
    (s.noteEvent code seq).bytes = s.bytes := State.bytes_congr rfl rfl

@[simp] theorem bytes_newRecord (s : State) (code : Code) (src : LogSrc) (a : LogArgs) (sev : Nat) :
    (s.newRecord code src a sev).bytes = s.bytes := State.bytes_congr rfl rfl

@[simp] theorem bytes_signalLog (s : State) (sev : Nat) : (s.signalLog sev).bytes = s.bytes := by
  simp [State.signalLog]

@[simp] theorem bytes_foldRecord (s : State) (code : Code) (src : Nat) (idx : Nat) (ring : List LogRec) :
    (s.foldRecord code src idx ring).bytes = s.bytes := by
  unfold State.foldRecord
  dsimp only
  split
  · split <;> simp
  · simp

@[simp] theorem bytes_log (s : State) (code : Code) (src : LogSrc) (a : LogArgs) :
    (s.log code src a).bytes = s.bytes := by
  unfold State.log
  dsimp only
  split <;> simp

@[simp] theorem bytes_report (s : State) (run : Nat) (code : Code) (frame : Nat) :
    (s.report run code frame).bytes = s.bytes := by
  simp [State.report]

@[simp] theorem bytes_noteDrop (s : State) (f : FrameNo) (d : Drop) :
    (s.noteDrop f d).bytes = s.bytes := State.bytes_congr rfl rfl

@[simp] theorem bytes_dropOf (s : State) (x : Xfer) (device : Option Nat) (addr : Nat) :
    (s.dropOf x device addr).bytes = s.bytes := by
  unfold State.dropOf
  split <;> simp

@[simp] theorem bytes_pfErr (s : State) (code : Code) (func : Nat) :
    (s.pfErr code func).bytes = s.bytes := State.bytes_congr rfl rfl

@[simp] theorem bytes_postNotice (s : State) (code : Code) (src : LogSrc) (a : LogArgs) :
    (s.postNotice code src a).bytes = s.bytes := State.bytes_congr rfl rfl

@[simp] theorem bytes_notice (s : State) (code : Code) (src : LogSrc) (a : LogArgs) :
    (s.notice code src a).bytes = s.bytes := by
  simp [State.notice]

@[simp] theorem bytes_logNotice (s : State) (code : Code) (src : LogSrc) (a : LogArgs) :
    (s.logNotice code src a).bytes = s.bytes := by
  simp [State.logNotice]

@[simp] theorem bytes_alert (s : State) : s.alert.bytes = s.bytes := State.bytes_congr rfl rfl

@[simp] theorem bytes_offLog (s : State) (f : FrameNo) (func : Option Nat) : (s.offLog f func).bytes = s.bytes := by
  simp [State.offLog]

@[simp] theorem bytes_offAccess (s : State) (f : FrameNo) (func : Nat) : (s.offAccess f func).bytes = s.bytes := by
  simp [State.offAccess]

@[simp] theorem kept_frmWrite {s t : State} (f : FrameNo) (h : Canonical s.bytes) (k : Canonical t.bytes) :
    Kept (s.frmWrite f t) := by
  simp [State.frmWrite, h, k]

@[simp] theorem bytes_openVal (s : State) : ((s.openVal).2).bytes = s.bytes := State.bytes_congr rfl rfl

@[simp] theorem bytes_mark (s : State) (l : Nat) (m : Mark) : (s.mark l m).bytes = s.bytes := State.bytes_congr rfl rfl

@[simp] theorem bytes_unmark (s : State) (l : Nat) : (s.unmark l).bytes = s.bytes := State.bytes_congr rfl rfl

@[simp] theorem canonical_wipeBytes {s : State} (a n : Nat) (h : Canonical s.bytes) :
    Canonical (s.wipeBytes a n).bytes :=
  State.memOk_wipeBytes a n h

@[simp] theorem canonical_wipeFrame {s : State} (f : FrameNo) (h : Canonical s.bytes) :
    Canonical (s.wipeFrame f).bytes := by
  simp [State.wipeFrame, h]

@[simp] theorem canonical_startWipe {s : State} (k : WipeKind) (base size : Nat) (h : Canonical s.bytes) :
    Canonical (s.startWipe k base size).bytes := by
  simp [State.startWipe, h]

/-- A wipe where a condition does not hold. -/
theorem canonical_partWipe {s : State} (c : Prop) [Decidable c] (k : WipeKind) (base size : Nat)
    (h : Canonical s.bytes) :
    Canonical (if c then s else s.startWipe k base size).bytes := by
  simp [h]

/-! From the model's `Carry`. -/

@[simp] theorem bytes_updPort (s : State) (p : Fin 8) (g : Port → Port) :
    (s.updPort p g).bytes = s.bytes := State.bytes_congr rfl rfl

@[simp] theorem bytes_emitFlit (s : State) (p : Fin 8) (h : FlitHdr) (payload : List Byte) :
    (s.emitFlit p h payload).bytes = s.bytes := State.bytes_congr rfl rfl

@[simp] theorem bytes_sendFlit (s : State) (p : Fin 8) (h : FlitHdr) (payload : List Byte) (pkts : List Packet) :
    (s.sendFlit p h payload pkts).bytes = s.bytes := State.bytes_congr rfl rfl

@[simp] theorem bytes_idleFlit (s : State) (p : Fin 8) (nak : Bool) (vc : Nat) (n : Nat) :
    (s.idleFlit p nak vc n).bytes = s.bytes := State.bytes_congr rfl rfl

@[simp] theorem bytes_transmit (s : State) (p : Fin 8) (ks : List Packet) : (s.transmit p ks).bytes = s.bytes := by
  simp [State.transmit]

@[simp] theorem bytes_pump (s : State) (p : Fin 8) : (s.pump p).bytes = s.bytes := by
  simp [State.pump]

@[simp] theorem bytes_pumpAll (s : State) : s.pumpAll.bytes = s.bytes := by
  simp [State.pumpAll]

@[simp] theorem bytes_queueAt (s : State) (p : Fin 8) (k : Packet) :
    (s.queueAt p k).bytes = s.bytes := State.bytes_congr rfl rfl

@[simp] theorem bytes_enqueue (s : State) (p : Fin 8) (k : Packet) : (s.enqueue p k).bytes = s.bytes := by
  simp [State.enqueue]

@[simp] theorem bytes_dropPacket (s : State) (k : Packet) (status : Code) (port : Nat) :
    (s.dropPacket k status port).bytes = s.bytes := by
  simp [State.dropPacket]

@[simp] theorem bytes_place1 (s : State) (k : Packet) (arr : Option (Fin 8)) : (s.place1 k arr).bytes = s.bytes := by
  unfold State.place1
  dsimp only
  (repeat' split) <;> simp

@[simp] theorem bytes_route (s : State) (k : Packet) (arr : Option (Fin 8)) : (s.route k arr).bytes = s.bytes := by
  simp [State.route]

@[simp] theorem bytes_sendReq (s : State) (owner : ReqOwner) (feeder : Nat) (k : Packet) :
    (s.sendReq owner feeder k).bytes = s.bytes := by
  simp [State.sendReq]

@[simp] theorem bytes_sendRole (s : State) (role : Nat) (k : Packet) : (s.sendRole role k).bytes = s.bytes := by
  unfold State.sendRole
  split <;> simp

@[simp] theorem bytes_updXfer (s : State) (id : Nat) (g : Xfer → Xfer) :
    (s.updXfer id g).bytes = s.bytes := State.bytes_congr rfl rfl

@[simp] theorem bytes_dropXfer (s : State) (id : Nat) : (s.dropXfer id).bytes = s.bytes := State.bytes_congr rfl rfl

@[simp] theorem bytes_sendRows (s : State) (id : Nat) : (s.sendRows id).bytes = s.bytes := by
  unfold State.sendRows
  split
  · rfl
  · exact State.bytes_foldl _ _ _ fun u r => by split <;> simp

@[simp] theorem bytes_sendAtom (s : State) (id : Nat) : (s.sendAtom id).bytes = s.bytes := by
  unfold State.sendAtom
  split
  · rfl
  · split <;> simp

@[simp] theorem bytes_sendAll (s : State) : s.sendAll.bytes = s.bytes := by
  simp [State.sendAll]

@[simp] theorem bytes_forgetXfer (s : State) (id : Nat) : (s.forgetXfer id).bytes = s.bytes := by
  unfold State.forgetXfer
  split <;> simp

@[simp] theorem bytes_answer (s : State) (tag : Nat) (status : Code) (old : Nat) (poison : Bool) :
    (s.answer tag status old poison).bytes = s.bytes := by
  unfold State.answer
  dsimp only
  (repeat' split) <;> simp

@[simp] theorem kept_execResponseArrival {s : State} (h : Canonical s.bytes) : Kept (execResponseArrival s) := by
  unfold execResponseArrival
  split <;> simp [h]

@[simp] theorem kept_execAckTimeout (tag : BitVec 12) {s : State} (h : Canonical s.bytes) :
    Kept (execAckTimeout tag s) := by
  simp [execAckTimeout, h]

@[simp] theorem bytes_retrainPort (s : State) (p : Fin 8) : (s.retrainPort p).bytes = s.bytes := by
  simp [State.retrainPort]

@[simp] theorem bytes_replay (s : State) (p : Fin 8) : (s.replay p).bytes = s.bytes := by
  simp [State.replay]

@[simp] theorem bytes_returnCredits (s : State) (p : Fin 8) (vc k n : Nat) :
    (s.returnCredits p vc k n).bytes = s.bytes := by
  induction k generalizing s n with
  | zero => rfl
  | succ k ih =>
    unfold State.returnCredits
    split
    · rfl
    · rw [ih, bytes_idleFlit]

@[simp] theorem bytes_giveBack (s : State) (p : Fin 8) (k : Packet) : (s.giveBack p k).bytes = s.bytes := by
  simp [State.giveBack]

@[simp] theorem bytes_payOwed (s : State) (p : Fin 8) : (s.payOwed p).bytes = s.bytes :=
  State.bytes_foldl _ _ _ fun u v => by simp

@[simp] theorem bytes_receivePacket (s : State) (p : Fin 8) (k : Packet) : (s.receivePacket p k).bytes = s.bytes := by
  simp [State.receivePacket]

@[simp] theorem bytes_refuseFlit (s : State) (p : Fin 8) : (s.refuseFlit p).bytes = s.bytes := State.bytes_congr rfl rfl

@[simp] theorem bytes_acceptFlit (s : State) (p : Fin 8) (h : FlitHdr) (payload : List Byte) :
    (s.acceptFlit p h payload).bytes = s.bytes := by
  simp [State.acceptFlit]

@[simp] theorem kept_execFlitReceive (port : Fin 8) (lost : Option Nat) (flit : List Byte) {s : State}
    (h : Canonical s.bytes) :
    Kept (execFlitReceive port lost flit s) := by
  unfold execFlitReceive
  dsimp only
  (repeat' split) <;> simp [h]

@[simp] theorem kept_execPacketRoute {s : State} (h : Canonical s.bytes) : Kept (execPacketRoute s) := by
  unfold execPacketRoute
  dsimp only
  split
  · simp [h]
  · split <;> simp [h]

@[simp] theorem bytes_portOffAccess (s : State) (p : Fin 8) (func : Nat) :
    (s.portOffAccess p func).bytes = s.bytes := by
  simp [State.portOffAccess]

@[simp] theorem kept_execPortEnable (port : Fin 8) (enable : Bool) {s : State} (h : Canonical s.bytes) :
    Kept (execPortEnable port enable s) := by
  simp [execPortEnable, h]

@[simp] theorem kept_execEqualizeDone (port : Fin 8) {s : State} (h : Canonical s.bytes) :
    Kept (execEqualizeDone port s) := by
  simp [execEqualizeDone, h]

@[simp] theorem kept_execAlignDone (port : Fin 8) (good : BitVec 34) {s : State} (h : Canonical s.bytes) :
    Kept (execAlignDone port good s) := by
  simp [execAlignDone, h]

@[simp] theorem kept_execRetrain (port : Fin 8) {s : State} (h : Canonical s.bytes) : Kept (execRetrain port s) := by
  simp [execRetrain, h]

@[simp] theorem bytes_linkDown (s : State) (p : Fin 8) : (s.linkDown p).bytes = s.bytes := by
  simp [State.linkDown]

@[simp] theorem kept_execIdent (port : Fin 8) (peerRole : BitVec 4) (peerDev : BitVec 12)
    (peerProfile : BitVec 2) {s : State} (h : Canonical s.bytes) :
    Kept (execIdent port peerRole peerDev peerProfile s) := by
  simp [execIdent, h]

@[simp] theorem kept_execLinkHoldExpiry (port : Fin 8) {s : State} (h : Canonical s.bytes) :
    Kept (execLinkHoldExpiry port s) := by
  simp [execLinkHoldExpiry, h]

@[simp] theorem kept_execDownRetry (port : Fin 8) {s : State} (h : Canonical s.bytes) :
    Kept (execDownRetry port s) := by
  simp [execDownRetry, h]

@[simp] theorem bytes_swapLane (s : State) (p : Fin 8) (lane : Fin 34) (spare : Fin 34) :
    (s.swapLane p lane spare).bytes = s.bytes := State.bytes_congr rfl rfl

@[simp] theorem kept_execLaneLockLoss (port : Fin 8) (lane : Fin 34) (spareTrained : Bool) {s : State}
    (h : Canonical s.bytes) :
    Kept (execLaneLockLoss port lane spareTrained s) := by
  unfold execLaneLockLoss
  dsimp only
  (repeat' split) <;> simp [h]

@[simp] theorem kept_execLaneSwap (port : Fin 8) (lane : Fin 34) (spare : Fin 34) {s : State}
    (h : Canonical s.bytes) :
    Kept (execLaneSwap port lane spare s) := by
  simp [execLaneSwap, h]

@[simp] theorem kept_execPing (port : Fin 8) {s : State} (h : Canonical s.bytes) : Kept (execPing port s) := by
  simp [execPing, h]

theorem bytes_takeTime {s t : State} {echo : Bool} {p : Fin 8} {k : Packet} {b : BitVec 64}
    (h : s.takeTime echo = some (p, k, b, t)) : t.bytes = s.bytes := by
  unfold State.takeTime at h
  dsimp only at h
  split at h
  · cases h
  · obtain ⟨_, _, e⟩ := Option.map_eq_some_iff.mp h
    cases e
    rfl

@[simp] theorem kept_execTimePingReceive {s : State} (h : Canonical s.bytes) : Kept (execTimePingReceive s) := by
  unfold execTimePingReceive
  split
  next e => simpa [bytes_takeTime e] using h
  next => exact (kept_next s).mpr h

@[simp] theorem kept_execTimeEchoReceive {s : State} (h : Canonical s.bytes) : Kept (execTimeEchoReceive s) := by
  unfold execTimeEchoReceive
  split
  next e => simpa [bytes_takeTime e] using h
  next => exact (kept_next s).mpr h

/-! From the model's `Ports`. -/

@[simp] theorem bytes_updMem (s : State) (p : Fin 16) (g : MemPort → MemPort) :
    (s.updMem p g).bytes = s.bytes := State.bytes_congr rfl rfl

@[simp] theorem bytes_moved (s : State) (c : Fin 4) (a : Nat) (n : Nat) :
    (s.moved c a n).bytes = s.bytes := State.bytes_congr rfl rfl

@[simp] theorem bytes_movedSpan (s : State) (c : Fin 4) (base : Nat) (size : Nat) :
    (s.movedSpan c base size).bytes = s.bytes := by
  simp [State.movedSpan]

@[simp] theorem bytes_upset (s : State) (us : List Upset) : (s.upset us).bytes = s.bytes := State.bytes_congr rfl rfl

@[simp] theorem bytes_mend (s : State) (u : Upset) : (s.mend u).bytes = s.bytes := State.bytes_congr rfl rfl

@[simp] theorem bytes_eccUe (s : State) (port : Fin 16) (a : Nat) : (s.eccUe port a).bytes = s.bytes := by
  simp [State.eccUe]

@[simp] theorem bytes_foundSector (s : State) (x : Nat × SectorErr) : (s.foundSector x).bytes = s.bytes := by
  unfold State.foundSector
  split <;> simp

@[simp] theorem bytes_checkRead (s : State) (a : Nat) (n : Nat) : (s.checkRead a n).bytes = s.bytes := by
  simp [State.checkRead]

@[simp] theorem bytes_checkWrite (s : State) (a : Nat) (n : Nat) (reads : Bool) :
    (s.checkWrite a n reads).bytes = s.bytes := by
  simp [State.checkWrite]

@[simp] theorem bytes_foundSpad (s : State) (x : Nat × Bool) : (s.foundSpad x).bytes = s.bytes := by
  unfold State.foundSpad
  dsimp only
  split <;> simp

@[simp] theorem bytes_checkSpad (s : State) (a : Nat) (n : Nat) : (s.checkSpad a n).bytes = s.bytes := by
  simp [State.checkSpad]

@[simp] theorem bytes_checkCache (s : State) (f : FrameNo) (l : Nat) : (s.checkCache f l).bytes = s.bytes := by
  simp [State.checkCache]

@[simp] theorem canonical_lineRead {s : State} (c : Fin 4) (a n : Nat) (h : Canonical s.bytes) :
    Canonical (s.lineRead c a n).bytes := State.memOk_lineRead c a n h

@[simp] theorem canonical_lineWrite {s : State} (c : Fin 4) (a n : Nat) (r : Bool) (h : Canonical s.bytes) :
    Canonical (s.lineWrite c a n r).bytes := State.memOk_lineWrite c a n r h

@[simp] theorem bytes_mendSpan (s : State) (base : Nat) (size : Nat) (p : Nat → Bool) :
    (s.mendSpan base size p).bytes = s.bytes := State.bytes_congr rfl rfl

@[simp] theorem bytes_wroteSpan (s : State) (c : Fin 4) (base : Nat) (size : Nat) :
    (s.wroteSpan c base size).bytes = s.bytes := by
  simp [State.wroteSpan]

@[simp] theorem canonical_readSpans {s : State} (c : Fin 4) (spans : List (Nat × Nat)) (h : Canonical s.bytes) :
    Canonical (s.readSpans c spans).bytes :=
  State.canonical_foldl _ _ (fun u x hu => by simp [hu]) h

@[simp] theorem canonical_sumAt {s : State} (a : Nat) (n : Nat) (h : Canonical s.bytes) :
    Canonical (s.sumAt a n).bytes := by
  unfold State.sumAt
  split <;> simp [h]

/-! From the model's `Home`. -/

@[simp] theorem bytes_updSet (s : State) (i : Nat) (g : RSet → RSet) : (s.updSet i g).bytes = s.bytes := by
  unfold State.updSet
  split <;> simp

@[simp] theorem bytes_updLayer (s : State) (i : Fin 64) (g : Layer → Layer) :
    (s.updLayer i g).bytes = s.bytes := State.bytes_congr rfl rfl

@[simp] theorem canonical_ingest {s : State} (i : Fin 64) (a : Nat) (bytes : List Byte) (m : Option Mark)
    (h : Canonical s.bytes) :
    Canonical (s.ingest i a bytes m).bytes := State.memOk_ingest i a bytes m h

@[simp] theorem canonical_store {s : State} (a : Nat) (bytes : List Byte) (m : Option Mark) (h : Canonical s.bytes) :
    Canonical (s.store a bytes m).bytes := State.memOk_store a bytes m h

@[simp] theorem bytes_putFlag (s : State) (f : FrameNo) (flag : Nat) (add : Bool) (v : Word) :
    (s.putFlag f flag add v).bytes = s.bytes := State.bytes_congr rfl rfl

@[simp] theorem bytes_refuseFlag (s : State) (f : FrameNo) : (s.refuseFlag f).bytes = s.bytes := by
  simp [State.refuseFlag]

@[simp] theorem canonical_lineData {s : State} (i : Nat) (line : Nat) (h : Canonical s.bytes) :
    Canonical ((s.lineData i line).1).bytes := by
  simp [State.lineData, h]

@[simp] theorem canonical_combine {s : State} (i line : Nat) (bytes : List Byte) (c : Option Code)
    (h : Canonical s.bytes) :
    Canonical (s.combine i line bytes c).bytes := State.memOk_combine i line bytes c h

@[simp] theorem bytes_spoil (s : State) (i : Nat) (line : Nat) (c : Code) : (s.spoil i line c).bytes = s.bytes := by
  simp [State.spoil]

@[simp] theorem bytes_closeLine (s : State) (i : Nat) (line : Nat) (bytes : List Byte) (cause : Option Code) :
    (s.closeLine i line bytes cause).bytes = s.bytes := by
  simp [State.closeLine]

theorem canonical_job_write {s : State} (a : Nat) (bytes : List Byte) (mark : Option Mark) (cls : Fin 4)
    (h : Canonical s.bytes) :
    Canonical (s.job (.write a bytes mark cls)).1.bytes := by
  simp only [State.job]
  split
  · rw [bytes_log]
    split <;> simp [h]
  · split
    · exact h
    · split
      · exact canonical_ingest _ _ _ _ h
      · exact canonical_store _ _ _ (canonical_lineWrite _ _ _ _ h)

theorem canonical_job_round {s : State} (i : Nat) (h : Canonical s.bytes) : Canonical (s.job (.round i)).1.bytes := by
  simp only [State.job]
  split
  · split <;> simp [h]
  · exact h

/-- Every piece of work at the homes keeps the form. -/
theorem canonical_job {s : State} (j : Job) (h : Canonical s.bytes) : Canonical (s.job j).1.bytes := by
  cases j with
  | write a bytes mark cls => exact canonical_job_write a bytes mark cls h
  | contribute i line bytes mark => simp [State.job, h]
  | complete i line => simp [State.job, h]
  | deliver i line bytes cause => simp [State.job, h]
  | round i => exact canonical_job_round i h

@[simp] theorem canonical_work {s : State} (n : Nat) (js : List Job) (h : Canonical s.bytes) :
    Canonical (s.work n js).bytes :=
  State.work_induct (fun u => Canonical u.bytes) (fun _ j => canonical_job j) (fun u hu => by simpa using hu) n s js h

@[simp] theorem canonical_memArrive {s : State} (a : Nat) (bytes : List Byte) (mark : Option Mark) (cls : Fin 4)
    (h : Canonical s.bytes) :
    Canonical (s.memArrive a bytes mark cls).bytes := by
  simp [State.memArrive, h]

@[simp] theorem canonical_tryArrive {s : State} (a : Nat) (bytes : List Byte) (mark : Option Mark)
    (h : Canonical s.bytes) :
    Canonical ((s.tryArrive a bytes mark).1).bytes := by
  simp [State.tryArrive, h]

@[simp] theorem canonical_nibArrive {s : State} (w : PWrite) (mark : Option Mark) (h : Canonical s.bytes) :
    Canonical (s.nibArrive w mark).1.bytes := by
  unfold State.nibArrive
  extract_lets u v
  have hu : Canonical u.bytes := canonical_lineWrite 2 w.addr 1 false h
  have hv : Canonical v.bytes := canonical_setMem hu (memWf_writeNibs _ hu.1) rfl
  split
  · exact canonical_tryArrive _ _ _ h
  · cases mark <;> simpa using hv

@[simp] theorem bytes_oneLine (s : State) (was : State) (a : Nat) : (s.oneLine was a).bytes = s.bytes := by
  unfold State.oneLine
  split <;> simp

@[simp] theorem canonical_lineArrive {s : State} (cells : List Host.Cell) (nibs : List PWrite) (mark : Option Mark)
    (h : Canonical s.bytes) :
    Canonical (s.lineArrive cells nibs mark).1.bytes := by
  simp only [State.lineArrive, bytes_oneLine]
  refine State.canonical_foldl_fst _ _ (fun u w hu => canonical_nibArrive w mark hu) ?_
  exact State.canonical_foldl_fst _ _ (fun u x hu => canonical_tryArrive _ _ mark hu) h

@[simp] theorem canonical_atomAt {s : State} (addr aop a c q : Nat) (h : Canonical s.bytes) :
    Canonical (s.atomAt addr aop a c q).1.bytes := by
  have hs := canonical_sumAt addr 4 h
  unfold State.atomAt
  dsimp only
  split
  · exact hs
  · exact canonical_setMem hs (memWf_memWriteN _ _ hs.1) rfl

end Sys2Proof.Machine
end

section

/-!
SUPPORT. The bytes under the sequencer, the beat, the flash, the generators and the engines' words.
-/

namespace Sys2Proof.Machine

open Sys2Proof

/-! From the model's `Issue`. -/

@[simp] theorem bytes_next (s : State) (f : FrameNo) (w : BcWord) :
    (s.next f w).bytes = s.bytes := State.bytes_congr rfl rfl

@[simp] theorem bytes_pend (s : State) (f : FrameNo) (ps : List Pend) :
    (s.pend f ps).bytes = s.bytes := State.bytes_congr rfl rfl

@[simp] theorem kept_issueStep {s : State} (f : FrameNo) (op : Op) {g : Iss → State} (h : Canonical s.bytes)
    (hg : ∀ i, Canonical (g i).bytes) : Kept (issueStep s f op g) := by
  unfold issueStep
  split
  next i _ => simpa using hg i
  next => exact (kept_next s).mpr h

@[simp] theorem bytes_consume (s : State) (r : Nat) (f : FrameNo) (ms : List Mark) :
    (s.consume r f ms).bytes = s.bytes := by
  unfold State.consume
  split <;> simp

@[simp] theorem bytes_useX (s : State) (f : FrameNo) (r : Nat) (xs : List Nat) : (s.useX f r xs).bytes = s.bytes := by
  simp [State.useX]

@[simp] theorem canonical_fillLine {s : State} (f : FrameNo) (l : Nat) (fresh : Bool) (h : Canonical s.bytes) :
    Canonical (s.fillLine f l fresh).bytes := by
  simp [State.fillLine, h]

@[simp] theorem canonical_fetchLines {s : State} (f : FrameNo) (ls : List Nat) (h : Canonical s.bytes) :
    Canonical (s.fetchLines f ls).1.bytes := by
  induction ls generalizing s with
  | nil => exact h
  | cons l ls ih =>
    unfold State.fetchLines
    dsimp only
    split
    · exact ih (by simpa using h)
    · exact ih (canonical_fillLine f l false (by simpa using h))

@[simp] theorem canonical_reader {s : State} (f : FrameNo) (r : Run) (isSealed : Bool) (rows : List Nat)
    (h : Canonical s.bytes) : Canonical (s.reader f r isSealed rows).1.bytes := by
  simp only [State.reader, State.bytes_ite, bytes_fault, ite_self]
  refine canonical_fetchLines f _ ?_
  rw [State.bytes_foldl _ _ _ fun u l => bytes_checkSpad u _ _]
  exact h

@[simp] theorem bytes_startNothing (s : State) (f : FrameNo) (i : Iss) (op : Op) (pend : List Pend) :
    (s.startNothing f i op pend).bytes = s.bytes := State.bytes_congr rfl rfl

@[simp] theorem bytes_startOp (s : State) (f : FrameNo) (i : Iss) (op : Op) (wr : Writes) (dslots : List Nat)
    (pend : List Pend) (checked : Bool) (execFault : Option Code) (badLimb : Option Nat) :
    (s.startOp f i op wr dslots pend checked execFault badLimb).bytes = s.bytes := by
  simp [State.startOp]

@[simp] theorem canonical_constLines {s : State} (f : FrameNo) (rd : Reader) (ls : List Nat) (h : Canonical s.bytes) :
    Canonical (s.constLines f rd ls).1.bytes := canonical_fetchLines f ls h

@[simp] theorem bytes_startPoisoned (s : State) (f : FrameNo) (i : Iss) (op : Op) (x : Ops) (rd : Reader)
    (rows : Dest → List Nat) (pend : List Pend) (nd : Dest → Pend) (m : Mark) (extra : Writes) :
    (s.startPoisoned f i op x rd rows pend nd m extra).bytes = s.bytes := by
  simp [State.startPoisoned]

@[simp] theorem canonical_startChecked {s : State} (f : FrameNo) (i : Iss) (op : Op) (x : Ops) (isSealed : Bool)
    (rows : Dest → List Nat) (pend : List Pend) {run : State → Reader → State} (extra : Writes) (h : Canonical s.bytes)
    (hr : ∀ (u : State) rd, Canonical u.bytes → Canonical (run u rd).bytes) :
    Canonical (s.startChecked f i op x isSealed rows pend run extra).bytes := by
  unfold State.startChecked
  dsimp only
  split
  · simpa using h
  · split
    · simpa using h
    · exact hr _ _ (by simp [h])

@[simp] theorem bytes_startNamed (s : State) (f : FrameNo) (i : Iss) (op : Op) (bad : Bool) (d : Desc)
    (rows : List Nat) (pend : List Pend) :
    (s.startNamed f i op bad d rows pend).bytes = s.bytes := by
  simp [State.startNamed]

@[simp] theorem canonical_startWhole {s : State} (f : FrameNo) (i : Iss) (op : Op) (x : Ops)
    (chunks : State → Reader → List Chunk) (pend : List Pend) (checked : Bool)
    (badLimb : State → Reader → Option Nat) (h : Canonical s.bytes) :
    Canonical (s.startWhole f i op x chunks pend checked badLimb).bytes := by
  simp [State.startWhole, h]

/-! From the model's `Sequencer`. -/

@[simp] theorem bytes_settleLeave (s : State) : s.settleLeave.bytes = s.bytes := by
  simp [State.settleLeave]

@[simp] theorem bytes_quietAborted (s : State) : s.quietAborted.bytes = s.bytes := by
  simp [State.quietAborted]

@[simp] theorem bytes_leaveOnAbort (s : State) : s.leaveOnAbort.bytes = s.bytes := by
  simp [State.leaveOnAbort]

@[simp] theorem kept_execNop (f : FrameNo) {s : State} (h : Canonical s.bytes) : Kept (execNop f s) := by
  simp [execNop, h]

@[simp] theorem kept_execEndWord (f : FrameNo) {s : State} (h : Canonical s.bytes) : Kept (execEndWord f s) := by
  simp [execEndWord, h]

@[simp] theorem kept_execBr (f : FrameNo) {s : State} (h : Canonical s.bytes) : Kept (execBr f s) := by
  unfold execBr
  split <;> simp [h]

@[simp] theorem kept_execLoop (f : FrameNo) {s : State} (h : Canonical s.bytes) : Kept (execLoop f s) := by
  unfold execLoop
  split <;> simp [h]

@[simp] theorem kept_execSop (f : FrameNo) {s : State} (h : Canonical s.bytes) : Kept (execSop f s) := by
  simp [execSop, h]

@[simp] theorem kept_execFlagSet (f : FrameNo) {s : State} (h : Canonical s.bytes) : Kept (execFlagSet f s) := by
  simp [execFlagSet, h]

@[simp] theorem bytes_startWait (s : State) (f : FrameNo) (i : Iss) (acq : Bool) :
    (s.startWait f i acq).bytes = s.bytes := by
  simp [State.startWait]

@[simp] theorem kept_execFlagWait (f : FrameNo) {s : State} (h : Canonical s.bytes) : Kept (execFlagWait f s) := by
  simp [execFlagWait, h]

@[simp] theorem kept_execFlagAcq (f : FrameNo) {s : State} (h : Canonical s.bytes) : Kept (execFlagAcq f s) := by
  simp [execFlagAcq, h]

@[simp] theorem kept_execWaitExpired (f : FrameNo) {s : State} (h : Canonical s.bytes) :
    Kept (execWaitExpired f s) := by
  unfold execWaitExpired
  split <;> simp [h]

@[simp] theorem kept_execLdrop {s : State} (f : FrameNo) (h : Canonical s.bytes) : Kept (execLdrop f s) := by
  refine kept_issueStep _ _ h fun i => ?_
  dsimp only
  split
  · simpa using h
  · split <;> simpa using h

@[simp] theorem kept_execWordFetch (f : Met FrameNo) {s : State} (h : Canonical s.bytes) :
    Kept (execWordFetch f s) := by
  simp [execWordFetch, h]

@[simp] theorem bytes_forget (s : State) (frame : Nat) (line : Nat) : (s.forget frame line).bytes = s.bytes := by
  unfold State.forget
  split <;> simp

@[simp] theorem canonical_commitLines {s : State} (f : FrameNo) (o : EngOp) (lines : List Nat) (h : Canonical s.bytes) :
    Canonical (s.commitLines f o lines).bytes := by
  refine State.canonical_foldl _ _ (fun u l hu => ?_) h
  simp [hu]

@[simp] theorem canonical_commitOp {s : State} (f : FrameNo) (o : EngOp) (h : Canonical s.bytes) :
    Canonical (s.commitOp f o).bytes :=
  canonical_commitLines f o _ (canonical_setMem h (memWf_writeNibs _ (memWf_memWriteCells _ h.1)) rfl)

@[simp] theorem canonical_failOp {s : State} (f : FrameNo) (o : EngOp) (c : Code) (h : Canonical s.bytes) :
    Canonical (s.failOp f o c).bytes := by
  simp [State.failOp, memWf_memWriteCells, canonical_mem h, canonical_vis h]

@[simp] theorem bytes_countCheckFail (s : State) (f : FrameNo) (limb : Option Nat) :
    (s.countCheckFail f limb).bytes = s.bytes := by
  simp [State.countCheckFail]

@[simp] theorem canonical_endOp {s : State} (f : FrameNo) (o : EngOp) (fail : Bool) (h : Canonical s.bytes) :
    Canonical (s.endOp f o fail).bytes := by
  unfold State.endOp
  dsimp only
  split
  · simp [h]
  · split <;> simp [h]

@[simp] theorem kept_execEngineOperationEnd (f : FrameNo) (te : Bool) (fail : Bool) {s : State}
    (h : Canonical s.bytes) :
    Kept (execEngineOperationEnd f te fail s) := by
  unfold execEngineOperationEnd
  dsimp only
  split <;> simp [h]

@[simp] theorem kept_execFrameBeatComplete (f : FrameNo) {s : State} (h : Canonical s.bytes) :
    Kept (execFrameBeatComplete f s) := by
  simp [execFrameBeatComplete, h]

@[simp] theorem bytes_dropArms (s : State) (frames : BitVec 64) (keep : FrameNo) :
    (s.dropArms frames keep).bytes = s.bytes := by
  simp [State.dropArms]

@[simp] theorem kept_execBeatStopArm (f : FrameNo) (beat : BitVec 48) {s : State} (h : Canonical s.bytes) :
    Kept (execBeatStopArm f beat s) := by
  unfold execBeatStopArm
  dsimp only
  split
  · simp [h]
  · split <;> simp [h]

/-! From the model's `Beat`. -/

@[simp] theorem bytes_logSplit (s : State) : s.logSplit.bytes = s.bytes := by
  simp [State.logSplit]

@[simp] theorem bytes_gateRuns (s : State) : s.gateRuns.bytes = s.bytes :=
  State.bytes_foldl _ _ _ fun u f => by split <;> simp

@[simp] theorem bytes_takeAborts (s : State) : s.takeAborts.bytes = s.bytes := by
  simp [State.takeAborts]

@[simp] theorem bytes_recheck (s : State) : s.recheck.bytes = s.bytes :=
  State.bytes_foldl _ _ _ fun u f => by
    dsimp only
    split
    · split
      · split <;> simp
      · rfl
    · rfl

@[simp] theorem bytes_markEnds (s : State) : s.markEnds.bytes = s.bytes := by
  simp [State.markEnds]

@[simp] theorem bytes_markStarts (s : State) (groupRuns : List Nat) : (s.markStarts groupRuns).bytes = s.bytes := by
  simp [State.markStarts]

@[simp] theorem bytes_markIdle (s : State) : s.markIdle.bytes = s.bytes := by
  simp [State.markIdle]

@[simp] theorem bytes_sendTokens (s : State) (window : Int) : (s.sendTokens window).bytes = s.bytes := by
  simp [State.sendTokens]

@[simp] theorem bytes_gatherLanes (s : State) : s.gatherLanes.bytes = s.bytes := State.bytes_congr rfl rfl

@[simp] theorem kept_execAdmissionGrant {s : State} (h : Canonical s.bytes) : Kept (execAdmissionGrant s) := by
  simp [execAdmissionGrant, h]

@[simp] theorem kept_execPhaseGroupStart {s : State} (h : Canonical s.bytes) : Kept (execPhaseGroupStart s) := by
  unfold execPhaseGroupStart
  dsimp only
  split <;> simp [h]

@[simp] theorem bytes_fence (s : State) (f : FrameNo) (cause : BitVec 2) (code : Code) :
    (s.fence f cause code).bytes = s.bytes := by
  simp [State.fence]

@[simp] theorem bytes_checkFences (s : State) : s.checkFences.bytes = s.bytes := by
  simp [State.checkFences]

@[simp] theorem canonical_poisonXfer {s : State} (x : Xfer) (h : Canonical s.bytes) :
    Canonical (s.poisonXfer x).bytes :=
  canonical_setMem h (memWf_memWriteCells _ h.1) rfl

@[simp] theorem canonical_cancel {s : State} (p : Xfer → Bool) (h : Canonical s.bytes) :
    Canonical (s.cancel p).bytes := by
  unfold State.cancel
  exact State.canonical_foldl _ _ (fun u x hu => canonical_poisonXfer x hu)
    (State.canonical_foldl _ _ (fun u x hu => by simpa using hu) h)

@[simp] theorem bytes_abandonDrops (s : State) (x : Xfer) : (s.abandonDrops x).bytes = s.bytes := by
  simp [State.abandonDrops]

@[simp] theorem canonical_abandon {s : State} (x : Xfer) (h : Canonical s.bytes) : Canonical (s.abandon x).bytes := by
  unfold State.abandon
  dsimp only
  split
  · simp [h]
  · refine State.canonical_foldl _ _ (fun u p hu => by split <;> simp [hu]) ?_
    simp [h]

@[simp] theorem canonical_watchdogAbort {s : State} (id : Nat) (frame : Nat) (cond : Nat) (h : Canonical s.bytes) :
    Canonical (s.watchdogAbort id frame cond).bytes := by
  simp [State.watchdogAbort, h]

@[simp] theorem canonical_watchFrame {was s : State} (f : FrameNo) (h : Canonical s.bytes) :
    Canonical (State.watchFrame was s f).bytes := by
  unfold State.watchFrame
  dsimp only
  split <;> simp [h]

@[simp] theorem kept_execBeatWatchdog {s : State} (h : Canonical s.bytes) : Kept (execBeatWatchdog s) := by
  unfold execBeatWatchdog
  dsimp only
  split
  · rw [kept_next, bytes_settleLeave]
    refine State.canonical_foldl _ _ (fun u f hu => canonical_watchFrame f hu) ?_
    exact State.canonical_foldl _ _ (fun u x hu => canonical_abandon x hu) h
  · exact (kept_next s).mpr h

@[simp] theorem kept_execTallyRun (run : Bool) {s : State} (h : Canonical s.bytes) : Kept (execTallyRun run s) := by
  simp [execTallyRun, h]

@[simp] theorem kept_execStrClear {s : State} (h : Canonical s.bytes) : Kept (execStrClear s) := by
  simp [execStrClear, h]

@[simp] theorem kept_execMarkArm (high : Word) {s : State} (h : Canonical s.bytes) : Kept (execMarkArm high s) := by
  simp [execMarkArm, h]

@[simp] theorem bytes_setTb (s : State) (t : Tally) : (s.setTb t).bytes = s.bytes := by
  simp [State.setTb]

@[simp] theorem bytes_tick (s : State) : s.tick.bytes = s.bytes := by
  simp [State.tick]

@[simp] theorem kept_execTimebaseEdge {s : State} (h : Canonical s.bytes) : Kept (execTimebaseEdge s) := by
  simp [execTimebaseEdge, h]

@[simp] theorem kept_execTbHoldover {s : State} (h : Canonical s.bytes) : Kept (execTbHoldover s) := by
  simp [execTbHoldover, h]

@[simp] theorem kept_execSyncInEdge {s : State} (h : Canonical s.bytes) : Kept (execSyncInEdge s) := by
  simp [execSyncInEdge, h]

@[simp] theorem kept_execLoadNow {s : State} (h : Canonical s.bytes) : Kept (execLoadNow s) := by
  simp [execLoadNow, h]

@[simp] theorem kept_execLoadArm {s : State} (h : Canonical s.bytes) : Kept (execLoadArm s) := by
  simp [execLoadArm, h]

@[simp] theorem kept_execSyncOutPeriodic {s : State} (h : Canonical s.bytes) : Kept (execSyncOutPeriodic s) := by
  simp [execSyncOutPeriodic, h]

@[simp] theorem kept_execForm {s : State} (h : Canonical s.bytes) : Kept (execForm s) := by
  simp [execForm, h]

@[simp] theorem bytes_abortGroup (s : State) : s.abortGroup.bytes = s.bytes := by
  simp [State.abortGroup]

@[simp] theorem kept_execLeave {s : State} (h : Canonical s.bytes) : Kept (execLeave s) := by
  simp [execLeave, h]

@[simp] theorem kept_execJunctionTokenSend {s : State} (h : Canonical s.bytes) : Kept (execJunctionTokenSend s) := by
  unfold execJunctionTokenSend
  split <;> simp [h]

@[simp] theorem kept_execJunctionTokenReceive {s : State} (h : Canonical s.bytes) :
    Kept (execJunctionTokenReceive s) := by
  unfold execJunctionTokenReceive
  split <;> simp [h]

@[simp] theorem kept_execJunctionExpired {s : State} (h : Canonical s.bytes) : Kept (execJunctionExpired s) := by
  simp [execJunctionExpired, h]

/-! From the model's `FlashImage`. -/

@[simp] theorem bytes_flashWrite (s : State) (a : Nat) (bytes : List Byte) :
    (s.flashWrite a bytes).bytes = s.bytes := State.bytes_congr rfl rfl

@[simp] theorem bytes_flashErase (s : State) (a : Nat) (n : Nat) :
    (s.flashErase a n).bytes = s.bytes := State.bytes_congr rfl rfl

@[simp] theorem bytes_commitSlot (s : State) (k : Fin 3) (g : SlotState → SlotState) :
    (s.commitSlot k g).bytes = s.bytes := State.bytes_congr rfl rfl

@[simp] theorem bytes_tearRecord (s : State) : s.tearRecord.bytes = s.bytes := by
  simp [State.tearRecord]

@[simp] theorem bytes_takeCopy (s : State) (second : Bool) (seq : Nat) :
    (s.takeCopy second seq).bytes = s.bytes := State.bytes_congr rfl rfl

@[simp] theorem bytes_readSlots (s : State) : s.readSlots.bytes = s.bytes := by
  unfold State.readSlots
  split <;> simp

@[simp] theorem bytes_markFailed (s : State) (comp : Nat) (slot : Nat) :
    (s.markFailed comp slot).bytes = s.bytes := State.bytes_congr rfl rfl

/-! From the model's `Drbg`. -/

@[simp] theorem bytes_setDrbg (s : State) (k : Nat) (d : Drbg) : (s.setDrbg k d).bytes = s.bytes := by
  unfold State.setDrbg
  split <;> simp

@[simp] theorem bytes_raw (s : State) : ((s.raw).2).bytes = s.bytes := State.bytes_congr rfl rfl

@[simp] theorem bytes_startDrbg (s : State) (k : Nat) : (s.startDrbg k).bytes = s.bytes := by
  simp [State.startDrbg]

@[simp] theorem bytes_entropyFail (s : State) : s.entropyFail.bytes = s.bytes := by
  simp [State.entropyFail]

@[simp] theorem bytes_reseedDrbg (s : State) (k : Nat) : (s.reseedDrbg k).bytes = s.bytes := by
  simp [State.reseedDrbg]

@[simp] theorem bytes_drbgDraw (s : State) (k : Nat) : ((s.drbgDraw k).2).bytes = s.bytes := by
  simp [State.drbgDraw]

/-! From the model's `Image`. -/

@[simp] theorem canonical_installPset {s : State} (slot b : Nat) (h : Canonical s.bytes) :
    Canonical (s.installPset slot b).bytes := by
  have hw := canonical_wipeBytes (decodePset b).constBase 0x200000 h
  simp only [State.installPset, bytes_wroteSpan, State.bytes_mk, canonical_mk]
  refine ⟨memWf_foldl _ _ (fun m w hm => memWf_memWriteN _ _ hm) ?_, hw.2⟩
  exact memWf_memWriteN _ _ hw.1

/-! From the model's `Transform`. -/

@[simp] theorem canonical_nttIssue {s : State} (f : FrameNo) (fwd : Bool) (i : Iss) (h : Canonical s.bytes) :
    Canonical (s.nttIssue f fwd i).bytes := by
  simp [State.nttIssue, h]

@[simp] theorem canonical_bconvIssue {s : State} (f : FrameNo) (i : Iss) (h : Canonical s.bytes) :
    Canonical (s.bconvIssue f i).bytes := by
  simp [State.bconvIssue, h]

@[simp] theorem canonical_ksipIssue {s : State} (f : FrameNo) (i : Iss) (h : Canonical s.bytes) :
    Canonical (s.ksipIssue f i).bytes := by
  simp [State.ksipIssue, h]

@[simp] theorem canonical_pmatIssue {s : State} (f : FrameNo) (i : Iss) (h : Canonical s.bytes) :
    Canonical (s.pmatIssue f i).bytes := by
  simp [State.pmatIssue, h]

@[simp] theorem canonical_autIssue {s : State} (f : FrameNo) (i : Iss) (h : Canonical s.bytes) :
    Canonical (s.autIssue f i).bytes := by
  simp [State.autIssue, h]

@[simp] theorem canonical_trpIssue {s : State} (f : FrameNo) (i : Iss) (h : Canonical s.bytes) :
    Canonical (s.trpIssue f i).bytes := by
  simp [State.trpIssue, h]

@[simp] theorem kept_execNttF (f : FrameNo) {s : State} (h : Canonical s.bytes) : Kept (execNttF f s) := by
  simp [execNttF, h]

@[simp] theorem kept_execNttI (f : FrameNo) {s : State} (h : Canonical s.bytes) : Kept (execNttI f s) := by
  simp [execNttI, h]

@[simp] theorem kept_execBconv (f : FrameNo) {s : State} (h : Canonical s.bytes) : Kept (execBconv f s) := by
  simp [execBconv, h]

@[simp] theorem kept_execKsip (f : FrameNo) {s : State} (h : Canonical s.bytes) : Kept (execKsip f s) := by
  simp [execKsip, h]

@[simp] theorem kept_execPmat (f : FrameNo) {s : State} (h : Canonical s.bytes) : Kept (execPmat f s) := by
  simp [execPmat, h]

@[simp] theorem kept_execAut (f : FrameNo) {s : State} (h : Canonical s.bytes) : Kept (execAut f s) := by
  simp [execAut, h]

@[simp] theorem kept_execTrp (f : FrameNo) {s : State} (h : Canonical s.bytes) : Kept (execTrp f s) := by
  simp [execTrp, h]

/-! From the model's `Lane`. -/

@[simp] theorem canonical_startLane {s : State} (f : FrameNo) (i : Iss) (op : Op) (x : Ops) (isSealed : Bool)
    (trap : Nat) (rows : Dest → List Nat) (pend : List Pend) (body : State → Reader → LaneOut) (extra : Writes)
    (h : Canonical s.bytes) :
    Canonical (s.startLane f i op x isSealed trap rows pend body extra).bytes := by
  simp [State.startLane, h]

@[simp] theorem canonical_lchainRing {s : State} (f : FrameNo) (i : Iss) (ch : Chain) (d : Desc)
    (h : Canonical s.bytes) :
    Canonical (s.lchainRing f i ch d).bytes := by
  simp [State.lchainRing, h]

@[simp] theorem canonical_lchainTensor {s : State} (f : FrameNo) (i : Iss) (ch : Chain) (d : Desc)
    (h : Canonical s.bytes) :
    Canonical (s.lchainTensor f i ch d).bytes := by
  simp [State.lchainTensor, h]

@[simp] theorem canonical_lchainIssue {s : State} (f : FrameNo) (i : Iss) (h : Canonical s.bytes) :
    Canonical (s.lchainIssue f i).bytes := by
  simp [State.lchainIssue, h]

@[simp] theorem canonical_lexpIssue {s : State} (f : FrameNo) (i : Iss) (h : Canonical s.bytes) :
    Canonical (s.lexpIssue f i).bytes := by
  simp [State.lexpIssue, h]

@[simp] theorem canonical_lredIssue {s : State} (f : FrameNo) (i : Iss) (h : Canonical s.bytes) :
    Canonical (s.lredIssue f i).bytes := by
  unfold State.lredIssue
  refine canonical_iteState _ (by simpa using h) ?_
  dsimp only
  split
  · simpa using h
  · split
    · simpa using h
    · refine canonical_iteState _ (by simpa using h) (canonical_iteState _ ?_ ?_) <;> simp [h]

@[simp] theorem canonical_smulOpenIssue {s : State} (f : FrameNo) (i : Iss) (h : Canonical s.bytes) :
    Canonical (s.smulOpenIssue f i).bytes := by
  simp [State.smulOpenIssue, h]

@[simp] theorem canonical_smulCloseIssue {s : State} (f : FrameNo) (i : Iss) (h : Canonical s.bytes) :
    Canonical (s.smulCloseIssue f i).bytes := by
  simp [State.smulCloseIssue, h]

@[simp] theorem bytes_seedFor (s : State) (f : FrameNo) (k : Nat) (fresh : Bool) :
    ((s.seedFor f k fresh).2).bytes = s.bytes := by
  unfold State.seedFor
  dsimp only
  (repeat' split) <;> simp

@[simp] theorem canonical_sreshareIssue {s : State} (f : FrameNo) (i : Iss) (h : Canonical s.bytes) :
    Canonical (s.sreshareIssue f i).bytes := by
  simp [State.sreshareIssue, h]

@[simp] theorem canonical_nfloodIssue {s : State} (f : FrameNo) (i : Iss) (h : Canonical s.bytes) :
    Canonical (s.nfloodIssue f i).bytes := by
  simp [State.nfloodIssue, h]

@[simp] theorem canonical_encPkIssue {s : State} (f : FrameNo) (i : Iss) (h : Canonical s.bytes) :
    Canonical (s.encPkIssue f i).bytes := by
  simp [State.encPkIssue, h]

@[simp] theorem bytes_setSession (s : State) (k : Nat) (x : Session) : (s.setSession k x).bytes = s.bytes := by
  unfold State.setSession
  split <;> simp

@[simp] theorem canonical_sexportIssue {s : State} (f : FrameNo) (i : Iss) (h : Canonical s.bytes) :
    Canonical (s.sexportIssue f i).bytes := by
  simp [State.sexportIssue, h]

@[simp] theorem canonical_simportIssue {s : State} (f : FrameNo) (i : Iss) (h : Canonical s.bytes) :
    Canonical (s.simportIssue f i).bytes := by
  simp [State.simportIssue, h]

@[simp] theorem bytes_kregenIssue (s : State) (f : FrameNo) (i : Iss) : (s.kregenIssue f i).bytes = s.bytes := by
  unfold State.kregenIssue
  dsimp only
  split
  · simp
  · split <;> simp

@[simp] theorem kept_execLchain (f : FrameNo) {s : State} (h : Canonical s.bytes) : Kept (execLchain f s) := by
  simp [execLchain, h]

@[simp] theorem kept_execLexp (f : FrameNo) {s : State} (h : Canonical s.bytes) : Kept (execLexp f s) := by
  simp [execLexp, h]

@[simp] theorem kept_execLred (f : FrameNo) {s : State} (h : Canonical s.bytes) : Kept (execLred f s) := by
  simp [execLred, h]

@[simp] theorem kept_execSmulOpen (f : FrameNo) {s : State} (h : Canonical s.bytes) : Kept (execSmulOpen f s) := by
  simp [execSmulOpen, h]

@[simp] theorem kept_execSmulClose (f : FrameNo) {s : State} (h : Canonical s.bytes) : Kept (execSmulClose f s) := by
  simp [execSmulClose, h]

@[simp] theorem kept_execSreshare (f : FrameNo) {s : State} (h : Canonical s.bytes) : Kept (execSreshare f s) := by
  simp [execSreshare, h]

@[simp] theorem kept_execNflood (f : FrameNo) {s : State} (h : Canonical s.bytes) : Kept (execNflood f s) := by
  simp [execNflood, h]

@[simp] theorem kept_execEncPk (f : FrameNo) {s : State} (h : Canonical s.bytes) : Kept (execEncPk f s) := by
  simp [execEncPk, h]

@[simp] theorem kept_execSexport (f : FrameNo) {s : State} (h : Canonical s.bytes) : Kept (execSexport f s) := by
  simp [execSexport, h]

@[simp] theorem kept_execSimport (f : FrameNo) {s : State} (h : Canonical s.bytes) : Kept (execSimport f s) := by
  simp [execSimport, h]

@[simp] theorem kept_execKregen (f : FrameNo) {s : State} (h : Canonical s.bytes) : Kept (execKregen f s) := by
  simp [execKregen, h]

/-! From the model's `LoadScan`. -/

@[simp] theorem bytes_declared (s : State) (p : Program) : (s.declared p).bytes = s.bytes := by
  simp [State.declared]

-- NOSIG Scan.s
-- NOSIG Scan.was

end Sys2Proof.Machine
end

section

/-!
SUPPORT. The bytes under programs, reduction sets and the host's queues.
-/

namespace Sys2Proof.Machine

open Sys2Proof

/-! From the model's `Program`. -/

@[simp] theorem bytes_setEntry (s : State) (i : Nat) (e : Entry) :
    (s.setEntry i e).bytes = s.bytes := State.bytes_congr rfl rfl

@[simp] theorem bytes_countWaits (s : State) (f : FuncNo) (q : Nat) : (s.countWaits f q).bytes = s.bytes := by
  unfold State.countWaits
  split <;> simp

@[simp] theorem bytes_complete (s : State) (c : Comp) : (s.complete c).bytes = s.bytes := by
  simp [State.complete]

@[simp] theorem canonical_zeroNew {s : State} (f : FrameNo) (a : FramePart) (h : Canonical s.bytes) :
    Canonical (s.zeroNew f a).bytes :=
  State.canonical_foldl _ _ (fun _ _ hu => canonical_wipeBytes _ _ hu) h

@[simp] theorem canonical_startRun {s : State} (r : Run) (p : Program) (h : Canonical s.bytes) :
    Canonical (s.startRun r p).bytes := by
  have hr := canonical_readSpans 1 (s.tableSpans p.hdr) h
  have ha : ∀ (u : State) (fs : List FrameNo),
      (fs.foldl (fun (s : State) f => s.askAbort r.id f.val Codes.issueCheckFail) u).bytes = u.bytes := fun u fs =>
    State.bytes_foldl _ _ _ fun v f => bytes_askAbort v _ _ _
  unfold State.startRun
  dsimp only
  simp only [State.bytes_ite, bytes_takeAborts, ha, ite_self, bytes_mapFrames]
  refine State.canonical_foldl _ _ (fun u f hu => by split <;> simp [hu]) ?_
  rw [bytes_setEntry, bytes_updRun, State.bytes_mk, State.mk_bytes]
  split <;> simpa using hr

@[simp] theorem kept_execProgramStart {s : State} (run : Nat) (h : Canonical s.bytes) :
    Kept (execProgramStart run s) := by
  unfold execProgramStart
  split
  · split <;> simp [h]
  · exact (kept_next s).mpr h

@[simp] theorem canonical_cutOps {s : State} (f : FrameNo) (h : Canonical s.bytes) : Canonical (s.cutOps f).bytes :=
  canonical_setMem h (memWf_writeNibs _ (memWf_memWriteCells _ h.1)) rfl

@[simp] theorem canonical_cancelXfers {s : State} (run : Nat) (h : Canonical s.bytes) :
    Canonical (s.cancelXfers run).bytes := by
  simp [State.cancelXfers, h]

@[simp] theorem canonical_releaseFrame {s : State} (f : FrameNo) (h : Canonical s.bytes) :
    Canonical (s.releaseFrame f).bytes := by
  simp only [State.releaseFrame, bytes_updFrame]
  exact State.canonical_foldl _ _ (fun u r hu => canonical_wipeBytes _ _ hu) h

@[simp] theorem bytes_closeRec (s : State) (id : Nat) : (s.closeRec id).bytes = s.bytes := State.bytes_congr rfl rfl

@[simp] theorem canonical_finishRun {s : State} (r : Run) (h : Canonical s.bytes) :
    Canonical (s.finishRun r).bytes := by
  have hcut : ∀ fs : List FrameNo, Canonical ((fs.foldl State.cutOps s).cancelXfers r.id).bytes := fun fs =>
    canonical_cancelXfers _ (State.canonical_foldl _ _ (fun u f hu => canonical_cutOps f hu) h)
  have hrel : ∀ (u : State) (fs : List FrameNo), Canonical u.bytes → Canonical (fs.foldl State.releaseFrame u).bytes :=
    fun u fs => State.canonical_foldl _ _ fun v f hv => canonical_releaseFrame f hv
  unfold State.finishRun
  dsimp only
  split <;> split <;> simp [h, hcut, hrel]

@[simp] theorem kept_execFramePartEnd (f : FrameNo) {s : State} (h : Canonical s.bytes) :
    Kept (execFramePartEnd f s) := by
  unfold execFramePartEnd
  split <;> simp [h]

@[simp] theorem kept_execProgramAbort (run : Nat) {s : State} (h : Canonical s.bytes) :
    Kept (execProgramAbort run s) := by
  unfold execProgramAbort
  split <;> simp [h]

@[simp] theorem kept_execBeatStopRelease {s : State} (f : FrameNo) (h : Canonical s.bytes) :
    Kept (execBeatStopRelease f s) := by
  unfold execBeatStopRelease
  split
  · simpa using h
  · split
    · exact kept_frmWrite f h (by simpa using h)
    · exact kept_frmWrite f h h

@[simp] theorem kept_execRegionFree (f : FrameNo) (number : BitVec 8) {s : State} (h : Canonical s.bytes) :
    Kept (execRegionFree f number s) := by
  unfold execRegionFree
  dsimp only
  (repeat' split) <;> simp [h]

@[simp] theorem kept_execRegionFreeComplete (f : FrameNo) {s : State} (h : Canonical s.bytes) :
    Kept (execRegionFreeComplete f s) := by
  simp [execRegionFreeComplete, h]

@[simp] theorem bytes_barSealed (s : State) (n : FuncNo) (a : Nat) : (s.barSealed n a).bytes = s.bytes := by
  simp [State.barSealed]

theorem canonical_barSealedIf {s : State} (b : Bool) (n : FuncNo) (a : Nat) (h : Canonical s.bytes) :
    Canonical (if b then s.barSealed n a else s).bytes := by
  simp [h]

@[simp] theorem canonical_copyRow {s : State} (f : FrameNo) (toMem : Bool) (row addr : Nat) (h : Canonical s.bytes) :
    Canonical (s.copyRow f toMem row addr).1.bytes := by
  unfold State.copyRow
  extract_lets sp src dst srcSealed dstSealed u bytes mark v w
  have hu : Canonical u.bytes := by
    unfold u
    split
    · exact h
    · split
      · rw [bytes_checkSpad]
        exact h
      · exact canonical_lineRead _ _ _ h
  have hw : Canonical w.bytes := canonical_barSealedIf _ _ _ (canonical_barSealedIf _ _ _ hu)
  split
  · exact hw
  · split
    · exact canonical_memArrive _ _ _ _ hw
    · exact canonical_store _ _ _ hw

@[simp] theorem canonical_copyRows {s : State} (f : FrameNo) (toMem : Bool) (n row addr : Nat) (h : Canonical s.bytes) :
    Canonical (s.copyRows f toMem n row addr).1.bytes := by
  induction n generalizing s row addr with
  | zero => exact h
  | succ n ih => exact ih _ _ (canonical_copyRow f toMem row addr h)

@[simp] theorem kept_execSpadXferGo {s : State} (f : FrameNo) (first : BitVec 12) (rows : BitVec 13) (toMem : Bool)
    (h : Canonical s.bytes) :
    Kept (execSpadXferGo f first rows toMem s) := by
  unfold execSpadXferGo
  dsimp only
  split
  · simpa using h
  · simp [h]

@[simp] theorem kept_execSpadXferComplete (f : FrameNo) {s : State} (h : Canonical s.bytes) :
    Kept (execSpadXferComplete f s) := by
  simp [execSpadXferComplete, h]

@[simp] theorem bytes_settleFunc (s : State) (n : FuncNo) : (s.settleFunc n).bytes = s.bytes := by
  simp [State.settleFunc]

@[simp] theorem bytes_settle (s : State) : s.settle.bytes = s.bytes := by
  simp [State.settle]

@[simp] theorem kept_execFrameWipeComplete (f : FrameNo) {s : State} (h : Canonical s.bytes) :
    Kept (execFrameWipeComplete f s) := by
  simp [execFrameWipeComplete, h]

/-! From the model's `ReduceSets`. -/

@[simp] theorem kept_execRsArm (set : Fin 64) {s : State} (h : Canonical s.bytes) : Kept (execRsArm set s) := by
  simp [execRsArm, h]

@[simp] theorem bytes_disarmSet (s : State) (i : Fin 64) : (s.disarmSet i).bytes = s.bytes := by
  simp [State.disarmSet]

@[simp] theorem bytes_disarmAll (s : State) : s.disarmAll.bytes = s.bytes := by
  simp [State.disarmAll]

@[simp] theorem kept_execRsDisarm (set : Fin 64) {s : State} (h : Canonical s.bytes) : Kept (execRsDisarm set s) := by
  simp [execRsDisarm, h]

@[simp] theorem kept_execBypass (on : Bool) {s : State} (h : Canonical s.bytes) : Kept (execBypass on s) := by
  simp [execBypass, h]

@[simp] theorem kept_execContribution (set : Fin 64) (addr : Nat) (bytes : List Byte) (poison : Bool) {s : State}
    (h : Canonical s.bytes) :
    Kept (execContribution set addr bytes poison s) := by
  simp [execContribution, h]

@[simp] theorem bytes_answerBroken (s : State) (i : Inbound) : (s.answerBroken i).bytes = s.bytes := by
  unfold State.answerBroken
  split <;> simp

@[simp] theorem bytes_logHash (s : State) (set : Nat) (round : Nat) : (s.logHash set round).bytes = s.bytes := by
  simp [State.logHash]

@[simp] theorem canonical_takeRed {s : State} (i : Inbound) (h : Canonical s.bytes) :
    Canonical (s.takeRed i).bytes := by
  unfold State.takeRed
  dsimp only
  split
  · simpa using h
  · split
    · exact h
    · refine canonical_work _ _ ?_
      rw [bytes_updSet]
      split <;> simp [h]

@[simp] theorem canonical_takeReddown {s : State} (i : Inbound) (h : Canonical s.bytes) :
    Canonical (s.takeReddown i).bytes := by
  unfold State.takeReddown
  dsimp only
  split
  · simpa using h
  · split
    · exact h
    · split
      · exact canonical_work _ _ h
      · exact canonical_work _ _ (canonical_lineData _ _ (by simpa using h))

theorem bytes_takeRedOf {s t : State} {n : Nat} {i : Inbound} (h : s.takeRedOf n = some (i, t)) :
    t.bytes = s.bytes := by
  obtain ⟨_, _, e⟩ := Option.map_eq_some_iff.mp h
  cases e
  rfl

@[simp] theorem kept_execRedReceive {s : State} (h : Canonical s.bytes) : Kept (execRedReceive s) := by
  unfold execRedReceive
  split
  next e => exact (kept_next _).mpr (canonical_takeRed _ (bytes_takeRedOf e ▸ h))
  next => exact (kept_next s).mpr h

@[simp] theorem kept_execReddownReceive {s : State} (h : Canonical s.bytes) : Kept (execReddownReceive s) := by
  unfold execReddownReceive
  split
  next e => exact (kept_next _).mpr (canonical_takeReddown _ (bytes_takeRedOf e ▸ h))
  next => exact (kept_next s).mpr h

@[simp] theorem kept_execRedLineTimeout {s : State} (set : Fin 64) (line : Nat) (h : Canonical s.bytes) :
    Kept (execRedLineTimeout set line s) := by
  unfold execRedLineTimeout
  dsimp only
  split
  · refine (kept_next _).mpr (canonical_work _ _ ?_)
    simp [h]
  · exact (kept_next s).mpr h

/-! From the model's `HostQ`. -/

@[simp] theorem bytes_updSq (s : State) (f : FuncNo) (q : Fin 64) (g : Sq → Sq) :
    (s.updSq f q g).bytes = s.bytes := State.bytes_congr rfl rfl

@[simp] theorem bytes_updCq (s : State) (f : FuncNo) (q : Fin 64) (g : Cq → Cq) :
    (s.updCq f q g).bytes = s.bytes := State.bytes_congr rfl rfl

@[simp] theorem kept_execSqTail (func : FuncNo) (q : Fin 64) (tail : BitVec 16) {s : State} (h : Canonical s.bytes) :
    Kept (execSqTail func q tail s) := by
  simp [execSqTail, h]

@[simp] theorem kept_execCqHead (func : FuncNo) (q : Fin 64) (head : BitVec 16) {s : State} (h : Canonical s.bytes) :
    Kept (execCqHead func q head s) := by
  simp [execCqHead, h]

@[simp] theorem kept_execQueueEnable (func : FuncNo) (cq : Bool) (q : Fin 64) (enable : Bool) {s : State}
    (h : Canonical s.bytes) :
    Kept (execQueueEnable func cq q enable s) := by
  simp [execQueueEnable, h]

@[simp] theorem bytes_answerRec (s : State) (r : Rec) (status : Code) (index : Nat) :
    (s.answerRec r status index).bytes = s.bytes := by
  simp [State.answerRec]

@[simp] theorem bytes_acceptRec (s : State) (func : FuncNo) (q : Fin 64) (bits : BitVec 512) :
    (s.acceptRec func q bits).bytes = s.bytes := by
  simp [State.acceptRec]

@[simp] theorem bytes_acceptAll (s : State) (func : FuncNo) (q : Fin 64) (bs : List (BitVec 512)) :
    (s.acceptAll func q bs).bytes = s.bytes := by
  induction bs generalizing s with
  | nil => rfl
  | cons b bs ih =>
    unfold State.acceptAll
    split
    · rfl
    · rw [ih, bytes_acceptRec]

@[simp] theorem kept_execRecordFetch {s : State} (func : FuncNo) (q : Fin 64) (records : List (BitVec 512)) (dmaFault : Bool)
    (h : Canonical s.bytes) : Kept (execRecordFetch func q records dmaFault s) := by
  simp [execRecordFetch, h]

theorem bytes_nextRecord {s t : State} {n : Nat} {r : Rec} (h : s.nextRecord n = some (r, t)) : t.bytes = s.bytes := by
  unfold State.nextRecord at h
  split at h
  · cases h
  · split at h
    · cases h
      rfl
    · cases h

@[simp] theorem canonical_tryLoad {s : State} (n : FuncNo) (hdr : Nat) (h : Canonical s.bytes) :
    Canonical (s.tryLoad n hdr).2.2.bytes := by
  unfold State.tryLoad
  dsimp only
  split
  · simpa using h
  · split
    · simpa using h
    · split
      · simpa using h
      · split
        · simpa using h
        · split
          · simp [h]
          · rw [State.bytes_mk, State.mk_bytes]
            exact State.canonical_foldl _ _ (fun u x hu => canonical_installPset x.1 x.2 hu) (canonical_readSpans _ _ h)

@[simp] theorem bytes_refuseLocked (s : State) (r : Rec) (index : Nat) : (s.refuseLocked r index).bytes = s.bytes := by
  simp [State.refuseLocked]

@[simp] theorem kept_execLoad {s : State} (h : Canonical s.bytes) : Kept (execLoad s) := by
  unfold execLoad
  split
  next r t e =>
    have ht : Canonical t.bytes := bytes_nextRecord e ▸ h
    simp [ht]
  next => exact (kept_next s).mpr h

@[simp] theorem kept_execUnload {s : State} (h : Canonical s.bytes) : Kept (execUnload s) := by
  unfold execUnload
  split
  next r t e =>
    have ht : Canonical t.bytes := bytes_nextRecord e ▸ h
    split <;> simp [ht]
  next => exact (kept_next s).mpr h

@[simp] theorem bytes_updCache (s : State) (g : List Nat → List Nat) :
    (s.updCache g).bytes = s.bytes := State.bytes_congr rfl rfl

@[simp] theorem canonical_evict {s : State} (h : Canonical s.bytes) : Canonical s.evict.bytes := by
  unfold State.evict
  dsimp only
  split
  · simp [h]
  · split <;> simp [h]

@[simp] theorem canonical_fetchEntry {s : State} (i : Nat) (h : Canonical s.bytes) :
    Canonical (s.fetchEntry i).bytes := by
  unfold State.fetchEntry
  split <;> simp [h]

@[simp] theorem canonical_lookup {s : State} (i : Nat) (h : Canonical s.bytes) : Canonical (s.lookup i).bytes := by
  simp [State.lookup, h]

@[simp] theorem bytes_addBound (s : State) (handle : Nat) (up : Bool) :
    (s.addBound handle up).bytes = s.bytes := State.bytes_congr rfl rfl

@[simp] theorem kept_execBind {s : State} (h : Canonical s.bytes) : Kept (execBind s) := by
  unfold execBind
  split
  next r t e =>
    have ht : Canonical t.bytes := bytes_nextRecord e ▸ h
    simp [ht]
  next => exact (kept_next s).mpr h

@[simp] theorem kept_execUnbind {s : State} (h : Canonical s.bytes) : Kept (execUnbind s) := by
  unfold execUnbind
  split
  next r t e =>
    have ht : Canonical t.bytes := bytes_nextRecord e ▸ h
    dsimp only
    split
    · simp [ht]
    · split <;> simp [ht]
  next => exact (kept_next s).mpr h

@[simp] theorem kept_execLaunch {s : State} (h : Canonical s.bytes) : Kept (execLaunch s) := by
  unfold execLaunch
  split
  next r t e =>
    have ht : Canonical t.bytes := bytes_nextRecord e ▸ h
    dsimp only
    split
    · simp [ht]
    · split <;> simp [ht]
  next => exact (kept_next s).mpr h

@[simp] theorem bytes_assign (s : State) (l : Launch) : (s.assign l).bytes = s.bytes := by
  unfold State.assign
  dsimp only
  split
  · simp
  · split
    · simp
    · rw [State.bytes_foldl _ _ _ fun u a => by split <;> simp]
      simp

@[simp] theorem kept_execLaunchAdmit {s : State} (h : Canonical s.bytes) : Kept (execLaunchAdmit s) := by
  simp [execLaunchAdmit, h]

@[simp] theorem kept_execHcopy {s : State} (h : Canonical s.bytes) : Kept (execHcopy s) := by
  unfold execHcopy
  split
  next r t e =>
    have ht : Canonical t.bytes := bytes_nextRecord e ▸ h
    dsimp only
    split
    · simp [ht]
    · split <;> simp [ht]
  next => exact (kept_next s).mpr h

@[simp] theorem canonical_copyIn {s : State} (n : FuncNo) (a : Nat) (bytes : List Byte) (mark : Option Mark)
    (h : Canonical s.bytes) :
    Canonical (s.copyIn n a bytes mark).bytes := by
  unfold State.copyIn
  split <;> simp [h]

@[simp] theorem canonical_copyOut {s : State} (n : FuncNo) (a : Nat) (len : Nat) (h : Canonical s.bytes) :
    Canonical ((s.copyOut n a len).1).bytes := by
  unfold State.copyOut
  split <;> simp [h]

@[simp] theorem canonical_moveCopy {s : State} (h : HCopy) (data : List Byte) (poisoned : List (Nat × Nat))
    (hs : Canonical s.bytes) :
    Canonical (s.moveCopy h data poisoned).bytes := by
  unfold State.moveCopy
  dsimp only
  split
  · refine State.canonical_foldl _ _ (fun u x hu => ?_) hs
    rw [State.bytes_foldl _ _ _ fun v y => bytes_emit v _]
    exact canonical_copyOut _ _ _ hu
  · simp only [State.bytes_ite, bytes_emit, ite_self]
    exact State.canonical_foldl _ _ (fun u x hu => canonical_copyIn _ _ _ _ hu) hs

@[simp] theorem kept_execHcopyComplete {s : State} (rec : Nat) (data : List Byte) (ep : List (Nat × Nat)) (dmaFault : Bool)
    (h : Canonical s.bytes) : Kept (execHcopyComplete rec data ep dmaFault s) := by
  unfold execHcopyComplete
  split <;> simp [h]

@[simp] theorem bytes_coalesce (s : State) (f : FuncNo) (q : Fin 64) : (s.coalesce f q).bytes = s.bytes := by
  simp [State.coalesce]

@[simp] theorem canonical_writeComp {s : State} (c : Comp) (q : Fin 64) (h : Canonical s.bytes) :
    Canonical (s.writeComp c q).bytes := by
  simp [State.writeComp, h]

@[simp] theorem kept_execCompletionRecordWrite (k : Nat) {s : State} (h : Canonical s.bytes) :
    Kept (execCompletionRecordWrite k s) := by
  unfold execCompletionRecordWrite
  dsimp only
  split
  · simp [h]
  · split <;> simp [h]

@[simp] theorem kept_execCoalTimeExpiry (func : FuncNo) (q : Fin 64) {s : State} (h : Canonical s.bytes) :
    Kept (execCoalTimeExpiry func q s) := by
  simp [execCoalTimeExpiry, h]

@[simp] theorem bytes_updFunc (s : State) (n : FuncNo) (g : Func → Func) :
    (s.updFunc n g).bytes = s.bytes := State.bytes_congr rfl rfl

@[simp] theorem kept_execFuncEnable {s : State} (func : FuncNo) (h : Canonical s.bytes) :
    Kept (execFuncEnable func s) := by
  unfold execFuncEnable
  dsimp only
  split
  · simpa using h
  · split
    · simpa using h
    · rw [kept_next, bytes_settle, bytes_updFunc]
      refine canonical_partWipe _ _ _ _ (State.canonical_foldl _ _ (fun u f hu => ?_) h)
      split
      · exact hu
      · exact canonical_wipeFrame f hu

@[simp] theorem canonical_dropPrograms {s : State} (n : FuncNo) (h : Canonical s.bytes) :
    Canonical (s.dropPrograms n).bytes := by
  simp only [State.dropPrograms, State.bytes_mk, State.mk_bytes]
  exact State.canonical_foldl _ _ (fun u r hu => canonical_finishRun r hu) (by simpa using h)

@[simp] theorem canonical_freeEntries {s : State} (n : FuncNo) (h : Canonical s.bytes) :
    Canonical (s.freeEntries n).bytes := by
  simp [State.freeEntries, memWf_memZero _ _ (canonical_mem h), canonical_vis h]

@[simp] theorem bytes_dropSessions (s : State) (n : FuncNo) :
    (s.dropSessions n).bytes = s.bytes := State.bytes_congr rfl rfl

@[simp] theorem canonical_dropSpans {s : State} (n : FuncNo) (all : Bool) (h : Canonical s.bytes) :
    Canonical (s.dropSpans n all).bytes := by
  simp only [State.dropSpans, State.bytes_mk, State.mk_bytes, bytes_dropSessions]
  exact State.canonical_foldl _ _ (fun u i hu => canonical_startWipe _ _ _ hu) h

@[simp] theorem canonical_resetFunc {s : State} (n : FuncNo) (all : Bool) (h : Canonical s.bytes) :
    Canonical (s.resetFunc n all).bytes := by
  simp only [State.resetFunc, bytes_updFunc]
  refine canonical_startWipe _ _ _ (canonical_dropSpans n all (State.canonical_foldl _ _ (fun u f hu => ?_) ?_))
  · split
    · simpa using hu
    · exact canonical_wipeFrame f (by simpa using hu)
  · exact canonical_freeEntries n (canonical_dropPrograms n (by simpa using h))

@[simp] theorem kept_execFunctionReset (func : FuncNo) {s : State} (h : Canonical s.bytes) :
    Kept (execFunctionReset func s) := by
  simp [execFunctionReset, h]

@[simp] theorem canonical_pfReset {s : State} (h : Canonical s.bytes) : Canonical s.pfReset.bytes := by
  simp only [State.pfReset, bytes_settle, State.bytes_mk, State.mk_bytes]
  refine canonical_resetFunc 0 true ?_
  rw [State.bytes_foldl _ _ _ fun u n => bytes_dropSessions u n]
  exact State.canonical_foldl _ _ (fun u n hu => canonical_resetFunc n false hu) h

@[simp] theorem kept_execPfFunctionReset {s : State} (h : Canonical s.bytes) : Kept (execPfFunctionReset s) := by
  simp [execPfFunctionReset, h]

end Sys2Proof.Machine
end

section

/-!
SUPPORT. The bytes under power, faults, the LNE, the boot, device memory and the prime table.
-/

namespace Sys2Proof.Machine

open Sys2Proof

/-! From the model's `Power`. -/

@[simp] theorem bytes_writeBudget (s : State) (b : BitVec 16) :
    (s.writeBudget b).bytes = s.bytes := State.bytes_congr rfl rfl

@[simp] theorem kept_execBudgetWrite (budget : BitVec 16) {s : State} (h : Canonical s.bytes) :
    Kept (execBudgetWrite budget s) := by
  simp [execBudgetWrite, h]

@[simp] theorem kept_execBudgetStale {s : State} (h : Canonical s.bytes) : Kept (execBudgetStale s) := by
  simp [execBudgetStale, h]

@[simp] theorem kept_execCntClear {s : State} (h : Canonical s.bytes) : Kept (execCntClear s) := by
  simp [execCntClear, h]

@[simp] theorem bytes_readAvs (s : State) (got : Nat) : (s.readAvs got).bytes = s.bytes := by
  simp [State.readAvs]

@[simp] theorem kept_execBudgetUpdate (avs : Nat) (pkgMw : Nat) {s : State} (h : Canonical s.bytes) :
    Kept (execBudgetUpdate avs pkgMw s) := by
  simp [execBudgetUpdate, h]

@[simp] theorem kept_execVcoreSet (rail : Fin 2) (point : BitVec 10 × Bool) {s : State} (h : Canonical s.bytes) :
    Kept (execVcoreSet rail point s) := by
  simp [execVcoreSet, h]

@[simp] theorem bytes_updDomain (s : State) (d : Nat) (g : Domain → Domain) : (s.updDomain d g).bytes = s.bytes := by
  unfold State.updDomain
  split <;> simp

@[simp] theorem bytes_enterRetain (s : State) (d : Nat) : (s.enterRetain d).bytes = s.bytes := by
  simp [State.enterRetain]

@[simp] theorem bytes_dieDrbg (s : State) (d : Nat) (on : Bool) : (s.dieDrbg d on).bytes = s.bytes := by
  simp [State.dieDrbg]

@[simp] theorem bytes_enterOff (s : State) (d : Nat) : (s.enterOff d).bytes = s.bytes := by
  unfold State.enterOff
  split <;> simp

@[simp] theorem canonical_wakeFrames {s : State} (d : Nat) (h : Canonical s.bytes) :
    Canonical (s.wakeFrames d).bytes := by
  unfold State.wakeFrames
  split
  · exact State.canonical_foldl _ _ (fun u f hu => canonical_wipeFrame f (by simpa using hu)) h
  · exact State.canonical_foldl _ _ (fun u f hu => by simp [hu]) h

@[simp] theorem bytes_dieBack (s : State) (d : Nat) : (s.dieBack d).bytes = s.bytes := by
  simp [State.dieBack]

@[simp] theorem canonical_enterOn {s : State} (d : Nat) (h : Canonical s.bytes) : Canonical (s.enterOn d).bytes := by
  unfold State.enterOn
  split <;> simp [h]

@[simp] theorem canonical_enterDomain {s : State} (d : Nat) (t : DomState) (h : Canonical s.bytes) :
    Canonical (s.enterDomain d t).bytes := by
  unfold State.enterDomain
  split <;> simp [h]

@[simp] theorem bytes_gateDone (s : State) (d : Nat) : (s.gateDone d).bytes = s.bytes := by
  simp [State.gateDone]

@[simp] theorem bytes_runQueue (s : State) (ts : List DomTrans) : (s.runQueue ts).bytes = s.bytes := by
  induction ts generalizing s with
  | nil => rfl
  | cons t ts ih =>
    unfold State.runQueue
    split <;> simp [ih]

@[simp] theorem bytes_startHead (s : State) : s.startHead.bytes = s.bytes := by
  simp [State.startHead]

@[simp] theorem bytes_askTrans (s : State) (t : DomTrans) : (s.askTrans t).bytes = s.bytes := by
  simp [State.askTrans]

@[simp] theorem bytes_dropTrans (s : State) (p : Nat → Bool) : (s.dropTrans p).bytes = s.bytes := bytes_runQueue ..

@[simp] theorem bytes_domainGo (s : State) (d : Fin 36) (target : BitVec 2) (t : DomState) :
    (s.domainGo d target t).bytes = s.bytes := by
  simp [State.domainGo]

@[simp] theorem kept_execDomainOn (domain : Fin 36) {s : State} (h : Canonical s.bytes) :
    Kept (execDomainOn domain s) := by
  simp [execDomainOn, h]

@[simp] theorem kept_execDomainRetain (domain : Fin 36) {s : State} (h : Canonical s.bytes) :
    Kept (execDomainRetain domain s) := by
  simp [execDomainRetain, h]

@[simp] theorem kept_execDomainOff (domain : Fin 36) {s : State} (h : Canonical s.bytes) :
    Kept (execDomainOff domain s) := by
  simp [execDomainOff, h]

@[simp] theorem canonical_endTrans {s : State} (t : DomTrans) (rest : List DomTrans) (h : Canonical s.bytes) :
    Canonical (s.endTrans t rest).bytes := by
  simp only [State.endTrans, bytes_runQueue]
  split <;> simp [h]

@[simp] theorem kept_execDomainTransitionComplete {s : State} (h : Canonical s.bytes) :
    Kept (execDomainTransitionComplete s) := by
  unfold execDomainTransitionComplete
  split <;> simp [h]

@[simp] theorem kept_execGateWaitExpiry {s : State} (h : Canonical s.bytes) : Kept (execGateWaitExpiry s) := by
  unfold execGateWaitExpiry
  split <;> simp [h]

@[simp] theorem bytes_scanHot (s : State) : s.scanHot.bytes = s.bytes := by
  simp [State.scanHot]

@[simp] theorem bytes_scanCrit (s : State) : s.scanCrit.bytes = s.bytes := by
  unfold State.scanCrit
  dsimp only
  split
  · simp only [State.bytes_ite, State.bytes_mk, State.mk_bytes, bytes_mapFrames, bytes_alert, bytes_log, ite_self]
    exact State.bytes_foldl _ _ _ fun w f => by split <;> simp
  · rfl

@[simp] theorem kept_execThermalScan {s : State} (h : Canonical s.bytes) : Kept (execThermalScan s) := by
  simp [execThermalScan, h]

@[simp] theorem kept_execForceDrainExpiry (domain : Fin 36) {s : State} (h : Canonical s.bytes) :
    Kept (execForceDrainExpiry domain s) := by
  simp [execForceDrainExpiry, h]

/-! From the model's `Faults`. -/

@[simp] theorem bytes_showMap (s : State) : s.showMap.bytes = s.bytes := by
  simp [State.showMap]

@[simp] theorem bytes_keepOn (s : State) (d : Nat) : (s.keepOn d).bytes = s.bytes := State.bytes_congr rfl rfl

@[simp] theorem canonical_mapSpare {s : State} (f : FrameNo) (p : Nat) (h : Canonical s.bytes) :
    Canonical (s.mapSpare f p).bytes := by
  simp [State.mapSpare, h]

@[simp] theorem bytes_dropPair (s : State) (d : Nat) : (s.dropPair d).bytes = s.bytes := by
  simp [State.dropPair]

@[simp] theorem kept_execRemap (f : FrameNo) {s : State} (h : Canonical s.bytes) : Kept (execRemap f s) := by
  simp [execRemap, h]

@[simp] theorem kept_execRemapComplete (f : FrameNo) {s : State} (h : Canonical s.bytes) :
    Kept (execRemapComplete f s) := by
  simp [execRemapComplete, h]

@[simp] theorem kept_execHealthClear (f : FrameNo) {s : State} (h : Canonical s.bytes) :
    Kept (execHealthClear f s) := by
  simp [execHealthClear, h]

@[simp] theorem kept_execFaultRingHead (head : BitVec 16) {s : State} (h : Canonical s.bytes) :
    Kept (execFaultRingHead head s) := by
  simp [execFaultRingHead, h]

@[simp] theorem kept_execAlertClr {s : State} (h : Canonical s.bytes) : Kept (execAlertClr s) := by
  simp [execAlertClr, h]

@[simp] theorem bytes_dropAll (s : State) : s.dropAll.bytes = s.bytes := by
  simp [State.dropAll]

@[simp] theorem bytes_idleUnits (s : State) : s.idleUnits.bytes = s.bytes := State.bytes_congr rfl rfl

@[simp] theorem bytes_emptySessions (s : State) : s.emptySessions.bytes = s.bytes := State.bytes_congr rfl rfl

@[simp] theorem bytes_dropLne (s : State) : s.dropLne.bytes = s.bytes := State.bytes_congr rfl rfl

@[simp] theorem canonical_computeOff {s : State} (h : Canonical s.bytes) : Canonical s.computeOff.bytes := by
  simp [State.computeOff, h]

@[simp] theorem bytes_finishOrphan (s : State) (rec_ : BitVec 512) : (s.finishOrphan rec_).bytes = s.bytes := by
  simp [State.finishOrphan]

@[simp] theorem canonical_enterOrphan {s : State} (first : Code × BitVec 64) (second : Code) (pc : Nat)
    (h : Canonical s.bytes) :
    Canonical (s.enterOrphan first second pc).bytes := by
  simp [State.enterOrphan, h]

@[simp] theorem bytes_restartFw (s : State) : s.restartFw.bytes = s.bytes := by
  unfold State.restartFw
  dsimp only
  split <;> simp

@[simp] theorem bytes_loosenLne (s : State) : s.loosenLne.bytes = s.bytes := State.bytes_congr rfl rfl

@[simp] theorem bytes_failTrial (s : State) : s.failTrial.bytes = s.bytes := by
  simp [State.failTrial]

@[simp] theorem bytes_endMailbox (s : State) (c : Nat) (result : Nat) (bytes : List Byte) :
    (s.endMailbox c result bytes).bytes = s.bytes := by
  unfold State.endMailbox
  split <;> simp

@[simp] theorem canonical_expire {s : State} (code : Code) (h : Canonical s.bytes) :
    Canonical (s.expire code).bytes := by
  unfold State.expire
  dsimp only
  (repeat' split) <;> simp [h]

@[simp] theorem kept_execReckonerWatchdog (lockstep : Bool) {s : State} (h : Canonical s.bytes) :
    Kept (execReckonerWatchdog lockstep s) := by
  simp [execReckonerWatchdog, h]

@[simp] theorem kept_execWatchdogKick {s : State} (h : Canonical s.bytes) : Kept (execWatchdogKick s) := by
  simp [execWatchdogKick, h]

@[simp] theorem canonical_powerOn (s : State) : Canonical s.powerOn.bytes := by
  simp [State.powerOn, Canonical, memWf, memWfFrom, State.bytes]

@[simp] theorem canonical_finishReset (s : State) (cause : BitVec 3) : Canonical (s.finishReset cause).bytes := by
  simp [State.finishReset]

@[simp] theorem canonical_deviceReset {s : State} (cause : BitVec 3) (h : Canonical s.bytes) :
    Canonical (s.deviceReset cause).bytes := by
  simp [State.deviceReset, h]

/-! From the model's `Lne`. -/

@[simp] theorem bytes_lneAccept (s : State) (x : LneOp) : (s.lneAccept x).bytes = s.bytes := by
  simp [State.lneAccept]

@[simp] theorem bytes_lneGo (s : State) (op : Nat) (lenW : BitVec 8) (msgLen : BitVec 9) :
    (s.lneGo op lenW msgLen).bytes = s.bytes := by
  simp [State.lneGo]

@[simp] theorem kept_lneCmd {s : State} (op : Nat) (lenW : BitVec 8) (msgLen : BitVec 9) (h : Canonical s.bytes) :
    Kept (s.lneCmd op lenW msgLen) := by
  simp [State.lneCmd, h]

@[simp] theorem kept_execModmul (lenW : BitVec 8) {s : State} (h : Canonical s.bytes) : Kept (execModmul lenW s) := by
  simp [execModmul, h]

@[simp] theorem kept_execModexp (lenW : BitVec 8) {s : State} (h : Canonical s.bytes) : Kept (execModexp lenW s) := by
  simp [execModexp, h]

@[simp] theorem kept_execModinv (lenW : BitVec 8) {s : State} (h : Canonical s.bytes) : Kept (execModinv lenW s) := by
  simp [execModinv, h]

@[simp] theorem kept_execEcPub (lenW : BitVec 8) (p384 : Bool) {s : State} (h : Canonical s.bytes) :
    Kept (execEcPub lenW p384 s) := by
  simp [execEcPub, h]

@[simp] theorem kept_execEcdh (lenW : BitVec 8) (p384 : Bool) {s : State} (h : Canonical s.bytes) :
    Kept (execEcdh lenW p384 s) := by
  simp [execEcdh, h]

@[simp] theorem kept_execEcdsaSign (lenW : BitVec 8) (p384 : Bool) {s : State} (h : Canonical s.bytes) :
    Kept (execEcdsaSign lenW p384 s) := by
  simp [execEcdsaSign, h]

@[simp] theorem kept_execEcdsaVerify (lenW : BitVec 8) (p384 : Bool) {s : State} (h : Canonical s.bytes) :
    Kept (execEcdsaVerify lenW p384 s) := by
  simp [execEcdsaVerify, h]

@[simp] theorem kept_execX25519 (lenW : BitVec 8) {s : State} (h : Canonical s.bytes) : Kept (execX25519 lenW s) := by
  simp [execX25519, h]

@[simp] theorem kept_execEd25519Pub (lenW : BitVec 8) {s : State} (h : Canonical s.bytes) :
    Kept (execEd25519Pub lenW s) := by
  simp [execEd25519Pub, h]

@[simp] theorem kept_execEd25519Sign (lenW : BitVec 8) (msgLen : BitVec 9) {s : State} (h : Canonical s.bytes) :
    Kept (execEd25519Sign lenW msgLen s) := by
  simp [execEd25519Sign, h]

@[simp] theorem kept_execEd25519Verify (lenW : BitVec 8) (msgLen : BitVec 9) {s : State} (h : Canonical s.bytes) :
    Kept (execEd25519Verify lenW msgLen s) := by
  simp [execEd25519Verify, h]

@[simp] theorem kept_execLneReservedOp (op : BitVec 8) (lenW : BitVec 8) (msgLen : BitVec 9) {s : State}
    (h : Canonical s.bytes) :
    Kept (execLneReservedOp op lenW msgLen s) := by
  simp [execLneReservedOp, h]

@[simp] theorem kept_execLnePendingStart {s : State} (h : Canonical s.bytes) : Kept (execLnePendingStart s) := by
  unfold execLnePendingStart
  split <;> simp [h]

@[simp] theorem bytes_lneNext (s : State) : s.lneNext.bytes = s.bytes := by
  unfold State.lneNext
  split <;> simp

@[simp] theorem canonical_lneFree {s : State} (h : Canonical s.bytes) : Canonical s.lneFree.bytes := by
  unfold State.lneFree
  dsimp only
  split <;> simp [h]

@[simp] theorem kept_execLneDone {s : State} (h : Canonical s.bytes) : Kept (execLneDone s) := by
  unfold execLneDone
  split <;> simp [h]

/-! From the model's `Boot`. -/

@[simp] theorem kept_execPowerOn (s : State) : Kept (execPowerOn s) := by
  simp [execPowerOn]

@[simp] theorem kept_execDeviceReset (cause : BitVec 3) {s : State} (h : Canonical s.bytes) :
    Kept (execDeviceReset cause s) := by
  simp [execDeviceReset, h]

@[simp] theorem kept_execHostReset {s : State} (h : Canonical s.bytes) : Kept (execHostReset s) := by
  simp [execHostReset, h]

@[simp] theorem kept_execHostLinkTraining {s : State} (h : Canonical s.bytes) : Kept (execHostLinkTraining s) := by
  simp [execHostLinkTraining, h]

@[simp] theorem bytes_enterStage (s : State) (k : Nat) : (s.enterStage k).bytes = s.bytes := by
  simp [State.enterStage]

@[simp] theorem canonical_switchOn {s : State} (ds : List Nat) (h : Canonical s.bytes) :
    Canonical (s.switchOn ds).bytes :=
  State.canonical_foldl _ _ (fun _ d hu => canonical_enterOn d hu) h

@[simp] theorem bytes_setTopology (s : State) : s.setTopology.bytes = s.bytes := State.bytes_congr rfl rfl

@[simp] theorem canonical_trainPorts {s : State} (h : Canonical s.bytes) : Canonical s.trainPorts.bytes := by
  simp [State.trainPorts, h]

@[simp] theorem bytes_losePorts (s : State) : s.losePorts.bytes = s.bytes := by
  simp [State.losePorts]

@[simp] theorem bytes_switchOff (s : State) (ds : List Nat) : (s.switchOff ds).bytes = s.bytes := by
  simp [State.switchOff]

@[simp] theorem bytes_setMemory (s : State) (ok : BitVec 32) : (s.setMemory ok).bytes = s.bytes := by
  simp [State.setMemory]

@[simp] theorem bytes_setProfile (s : State) : s.setProfile.bytes = s.bytes := State.bytes_congr rfl rfl

@[simp] theorem canonical_enterRecovery {s : State} (ms : Nat) (h : Canonical s.bytes) :
    Canonical (s.enterRecovery ms).bytes := by
  have hs := canonical_switchOn [34, 33, 32] h
  unfold State.enterRecovery
  dsimp only
  refine canonical_iteState _ (canonical_startWipe _ _ _ ?_) ?_
  · rw [bytes_setMemory]
    refine canonical_trainPorts ?_
    rw [bytes_setTopology, bytes_setProfile]
    exact canonical_switchOn _ (by simpa using hs)
  · simpa using hs

@[simp] theorem bytes_trySlots (s : State) (readOk : BitVec 32) (ks : List Nat) :
    (s.trySlots readOk ks).bytes = s.bytes := by
  induction ks generalizing s with
  | nil => rfl
  | cons k ks ih =>
    simp only [State.trySlots, State.bytes_ite, State.bytes_mk, State.mk_bytes, ih, bytes_markFailed, bytes_log, ite_self]

@[simp] theorem bytes_loadCode (s : State) : ((s.loadCode).1).bytes = s.bytes := by
  unfold State.loadCode
  dsimp only
  split
  · simp
  · split <;> simp

@[simp] theorem canonical_bringUp {s : State} (rails : BitVec 32) (h : Canonical s.bytes) :
    Canonical (s.bringUp rails).bytes := by
  have hl : ∀ (u : State) (ds : List Nat),
      (ds.foldl (fun (t : State) d => t.log Codes.supplyFault .boot { index := d }) u).bytes = u.bytes := fun u ds =>
    State.bytes_foldl _ _ _ fun v d => bytes_log v _ _ _
  simp only [State.bringUp, State.bytes_mk, State.mk_bytes]
  refine canonical_switchOn _ (canonical_switchOn _ ?_)
  simp only [bytes_showMap, bytes_setProfile, bytes_mapFrames, hl, bytes_startDrbg]
  exact canonical_switchOn _ h

@[simp] theorem bytes_trainMemory (s : State) (ok : BitVec 32) (ms : Nat) : (s.trainMemory ok ms).bytes = s.bytes := by
  simp [State.trainMemory]

@[simp] theorem bytes_commitConfig (s : State) : s.commitConfig.bytes = s.bytes := by
  simp [State.commitConfig]

@[simp] theorem canonical_finishBoot {s : State} (pcie : Bool) (ms : Nat) (h : Canonical s.bytes) :
    Canonical (s.finishBoot pcie ms).bytes := by
  simp [State.finishBoot, h]

@[simp] theorem canonical_wipeScratchpads {s : State} (h : Canonical s.bytes) : Canonical s.wipeScratchpads.bytes :=
  State.canonical_foldl _ _ (fun u f hu => by simp [hu]) h

@[simp] theorem canonical_startLinksAndWipes {s : State} (h : Canonical s.bytes) :
    Canonical s.startLinksAndWipes.bytes := by
  simp [State.startLinksAndWipes, h]

@[simp] theorem bytes_findFlash (s : State) : s.findFlash.bytes = s.bytes := by
  simp [State.findFlash]

@[simp] theorem canonical_bootNext {s : State} (ms : Nat) (ok : BitVec 32) (h : Canonical s.bytes) :
    Canonical (s.bootNext ms ok).bytes := by
  unfold State.bootNext
  split <;> simp [h]

@[simp] theorem kept_execBootStageAdvance (ms : Nat) (ok : BitVec 32) {s : State} (h : Canonical s.bytes) :
    Kept (execBootStageAdvance ms ok s) := by
  simp [execBootStageAdvance, h]

@[simp] theorem kept_execSupplyFault (sensor : Fin 24) {s : State} (h : Canonical s.bytes) :
    Kept (execSupplyFault sensor s) := by
  simp [execSupplyFault, h]

@[simp] theorem canonical_dieLoss {s : State} (die : Nat) (h : Canonical s.bytes) :
    Canonical (s.dieLoss die).bytes := by
  simp only [State.dieLoss, State.bytes_mk, State.mk_bytes, bytes_dropTrans]
  refine State.canonical_foldl _ _ (fun u f hu => canonical_wipeBytes _ _ hu) ?_
  rw [State.bytes_foldl _ _ _ fun u d => bytes_enterOff u d, State.bytes_foldl _ _ _ fun u f => by split <;> simp]
  exact h

@[simp] theorem kept_execBrownOut (rail : Fin 4) {s : State} (h : Canonical s.bytes) : Kept (execBrownOut rail s) := by
  simp [execBrownOut, h]

@[simp] theorem kept_execRefclkLinkLoss {s : State} (h : Canonical s.bytes) : Kept (execRefclkLinkLoss s) := by
  simp [execRefclkLinkLoss, h]

@[simp] theorem kept_execRefclkPcieLoss {s : State} (h : Canonical s.bytes) : Kept (execRefclkPcieLoss s) := by
  simp [execRefclkPcieLoss, h]

@[simp] theorem bytes_tap (s : State) (ir : TapInstr) : (s.tap ir).bytes = s.bytes := State.bytes_congr rfl rfl

@[simp] theorem kept_execBypassInstruction (code : BitVec 8) (tdi : Bool) {s : State} (h : Canonical s.bytes) :
    Kept (execBypassInstruction code tdi s) := by
  simp [execBypassInstruction, h]

@[simp] theorem kept_execSamplePreload (pins : BitVec 2413) {s : State} (h : Canonical s.bytes) :
    Kept (execSamplePreload pins s) := by
  simp [execSamplePreload, h]

@[simp] theorem bytes_testInstr (s : State) (ir : TapInstr) (resetLow : Bool) :
    (s.testInstr ir resetLow).bytes = s.bytes := State.bytes_congr rfl rfl

@[simp] theorem kept_execExtest (resetLow : Bool) {s : State} (h : Canonical s.bytes) :
    Kept (execExtest resetLow s) := by
  simp [execExtest, h]

@[simp] theorem kept_execHighz (resetLow : Bool) {s : State} (h : Canonical s.bytes) : Kept (execHighz resetLow s) := by
  simp [execHighz, h]

@[simp] theorem kept_execClamp (resetLow : Bool) {s : State} (h : Canonical s.bytes) : Kept (execClamp resetLow s) := by
  simp [execClamp, h]

@[simp] theorem kept_execTapReset {s : State} (h : Canonical s.bytes) : Kept (execTapReset s) := by
  simp [execTapReset, h]

@[simp] theorem bytes_idle (s : State) : s.idle.bytes = s.bytes := by
  simp [State.idle]

/-! From the model's `Memc`. -/

@[simp] theorem kept_execSealSet {s : State} (h : Canonical s.bytes) : Kept (execSealSet s) := by
  simp [execSealSet, h]

@[simp] theorem kept_execSealRelease {s : State} (h : Canonical s.bytes) : Kept (execSealRelease s) := by
  simp [execSealRelease, h]

@[simp] theorem kept_execSealOpComplete {s : State} (h : Canonical s.bytes) : Kept (execSealOpComplete s) := by
  unfold execSealOpComplete
  split <;> simp [h]

@[simp] theorem kept_execMemcWipeGo {s : State} (h : Canonical s.bytes) : Kept (execMemcWipeGo s) := by
  simp [execMemcWipeGo, h]

@[simp] theorem canonical_overwrite {s : State} (w : Wipe) (h : Canonical s.bytes) : Canonical (s.overwrite w).bytes :=
  canonical_setMem h (memWf_filter _ h.1) rfl

@[simp] theorem kept_execWipeComplete (k : Nat) {s : State} (h : Canonical s.bytes) : Kept (execWipeComplete k s) := by
  unfold execWipeComplete
  dsimp only
  split
  · simp [h]
  · split <;> simp [h]

/-- Reads of several spans keep the form. -/
theorem canonical_lineReads {s : State} (ls : List (Nat × List Nat)) (h : Canonical s.bytes) :
    Canonical (ls.foldl (fun (s : State) x => s.lineRead 1 x.1 x.2.length) s).bytes :=
  State.canonical_foldl _ _ (fun _ _ hu => canonical_lineRead 1 _ _ hu) h

@[simp] theorem kept_execHostBar2Read {s : State} (func : FuncNo) (offset : Met Nat) (len tag : Nat)
    (h : Canonical s.bytes) :
    Kept (execHostBar2Read func offset len tag s) := by
  unfold execHostBar2Read
  dsimp only
  split
  · simpa using h
  · split
    · simpa using h
    · simp only [kept_next, State.bytes_ite, bytes_emit, State.bytes_mk, State.mk_bytes, ite_self]
      refine canonical_lineReads _ ?_
      split <;> simpa using h

@[simp] theorem kept_execHeldAccessRelease {s : State} (h : Canonical s.bytes) : Kept (execHeldAccessRelease s) := by
  unfold execHeldAccessRelease
  split <;> simp [h]

@[simp] theorem kept_execWipePending {s : State} (h : Canonical s.bytes) : Kept (execWipePending s) := by
  unfold execWipePending
  split <;> simp [h]

@[simp] theorem kept_execHostBar2Write {s : State} (func : FuncNo) (offset : Nat) (bytes : List Byte) (ep : Bool)
    (h : Canonical s.bytes) :
    Kept (execHostBar2Write func offset bytes ep s) := by
  unfold execHostBar2Write
  dsimp only
  split
  · simpa using h
  · split
    · simpa using h
    · simp only [kept_next, State.bytes_ite, bytes_emit, ite_self]
      refine State.canonical_foldl _ _ (fun u x hu => canonical_memArrive _ _ _ _ hu) ?_
      split <;> simpa using h

@[simp] theorem kept_execScrubRead (port : Fin 16) (ce : List Nat) (ue : List Nat) {s : State}
    (h : Canonical s.bytes) :
    Kept (execScrubRead port ce ue s) := by
  simp [execScrubRead, h]

@[simp] theorem kept_execMemRetrain (port : Fin 16) {s : State} (h : Canonical s.bytes) :
    Kept (execMemRetrain port s) := by
  simp [execMemRetrain, h]

/-! From the model's `Prime`. -/

@[simp] theorem kept_execPrimeCommit (index : BitVec 8) (rootLog : BitVec 5) {s : State} (h : Canonical s.bytes) :
    Kept (execPrimeCommit index rootLog s) := by
  simp [execPrimeCommit, h]

@[simp] theorem kept_execPrimeCommitComplete {s : State} (h : Canonical s.bytes) :
    Kept (execPrimeCommitComplete s) := by
  simp [execPrimeCommitComplete, h]

end Sys2Proof.Machine
end

section

/-!
SUPPORT. The bytes under the MAS, the management processor and the registers.
-/

namespace Sys2Proof.Machine

open Sys2Proof

/-! From the model's `Mas`. -/

@[simp] theorem kept_layerCmd {s : State} (i : Fin 64) (ok : LState → Bool) (g : Layer → Layer)
    (h : Canonical s.bytes) :
    Kept (s.layerCmd i ok g) := by
  simp [State.layerCmd, h]

@[simp] theorem kept_execMasDefine (layer : Fin 64) {s : State} (h : Canonical s.bytes) :
    Kept (execMasDefine layer s) := by
  simp [execMasDefine, h]

@[simp] theorem kept_execMasOpen (layer : Fin 64) {s : State} (h : Canonical s.bytes) : Kept (execMasOpen layer s) := by
  simp [execMasOpen, h]

@[simp] theorem kept_execMasClose (layer : Fin 64) {s : State} (h : Canonical s.bytes) :
    Kept (execMasClose layer s) := by
  simp [execMasClose, h]

@[simp] theorem kept_execClosingDone (layer : Fin 64) {s : State} (h : Canonical s.bytes) :
    Kept (execClosingDone layer s) := by
  simp [execClosingDone, h]

@[simp] theorem kept_execMasRelease (layer : Fin 64) {s : State} (h : Canonical s.bytes) :
    Kept (execMasRelease layer s) := by
  simp [execMasRelease, h]

@[simp] theorem kept_execEtaWrite (layer : Fin 64) (eta : BitVec 64) {s : State} (h : Canonical s.bytes) :
    Kept (execEtaWrite layer eta s) := by
  simp [execEtaWrite, h]

@[simp] theorem kept_execStepsWrite (layer : Fin 64) (steps : BitVec 64) {s : State} (h : Canonical s.bytes) :
    Kept (execStepsWrite layer steps s) := by
  simp [execStepsWrite, h]

@[simp] theorem kept_execIngestAdd (layer : Fin 64) (addr : Nat) (bytes : List Byte) (poison : Bool) {s : State}
    (h : Canonical s.bytes) :
    Kept (execIngestAdd layer addr bytes poison s) := by
  simp [execIngestAdd, h]

@[simp] theorem bytes_stepOutcome (s : State) (i : Fin 64) (c : Code) : (s.stepOutcome i c).bytes = s.bytes := by
  simp [State.stepOutcome]

@[simp] theorem bytes_enterStep (s : State) (i : Fin 64) (eta : BitVec 64) : (s.enterStep i eta).bytes = s.bytes := by
  unfold State.enterStep
  dsimp only
  split <;> simp

@[simp] theorem kept_execMasStep {s : State} (layer : Fin 64) (clearM solo : Bool) (h : Canonical s.bytes) :
    Kept (execMasStep layer clearM solo s) := by
  unfold execMasStep
  dsimp only
  split
  · simpa using h
  · split
    · simpa using h
    · split
      · simpa using h
      · split
        · simpa using h
        · rw [kept_next]
          split
          · exact canonical_work _ _ (by simpa using h)
          · simpa using h

@[simp] theorem kept_execVoteResult (layer : Fin 64) {s : State} (h : Canonical s.bytes) :
    Kept (execVoteResult layer s) := by
  unfold execVoteResult
  dsimp only
  (repeat' split) <;> simp [h]

@[simp] theorem kept_execStepVoteExpired (layer : Fin 64) {s : State} (h : Canonical s.bytes) :
    Kept (execStepVoteExpired layer s) := by
  simp [execStepVoteExpired, h]

theorem memWf_stepMem {s : State} (l : Layer) (h : memWf s.mem = true) : memWf (s.stepMem l) = true := by
  unfold State.stepMem
  refine memWf_foldl _ _ (fun m o hm => ?_) h
  dsimp only
  split
  · exact hm
  · exact memWf_memWriteN _ _ hm

@[simp] theorem kept_execStepComplete {s : State} (layer : Fin 64) (h : Canonical s.bytes) :
    Kept (execStepComplete layer s) := by
  have hm : ∀ {u : State} (l : Layer) (p : List (Nat × Mark)), Canonical u.bytes →
      Canonical ({ u with mem := u.stepMem l, poison := p } : State).bytes := fun l p hu =>
    canonical_setMem hu (memWf_stepMem l hu.1) rfl
  have hz : ∀ {u v : State} (b : Bool) (a n : Nat) (p : List (Nat × Mark)), Canonical u.bytes → v.bytes = u.bytes →
      Canonical (if b then { v with mem := memZero u.mem a n, poison := p } else u).bytes := fun b a n p hu hv => by
    split
    · exact canonical_setMem hu (memWf_memZero _ _ hu.1) (congrArg Prod.snd hv)
    · exact hu
  unfold execStepComplete
  dsimp only
  split
  · exact (kept_next s).mpr h
  · rw [kept_next, bytes_stepOutcome, bytes_updLayer]
    refine hz _ _ _ _ ?_ (bytes_mendSpan ..)
    rw [bytes_mendSpan]
    exact hm _ _ (by simp [h])

/-! From the model's `Mgmt`. -/

@[simp] theorem kept_execSensorSample (sensor : Fin 189) (value : Int) {s : State} (h : Canonical s.bytes) :
    Kept (execSensorSample sensor value s) := by
  simp [execSensorSample, h]

@[simp] theorem bytes_flushRecord (s : State) (r : LogRec) : (s.flushRecord r).bytes = s.bytes := by
  simp [State.flushRecord]

@[simp] theorem kept_execLogFlush {s : State} (h : Canonical s.bytes) : Kept (execLogFlush s) := by
  simp [execLogFlush, h]

@[simp] theorem kept_execDrbgReseed (die : Fin 3) {s : State} (h : Canonical s.bytes) :
    Kept (execDrbgReseed die s) := by
  simp [execDrbgReseed, h]

@[simp] theorem kept_execEntropyHealth {s : State} (h : Canonical s.bytes) : Kept (execEntropyHealth s) := by
  simp [execEntropyHealth, h]

@[simp] theorem bytes_kick (s : State) : s.kick.bytes = s.bytes := by
  unfold State.kick
  split <;> simp

@[simp] theorem kept_execAlive {s : State} (h : Canonical s.bytes) : Kept (execAlive s) := by
  simp [execAlive, h]

@[simp] theorem bytes_go (s : State) (c : Fin 2) : (s.go c).bytes = s.bytes := by
  simp [State.go]

@[simp] theorem bytes_mbLocked (s : State) : s.mbLocked.2.2.bytes = s.bytes := by
  simp [State.mbLocked]

theorem canonical_lneFreeIf {s : State} (b : Bool) (h : Canonical s.bytes) :
    Canonical (if b then s.lneFree else s).bytes := by
  simp [h]

@[simp] theorem kept_serve {s : State} (op : Nat) (lenOk : Nat → Bool) {body : List Byte → State → MbAnswer}
    (h : Canonical s.bytes)
    (hb : ∀ req, Canonical (body req s).2.2.bytes) : Kept (s.serve op lenOk body) := by
  unfold State.serve
  split
  · split
    · extract_lets b req a t v
      have ha : Canonical a.2.2.bytes := by
        simp only [a, State.bytes_ite_snd_snd, canonical_ite]
        simp [h, hb]
      rw [kept_next, bytes_kick]
      exact canonical_lneFreeIf _ (by simpa [t] using ha)
    · split
      · simp [h]
      · exact (kept_next s).mpr h
  · exact (kept_next s).mpr h

@[simp] theorem kept_execMailboxUndefinedOpcode {s : State} (h : Canonical s.bytes) :
    Kept (execMailboxUndefinedOpcode s) := by
  unfold execMailboxUndefinedOpcode
  split <;> simp [h]

@[simp] theorem kept_execGetInfo {s : State} (h : Canonical s.bytes) : Kept (execGetInfo s) := by
  simp [execGetInfo, h]

@[simp] theorem kept_execReadSensors {s : State} (h : Canonical s.bytes) : Kept (execReadSensors s) := by
  simp [execReadSensors, h]

@[simp] theorem kept_execSetThreshold {s : State} (h : Canonical s.bytes) : Kept (execSetThreshold s) := by
  refine kept_serve _ _ h fun req => ?_
  dsimp only
  split <;> simp [h]

@[simp] theorem kept_execReadLog {s : State} (h : Canonical s.bytes) : Kept (execReadLog s) := by
  simp [execReadLog, h]

@[simp] theorem kept_execSetPower {s : State} (h : Canonical s.bytes) : Kept (execSetPower s) := by
  simp [execSetPower, h]

theorem bytes_stage {s t : State} {comp size : Nat} (h : s.stage comp size = some t) : t.bytes = s.bytes := by
  unfold State.stage at h
  split at h
  · cases h
  · cases h
    rfl

@[simp] theorem kept_execFwBegin {s : State} (h : Canonical s.bytes) : Kept (execFwBegin s) := by
  refine kept_serve _ _ h fun req => ?_
  split
  next t e => simp [bytes_stage e, h]
  next => exact h

@[simp] theorem kept_execFwWrite {s : State} (h : Canonical s.bytes) : Kept (execFwWrite s) := by
  refine kept_serve _ _ h fun req => ?_
  dsimp only
  split <;> simp [h]

@[simp] theorem bytes_verifyStaged (s : State) (g : Staging) : ((s.verifyStaged g).2).bytes = s.bytes := by
  simp [State.verifyStaged]

@[simp] theorem kept_execFwVerify {s : State} (h : Canonical s.bytes) : Kept (execFwVerify s) := by
  refine kept_serve _ _ h fun req => ?_
  dsimp only
  split <;> simp [h]

@[simp] theorem bytes_activate (s : State) (g : Staging) (atOnce : Bool) : (s.activate g atOnce).bytes = s.bytes := by
  simp [State.activate]

@[simp] theorem kept_execFwActivate {s : State} (h : Canonical s.bytes) : Kept (execFwActivate s) := by
  refine kept_serve _ _ h fun req => ?_
  dsimp only
  split
  · exact h
  · split
    · exact h
    · split <;> simp [h]

@[simp] theorem kept_execFwCommitSvn {s : State} (h : Canonical s.bytes) : Kept (execFwCommitSvn s) := by
  simp [execFwCommitSvn, h]

@[simp] theorem kept_execTrialCommit {s : State} (h : Canonical s.bytes) : Kept (execTrialCommit s) := by
  simp [execTrialCommit, h]

@[simp] theorem bytes_security (s : State) : s.security.2.bytes = s.bytes := by
  have hd := bytes_drbgDraw s 2
  unfold State.security
  split
  next e => simpa [e] using hd
  next e => simpa [e] using hd

@[simp] theorem kept_execLcNonce {s : State} (h : Canonical s.bytes) : Kept (execLcNonce s) := by
  refine kept_serve _ _ h fun req => ?_
  have hs := bytes_security s
  dsimp only
  split
  next e => simpa [e, ← hs] using h
  next e => simpa [e, ← hs] using h

@[simp] theorem bytes_lcChange (s : State) (target : Nat) (digest sig : List Byte) :
    (s.lcChange target digest sig).2.2.bytes = s.bytes := by
  unfold State.lcChange
  split
  · rfl
  · dsimp only
    split
    · split
      · split
        next e => simpa [e] using bytes_security { s with mgmt := { s.mgmt with nonce := none } }
        next e => simpa [e] using bytes_security { s with mgmt := { s.mgmt with nonce := none } }
      · simp
    · simp

@[simp] theorem kept_execLcSet {s : State} (h : Canonical s.bytes) : Kept (execLcSet s) := by
  have hr : ∀ o, Kept o → Kept (match o with
      | .next t => .next (if t.boot.fuses.lifecycle = s.boot.fuses.lifecycle then t else t.deviceReset 4)
      | x => x) := fun o ho => by
    split
    next t =>
      have ht := (kept_next t).mp ho
      simp [ht]
    next => exact ho
  exact hr _ (kept_serve _ _ h fun req => by simp [h])

@[simp] theorem bytes_agree (s : State) (slot : Fin 64) (owner : Nat) (role : Bool) (peer ctx : List Byte) :
    (s.agree slot owner role peer ctx).2.2.bytes = s.bytes := by
  have hs := bytes_security s
  unfold State.agree
  dsimp only
  split
  · rfl
  · split
    · rfl
    · split
      next e => simpa [e] using hs
      next e =>
        rw [e] at hs
        split
        · simpa using hs
        · split <;> simpa using hs

@[simp] theorem kept_execSessionAgree {s : State} (h : Canonical s.bytes) : Kept (execSessionAgree s) := by
  refine kept_serve _ _ h fun req => ?_
  dsimp only
  split <;> simp [h]

@[simp] theorem kept_execSessionClear {s : State} (h : Canonical s.bytes) : Kept (execSessionClear s) := by
  refine kept_serve _ _ h fun req => ?_
  dsimp only
  split <;> simp [h]

@[simp] theorem kept_execGetCert {s : State} (h : Canonical s.bytes) : Kept (execGetCert s) := by
  simp [execGetCert, h]

@[simp] theorem kept_execGetMeasurements {s : State} (h : Canonical s.bytes) : Kept (execGetMeasurements s) := by
  refine kept_serve _ _ h fun req => ?_
  dsimp only
  split <;> exact h

/-! From the model's `RegWrite`. -/

@[simp] theorem bytes_msixWrite (s : State) (n : FuncNo) (o : Nat) (x : Wr) : (s.msixWrite n o x).bytes = s.bytes := by
  simp [State.msixWrite]

@[simp] theorem bytes_globalWrite (s : State) (o : Nat) (x : Wr) : (s.globalWrite o x).bytes = s.bytes := by
  simp [State.globalWrite]

@[simp] theorem bytes_tallyWrite (s : State) (o : Nat) (x : Wr) :
    (s.tallyWrite o x).bytes = s.bytes := State.bytes_congr rfl rfl

@[simp] theorem bytes_admitWrite (s : State) (o : Nat) (x : Wr) :
    (s.admitWrite o x).bytes = s.bytes := State.bytes_congr rfl rfl

@[simp] theorem bytes_hostqWrite (s : State) (n : FuncNo) (o : Nat) (x : Wr) :
    (s.hostqWrite n o x).bytes = s.bytes := by
  simp [State.hostqWrite]

@[simp] theorem bytes_memcWrite (s : State) (p : Fin 16) (o : Nat) (x : Wr) : (s.memcWrite p o x).bytes = s.bytes := by
  simp [State.memcWrite]

@[simp] theorem bytes_masWrite (s : State) (o : Nat) (x : Wr) : (s.masWrite o x).bytes = s.bytes := by
  simp [State.masWrite]

@[simp] theorem bytes_portWrite (s : State) (p : Fin 8) (o : Nat) (x : Wr) : (s.portWrite p o x).bytes = s.bytes := by
  unfold State.portWrite
  split <;> simp

@[simp] theorem bytes_carryWrite (s : State) (o : Nat) (x : Wr) : (s.carryWrite o x).bytes = s.bytes := by
  simp [State.carryWrite]

@[simp] theorem bytes_lneWrite (s : State) (o : Nat) (x : Wr) : (s.lneWrite o x).bytes = s.bytes := by
  simp [State.lneWrite]

@[simp] theorem bytes_mgmtWrite (s : State) (o : Nat) (x : Wr) : (s.mgmtWrite o x).bytes = s.bytes := by
  simp [State.mgmtWrite]

@[simp] theorem bytes_frmSlotWrite (s : State) (f : FrameNo) (o : Nat) (x : Wr) :
    (s.frmSlotWrite f o x).bytes = s.bytes := by
  unfold State.frmSlotWrite
  dsimp only
  split
  · split <;> simp
  · simp

@[simp] theorem bytes_slotWrite (s : State) (o : Nat) (x : Wr) : (s.slotWrite o x).bytes = s.bytes := by
  unfold State.slotWrite
  split <;> simp

@[simp] theorem bytes_slotRead (s : State) (o : Nat) (m : BitVec 64) : (s.slotRead o m).bytes = s.bytes := by
  unfold State.slotRead
  split <;> simp

@[simp] theorem bytes_sampleRefresh (s : State) (o : Nat) (m : BitVec 64) : (s.sampleRefresh o m).bytes = s.bytes := by
  unfold State.sampleRefresh
  dsimp only
  (repeat' split) <;> simp

/-! From the model's `Registers`. -/

@[simp] theorem bytes_pfFlag (s : State) (f : FrameNo) (flag : BitVec 8) (value : Word) :
    (s.pfFlag f flag value).bytes = s.bytes := by
  simp [State.pfFlag]

@[simp] theorem kept_execPfFlagWrite (f : FrameNo) (flag : BitVec 8) (value : Word) {s : State}
    (h : Canonical s.bytes) :
    Kept (execPfFlagWrite f flag value s) := by
  simp [execPfFlagWrite, h]

theorem bytes_blockOff {s t : State} {n : FuncNo} {o : Nat} (h : s.blockOff n o = some t) : t.bytes = s.bytes := by
  unfold State.blockOff at h
  split at h
  · split at h
    · cases h
    · cases h
      exact bytes_offAccess ..
  · split at h
    · cases h
    · cases h
      exact bytes_portOffAccess ..
  · cases h

@[simp] theorem bytes_readPart (s : State) (n : FuncNo) (p : Part) : (s.readPart n p).2.bytes = s.bytes := by
  unfold State.readPart
  split
  · rfl
  · rfl
  · rfl
  · split
    next t e => exact bytes_blockOff e
    next =>
      extract_lets b u v t key wide hi
      have ht : t.bytes = s.bytes := by simp [t, u]
      split
      · exact ht
      · split
        · exact ht
        · split <;> exact ht

@[simp] theorem bytes_readParts (s : State) (n : FuncNo) (ps : List Part) : (s.readParts n ps).2.bytes = s.bytes := by
  induction ps generalizing s with
  | nil => rfl
  | cons p ps ih => exact (ih _).trans (bytes_readPart ..)

@[simp] theorem kept_execRegisterRead {s : State} (func : FuncNo) (offset width tag : Nat) (h : Canonical s.bytes) :
    Kept (execRegisterRead func offset width tag s) := by
  simp [execRegisterRead, h]

@[simp] theorem canonical_when {s : State} (b : Bool) {e : State → Host.Outcome State Fault Refusal} (k : Kept (e s))
    (h : Canonical s.bytes) :
    Canonical (s.when b e).bytes := by
  unfold State.when
  split
  · exact canonical_afterCmd h k
  · exact h

theorem canonical_when_when {s : State} (a b : Bool) {d e : State → Host.Outcome State Fault Refusal} (k : Kept (d s))
    (l : ∀ t : State, Canonical t.bytes → Kept (e t)) (h : Canonical s.bytes) :
    Canonical ((s.when a d).when b e).bytes :=
  canonical_when b (l _ (canonical_when a k h)) (canonical_when a k h)

@[simp] theorem canonical_globalAct {s : State} (o : Nat) (x : Wr) (h : Canonical s.bytes) :
    Canonical (s.globalAct o x).bytes := by
  unfold State.globalAct
  dsimp only
  split
  · refine canonical_when_when _ _ (kept_execFuncEnable _ h) (fun t ht => ?_) h
    split
    · exact kept_execPfFunctionReset ht
    · exact kept_execFunctionReset _ ht
  · split
    · simp [h]
    · simp [h]
    · simp [h]
    · simp [h]
    · refine canonical_when _ ?_ h
      split
      · exact kept_execSealRelease h
      · exact kept_execSealSet h
    · simp [h]
    · exact h

@[simp] theorem canonical_tallyAct {s : State} (o : Nat) (x : Wr) (h : Canonical s.bytes) :
    Canonical (s.tallyAct o x).bytes := by
  unfold State.tallyAct
  split
  · exact canonical_when_when _ _ (kept_execTallyRun _ h) (fun _ => kept_execStrClear) h
  · exact canonical_when_when _ _ (kept_execForm h) (fun _ => kept_execLeave) h
  · exact canonical_when_when _ _ (kept_execLoadNow h) (fun _ => kept_execLoadArm) h
  · exact canonical_when _ (kept_execMarkArm _ h) h
  · exact h

@[simp] theorem canonical_admitAct {s : State} (o : Nat) (x : Wr) (h : Canonical s.bytes) :
    Canonical (s.admitAct o x).bytes := by
  unfold State.admitAct
  split
  · exact canonical_when _ (kept_execCntClear h) h
  · split
    · refine canonical_when _ ?_ h
      split
      · exact kept_execDomainOn _ h
      · split
        · exact kept_execDomainRetain _ h
        · exact kept_execDomainOff _ h
    · exact h
  · exact h

@[simp] theorem canonical_hostqAct {s : State} (n : FuncNo) (o : Nat) (x : Wr) (h : Canonical s.bytes) :
    Canonical (s.hostqAct n o x).bytes := by
  unfold State.hostqAct
  split
  · exact canonical_when _ (kept_execQueueEnable _ _ _ _ h) h
  · split
    · exact canonical_when _ (kept_execQueueEnable _ _ _ _ h) h
    · split
      · exact canonical_when_when _ _ (kept_execSqTail _ _ _ h) (fun _ => kept_execCqHead _ _ _) h
      · exact h

@[simp] theorem canonical_masAct {s : State} (o : Nat) (x : Wr) (h : Canonical s.bytes) :
    Canonical (s.masAct o x).bytes := by
  unfold State.masAct
  dsimp only
  split
  · exact h
  · split
    · exact canonical_afterCmd h (kept_execEtaWrite _ _ h)
    · exact canonical_afterCmd h (kept_execStepsWrite _ _ h)
    · split
      · exact h
      · split
        · exact canonical_afterCmd h (kept_execMasDefine _ h)
        · exact canonical_afterCmd h (kept_execMasOpen _ h)
        · exact canonical_afterCmd h (kept_execMasClose _ h)
        · exact canonical_afterCmd h (kept_execMasStep _ _ _ h)
        · exact canonical_afterCmd h (kept_execMasRelease _ h)
        · exact h
    · exact h

@[simp] theorem canonical_carryAct {s : State} (o : Nat) (x : Wr) (h : Canonical s.bytes) :
    Canonical (s.carryAct o x).bytes := by
  unfold State.carryAct
  dsimp only
  split
  · exact canonical_when _ (kept_execBypass _ h) h
  · split
    · split
      · exact canonical_afterCmd h (kept_execRsArm _ h)
      · exact canonical_afterCmd h (kept_execRsDisarm _ h)
      · exact h
    · exact h

@[simp] theorem canonical_frmAct {s : State} (f : FrameNo) (o : Nat) (x : Wr) (h : Canonical s.bytes) :
    Canonical (s.frmAct f o x).bytes := by
  unfold State.frmAct
  dsimp only
  split
  · exact canonical_when_when _ _ (kept_execBeatStopArm _ _ h) (fun _ => kept_execBeatStopRelease f) h
  · exact canonical_when _ (kept_execRegionFree _ _ h) h
  · exact canonical_when _ (kept_execSpadXferGo _ _ _ _ h) h
  · exact canonical_when_when _ _ (kept_execHealthClear _ h) (fun _ => kept_execRemap f) h
  · split
    · exact canonical_when_when _ _ (kept_execPfFlagWrite _ _ _ h) (fun _ => kept_execPfFlagWrite _ _ _) h
    · exact h

@[simp] theorem canonical_slotAct {s : State} (o : Nat) (x : Wr) (h : Canonical s.bytes) :
    Canonical (s.slotAct o x).bytes := by
  unfold State.slotAct
  split
  · exact canonical_globalAct _ _ h
  · exact canonical_tallyAct _ _ h
  · exact canonical_admitAct _ _ h
  · exact canonical_hostqAct _ _ _ h
  · exact canonical_when _ (kept_execMemcWipeGo h) h
  · exact canonical_masAct _ _ h
  · split
    · exact canonical_when _ (kept_execPortEnable _ _ h) h
    · split
      · exact canonical_when_when _ _ (kept_execRetrain _ h) (fun _ => kept_execPing _) h
      · exact h
  · exact canonical_carryAct _ _ h
  · split <;> simp [h]
  · exact h
  · exact canonical_frmAct _ _ _ h
  · exact h

@[simp] theorem canonical_writePart {s : State} (n : FuncNo) (v : BitVec 64) (p : Part) (h : Canonical s.bytes) :
    Canonical (s.writePart n v p).bytes := by
  unfold State.writePart
  dsimp only
  split
  · exact h
  · exact h
  · simpa using h
  · split
    next t e => exact (bytes_blockOff e).symm ▸ h
    next => exact canonical_slotAct _ _ (by simpa using h)

@[simp] theorem canonical_writeParts {s : State} (n : FuncNo) (v : BitVec 64) (ps : List Part) (h : Canonical s.bytes) :
    Canonical (s.writeParts n v ps).bytes :=
  State.canonical_foldl _ _ (fun _ p hu => canonical_writePart n v p hu) h

@[simp] theorem bytes_aerIf (s : State) (ep : Bool) (n : FuncNo) : (s.aerIf ep n).bytes = s.bytes := by
  simp [State.aerIf]

@[simp] theorem canonical_configure {s : State} (l : HostLink) (h : Canonical s.bytes) :
    Canonical (s.configure l).bytes := by
  unfold State.configure
  split
  · exact h
  · simp only [State.bytes_mk, State.mk_bytes]
    split
    · exact State.canonical_foldl _ _ (fun u n hu => canonical_afterCmd hu (kept_execFunctionReset n hu)) h
    · exact h

@[simp] theorem kept_execRegisterWrite {s : State} (func : FuncNo) (offset width : Nat) (value : HostWrite)
    (h : Canonical s.bytes) :
    Kept (execRegisterWrite func offset width value s) := by
  unfold execRegisterWrite
  split
  · exact kept_fault _
  · split
    · simp [h]
    · simp [h]

@[simp] theorem canonical_aliasWrite {s : State} (o : Nat) (v : Word) (h : Canonical s.bytes) :
    Canonical (s.aliasWrite o v).bytes := by
  unfold State.aliasWrite
  dsimp only
  split
  next t e => exact (bytes_blockOff e).symm ▸ h
  next => exact canonical_slotAct _ _ (by simpa using h)

@[simp] theorem bytes_aliasRead (s : State) (o : Nat) : ((s.aliasRead o).2).bytes = s.bytes := by
  simp [State.aliasRead]

end Sys2Proof.Machine
end

section

/-!
SUPPORT. The bytes under the Feeders.
-/

namespace Sys2Proof.Machine

open Sys2Proof

/-! From the model's `FeederMove`. -/

@[simp] theorem canonical_homeRead {s : State} (x : Xfer) (a k : Nat) (h : Canonical s.bytes) :
    Canonical (s.homeRead x a k).1.bytes := by
  unfold State.homeRead
  split
  · split <;> simp [h]
  all_goals exact h

@[simp] theorem bytes_tellReads (s : State) (x : Xfer) (addrs : List Nat) : (s.tellReads x addrs).bytes = s.bytes := by
  simp [State.tellReads]

@[simp] theorem canonical_readElem {s : State} (x : Xfer) (f : FrameNo) (d : Desc) (k : Nat) (h : Canonical s.bytes) :
    Canonical ((s.readElem x f d k).1).bytes := by
  simp [State.readElem, h]

@[simp] theorem canonical_readIndices {s : State} (x : Xfer) (f : FrameNo) (b : Desc) (n : Nat)
    (h : Canonical s.bytes) :
    Canonical (s.readIndices x f b n).1.bytes :=
  State.canonical_foldl_fst _ _ (fun _ _ hu => canonical_readElem x f b _ hu) h

@[simp] theorem canonical_readItems {s : State} (x : Xfer) (f : FrameNo) (a : Desc) (is : List Item)
    (h : Canonical s.bytes) :
    Canonical (s.readItems x f a is).1.bytes :=
  State.canonical_foldl_fst _ _ (fun u i hu => by
    split
    · exact hu
    · exact canonical_readElem x f a _ hu) h

@[simp] theorem bytes_spendRead (s : State) (x : Xfer) (a : Desc) (addrs : List Nat) :
    (s.spendRead x a addrs).bytes = s.bytes := by
  simp [State.spendRead]

@[simp] theorem canonical_stageData {s : State} (x : Xfer) (f : FrameNo) (r : XRec) (slot_ : Nat) (d : Desc)
    (a : Desc) (b : Desc) (mark : Option Mark) (h : Canonical s.bytes) :
    Canonical (s.stageData x f r slot_ d a b mark).bytes := by
  simp [State.stageData, h]

@[simp] theorem canonical_stageKeys {s : State} (x : Xfer) (key : Nat) (d : Desc) (digit first count ring : Nat)
    (mark : Option Mark) (h : Canonical s.bytes) : Canonical (s.stageKeys x key d digit first count ring mark).bytes := by
  simp only [State.stageKeys, bytes_updXfer, State.bytes_mk, State.mk_bytes, State.bytes_ite, bytes_tellReads, ite_self]
  exact State.canonical_foldl _ _ (fun u l hu => canonical_homeRead x _ _ hu) (canonical_homeRead x _ _ h)

@[simp] theorem canonical_tryStage {s : State} (id : Nat) (h : Canonical s.bytes) :
    Canonical (s.tryStage id).bytes := by
  unfold State.tryStage
  split
  · exact h
  · split <;> simp [h]

@[simp] theorem canonical_runFeeders {s : State} (h : Canonical s.bytes) : Canonical s.runFeeders.bytes := by
  rw [State.runFeeders, bytes_sendAll]
  exact State.canonical_foldl _ _ (fun u x hu => canonical_tryStage x.id hu) h

/-! From the model's `Feeder`. -/

@[simp] theorem bytes_feedTo (s : State) (f : FrameNo) (k : Nat) (due : Option Nat) :
    (s.feedTo f k due).bytes = s.bytes := by
  unfold State.feedTo
  split <;> simp

@[simp] theorem canonical_accept {s : State} (f : FrameNo) (i : Iss) (x : Xfer) (h : Canonical s.bytes) :
    Canonical (s.accept f i x).bytes := by
  simp [State.accept, h]

@[simp] theorem bytes_xferPoison (s : State) (f : FrameNo) (i : Iss) (kind : Nat) (slot_ : Nat) (d : Desc)
    (a : Desc) :
    ((s.xferPoison f i kind slot_ d a).1).bytes = s.bytes := by
  unfold State.xferPoison
  dsimp only
  split
  · simp
  · split <;> simp

@[simp] theorem canonical_moveIssue {s : State} (f : FrameNo) (i : Iss) (x : XRec) (h : Canonical s.bytes) :
    Canonical (s.moveIssue f i x).bytes := by
  simp [State.moveIssue, h]

@[simp] theorem canonical_xferIssue {s : State} (f : FrameNo) (i : Iss) (h : Canonical s.bytes) :
    Canonical (s.xferIssue f i).bytes := by
  unfold State.xferIssue
  split <;> simp [h]

@[simp] theorem canonical_kstreamIssue {s : State} (f : FrameNo) (i : Iss) (h : Canonical s.bytes) :
    Canonical (s.kstreamIssue f i).bytes := by
  simp [State.kstreamIssue, h]

@[simp] theorem canonical_relIssue {s : State} (f : FrameNo) (i : Iss) (h : Canonical s.bytes) :
    Canonical (s.relIssue f i).bytes := by
  simp [State.relIssue, h]

@[simp] theorem canonical_atomIssue {s : State} (f : FrameNo) (i : Iss) (h : Canonical s.bytes) :
    Canonical (s.atomIssue f i).bytes := by
  simp [State.atomIssue, h]

@[simp] theorem canonical_sldIssue {s : State} (f : FrameNo) (i : Iss) (h : Canonical s.bytes) :
    Canonical (s.sldIssue f i).bytes := by
  simp [State.sldIssue, h]

@[simp] theorem canonical_feederIssue {s : State} (f : FrameNo) (op : Op) (i : Iss) (h : Canonical s.bytes) :
    Canonical (s.feederIssue f op i).bytes := by
  unfold State.feederIssue
  split <;> simp [h]

@[simp] theorem kept_feederStep {s : State} (f : FrameNo) (op : Op) (h : Canonical s.bytes) :
    Kept (feederStep s f op) := by
  unfold feederStep
  split <;> simp [h]

@[simp] theorem kept_execXfer (f : FrameNo) {s : State} (h : Canonical s.bytes) : Kept (execXfer f s) := by
  simp [execXfer, h]

@[simp] theorem kept_execKstream (f : FrameNo) {s : State} (h : Canonical s.bytes) : Kept (execKstream f s) := by
  simp [execKstream, h]

@[simp] theorem kept_execFlagRel (f : FrameNo) {s : State} (h : Canonical s.bytes) : Kept (execFlagRel f s) := by
  simp [execFlagRel, h]

@[simp] theorem kept_execAtom (f : FrameNo) {s : State} (h : Canonical s.bytes) : Kept (execAtom f s) := by
  simp [execAtom, h]

@[simp] theorem kept_execSld (f : FrameNo) {s : State} (h : Canonical s.bytes) : Kept (execSld f s) := by
  simp [execSld, h]

@[simp] theorem kept_execFeederAccept (f : FrameNo) {s : State} (h : Canonical s.bytes) :
    Kept (execFeederAccept f s) := by
  unfold execFeederAccept
  split <;> simp [h]

@[simp] theorem kept_execRrcFill (f : FrameNo) (line : Met Nat) {s : State} (h : Canonical s.bytes) :
    Kept (execRrcFill f line s) := by
  simp [execRrcFill, h]

/-! From the model's `FeederLand`. -/

@[simp] theorem bytes_dropWrite (s : State) (x : Xfer) (c : Code) (addr : Nat) :
    (s.dropWrite x c addr).bytes = s.bytes := by
  simp [State.dropWrite]

@[simp] theorem bytes_dropLogged (s : State) (x : Xfer) (c : Code) (addr : Nat) :
    (s.dropLogged x c addr).bytes = s.bytes := by
  simp [State.dropLogged]

@[simp] theorem canonical_putSpad {s : State} (row : Nat) (ws : List PWrite) (mark : Option Mark)
    (h : Canonical s.bytes) :
    Canonical (s.putSpad row ws mark).bytes := by
  have hw := memWf_writeNibs (nibsOf ws) (memWf_memWriteCells (cellsOf ws) (canonical_mem h))
  cases mark <;> simp [State.putSpad, hw, canonical_vis h]

@[simp] theorem canonical_putReg {s : State} (x : Xfer) (w : PWrite) (h : Canonical s.bytes) :
    Canonical (s.putReg x w).bytes := by
  simp [State.putReg, h]

@[simp] theorem canonical_commitRow {s : State} (x : Xfer) (row : Nat) (ws : List PWrite) (h : Canonical s.bytes) :
    Canonical (s.commitRow x row ws).bytes := by
  unfold State.commitRow
  dsimp only
  split
  · simpa using h
  · split
    · exact State.canonical_foldl _ _ (fun u w hu => canonical_putReg x w hu) h
    · simp [h]
    · exact canonical_putSpad _ _ _ h

@[simp] theorem canonical_commitWrites {s : State} (x : Xfer) (ws : List PWrite) (h : Canonical s.bytes) :
    Canonical (s.commitWrites x ws).bytes :=
  State.canonical_foldl _ _ (fun _ row hu => canonical_commitRow x row _ hu) h

@[simp] theorem bytes_overrun (s : State) (g : FrameNo) (n : Nat) : (s.overrun g n).bytes = s.bytes := by
  unfold State.overrun
  dsimp only
  split <;> simp

@[simp] theorem bytes_advance (s : State) (g : FrameNo) (n : Nat) (isTail : Bool) (bytes : Nat) :
    (s.advance g n isTail bytes).bytes = s.bytes := by
  simp [State.advance]

@[simp] theorem bytes_landPend (s : State) (p : Nat × Pend) : (s.landPend p).bytes = s.bytes := by
  unfold State.landPend
  split <;> simp

@[simp] theorem bytes_advanceAt (s : State) (addr rows : Nat) : (s.advanceAt addr rows).bytes = s.bytes := by
  unfold State.advanceAt
  split
  · split <;> simp
  · rfl

@[simp] theorem canonical_land {s : State} (x : Xfer) (h : Canonical s.bytes) : Canonical (s.land x).bytes := by
  unfold State.land
  split <;> simp [h]

@[simp] theorem kept_execTransferLanded (id : Nat) {s : State} (h : Canonical s.bytes) :
    Kept (execTransferLanded id s) := by
  unfold execTransferLanded
  split <;> simp [h]

@[simp] theorem canonical_putRow {s : State} (r : RRow) (h : Canonical s.bytes) : Canonical (s.putRow r).bytes := by
  unfold State.putRow
  extract_lets u v w
  have hu : Canonical u.bytes := by simp [u, h]
  have hw : Canonical w.bytes := canonical_setMem hu (memWf_memWriteN _ _ hu.1) rfl
  split
  · rwa [bytes_mark]
  · simpa using hw

@[simp] theorem canonical_rowArrive {s : State} (dev : Nat) (frame : Nat) (r : RRow) (h : Canonical s.bytes) :
    Canonical ((s.rowArrive dev frame r).1).bytes := by
  unfold State.rowArrive
  dsimp only
  (repeat' split) <;> simp [h]

@[simp] theorem canonical_takeRow {s : State} (x : Xfer) (r : RRow) (h : Canonical s.bytes) :
    Canonical (s.takeRow x r).bytes := by
  unfold State.takeRow
  dsimp only
  split <;> simp [h]

@[simp] theorem kept_execRemoteRowArrival {s : State} (id : Nat) (h : Canonical s.bytes) :
    Kept (execRemoteRowArrival id s) := by
  unfold execRemoteRowArrival
  split
  · split <;> simp [h]
  · exact (kept_next s).mpr h

@[simp] theorem kept_execGrantApply {s : State} (id : Nat) (h : Canonical s.bytes) : Kept (execGrantApply id s) := by
  unfold execGrantApply
  split
  · split <;> simp [h]
  · exact (kept_next s).mpr h

@[simp] theorem canonical_addMem {s : State} (w : PWrite) (h : Canonical s.bytes) : Canonical (s.addMem w).bytes := by
  have hs := canonical_sumAt w.addr (max 1 w.size) h
  unfold State.addMem
  dsimp only
  split <;> simp [memWf_writeNibs, memWf_memWriteCells, canonical_mem hs, canonical_vis hs]

@[simp] theorem bytes_uncounted (s : State) (was : State) (a : Nat) : (s.uncounted was a).bytes = s.bytes := by
  unfold State.uncounted
  split <;> simp

@[simp] theorem canonical_addAt {s : State} (x : Xfer) (w : PWrite) (more : Bool) (h : Canonical s.bytes) :
    Canonical (s.addAt x w more).bytes := by
  unfold State.addAt
  dsimp only
  split
  · simp [h]
  · split <;> simp [h]

@[simp] theorem kept_execAccWriteApply (id : Nat) {s : State} (h : Canonical s.bytes) :
    Kept (execAccWriteApply id s) := by
  unfold execAccWriteApply
  dsimp only
  split
  · split <;> simp [h]
  · simp [h]

@[simp] theorem bytes_countDrop (s : State) (a : Nat) : (s.countDrop a).bytes = s.bytes := by
  unfold State.countDrop
  split <;> simp

@[simp] theorem canonical_atomHome {s : State} (x : Xfer) (h : Canonical s.bytes) :
    Canonical ((s.atomHome x).1).bytes := by
  unfold State.atomHome
  dsimp only
  (repeat' split) <;> simp [h]

@[simp] theorem kept_execAtomApply (id : Nat) {s : State} (h : Canonical s.bytes) : Kept (execAtomApply id s) := by
  unfold execAtomApply
  split <;> simp [h]

@[simp] theorem canonical_sldHome {s : State} (x : Xfer) (h : Canonical s.bytes) :
    Canonical ((s.sldHome x).1).bytes := by
  simp [State.sldHome, h]

@[simp] theorem kept_execSldHomeRead (id : Nat) {s : State} (h : Canonical s.bytes) : Kept (execSldHomeRead id s) := by
  unfold execSldHomeRead
  split <;> simp [h]

@[simp] theorem canonical_sendRelease {s : State} (f : FrameNo) (x : Xfer) (h : Canonical s.bytes) :
    Canonical (s.sendRelease f x).bytes := by
  unfold State.sendRelease
  dsimp only
  split
  · simp [h]
  · split <;> simp [h]

@[simp] theorem kept_execReleaseUpdateSend {s : State} (id : Nat) (h : Canonical s.bytes) :
    Kept (execReleaseUpdateSend id s) := by
  unfold execReleaseUpdateSend
  split
  · split <;> simp [h]
  · exact (kept_next s).mpr h

@[simp] theorem bytes_flagHome (s : State) (x : Xfer) (g : FrameNo) : (s.flagHome x g).bytes = s.bytes := by
  simp [State.flagHome]

@[simp] theorem kept_execFlagUpdateApply {s : State} (id : Nat) (h : Canonical s.bytes) :
    Kept (execFlagUpdateApply id s) := by
  unfold execFlagUpdateApply
  split
  · split <;> simp [h]
  · exact (kept_next s).mpr h

@[simp] theorem bytes_serveFlag (s : State) (k : Packet) : ((s.serveFlag k).1).bytes = s.bytes := by
  unfold State.serveFlag
  split <;> simp

@[simp] theorem bytes_forgetOwn (s : State) (k : Packet) : (s.forgetOwn k).bytes = s.bytes := by
  simp [State.forgetOwn]

@[simp] theorem canonical_serveWrite {s : State} (k : Packet) (h : Canonical s.bytes) :
    Canonical ((s.serveWrite k).1).bytes := by
  unfold State.serveWrite
  dsimp only
  (repeat' split) <;> simp [h]

@[simp] theorem canonical_serveAtom {s : State} (k : Packet) (h : Canonical s.bytes) :
    Canonical ((s.serveAtom k).1).bytes := by
  unfold State.serveAtom
  dsimp only
  (repeat' split) <;> simp [h]

@[simp] theorem canonical_serveRequest {s : State} (k : Packet) (h : Canonical s.bytes) :
    Canonical ((s.serveRequest k).1).bytes := by
  unfold State.serveRequest
  dsimp only
  (repeat' split) <;> simp [h]

@[simp] theorem kept_execRequestArrival {s : State} (h : Canonical s.bytes) : Kept (execRequestArrival s) := by
  unfold execRequestArrival
  split <;> simp [h]

end Sys2Proof.Machine
end

section

/-!
SUPPORT. The bytes under the launch and the management port's messages, every command and every step, and the
settlement of O54.
-/

namespace Sys2Proof.Machine

open Sys2Proof

/-! From the model's `BeatLaunch`. -/

@[simp] theorem canonical_cutOp {s : State} (f : FrameNo) (o : EngOp) (h : Canonical s.bytes) :
    Canonical (s.cutOp f o).bytes := by
  simp [State.cutOp, h]

@[simp] theorem canonical_addAll {s : State} (x : Xfer) (ws : List PWrite) (h : Canonical s.bytes) :
    Canonical (s.addAll x ws).bytes := by
  induction ws generalizing s with
  | nil => exact h
  | cons w ws ih => exact ih (by simp [h])

@[simp] theorem canonical_cutRow {s : State} (x : Xfer) (r : RRow) (h : Canonical s.bytes) :
    Canonical (s.cutRow x r).bytes := by
  unfold State.cutRow
  split
  · exact canonical_takeRow x r h
  · split
    · split <;> simp [h]
    · exact canonical_commitRow _ _ _ h

@[simp] theorem canonical_cutXfer {s : State} (x : Xfer) (h : Canonical s.bytes) : Canonical (s.cutXfer x).bytes :=
  State.canonical_foldl _ _ (fun _ r hu => canonical_cutRow x r hu) (canonical_addAll x _ (canonical_commitWrites x _ h))

@[simp] theorem canonical_stopRun {s : State} (r : Run) (h : Canonical s.bytes) : Canonical (s.stopRun r).bytes := by
  simp only [State.stopRun, bytes_updRun, bytes_mapFrames]
  refine State.canonical_foldl _ _ (fun _ x hu => canonical_cutXfer x hu) ?_
  simp only [State.bytes_mk, State.mk_bytes]
  exact State.canonical_foldl _ _ (fun _ f hu => State.canonical_foldl _ _ (fun _ o hv => canonical_cutOp f o hv) hu) h

@[simp] theorem canonical_takeStops {s : State} (h : Canonical s.bytes) : Canonical s.takeStops.bytes :=
  State.canonical_foldl _ _ (fun u r hu => by split <;> simp [hu]) h

@[simp] theorem canonical_launch {s : State} (ns : Nat) (last : BitVec 8) (h : Canonical s.bytes) :
    Canonical (s.launch ns last).bytes := by
  simp only [State.launch, bytes_markIdle, bytes_markStarts, bytes_markEnds, bytes_takeAborts, bytes_recheck]
  refine canonical_takeStops ?_
  simp only [bytes_takeAborts, bytes_gateRuns, State.bytes_mk]
  exact canonical_showSpad (by simp [h])

@[simp] theorem kept_execBeatLaunch (ns : Nat) (last : BitVec 8) {s : State} (h : Canonical s.bytes) :
    Kept (execBeatLaunch ns last s) := by
  simp [execBeatLaunch, h]

/-! From the model's `Protocols`. -/

@[simp] theorem bytes_respond (s : State) (mtype : Byte) (cmd : Byte) (cc : Byte) (payload : List Byte) :
    (s.respond mtype cmd cc payload).bytes = s.bytes := State.bytes_congr rfl rfl

@[simp] theorem bytes_updPort' (s : State) (g : MgmtPort → MgmtPort) :
    (s.updPort' g).bytes = s.bytes := State.bytes_congr rfl rfl

@[simp] theorem kept_portAnswer {s t : State} (ok : Bool) (h : Canonical s.bytes) (k : Canonical t.bytes) :
    Kept (s.portAnswer ok t) := by
  simp [State.portAnswer, h, k]

@[simp] theorem kept_control {s t : State} (dest : BitVec 8) (h : Canonical s.bytes) (k : Canonical t.bytes) :
    Kept (s.control dest t) :=
  kept_portAnswer _ h k

@[simp] theorem kept_execSetEndpointId (dest : BitVec 8) (eid : BitVec 8) {s : State} (h : Canonical s.bytes) :
    Kept (execSetEndpointId dest eid s) := by
  simp [execSetEndpointId, h]

@[simp] theorem kept_execGetEndpointId (dest : BitVec 8) {s : State} (h : Canonical s.bytes) :
    Kept (execGetEndpointId dest s) := by
  simp [execGetEndpointId, h]

@[simp] theorem kept_execGetEndpointUuid (dest : BitVec 8) {s : State} (h : Canonical s.bytes) :
    Kept (execGetEndpointUuid dest s) := by
  simp [execGetEndpointUuid, h]

@[simp] theorem kept_execGetMctpVersionSupport (dest : BitVec 8) (mtype : BitVec 8) {s : State}
    (h : Canonical s.bytes) :
    Kept (execGetMctpVersionSupport dest mtype s) := by
  simp [execGetMctpVersionSupport, h]

@[simp] theorem kept_execGetMessageTypeSupport (dest : BitVec 8) {s : State} (h : Canonical s.bytes) :
    Kept (execGetMessageTypeSupport dest s) := by
  simp [execGetMessageTypeSupport, h]

@[simp] theorem kept_execGetVendorDefinedMessageSupport (dest : BitVec 8) (selector : BitVec 8) {s : State}
    (h : Canonical s.bytes) :
    Kept (execGetVendorDefinedMessageSupport dest selector s) := by
  simp [execGetVendorDefinedMessageSupport, h]

@[simp] theorem kept_managed {s t : State} (dest : BitVec 8) (h : Canonical s.bytes) (k : Canonical t.bytes) :
    Kept (s.managed dest t) :=
  kept_portAnswer _ h k

@[simp] theorem kept_execGetTid (dest : BitVec 8) {s : State} (h : Canonical s.bytes) : Kept (execGetTid dest s) := by
  simp [execGetTid, h]

@[simp] theorem kept_execGetPldmVersion (dest : BitVec 8) (ptype : BitVec 8) {s : State} (h : Canonical s.bytes) :
    Kept (execGetPldmVersion dest ptype s) := by
  simp [execGetPldmVersion, h]

@[simp] theorem kept_execGetPldmTypes (dest : BitVec 8) {s : State} (h : Canonical s.bytes) :
    Kept (execGetPldmTypes dest s) := by
  simp [execGetPldmTypes, h]

@[simp] theorem kept_execGetPldmCommands (dest : BitVec 8) (ptype : BitVec 8) {s : State} (h : Canonical s.bytes) :
    Kept (execGetPldmCommands dest ptype s) := by
  simp [execGetPldmCommands, h]

@[simp] theorem kept_execGetPdr (dest : BitVec 8) (record : Word) {s : State} (h : Canonical s.bytes) :
    Kept (execGetPdr dest record s) := by
  simp [execGetPdr, h]

@[simp] theorem kept_execGetSensorReading (dest : BitVec 8) (sensor : BitVec 16) {s : State} (h : Canonical s.bytes) :
    Kept (execGetSensorReading dest sensor s) := by
  unfold execGetSensorReading
  split <;> simp [h]

@[simp] theorem kept_execGetStateSensorReadings (dest : BitVec 8) (sensor : BitVec 16) {s : State}
    (h : Canonical s.bytes) :
    Kept (execGetStateSensorReadings dest sensor s) := by
  unfold execGetStateSensorReadings
  dsimp only
  split <;> simp [h]

@[simp] theorem kept_execPollForPlatformEventMessage (dest : BitVec 8) {s : State} (h : Canonical s.bytes) :
    Kept (execPollForPlatformEventMessage dest s) := by
  unfold execPollForPlatformEventMessage
  split <;> simp [h]

@[simp] theorem kept_execQueryDeviceIdentifiers (dest : BitVec 8) {s : State} (h : Canonical s.bytes) :
    Kept (execQueryDeviceIdentifiers dest s) := by
  simp [execQueryDeviceIdentifiers, h]

@[simp] theorem kept_execGetFirmwareParameters (dest : BitVec 8) {s : State} (h : Canonical s.bytes) :
    Kept (execGetFirmwareParameters dest s) := by
  simp [execGetFirmwareParameters, h]

@[simp] theorem kept_execRequestUpdate (dest : BitVec 8) {s : State} (h : Canonical s.bytes) :
    Kept (execRequestUpdate dest s) := by
  simp [execRequestUpdate, h]

@[simp] theorem bytes_wrongState (s : State) (cmd : Byte) :
    (s.wrongState cmd).bytes = s.bytes := State.bytes_congr rfl rfl

@[simp] theorem kept_execPassComponentTable (dest : BitVec 8) (comps : List (BitVec 16)) {s : State}
    (h : Canonical s.bytes) :
    Kept (execPassComponentTable dest comps s) := by
  simp [execPassComponentTable, h]

@[simp] theorem bytes_pull (s : State) : s.pull.bytes = s.bytes := State.bytes_congr rfl rfl

@[simp] theorem kept_execUpdateComponent {s : State} (dest : BitVec 8) (comp : BitVec 16) (size : Word)
    (h : Canonical s.bytes) :
    Kept (execUpdateComponent dest comp size s) := by
  refine kept_managed _ h (canonical_iteState _ (by simpa using h) ?_)
  split
  next t e =>
    split at e
    · simp [bytes_stage e, h]
    · cases e
  next => simpa using h

@[simp] theorem bytes_endTransfer (s : State) (g : Staging) : (s.endTransfer g).bytes = s.bytes := by
  simp [State.endTransfer]

@[simp] theorem kept_execRequestFirmwareData (bytes : List Byte) (transferDone : Bool) {s : State}
    (h : Canonical s.bytes) :
    Kept (execRequestFirmwareData bytes transferDone s) := by
  unfold execRequestFirmwareData
  split <;> simp [h]

@[simp] theorem kept_execActivateFirmware (dest : BitVec 8) {s : State} (h : Canonical s.bytes) :
    Kept (execActivateFirmware dest s) := by
  simp [execActivateFirmware, h]

@[simp] theorem kept_execGetStatus (dest : BitVec 8) {s : State} (h : Canonical s.bytes) :
    Kept (execGetStatus dest s) := by
  simp [execGetStatus, h]

@[simp] theorem kept_execCancelUpdate (dest : BitVec 8) {s : State} (h : Canonical s.bytes) :
    Kept (execCancelUpdate dest s) := by
  simp [execCancelUpdate, h]

@[simp] theorem kept_execCancelUpdateComponent (dest : BitVec 8) {s : State} (h : Canonical s.bytes) :
    Kept (execCancelUpdateComponent dest s) := by
  simp [execCancelUpdateComponent, h]

@[simp] theorem bytes_spdmError (s : State) (code : Byte) :
    (s.spdmError code).bytes = s.bytes := State.bytes_congr rfl rfl

@[simp] theorem kept_spdm {s t : State} (dest : BitVec 8) (ready : Bool) (h : Canonical s.bytes) (k : Canonical t.bytes) :
    Kept (s.spdm dest ready t) := by
  simp [State.spdm, h, k]

@[simp] theorem kept_execGetVersion (dest : BitVec 8) {s : State} (h : Canonical s.bytes) :
    Kept (execGetVersion dest s) := by
  simp [execGetVersion, h]

@[simp] theorem kept_execGetCapabilities (dest : BitVec 8) {s : State} (h : Canonical s.bytes) :
    Kept (execGetCapabilities dest s) := by
  simp [execGetCapabilities, h]

@[simp] theorem kept_execNegotiateAlgorithms (dest : BitVec 8) (p384 : Bool) (sha384 : Bool) {s : State}
    (h : Canonical s.bytes) :
    Kept (execNegotiateAlgorithms dest p384 sha384 s) := by
  simp [execNegotiateAlgorithms, h]

@[simp] theorem kept_execGetDigests (dest : BitVec 8) {s : State} (h : Canonical s.bytes) :
    Kept (execGetDigests dest s) := by
  simp [execGetDigests, h]

@[simp] theorem kept_execGetCertificate (dest : BitVec 8) (slot : BitVec 8) (offset : BitVec 16)
    (length : BitVec 16) {s : State} (h : Canonical s.bytes) :
    Kept (execGetCertificate dest slot offset length s) := by
  simp [execGetCertificate, h]

@[simp] theorem bytes_signedAnswer (s : State) (cmd : Byte) (nonce : BitVec 256) (said : List Byte) :
    (s.signedAnswer cmd nonce said).bytes = s.bytes := by
  have hs := bytes_security s
  unfold State.signedAnswer
  split
  next e =>
    rw [e] at hs
    dsimp only
    split <;> simpa using hs
  next e => simpa [e] using hs

@[simp] theorem kept_execChallenge (dest : BitVec 8) (slot : BitVec 8) (nonce : BitVec 256) {s : State}
    (h : Canonical s.bytes) :
    Kept (execChallenge dest slot nonce s) := by
  simp [execChallenge, h]

@[simp] theorem kept_execSpdmGetMeasurements (dest : BitVec 8) (index : BitVec 8) (nonce : BitVec 256) {s : State}
    (h : Canonical s.bytes) :
    Kept (execSpdmGetMeasurements dest index nonce s) := by
  unfold execSpdmGetMeasurements
  dsimp only
  (repeat' split) <;> simp [h]

@[simp] theorem kept_execDrenilVendorMessage (dest : BitVec 8) (opcode : BitVec 8)
    (request : List Byte) {s : State} (h : Canonical s.bytes) :
    Kept (execDrenilVendorMessage dest opcode request s) := by
  simp [execDrenilVendorMessage, h]

@[simp] theorem kept_execUnsupportedMctpMessage (dest : BitVec 8) (mtype : BitVec 8)
    (command : BitVec 16) {s : State} (h : Canonical s.bytes) :
    Kept (execUnsupportedMctpMessage dest mtype command s) := by
  simp [execUnsupportedMctpMessage, h]

/-! From the model's `Dispatch`. -/

@[simp] theorem kept_exec (i : Instr) {s : State} (h : Canonical s.bytes) : Kept (exec i s) := by
  unfold exec
  split <;> simp [h]

/-! From the model's `Step`. -/

@[simp] theorem kept_step {s : State} (h : Canonical s.bytes) : Kept (step s) := by
  unfold step
  split <;> simp [h]

/-- Settles O54: every command leaves canonical memories canonical, and a step runs the one in front. -/
theorem everyStepKeepsMemoryCanonical : Obligations.EveryStepKeepsMemoryCanonical := by
  unfold Obligations.EveryStepKeepsMemoryCanonical
  intro s t h e
  rw [State.memOk_iff_canonical] at h ⊢
  exact kept_step h t e

end Sys2Proof.Machine
end

section

/-!
SUPPORT. What the modular arithmetic computes: powers, inverses and the Montgomery product (R80, R84), and the settlement
of O10.
-/

namespace Sys2Proof.Machine

open Sys2Proof

/-! Powers and inverses. -/

/-- Square and multiply computes the power, where the fuel covers the exponent's bits. -/
theorem powModFuel_eq (n b e m : Nat) (h : e < 2 ^ n) : powModFuel n b e m = b ^ e % m := by
  induction n generalizing b e with
  | zero => simp [powModFuel, Nat.lt_one_iff.mp h]
  | succ n ih =>
    have hr : powModFuel n (b * b % m) (e / 2) m = b ^ (2 * (e / 2)) % m := by
      rw [ih _ _ (by omega), ← Nat.pow_mod, pow_mul, pow_two]
    simp only [powModFuel, hr]
    split
    · rw [Nat.mul_mod_mod, ← pow_succ']
      congr 2
      omega
    · congr 2
      omega

/-- `powMod` is the power. -/
theorem powMod_eq (b e m : Nat) : powMod b e m = b ^ e % m := by
  rw [powMod, powModFuel_eq _ _ _ _ Nat.lt_log2_self, ← Nat.pow_mod]

/-- The inverse modulo a prime that does not divide the number. -/
theorem invPrime_mul {a q : Nat} (hq : q.Prime) (h : ¬ q ∣ a) : a * invPrime a q % q = 1 := by
  have hf := (Nat.ModEq.pow_totient ((Nat.Prime.coprime_iff_not_dvd hq).mpr h).symm).symm
  rw [Nat.totient_prime hq] at hf
  have e : q - 1 = q - 2 + 1 := by have := hq.two_le; omega
  rw [invPrime, powMod_eq, Nat.mul_mod_mod, ← pow_succ', ← e, ← hf, Nat.mod_eq_of_lt hq.one_lt]

/-! The negated inverse modulo 2^32 (R84). -/

/-- A residue taken from a number that is large enough, as integers. -/
theorem cast_sub_mod_modEq {c : Nat} (a : Nat) (h : 2 ^ 32 ≤ c) : ((c - a % 2 ^ 32 : Nat) : Int) ≡ c - a [ZMOD 2 ^ 32] := by
  have hs : a % 2 ^ 32 ≤ c := (Nat.mod_lt _ (by decide)).le.trans h
  rw [Nat.cast_sub hs, Int.natCast_mod]
  exact Int.ModEq.sub_left _ (Int.mod_modEq _ _)

/-- One step of Newton's iteration doubles the low bits in which `q x` is 1, up to 32. -/
theorem newton_step {q x k j : Nat} (h : (2 ^ k : Int) ∣ q * x - 1) (hj : j ≤ 2 * k) (hj' : j ≤ 32) :
    (2 ^ j : Int) ∣ q * (x * ((2 + 2 ^ 64 - q * x % 2 ^ 32) % 2 ^ 32) % 2 ^ 32 : Nat) - 1 := by
  have hy : ((x * ((2 + 2 ^ 64 - q * x % 2 ^ 32) % 2 ^ 32) % 2 ^ 32 : Nat) : Int) ≡ x * (2 - q * x) [ZMOD 2 ^ 32] := by
    rw [Int.natCast_mod, Nat.cast_mul, Int.natCast_mod]
    refine (Int.mod_modEq _ _).trans (Int.ModEq.mul_left _ ((Int.mod_modEq _ _).trans ?_))
    refine (cast_sub_mod_modEq (q * x) (by decide)).trans ?_
    rw [Nat.cast_mul]
    exact Int.ModEq.sub_right _ (by decide)
  have hd : (2 ^ j : Int) ∣ x * (2 - q * x) - (x * ((2 + 2 ^ 64 - q * x % 2 ^ 32) % 2 ^ 32) % 2 ^ 32 : Nat) :=
    (pow_dvd_pow 2 hj').trans hy.dvd
  have hsq : (2 ^ j : Int) ∣ (q * x - 1) * (q * x - 1) := by
    refine (pow_dvd_pow 2 hj).trans ?_
    rw [two_mul, pow_add]
    exact mul_dvd_mul h h
  have e : ∀ y : Int, q * y - 1 = -((q * x - 1) * (q * x - 1)) - q * (x * (2 - q * x) - y) := fun y => by ring
  rw [e]
  exact (hsq.neg_right).sub (hd.mul_left _)

/-- Five steps from an odd number itself give its inverse modulo 2^32. -/
theorem newton32_inverse {q : Nat} (h : q % 2 = 1) : (2 ^ 32 : Int) ∣ q * newton32 5 q q - 1 := by
  have h3 : (2 ^ 3 : Int) ∣ q * q - 1 := by
    obtain ⟨k, rfl⟩ : ∃ k, q = 2 * k + 1 := ⟨q / 2, by omega⟩
    obtain ⟨c, hc⟩ := Nat.even_mul_succ_self k
    refine ⟨c, ?_⟩
    have hc' : (k * (k + 1) : Int) = c + c := by exact_mod_cast hc
    push_cast
    linear_combination 4 * hc'
  have h6 := newton_step h3 (j := 6) (by omega) (by omega)
  have h12 := newton_step h6 (j := 12) (by omega) (by omega)
  have h24 := newton_step h12 (j := 24) (by omega) (by omega)
  have h32 := newton_step h24 (j := 32) (by omega) (by omega)
  exact newton_step h32 (j := 32) (by omega) (by omega)

theorem qnegOf_lt (q : Nat) : qnegOf q < 2 ^ 32 := Nat.mod_lt _ (by decide)

/-- QNEG is the negated inverse (R84). -/
theorem qnegOf_spec {q : Nat} (h : q % 2 = 1) : (q * qnegOf q + 1) % 2 ^ 32 = 0 := by
  have hn : (qnegOf q : Int) ≡ -newton32 5 q q [ZMOD 2 ^ 32] := by
    rw [qnegOf, Int.natCast_mod]
    refine (Int.mod_modEq _ _).trans ((cast_sub_mod_modEq _ le_rfl).trans ?_)
    rw [← zero_sub]
    exact Int.ModEq.sub_right _ (by decide)
  have hz : ((2 ^ 32 : Nat) : Int) ∣ (q * qnegOf q + 1 : Nat) := by
    push_cast
    have e : (q : Int) * qnegOf q + 1 =
      q * (qnegOf q - -(newton32 5 q q : Int)) - (q * newton32 5 q q - 1) := by ring
    rw [e]
    exact ((hn.symm.dvd).mul_left _).sub (newton32_inverse h)
  exact Nat.mod_eq_zero_of_dvd (Int.natCast_dvd_natCast.mp hz)

/-! The Montgomery product (R80). -/

/-- The multiplier's `m`: the multiple of `q` that makes the low word of the product zero. -/
def montFactor (t q : Nat) : Nat := t % 2 ^ 32 * qnegOf q % 2 ^ 32

/-- The multiplier's `u`: the product with that multiple added, without its low word. -/
def montQuot (a b q : Nat) : Nat := (a * b + montFactor (a * b) q * q) / 2 ^ 32

theorem mont_eq (a b q : Nat) : mont a b q = if q ≤ montQuot a b q then montQuot a b q - q else montQuot a b q := rfl

theorem montFactor_dvd {q : Nat} (h : q % 2 = 1) (t : Nat) : (t + montFactor t q * q) % 2 ^ 32 = 0 := by
  have hm : t + montFactor t q * q ≡ t * (q * qnegOf q + 1) [MOD 2 ^ 32] := by
    have hf : montFactor t q ≡ t * qnegOf q [MOD 2 ^ 32] :=
      (Nat.mod_modEq _ _).trans ((Nat.mod_modEq _ _).mul_right _)
    calc t + montFactor t q * q ≡ t + t * qnegOf q * q [MOD 2 ^ 32] := (hf.mul_right q).add_left t
      _ = t * (q * qnegOf q + 1) := by ring
  have hz : q * qnegOf q + 1 ≡ 0 [MOD 2 ^ 32] := qnegOf_spec h
  exact hm.trans ((hz.mul_left t).trans (by rw [Nat.mul_zero]))

theorem montQuot_mul {q : Nat} (h : q % 2 = 1) (a b : Nat) :
    montQuot a b q * 2 ^ 32 = a * b + montFactor (a * b) q * q :=
  Nat.div_mul_cancel (Nat.dvd_of_mod_eq_zero (montFactor_dvd h _))

theorem montQuot_lt {q a b : Nat} (hq : q < 2 ^ 31) (ha : a < q) (hb : b < q) : montQuot a b q < 2 * q := by
  have hm : montFactor (a * b) q < 2 ^ 32 := Nat.mod_lt _ (by decide)
  have hab : a * b < q * 2 ^ 32 := Nat.mul_lt_mul_of_lt_of_le ha (by omega) (by decide)
  have hmq : montFactor (a * b) q * q ≤ 2 ^ 32 * q := Nat.mul_le_mul_right _ hm.le
  rw [montQuot, Nat.div_lt_iff_lt_mul (by decide)]
  omega

theorem mont_lt {q a b : Nat} (hq : q < 2 ^ 31) (ha : a < q) (hb : b < q) : mont a b q < q := by
  have := montQuot_lt hq ha hb
  rw [mont_eq]
  split <;> omega

/-- The product is `a b 2^-32` modulo `q`. -/
theorem mont_mul_mod {q : Nat} (h : q % 2 = 1) (a b : Nat) : mont a b q * 2 ^ 32 % q = a * b % q := by
  have hu : montQuot a b q * 2 ^ 32 ≡ a * b [MOD q] := by
    rw [montQuot_mul h]
    exact (Nat.modEq_zero_iff_dvd.mpr (Nat.dvd_mul_left q _)).add_left _
  have hm : mont a b q ≡ montQuot a b q [MOD q] := by
    rw [mont_eq]
    split
    next hle => simp [Nat.ModEq, ← Nat.mod_eq_sub_mod hle]
    next => rfl
  exact (hm.mul_right _).trans hu

/-- Settles O10. -/
theorem montgomeryProductIsExact : Obligations.MontgomeryProductIsExact := by
  unfold Obligations.MontgomeryProductIsExact
  intro q hodd _ hlt
  refine ⟨qnegOf_spec hodd, qnegOf_lt q, fun a b ha hb => ?_⟩
  have hab : a * b < 2 ^ 31 * 2 ^ 31 := Nat.mul_lt_mul'' (by omega) (by omega)
  exact ⟨by omega, montFactor_dvd hodd _, montQuot_lt hlt ha hb, mont_eq a b q, mont_lt hlt ha hb, mont_mul_mod hodd a b⟩

end Sys2Proof.Machine
end

section

/-!
SUPPORT. The Miller-Rabin test (Table 3.2) and LOG2Q (R84), and what a commit does to the prime table (R83, R84): the
settlement of O9.
-/

namespace Sys2Proof.Machine

open Sys2Proof

/-! The Miller-Rabin test. -/

/-- The odd part and the powers of two before it, where the fuel covers the number's bits. -/
theorem oddPart_spec (f n : Nat) (h0 : 0 < n) (h : n < 2 ^ f) :
    n = 2 ^ (oddPart f n).1 * (oddPart f n).2 ∧ (oddPart f n).2 % 2 = 1 := by
  induction f generalizing n with
  | zero => omega
  | succ f ih =>
    unfold oddPart
    split
    · obtain ⟨he, ho⟩ := ih (n / 2) (by omega) (by omega)
      refine ⟨?_, ho⟩
      rw [pow_succ', mul_assoc, ← he]
      omega
    · exact ⟨by simp, by omega⟩

/-- A number splits in one way into a power of two and an odd number. -/
theorem oddSplit_unique {k k' d d' : Nat} (h : 2 ^ k * d = 2 ^ k' * d') (hd : d % 2 = 1) (hd' : d' % 2 = 1) :
    k = k' ∧ d = d' := by
  induction k generalizing k' with
  | zero =>
    cases k' with
    | zero => exact ⟨rfl, by simpa using h⟩
    | succ k' => rw [pow_succ', mul_assoc] at h; omega
  | succ k ih =>
    cases k' with
    | zero => rw [pow_succ', mul_assoc] at h; omega
    | succ k' =>
      rw [pow_succ', pow_succ', mul_assoc, mul_assoc] at h
      obtain ⟨hk, e⟩ := ih (Nat.eq_of_mul_eq_mul_left (by decide) h)
      exact ⟨congrArg _ hk, e⟩

theorem reachesMinusOne_iff (k x n : Nat) :
    reachesMinusOne k (x % n) n = true ↔ ∃ j ≤ k, x ^ 2 ^ j % n = n - 1 := by
  induction k generalizing x with
  | zero => simp [reachesMinusOne]
  | succ k ih =>
    have hs : x % n * (x % n) % n = x ^ 2 % n := by rw [← Nat.mul_mod, pow_two]
    simp only [reachesMinusOne, Bool.or_eq_true, beq_iff_eq, hs, ih]
    constructor
    · rintro (h | ⟨j, hj, h⟩)
      · exact ⟨0, Nat.zero_le _, by simpa using h⟩
      · exact ⟨j + 1, by omega, by rwa [pow_succ', pow_mul]⟩
    · rintro ⟨j, hj, h⟩
      cases j with
      | zero => exact .inl (by simpa using h)
      | succ j => exact .inr ⟨j, by omega, by rwa [pow_succ', pow_mul] at h⟩

/-- `q` passes the Miller-Rabin round to base `b`. -/
def PassesRound (q b : Nat) : Prop :=
  ∀ k d, q - 1 = 2 ^ k * d → d % 2 = 1 → b ^ d % q = 1 ∨ ∃ j < k, b ^ (2 ^ j * d) % q = q - 1

theorem passesRound_iff {q b k d : Nat} (e : q - 1 = 2 ^ k * d) (hd : d % 2 = 1) :
    PassesRound q b ↔ b ^ d % q = 1 ∨ ∃ j < k, b ^ (2 ^ j * d) % q = q - 1 := by
  refine ⟨fun h => h k d e hd, fun h k' d' e' hd' => ?_⟩
  obtain ⟨rfl, rfl⟩ := oddSplit_unique (e.symm.trans e') hd hd'
  exact h

theorem millerRabinBase_iff {q b : Nat} (hq : q % 2 = 1) (hb : 0 < b) (hbq : b < q) (hlt : q < 2 ^ 32) :
    millerRabinBase q b = true ↔ PassesRound q b := by
  obtain ⟨e, hd⟩ := oddPart_spec 32 (q - 1) (by omega) (by omega)
  have hk : (oddPart 32 (q - 1)).1 ≠ 0 := fun h => by rw [h] at e; omega
  have hz : ¬ b % q = 0 := by rw [Nat.mod_eq_of_lt hbq]; omega
  rw [passesRound_iff e hd, millerRabinBase, if_neg hz]
  simp only [powMod_eq, Bool.or_eq_true, beq_iff_eq, reachesMinusOne_iff, ← pow_mul, mul_comm]
  refine or_congr_right (exists_congr fun j => and_congr_left' ?_)
  omega

/-- In a field, a number whose `2^k`-th power is 1 is 1, or a square on the way is -1. -/
theorem eq_one_or_neg_one_of_pow {q : Nat} [Fact q.Prime] (y : ZMod q) (k : Nat) (h : y ^ 2 ^ k = 1) :
    y = 1 ∨ ∃ j < k, y ^ 2 ^ j = -1 := by
  induction k with
  | zero => exact .inl (by simpa using h)
  | succ k ih =>
    rw [pow_succ, pow_mul, pow_two] at h
    obtain h1 | h1 := mul_self_eq_one_iff.mp h
    · exact (ih h1).imp_right fun ⟨j, hj, e⟩ => ⟨j, by omega, e⟩
    · exact .inr ⟨k, by omega, h1⟩

/-- A prime passes every round. -/
theorem passesRound_of_prime {q b : Nat} (hq : q.Prime) (hb : 0 < b) (hbq : b < q) : PassesRound q b := by
  intro k d e _
  have := Fact.mk hq
  have hb0 : (b : ZMod q) ≠ 0 := by
    rw [Ne, ZMod.natCast_eq_zero_iff]
    exact Nat.not_dvd_of_pos_of_lt hb hbq
  have h1 : ((b : ZMod q) ^ d) ^ 2 ^ k = 1 := by
    rw [← pow_mul, mul_comm, ← e]
    exact ZMod.pow_card_sub_one_eq_one hb0
  have hone : 1 % q = 1 := Nat.mod_eq_of_lt hq.one_lt
  refine (eq_one_or_neg_one_of_pow _ k h1).imp (fun h => ?_) fun ⟨j, hj, h⟩ => ⟨j, hj, ?_⟩
  · rw [← hone, ← ZMod.natCast_eq_natCast_iff']
    exact_mod_cast h
  · have hm : (q - 1) % q = q - 1 := Nat.mod_eq_of_lt (Nat.sub_lt hq.pos Nat.one_pos)
    rw [← hm, ← ZMod.natCast_eq_natCast_iff', Nat.cast_sub hq.one_lt.le, mul_comm, pow_mul]
    simpa using h

/-- `q` passes the test of Table 3.2. -/
def ProbablePrime (q : Nat) : Prop := PassesRound q 2 ∧ PassesRound q 7 ∧ PassesRound q 61

theorem millerRabin_iff {q : Nat} (hq : q % 2 = 1) (hl : 61 < q) (hlt : q < 2 ^ 32) :
    millerRabin q = true ↔ ProbablePrime q := by
  simp only [millerRabin, Bool.and_eq_true, ProbablePrime, millerRabinBase_iff hq (b := 2) (by decide) (by omega) hlt,
    millerRabinBase_iff hq (b := 7) (by decide) (by omega) hlt, millerRabinBase_iff hq (b := 61) (by decide) hl hlt, and_assoc]

theorem probablePrime_of_prime {q : Nat} (hq : q.Prime) (hl : 61 < q) : ProbablePrime q :=
  ⟨passesRound_of_prime hq (by decide) (by omega), passesRound_of_prime hq (by decide) (by omega),
    passesRound_of_prime hq (by decide) hl⟩

/-! LOG2Q. -/

/-- A power of two that a power of a number below `2^b` reaches. -/
theorem lt_of_two_pow_le_pow {q a b n : Nat} (hq : q < 2 ^ b) (hn : n ≠ 0) (h : 2 ^ a ≤ q ^ n) : a < b * n := by
  refine (Nat.pow_lt_pow_iff_right (a := 2) (by decide)).mp (h.trans_lt ?_)
  rw [pow_mul]
  exact Nat.pow_lt_pow_left hq hn

/-- Half of the logarithm of a square, rounded. -/
theorem two_pow_half_log2 {n : Nat} (h : n ≠ 0) :
    2 ^ (2 * ((n.log2 + 1) / 2) - 1) ≤ n ∧ n < 2 ^ (2 * ((n.log2 + 1) / 2) + 1) :=
  ⟨(Nat.pow_le_pow_right (by decide) (by omega)).trans (Nat.log2_self_le h),
    Nat.lt_log2_self.trans_le (Nat.pow_le_pow_right (by decide) (by omega))⟩

theorem log2qOf_eq (q : Nat) : log2qOf q = ((q ^ 512).log2 + 1) / 2 := by
  rw [log2qOf, ← pow_add]

/-- LOG2Q is 256 log2 Q to the nearest integer. -/
theorem log2qOf_spec {q : Nat} (h : 0 < q) :
    2 ^ (2 * log2qOf q - 1) ≤ q ^ 512 ∧ q ^ 512 < 2 ^ (2 * log2qOf q + 1) := by
  rw [log2qOf_eq]
  exact two_pow_half_log2 (pow_ne_zero _ h.ne')

theorem log2qOf_lt {q : Nat} (h : 0 < q) (hlt : q < 2 ^ 31) : log2qOf q < 2 ^ 16 := by
  have hk := lt_of_two_pow_le_pow hlt (by decide) (log2qOf_spec h).1
  omega

/-! The commands. -/

/-- The range of Table 3.2: an odd prime of 22 to 31 bits that is 1 modulo `2^l`. -/
def PrimeRange (q l : Nat) : Prop := 2 ^ 21 < q ∧ q < 2 ^ 31 ∧ q % 2 = 1 ∧ 11 ≤ l ∧ l ≤ 18 ∧ q % 2 ^ l = 1

/-- The root is a primitive `2^l`-th root of 1. -/
def RootFits (q root l : Nat) : Prop := root < q ∧ root ^ 2 ^ (l - 1) % q = q - 1

section
variable {s : State} {i q root l : Nat}

theorem commitResult_inUse (h : s.primeInUse i = true) : s.commitResult i q root l = (4, none) := by
  simp [State.commitResult, h]

theorem commitResult_empty (h : s.primeInUse i = false) : s.commitResult i 0 root l = (0, some {}) := by
  simp [State.commitResult, h]

theorem commitResult_range (h : s.primeInUse i = false) (hq : q < 2 ^ 31) (h0 : q ≠ 0) (hr : ¬ PrimeRange q l) :
    s.commitResult i q root l = (1, none) := by
  have hc : ¬(2 ^ 21 < q ∧ q % 2 = 1 ∧ 11 ≤ l ∧ l ≤ 18 ∧ q % 2 ^ l = 1) := fun ⟨a, b, c⟩ => hr ⟨a, hq, b, c⟩
  have hb : (!(decide (2 ^ 21 < q) && q % 2 == 1 && 11 ≤ l && l ≤ 18 && q % 2 ^ l == 1)) = true := by
    rw [Bool.not_eq_true', ← Bool.not_eq_true]
    simpa only [Bool.and_eq_true, decide_eq_true_eq, beq_iff_eq, and_assoc] using hc
  simp only [State.commitResult, h, h0, hb, if_true, if_false, Bool.false_eq_true]

/-- In range, the test decides, then the root. -/
theorem commitResult_inRange (h : s.primeInUse i = false) (hr : PrimeRange q l) : s.commitResult i q root l =
    if !millerRabin q then (2, none)
    else if !(decide (root < q) && powMod root (2 ^ (l - 1)) q == q - 1) then (3, none)
    else (0, some (primeEntryOf q root l)) := by
  obtain ⟨hlo, -, hodd, hl, hl', hm⟩ := hr
  have h0 : ¬ q = 0 := by omega
  have hb : (!(decide (2 ^ 21 < q) && q % 2 == 1 && 11 ≤ l && l ≤ 18 && q % 2 ^ l == 1)) = false := by
    simp only [hlo, hodd, hl, hl', hm, decide_true, beq_self_eq_true, Bool.and_self, Bool.not_true]
  simp only [State.commitResult, h, h0, hb, if_false, Bool.false_eq_true]

theorem millerRabin_of_range (hr : PrimeRange q l) : millerRabin q = true ↔ ProbablePrime q := by
  obtain ⟨hlo, hhi, hodd, -⟩ := hr
  exact millerRabin_iff hodd (by omega) (by omega)

theorem commitResult_composite (h : s.primeInUse i = false) (hr : PrimeRange q l) (hp : ¬ ProbablePrime q) :
    s.commitResult i q root l = (2, none) := by
  rw [← millerRabin_of_range hr, Bool.not_eq_true] at hp
  simp [commitResult_inRange h hr, hp]

theorem commitResult_root (h : s.primeInUse i = false) (hr : PrimeRange q l) (hp : ProbablePrime q)
    (hf : ¬ RootFits q root l) : s.commitResult i q root l = (3, none) := by
  rw [← millerRabin_of_range hr] at hp
  have hb : (decide (root < q) && powMod root (2 ^ (l - 1)) q == q - 1) = false := by
    rw [← Bool.not_eq_true]
    simpa only [RootFits, powMod_eq, Bool.and_eq_true, decide_eq_true_eq, beq_iff_eq] using hf
  simp [commitResult_inRange h hr, hp, hb]

theorem commitResult_ok (h : s.primeInUse i = false) (hr : PrimeRange q l) (hp : ProbablePrime q)
    (hf : RootFits q root l) : s.commitResult i q root l = (0, some (primeEntryOf q root l)) := by
  rw [← millerRabin_of_range hr] at hp
  have hb : (decide (root < q) && powMod root (2 ^ (l - 1)) q == q - 1) = true := by
    simpa only [RootFits, powMod_eq, Bool.and_eq_true, decide_eq_true_eq, beq_iff_eq] using hf
  simp [commitResult_inRange h hr, hp, hb]

end

section
variable {q root l : Nat}

/-- What a commit that passes writes (R84). -/
theorem primeEntryOf_fields (hr : PrimeRange q l) :
    (q * (primeEntryOf q root l).qneg.toNat + 1) % 2 ^ 32 = 0 ∧ (primeEntryOf q root l).rModQ.toNat = 2 ^ 32 % q ∧
    (primeEntryOf q root l).rrModQ.toNat = 2 ^ 64 % q ∧
    2 ^ (2 * (primeEntryOf q root l).log2q.toNat - 1) ≤ q ^ 512 ∧
    q ^ 512 < 2 ^ (2 * (primeEntryOf q root l).log2q.toNat + 1) := by
  obtain ⟨hlo, hhi, hodd, -⟩ := hr
  have hw : ∀ n, n % q < 2 ^ 32 := fun n => (Nat.mod_lt n (by omega)).trans (by omega)
  have hn : (BitVec.ofNat 32 (qnegOf q)).toNat = qnegOf q := Nat.mod_eq_of_lt (qnegOf_lt q)
  have hm : ∀ n, (BitVec.ofNat 32 (n % q)).toNat = n % q := fun n => Nat.mod_eq_of_lt (hw n)
  have hlog : (BitVec.ofNat 16 (log2qOf q)).toNat = log2qOf q := Nat.mod_eq_of_lt (log2qOf_lt (by omega) hhi)
  simp only [primeEntryOf, hn, hm, hlog]
  exact ⟨qnegOf_spec hodd, trivial, trivial, log2qOf_spec (by omega)⟩

end

/-- The GLOBAL block once the commit in progress is over with a RESULT and, where it changes, the entry. -/
def Global.committed (g : Global) (r : Nat × Option PrimeEntry) : Global :=
  { g with
    primeBusy := false, primeResult := BitVec.ofNat 3 r.1, primeLast := g.primeIndex
    primes := match r.2 with | some e => g.primes.set g.primeIndex.toNat e g.primeIndex.isLt | none => g.primes }

/-- What the checks of the commit in progress answer. -/
def State.commitDue (s : State) : Nat × Option PrimeEntry :=
  s.commitResult s.global.primeIndex.toNat s.global.stageQ.toNat s.global.stageRoot.toNat s.global.primeRootLog.toNat

theorem exec_primeCommitComplete {s : State} (h : s.global.primeBusy = true) :
    exec .primeCommitComplete s = .next { s with global := s.global.committed s.commitDue } :=
  guardStep_of_true h

theorem Global.committed_other (g : Global) (r : Nat × Option PrimeEntry) {j : Fin 256} (h : j.val ≠ g.primeIndex.toNat) :
    (g.committed r).primes[j] = g.primes[j] := by
  obtain ⟨n, _ | e⟩ := r
  · rfl
  · exact Vector.getElem_set_ne g.primeIndex.isLt _ (Ne.symm h)

theorem Global.committed_none (g : Global) {r : Nat × Option PrimeEntry} (h : r.2 = none) :
    (g.committed r).primes = g.primes := by
  obtain ⟨n, _ | e⟩ := r
  · rfl
  · cases h

theorem State.prime_committed (s : State) (n : Nat) (e : PrimeEntry) :
    ({ s with global := s.global.committed (n, some e) } : State).prime s.global.primeIndex.toNat = e := by
  have h : s.global.primeIndex.toNat < 256 := s.global.primeIndex.isLt
  simp [State.prime, Global.committed, h]

/-- A commit that answers a RESULT other than 0 leaves the table. -/
theorem commitResult_kept (s : State) (i q root l : Nat) :
    (s.commitResult i q root l).1 = 0 ∨ (s.commitResult i q root l).2 = none := by
  unfold State.commitResult
  (repeat' split) <;> simp

theorem completes_primeCommit {s : State} (i : BitVec 8) (l : BitVec 5) (h : s.hostOk = true) :
    (s.global.primeBusy = false → Completes (.primeCommit i l) s fun t =>
      t.global.primeIndex = i ∧ t.global.primeRootLog = l ∧ t.global.primeBusy = true ∧
      t.global.primes = s.global.primes ∧ OnlyGlobal s t) ∧
    (s.global.primeBusy = true → exec (.primeCommit i l) s = .next s) := by
  have e : exec (.primeCommit i l) s = guardStep (!s.global.primeBusy) s
      { s with global := { s.global with primeIndex := i, primeRootLog := l, primeBusy := true } } :=
    if_neg (by simp [h])
  refine ⟨fun hb => ⟨_, e.trans (guardStep_of_true (by simp [hb])), rfl, rfl, rfl, rfl, rfl⟩, fun hb => ?_⟩
  rw [e, hb]
  rfl

/-- Settles O9. -/
theorem primeCommitsComplete : Obligations.PrimeCommitsComplete := by
  unfold Obligations.PrimeCommitsComplete
  refine ⟨fun s i l h => completes_primeCommit i l h, fun s hb => ?_⟩
  intro q root l i inRange passes probable rootOk
  have hlt : q < 2 ^ 31 := s.global.stageQ.isLt
  refine ⟨fun hp hr => probablePrime_of_prime hp (by have := hr.1; omega), _, exec_primeCommitComplete hb, rfl, rfl,
    fun j hj => Global.committed_other _ _ hj, fun hr => ?_, fun hu => ?_, fun hu h0 => ?_, fun hu h0 hr => ?_,
    fun hu hr hp => ?_, fun hu hr hp hf => ?_, fun hu hr hp hf => ?_, rfl⟩
  · obtain h0 | h0 := commitResult_kept s i q root l
    · exact absurd (congrArg (BitVec.ofNat 3) h0) hr
    · exact Global.committed_none _ h0
  · rw [show s.commitDue = _ from commitResult_inUse hu]
    rfl
  · rw [show s.commitDue = (0, some {}) from (congrArg (s.commitResult i · root l) h0).trans (commitResult_empty hu)]
    exact ⟨rfl, s.prime_committed 0 {}⟩
  · rw [show s.commitDue = _ from commitResult_range hu hlt h0 hr]
    rfl
  · rw [show s.commitDue = _ from commitResult_composite hu hr hp]
    rfl
  · rw [show s.commitDue = _ from commitResult_root hu hr hp hf]
    rfl
  · rw [show s.commitDue = _ from commitResult_ok hu hr hp hf, s.prime_committed]
    exact ⟨rfl, rfl, BitVec.ofNat_toNat .., BitVec.ofNat_toNat .., BitVec.ofNat_toNat .., primeEntryOf_fields hr⟩

end Sys2Proof.Machine
end

section

/-!
SUPPORT. What the words that move a frame's sequencer leave (R233 to R236), and the end of an expired wait (R239): the
settlement of O13.
-/

namespace Sys2Proof.Machine

open Sys2Proof

/-- Memories that are as they were read as they did. -/
theorem sameMemory_of_bytes {s t : State} (h : t.bytes = s.bytes) : SameMemory s t := by
  obtain ⟨hm, hv⟩ := Prod.mk.inj h
  exact ⟨fun a => by rw [hm], fun a => by rw [hv]⟩

/-! A word that reads scalars. -/

@[simp] theorem State.fault_frame (s : State) (id : Nat) (c : Code) (k : Nat) (f : FrameNo) :
    (s.fault id c k).frame f = s.frame f := rfl

@[simp] theorem State.updRun_frame (s : State) (id : Nat) (g : Run → Run) (f : FrameNo) :
    (s.updRun id g).frame f = s.frame f := rfl

@[simp] theorem State.consume_frame (s : State) (r : Nat) (f : FrameNo) (ms : List Mark) (g : FrameNo) :
    (s.consume r f ms).frame g = s.frame g := by
  unfold State.consume
  split <;> rfl

/-- A scalar that is read keeps its value; only the launch that its mark names is another. -/
def Frame.readX (r : Nat) (fr : Frame) (i : Nat) : Frame :=
  match (fr.x i).poison with
  | some m => fr.setX i { fr.x i with poison := some { m with run := r } }
  | none => fr

/-- A scalar written with the value it has keeps every value. -/
theorem Frame.setX_value (fr : Frame) (j : Nat) (p : Option Mark) (i : Fin 32) :
    (fr.setX j { fr.x j with poison := p }).scalars[i].value = fr.scalars[i].value := by
  unfold Frame.setX
  split
  next hj =>
    split
    · rfl
    next h0 =>
      by_cases hij : i = ⟨j, hj⟩
      · subst hij
        simp [Frame.x, hj, h0]
      · have hne : j ≠ i.val := fun e => hij (Fin.ext e.symm)
        simp [Vector.getElem_set_ne _ _ hne]
  · rfl

/-- Reading scalars changes no value, and nothing of the frame but the scalars. -/
theorem Frame.foldl_readX (r : Nat) (xs : List Nat) (fr : Frame) :
    xs.foldl (Frame.readX r) fr = { fr with scalars := (xs.foldl (Frame.readX r) fr).scalars } ∧
      ∀ i : Fin 32, (xs.foldl (Frame.readX r) fr).scalars[i].value = fr.scalars[i].value := by
  induction xs generalizing fr with
  | nil => exact ⟨rfl, fun _ => rfl⟩
  | cons x xs ih =>
    obtain ⟨hp, hv⟩ := ih (fr.readX r x)
    have step : fr.readX r x = { fr with scalars := (fr.readX r x).scalars } ∧
        ∀ i : Fin 32, (fr.readX r x).scalars[i].value = fr.scalars[i].value := by
      unfold Frame.readX
      split
      · exact ⟨Frame.setX_parts .., Frame.setX_value _ _ _⟩
      · exact ⟨rfl, fun _ => rfl⟩
    obtain ⟨sp, sv⟩ := step
    rw [List.foldl_cons]
    refine ⟨?_, fun i => (hv i).trans (sv i)⟩
    generalize (xs.foldl (Frame.readX r) (fr.readX r x)) = gr at hp ⊢
    rw [hp, sp]

theorem State.useX_eq (s : State) (f : FrameNo) (r : Nat) (xs : List Nat) :
    s.useX f r xs = (s.consume r f ((s.frame f).xMarks xs)).updFrame f fun fr => xs.foldl (Frame.readX r) fr := rfl

/-- A word that reads scalars and then moves its frame's sequencer as `g` says. -/
def State.readMove (s : State) (f : FrameNo) (r : Nat) (xs : List Nat) (g : Frame) : State :=
  (s.useX f r xs).updFrame f fun fr => { g with scalars := fr.scalars }

section
variable (s : State) (f : FrameNo) (r : Nat) (xs : List Nat) (g : Frame)

theorem State.readMove_frame : ∃ v, (s.readMove f r xs g).frame f = { g with scalars := v } ∧
    ∀ i : Fin 32, v[i].value = (s.frame f).scalars[i].value := by
  refine ⟨_, State.updFrame_same _ f _, ?_⟩
  rw [State.useX_eq, State.updFrame_same, State.consume_frame]
  exact (Frame.foldl_readX r xs (s.frame f)).2

theorem State.readMove_others : SameOthers f s (s.readMove f r xs g) := by
  intro k hk
  rw [State.readMove, State.updFrame_other _ _ _ _ hk, State.useX_eq, State.updFrame_other _ _ _ _ hk, State.consume_frame]

theorem State.readMove_memory : SameMemory s (s.readMove f r xs g) :=
  sameMemory_of_bytes (by simp [State.readMove])
end

theorem State.readMove_rn (s : State) (f : FrameNo) (r : Nat) (xs : List Nat) (g : Frame) :
    ((s.readMove f r xs g).frame f).rn = g.rn := by
  obtain ⟨v, hf, -⟩ := s.readMove_frame f r xs g
  rw [hf]

/-- What moving its sequencer leaves of a frame. -/
def Frame.OnlyMoves (fr g : Frame) : Prop :=
  g.flags = fr.flags ∧ g.regions = fr.regions ∧ g.rn.dtab = fr.rn.dtab ∧ g.rn.ops = fr.rn.ops

theorem Frame.onlyMoves_goTo (fr : Frame) (ctx : List Ctx) (pc len : Nat) (flt : Bool) (count : Nat) :
    fr.OnlyMoves (fr.goTo ctx pc len flt count) := ⟨rfl, rfl, rfl, rfl⟩

/-- A word that reads scalars and moves the sequencer leaves registers, memory, other frames and operations. -/
theorem State.readMove_keeps (s : State) (f : FrameNo) (r : Nat) (xs : List Nat) {g : Frame}
    (h : (s.frame f).OnlyMoves g) :
    let t := s.readMove f r xs g
    SameRegisters f s t ∧ SameMemory s t ∧ SameOthers f s t ∧ (t.frame f).rn.ops = (s.frame f).rn.ops := by
  obtain ⟨hfl, hrg, hdt, hop⟩ := h
  obtain ⟨v, hf, hv⟩ := s.readMove_frame f r xs g
  refine ⟨⟨fun i => ?_, ?_, ?_, ?_⟩, s.readMove_memory .., s.readMove_others f r xs g, ?_⟩ <;> rw [hf]
  · exact hv i
  all_goals assumption

/-! The stream's next word. -/

/-- Within an arm whose end is not reached, the stream goes on where it is. -/
theorem normalize_arm {c : ArmCtx} {pc : Nat} (h : pc ≠ c.endPc) (rest : List Ctx) :
    normalize (.arm c :: rest) pc = (.arm c :: rest, pc, false) := if_neg h

/-- Within a body whose end is not reached, the stream goes on where it is. -/
theorem normalize_loop {c : LoopCtx} {pc : Nat} (h : pc ≠ c.bodyPc + c.bodyW) (rest : List Ctx) :
    normalize (.loop c :: rest) pc = (.loop c :: rest, pc, false) := if_neg h

theorem exec_br {s : State} {f : FrameNo} {i : Iss} (h : s.iss? f .br = some i) :
    exec (.br f) s = .next (s.readMove f i.r.id (brReads i.w)
      ((s.frame f).branch (i.p.waitsOf f) i.w s.tally.count.toNat)) := by
  show execBr f s = _
  simp [execBr, h, State.readMove]

theorem exec_loop {s : State} {f : FrameNo} {i : Iss} (h : s.iss? f .loop = some i) :
    exec (.loop f) s = .next (s.readMove f i.r.id (if flag1 i.w 76 then [] else [fld i.w 77 5])
      ((s.frame f).enterLoop (i.p.waitsOf f) i.w s.tally.count.toNat)) := by
  show execLoop f s = _
  simp [execLoop, h, State.readMove]

theorem Frame.onlyMoves_branch (fr : Frame) (ws : List Nat) (w : BcWord) (count : Nat) :
    fr.OnlyMoves (fr.branch ws w count) := by
  unfold Frame.branch
  extract_lets
  split <;> exact Frame.onlyMoves_goTo ..

theorem Frame.onlyMoves_enterLoop (fr : Frame) (ws : List Nat) (w : BcWord) (count : Nat) :
    fr.OnlyMoves (fr.enterLoop ws w count) := by
  unfold Frame.enterLoop
  extract_lets
  split <;> exact Frame.onlyMoves_goTo ..

/-- R233, R234: a chosen arm that has words is entered two beats later; an empty one is passed. -/
theorem Frame.branch_goes (fr : Frame) (ws : List Nat) (w : BcWord) (count : Nat) :
    let g := (fr.branch ws w count).rn
    let pc := fr.rn.word + 1
    let w0 := fld w 91 11
    let w1 := fld w 102 11
    let start := if brCond fr w then pc + w0 else pc
    let n := if brCond fr w then w1 else w0
    (n ≠ 0 → g.word = start ∧ g.nextBeat = count + 2 ∧
      ∃ c : ArmCtx, g.ctx = .arm c :: fr.rn.ctx ∧ c.endPc = start + n ∧ c.joinPc = pc + w0 + w1) ∧
    (n = 0 → g.word = (normalize fr.rn.ctx (pc + w0 + w1)).2.1 ∧ g.nextBeat = count + 2 + fld w 113 15) := by
  intro g pc w0 w1 start n
  have hg : g = (if n = 0 then fr.goTo fr.rn.ctx (pc + w0 + w1) (2 + fld w 113 15) (floatsIn ws pc (w0 + w1)) count
    else fr.goTo (.arm { endPc := start + n, joinPc := pc + w0 + w1, floats := floatsIn ws pc (w0 + w1) } :: fr.rn.ctx)
      start 2 (floatsIn ws start n) count).rn := rfl
  refine ⟨fun hn => ?_, fun hn => ?_⟩
  · have hne : start ≠ start + n := Nat.ne_of_lt (Nat.lt_add_of_pos_right (Nat.pos_of_ne_zero hn))
    rw [hg, if_neg hn, Frame.goTo, normalize_arm hne]
    exact ⟨rfl, rfl, _, rfl, rfl, rfl⟩
  · rw [hg, if_pos hn]
    exact ⟨rfl, (Nat.add_assoc ..).symm⟩

/-- R235, R236: a loop with a count and a body is entered one beat later; one without is passed. -/
theorem Frame.enterLoop_goes (fr : Frame) (ws : List Nat) (w : BcWord) (count : Nat) :
    let g := (fr.enterLoop ws w count).rn
    let pc := fr.rn.word + 1
    let n := fld w 97 11
    let c := fr.loopCount w
    g.nextBeat = count + 1 ∧
    (c ≠ 0 → n ≠ 0 → g.word = pc ∧ g.ctx = .loop { bodyPc := pc, bodyW := n, left := c - 1, index := 0 } :: fr.rn.ctx) ∧
    (c = 0 ∨ n = 0 → g.word = (normalize fr.rn.ctx (pc + n)).2.1) := by
  intro g pc n c
  have hg : g = (if c = 0 ∨ n = 0 then fr.goTo fr.rn.ctx (pc + n) 1 (floats w) count
    else fr.goTo (.loop { bodyPc := pc, bodyW := n, left := c - 1, index := 0 } :: fr.rn.ctx) pc 1
      (floats w || floatsIn ws pc n) count).rn := rfl
  by_cases hc : c = 0 ∨ n = 0
  · rw [hg, if_pos hc]
    exact ⟨rfl, fun h0 hn => (hc.elim h0 hn).elim, fun _ => rfl⟩
  · have hn : n ≠ 0 := fun e => hc (.inr e)
    have hne : pc ≠ pc + n := Nat.ne_of_lt (Nat.lt_add_of_pos_right (Nat.pos_of_ne_zero hn))
    rw [hg, if_neg hc, Frame.goTo, normalize_loop hne]
    exact ⟨rfl, fun _ _ => ⟨rfl, rfl⟩, fun h => absurd h hc⟩

/-! An expired wait. -/

/-- Of causes there is one to take. -/
theorem pickAbort_isSome {l : List (Nat × Code)} (h : l ≠ []) : ∃ a, pickAbort l = some a := by
  cases l with
  | nil => exact absurd rfl h
  | cons a as =>
    unfold pickAbort
    split <;> exact ⟨_, rfl⟩

/-- A run that is asked to abort, and neither aborted nor ended, is aborted where aborts are taken. -/
theorem Run.takeAbort_aborts {r : Run} (ha : r.aborted = none) (he : r.endBeat = none) (h : r.aborts ≠ []) (count : Nat) :
    (r.takeAbort count).aborted ≠ none := by
  obtain ⟨⟨k, c⟩, hp⟩ := pickAbort_isSome h
  simp [Run.takeAbort, ha, he, hp]

/-- One expired frame after another asks run `id` to abort. -/
def State.askExpired (id : Nat) (p : FrameNo → Bool) (l : List FrameNo) (s : State) : State :=
  l.foldl (fun s g => if p g then s.askAbort id g.val Codes.waitExpired else s) s

section
variable (id : Nat) (p : FrameNo → Bool) (l : List FrameNo)

theorem State.askExpired_bytes (s : State) : (s.askExpired id p l).bytes = s.bytes :=
  State.bytes_foldl _ _ _ fun t g => by
    split
    · exact bytes_askAbort ..
    · rfl

variable {id p l}

/-- Every run stands after the requests, with the causes it had and more. -/
theorem State.askExpired_runs {s : State} {r : Run} (hr : r ∈ s.runs) :
    ∃ q ∈ (s.askExpired id p l).runs, Run.AskedFrom r q :=
  State.foldl_induct (fun t => ∃ q ∈ t.runs, Run.AskedFrom r q) l _ (fun t g ⟨q, hq, h⟩ => by
    split
    · exact ⟨_, List.mem_map_of_mem hq, h.trans (Run.asked_askedFrom ..)⟩
    · exact ⟨q, hq, h⟩) s ⟨r, hr, r.askedFrom_refl⟩

/-- The run asked for a frame of the list has that frame's cause. -/
theorem State.askExpired_asks {s : State} {r : Run} {f : FrameNo} (hr : r ∈ s.runs) (ha : r.aborted = none)
    (he : r.endBeat = none) (hf : f ∈ l) (hp : p f = true) :
    ∃ q ∈ (s.askExpired r.id p l).runs, Run.AskedFrom r q ∧ (f.val, Codes.waitExpired) ∈ q.aborts := by
  obtain ⟨l₁, l₂, rfl⟩ := List.append_of_mem hf
  obtain ⟨q, hq, hid, hg, hqa, hqe, hqc⟩ := State.askExpired_runs (id := r.id) (p := p) (l := l₁) hr
  have hlive : q.aborted = none ∧ q.endBeat = none := ⟨hqa.trans ha, hqe.trans he⟩
  have hasked : q.asked r.id f.val Codes.waitExpired ∈ ((s.askExpired r.id p l₁).askAbort r.id f.val Codes.waitExpired).runs :=
    List.mem_map_of_mem hq
  obtain ⟨u, hu, hua⟩ := State.askExpired_runs (id := r.id) (p := p) (l := l₂) hasked
  refine ⟨u, ?_, (Run.AskedFrom.trans ⟨hid, hg, hqa, hqe, hqc⟩ (Run.asked_askedFrom ..)).trans hua, ?_⟩
  · simpa [State.askExpired, hp] using hu
  · obtain ⟨-, -, -, -, hkeep⟩ := hua
    exact hkeep _ (hid ▸ Run.asked_mem hlive.1 hlive.2)
end

/-- The frame waits for run `id` and its wait has expired. -/
def State.waitOver (s : State) (id : Nat) (g : FrameNo) : Bool :=
  (s.frame g).rn.run == id && (match (s.frame g).rn.wait with | some x => x.expired | none => false)

/-- The wait of an expired frame is at its end. -/
def State.endWaits (s : State) (p : FrameNo → Bool) : State :=
  s.mapFrames fun g fr => if p g then { fr with rn := { fr.rn with wait := none } } else fr

/-- A run's frames ask for its abort where their waits have expired, and these waits are at their end. -/
def State.waitsOver (s : State) (r : Run) : State :=
  (s.askExpired r.id (s.waitOver r.id) (framesOf r.frames)).endWaits (s.waitOver r.id)

/-- A frame that does not wait does not wait after an abort is taken. -/
theorem State.wait_quietAborted {t : State} {f : FrameNo} (h : (t.frame f).rn.wait = none) :
    (t.quietAborted.leaveOnAbort.frame f).rn.wait = none := by
  obtain ⟨-, -, -, -, -, -, hw⟩ := (t.carried_quietAborted.trans (State.carried_leaveOnAbort _)).frame f
  obtain hw | ⟨hw, -⟩ := hw
  · exact hw.trans h
  · exact hw

theorem exec_waitExpired {s : State} {f : FrameNo} {wt : Wait} {r : Run} (hw : (s.frame f).rn.wait = some wt)
    (hx : wt.expired = true) (hr : s.runOf f = some r) : exec (.waitExpired f) s =
    .next (((s.waitsOver r).updRun r.id fun q => q.takeAbort (s.waitsOver r).tally.count.toNat).quietAborted.leaveOnAbort) := by
  show execWaitExpired f s = _
  simp only [execWaitExpired, hw, hr, hx, if_true]
  rfl

/-- R239: the end of an expired wait as its statement says it. -/
theorem waitExpired_aborts {s : State} {f : FrameNo} {wt : Wait} {r : Run} (hw : (s.frame f).rn.wait = some wt)
    (hx : wt.expired = true) (hr : s.runOf f = some r) (hf : hasFrame r.frames f = true) (ha : r.aborted = none)
    (he : r.endBeat = none) : Completes (.waitExpired f) s fun t =>
      (t.frame f).rn.wait = none ∧ (∃ q ∈ t.runs, q.id = r.id ∧ q.aborted ≠ none) ∧ SameMemory s t := by
  have hfind : s.runs.find? (fun q => q.id == (s.frame f).rn.run) = some r := hr
  have hid : (s.frame f).rn.run = r.id := by
    have hb := List.find?_some hfind
    exact (eq_of_beq hb).symm
  have hover : s.waitOver r.id f = true := by simp [State.waitOver, hid, hw, hx]
  refine ⟨_, exec_waitExpired hw hx hr, ?_, ?_, ?_⟩
  · apply State.wait_quietAborted
    rw [State.updRun_frame, State.waitsOver, State.endWaits, State.mapFrames_frame, if_pos hover]
  · obtain ⟨q, hq, ⟨hqi, -, hqa, hqe, -⟩, hqc⟩ := State.askExpired_asks (List.mem_of_find?_eq_some hfind) ha he
      (mem_framesOf.2 hf) hover
    have hq' : q ∈ (s.waitsOver r).runs := by
      rw [State.waitsOver, State.endWaits, State.mapFrames_runs]
      exact hq
    refine ⟨q.takeAbort (s.waitsOver r).tally.count.toNat, ?_, (Run.takeAbort_keeps ..).1.trans hqi,
      Run.takeAbort_aborts (hqa.trans ha) (hqe.trans he) (List.ne_nil_of_mem hqc) _⟩
    rw [State.leaveOnAbort_runs, State.quietAborted, State.mapFrames_runs]
    exact List.mem_map.2 ⟨q, hq', if_pos (by simp [hqi])⟩
  · exact sameMemory_of_bytes (by simp [State.waitsOver, State.endWaits, State.askExpired_bytes])

/-- Settles O13: the branch and the loop read scalars and move their frame's sequencer; the expired wait asks for the
abort that is then taken. -/
theorem controlWordsComplete : Obligations.ControlWordsComplete := by
  refine ⟨fun s f i h => ⟨_, exec_br h, ?_⟩, fun s f i h => ⟨_, exec_loop h, ?_⟩, fun _ _ _ _ => waitExpired_aborts⟩
  · obtain ⟨hreg, hmem, hoth, hops⟩ := s.readMove_keeps f i.r.id (brReads i.w) (Frame.onlyMoves_branch ..)
    refine ⟨hreg, hmem, hoth, hops, ?_⟩
    rw [State.readMove_rn]
    exact Frame.branch_goes ..
  · obtain ⟨hreg, hmem, hoth, hops⟩ := s.readMove_keeps f i.r.id _ (Frame.onlyMoves_enterLoop ..)
    refine ⟨hreg, hmem, hoth, hops, ?_⟩
    rw [State.readMove_rn]
    exact Frame.enterLoop_goes ..

end Sys2Proof.Machine
end

section

/-!
SUPPORT. What LDROP makes of its destination's descriptor (R99, R102, R232): the settlement of O14.
-/

namespace Sys2Proof.Machine

open Sys2Proof

/-! A word that leaves changes for the next launch and moves on. -/

/-- Reading poison changes neither the frames, the beat nor a byte. -/
def State.Reads (s u : State) : Prop := (∀ g, u.frame g = s.frame g) ∧ u.tally = s.tally ∧ u.bytes = s.bytes

theorem State.Reads.refl (s : State) : s.Reads s := ⟨fun _ => rfl, rfl, rfl⟩

theorem State.reads_fault (s : State) (id : Nat) (c : Code) (k : Nat) : s.Reads (s.fault id c k) :=
  ⟨fun _ => rfl, rfl, bytes_fault ..⟩

theorem State.reads_consume (s : State) (r : Nat) (f : FrameNo) (ms : List Mark) : s.Reads (s.consume r f ms) := by
  unfold State.consume
  split
  · exact s.reads_fault ..
  · exact .refl s

/-- What a word that starts no operation and leaves changes for the next launch does. -/
theorem State.Reads.pend_next {s u : State} (h : s.Reads u) (f : FrameNo) (ps : List Pend) (w : BcWord) :
    let t := (u.pend f ps).next f w
    MovesOn s t f w ∧ SameRegisters f s t ∧ SameMemory s t ∧ SameOthers f s t ∧
      (t.frame f).rn.pend = (s.frame f).rn.pend ++ ps := by
  obtain ⟨hf, ht, hb⟩ := h
  refine ⟨?_, ?_, sameMemory_of_bytes (by simp [hb]), fun g hg => ?_, ?_⟩
  · simp [MovesOn, State.next, State.pend, Frame.goTo, hf, ht]
  · simp [SameRegisters, State.next, State.pend, Frame.goTo, hf]
  · rw [State.next, State.updFrame_other _ _ _ _ hg, State.pend, State.updFrame_other _ _ _ _ hg, hf]
  · simp [State.next, State.pend, Frame.goTo, hf]

/-! The descriptor that LDROP leaves. -/

/-- The fields that a destination takes from LDROP's source, at the target LEVEL. -/
def Desc.lowered (d a : Desc) (target : Nat) : Desc := { deriveFrom d a with level := target }


section
variable {s : State} {p : Program} {bound target : Nat} {d a : Desc}

theorem State.ldropDesc_tagBad (h : tagBad [a] bound = true) :
    s.ldropDesc p bound d a target = (d.lowered a target, some Codes.keyTagMismatch) := by
  simp [State.ldropDesc, State.checkAll, firstBad, h, Desc.lowered]

theorem State.ldropDesc_exhausted (h : tagBad [a] bound = false) (hl : a.level < target) :
    s.ldropDesc p bound d a target = (d.lowered a target, some Codes.levelExhausted) := by
  simp [State.ldropDesc, State.checkAll, firstBad, h, hl, Desc.lowered]

theorem State.ldropDesc_closes (h : tagBad [a] bound = false) (hl : target ≤ a.level) :
    s.ldropDesc p bound d a target = s.closeDesc p (d.lowered a target) (d.lowered a target).scale [a] none := by
  simp [State.ldropDesc, State.checkAll, firstBad, h, Nat.not_lt.mpr hl, Desc.lowered, deriveFrom]

/-- R102: a SCALE in its range at a descriptor's LEVEL. -/
theorem State.scaleBad_false {e : Desc} {v : Nat} : s.scaleBad e v = false ↔
    (v : Int) ≤ 1048575 ∧ (v : Int) ≤ (s.log2Sum (s.pset e.pset) e.level : Int) - 256 := by
  have hnn : ¬ (v : Int) < 0 := by omega
  simp [State.scaleBad, hnn]

/-- A descriptor that carries no SCALE, or one in its range that it has, is left as it is where no NOISE is derived. -/
theorem State.closeDesc_fits {e : Desc} {srcs : List Desc} (h : e.scaled = false ∨ s.scaleBad e e.scale = false) :
    s.closeDesc p e e.scale srcs none = (e, none) := by
  cases hs : e.scaled with
  | false => simp [State.closeDesc, hs]
  | true =>
    have hb : s.scaleBad e e.scale = false := h.resolve_left (by simp [hs])
    obtain ⟨hle, -⟩ := State.scaleBad_false.mp hb
    have h0 : ¬ (e.scale : Int) < 0 := by omega
    simp [State.closeDesc, hs, hb, h0, Int.not_lt.mpr hle]

/-- One out of its range is answered with SCALE_RANGE, at the LEVEL it has. -/
theorem State.closeDesc_unfit {e : Desc} {srcs : List Desc} {cls : Option Nat} (hs : e.scaled = true)
    (h : s.scaleBad e e.scale = true) :
    ∃ k, s.closeDesc p e e.scale srcs cls = ({ e with scale := k }, some Codes.scaleRange) :=
  ⟨_, by simp only [State.closeDesc, hs, h, Bool.false_or, Bool.and_self, if_true]; rfl⟩
end

section
variable {s : State} {p : Program} {bound target : Nat} {d a : Desc}

/-- R102: the source's SCALE is in its range at the target LEVEL. -/
def State.LowersInRange (s : State) (d a : Desc) (target : Nat) : Prop :=
  (a.scale : Int) ≤ 1048575 ∧ (a.scale : Int) ≤ (s.log2Sum (s.pset d.pset) target : Int) - 256

theorem scaleBad_lowered : s.scaleBad (d.lowered a target) (d.lowered a target).scale = false ↔ s.LowersInRange d a target :=
  State.scaleBad_false

theorem State.ldropDesc_fits (h : tagBad [a] bound = false) (hl : target ≤ a.level)
    (hfit : d.scaled = false ∨ s.LowersInRange d a target) :
    s.ldropDesc p bound d a target = (d.lowered a target, none) :=
  (State.ldropDesc_closes h hl).trans (State.closeDesc_fits (hfit.imp id scaleBad_lowered.mpr))

theorem State.ldropDesc_unfit (h : tagBad [a] bound = false) (hl : target ≤ a.level) (hs : d.scaled = true)
    (hfit : ¬ s.LowersInRange d a target) :
    ∃ k, s.ldropDesc p bound d a target = ({ d.lowered a target with scale := k }, some Codes.scaleRange) := by
  obtain ⟨k, hk⟩ := State.closeDesc_unfit (p := p) (srcs := [a]) (cls := none) (e := d.lowered a target) hs
    (eq_true_of_ne_false fun e => hfit (scaleBad_lowered.mp e))
  exact ⟨k, (State.ldropDesc_closes h hl).trans hk⟩
end

/-! Its issue. -/

section
variable {s : State} {f : FrameNo} {i : Iss}

/-- LDROP's source and destination as they stand. -/
def State.ldropSrc (s : State) (f : FrameNo) (i : Iss) : Desc := slot (s.frame f).rn.dtab (wA i.w)
def State.ldropDst (s : State) (f : FrameNo) (i : Iss) : Desc := slot (s.frame f).rn.dtab (wD i.w)

theorem exec_ldrop_poisoned {m : Mark} (h : s.iss? f .ldrop = some i) (ha : (s.ldropSrc f i).mark = some m) :
    exec (.ldrop f) s = .next (((s.consume i.r.id f [m]).pend f [.descPoison (wD i.w) (markFrom [m] i.r.id)]).next f i.w) := by
  show execLdrop f s = _
  rw [State.ldropSrc] at ha
  rw [execLdrop, issueStep_some _ h]
  simp only [ha]

theorem exec_ldrop_passes {e : Desc} (h : s.iss? f .ldrop = some i) (ha : (s.ldropSrc f i).mark = none)
    (he : s.ldropDesc i.p i.r.keyTag (s.ldropDst f i) (s.ldropSrc f i) (fld i.w 76 7) = (e, none)) :
    exec (.ldrop f) s = .next ((s.pend f [.desc (wD i.w) { e with mark := none }]).next f i.w) := by
  show execLdrop f s = _
  rw [State.ldropSrc] at ha
  rw [State.ldropSrc, State.ldropDst] at he
  rw [execLdrop, issueStep_some _ h]
  simp only [ha, he]

theorem exec_ldrop_fails {e : Desc} {c : Code} (h : s.iss? f .ldrop = some i) (ha : (s.ldropSrc f i).mark = none)
    (he : s.ldropDesc i.p i.r.keyTag (s.ldropDst f i) (s.ldropSrc f i) (fld i.w 76 7) = (e, some c)) :
    exec (.ldrop f) s = .next (((s.fault i.r.id c f.val).pend f [.desc (wD i.w)
      (if c = Codes.scaleRange then { e with mark := some { cause := c, run := i.r.id } }
        else failDesc c (s.ldropDst f i) (s.ldropSrc f i) i.r.id)]).next f i.w) := by
  show execLdrop f s = _
  rw [State.ldropSrc] at ha
  rw [State.ldropSrc, State.ldropDst] at he
  rw [execLdrop, issueStep_some _ h]
  simp only [ha, he]
  rfl

end

/-- Settles O14: the cases of the source's poison, of the two checks and of the derived SCALE. -/
theorem ldropLowersTheLevel : Obligations.LdropLowersTheLevel := by
  intro s f i h
  generalize hd : slot (s.frame f).rn.dtab (wD i.w) = d
  generalize ha : slot (s.frame f).rn.dtab (wA i.w) = a
  have hd' : s.ldropDst f i = d := hd
  have ha' : s.ldropSrc f i = a := ha
  cases hm : a.mark with
  | some m =>
    have hne : a.mark ≠ none := by simp [hm]
    obtain ⟨hmv, hreg, hmem, hoth, hp⟩ := (s.reads_consume i.r.id f [m]).pend_next f _ i.w
    exact ⟨_, exec_ldrop_poisoned h (by rw [ha', hm]), hmv, hreg, hmem, hoth, fun _ _ => ⟨_, hp⟩,
      fun e => absurd e hne, fun e => absurd e hne, fun e => absurd e hne⟩
  | none =>
    have hnm (m : Mark) : a.mark ≠ some m := by simp [hm]
    have fails {e : Desc} {c : Code} (he : s.ldropDesc i.p i.r.keyTag d a (fld i.w 76 7) = (e, some c)) :=
      exec_ldrop_fails h (by rw [ha', hm]) (by rw [ha', hd', he])
    have leaves (c : Code) (p : Pend) := (s.reads_fault i.r.id c f.val).pend_next f [p] i.w
    cases ht : tagBad [a] i.r.keyTag with
    | true =>
      have hnt : tagBad [a] i.r.keyTag ≠ false := by simp [ht]
      obtain ⟨hmv, hreg, hmem, hoth, hp⟩ := leaves Codes.keyTagMismatch _
      exact ⟨_, fails (State.ldropDesc_tagBad ht), hmv, hreg, hmem, hoth, fun m e => absurd e (hnm m),
        fun _ _ => hd' ▸ hp, fun _ e => absurd e hnt, fun _ e => absurd e hnt⟩
    | false =>
      have hnt : tagBad [a] i.r.keyTag ≠ true := by simp [ht]
      obtain hl | hl := Nat.lt_or_ge a.level (fld i.w 76 7)
      · obtain ⟨hmv, hreg, hmem, hoth, hp⟩ := leaves Codes.levelExhausted _
        exact ⟨_, fails (State.ldropDesc_exhausted ht hl), hmv, hreg, hmem, hoth, fun m e => absurd e (hnm m),
          fun _ e => absurd e hnt, fun _ _ _ => ha' ▸ hd' ▸ hp, fun _ _ e => absurd e (Nat.not_le.mpr hl)⟩
      · have hnl : ¬ a.level < fld i.w 76 7 := Nat.not_lt.mpr hl
        by_cases hfit : d.scaled = false ∨ s.LowersInRange d a (fld i.w 76 7)
        · obtain ⟨hmv, hreg, hmem, hoth, hp⟩ := (State.Reads.refl s).pend_next f
            [.desc (wD i.w) { d.lowered a (fld i.w 76 7) with mark := none }] i.w
          refine ⟨_, exec_ldrop_passes h (by rw [ha', hm]) (by rw [ha', hd', State.ldropDesc_fits ht hl hfit]), hmv, hreg,
            hmem, hoth, fun m e => absurd e (hnm m), fun _ e => absurd e hnt, fun _ _ e => absurd e hnl,
            fun _ _ _ => ⟨fun _ => hp, fun hs hbad => ?_⟩⟩
          obtain ⟨hle, htop⟩ := hfit.resolve_left (by simp [hs])
          omega
        · obtain ⟨hs, hunfit⟩ := not_or.mp hfit
          obtain ⟨k, hk⟩ := State.ldropDesc_unfit (p := i.p) ht hl (eq_true_of_ne_false hs) hunfit
          obtain ⟨hmv, hreg, hmem, hoth, hp⟩ := leaves Codes.scaleRange _
          exact ⟨_, fails hk, hmv, hreg, hmem, hoth, fun m e => absurd e (hnm m), fun _ e => absurd e hnt,
            fun _ _ e => absurd e hnl, fun _ _ _ => ⟨fun hgood => absurd hgood hfit, fun _ _ => ⟨_, rfl, rfl, hp⟩⟩⟩

end Sys2Proof.Machine
end

section

/-!
SUPPORT. The fetch of words into a frame's window (R251) and the end of an operation on an engine (R123, R299, R300): the
settlement of O20.
-/

namespace Sys2Proof.Machine

open Sys2Proof

/-! What the write of a line leaves of the frames: their counts of check failures. -/

/-- The counts of check failures of the frames. -/
def State.checks (s : State) : Vector (BitVec 4) 64 := s.frames.map fun fr => fr.reg.checkFails

theorem State.checks_frame {s t : State} (h : t.checks = s.checks) (f : FrameNo) :
    (t.frame f).reg.checkFails = (s.frame f).reg.checkFails := by
  have e := congrArg (fun v => v[f]) h
  simpa [State.checks, State.frame] using e

theorem State.checks_congr {s t : State} (h : t.frames = s.frames) : t.checks = s.checks := by
  rw [State.checks, State.checks, h]

theorem State.checks_updFrame (s : State) (f : FrameNo) (g : Frame → Frame)
    (h : ∀ fr, (g fr).reg.checkFails = fr.reg.checkFails) : (s.updFrame f g).checks = s.checks :=
  Vector.map_set_eq_map _ _ _ _ (h _)

theorem State.checks_foldl {α : Type} (l : List α) (g : State → α → State) (hg : ∀ t x, (g t x).checks = t.checks) (s : State) :
    (l.foldl g s).checks = s.checks :=
  State.foldl_induct (fun t => t.checks = s.checks) l g (fun t x h => (hg t x).trans h) s rfl

theorem State.checks_foldl_fst {α β : Type} (l : List α) (g : State × β → α → State × β)
    (hg : ∀ r x, (g r x).1.checks = r.1.checks) (r : State × β) : (l.foldl g r).1.checks = r.1.checks := by
  induction l generalizing r with
  | nil => rfl
  | cons x l ih => exact (ih _).trans (hg r x)

section
variable (s : State)

@[simp] theorem checks_log (c : Code) (x : LogSrc) (a : LogArgs) : (s.log c x a).checks = s.checks :=
  State.checks_congr (s.log_frames c x a)

@[simp] theorem checks_updLayer (i : Fin 64) (g : Layer → Layer) : (s.updLayer i g).checks = s.checks :=
  State.checks_congr (s.updLayer_frames i g)

@[simp] theorem checks_updSet (i : Nat) (g : RSet → RSet) : (s.updSet i g).checks = s.checks :=
  State.checks_congr (s.updSet_frames i g)

@[simp] theorem checks_lineWrite (c : Fin 4) (a n : Nat) (r : Bool) : (s.lineWrite c a n r).checks = s.checks :=
  State.checks_congr (s.lineWrite_frames c a n r)

@[simp] theorem checks_lineRead (c : Fin 4) (a n : Nat) : (s.lineRead c a n).checks = s.checks :=
  State.checks_congr (s.lineRead_frames c a n)

@[simp] theorem checks_sendRole (r : Nat) (k : Packet) : (s.sendRole r k).checks = s.checks := by
  obtain ⟨_, _, e⟩ := s.sendRole_parts r k
  rw [e]
  rfl

@[simp] theorem checks_pumpAll : s.pumpAll.checks = s.checks := by
  obtain ⟨_, _, e⟩ := s.pumpAll_parts
  rw [e]
  rfl

@[simp] theorem checks_event (id : Nat) (c : Code) (k : Nat) : (s.event id c k).checks = s.checks := rfl

@[simp] theorem checks_noteDrop (f : FrameNo) (d : Drop) : (s.noteDrop f d).checks = s.checks :=
  s.checks_updFrame f _ fun _ => rfl

@[simp] theorem checks_forget (k l : Nat) : (s.forget k l).checks = s.checks := by
  unfold State.forget
  split
  · exact s.checks_updFrame _ _ fun _ => rfl
  · rfl

@[simp] theorem checks_putFlag (f : FrameNo) (k : Nat) (add : Bool) (v : Word) : (s.putFlag f k add v).checks = s.checks :=
  s.checks_updFrame f _ fun _ => by split <;> rfl

@[simp] theorem checks_refuseFlag (f : FrameNo) : (s.refuseFlag f).checks = s.checks :=
  (checks_log ..).trans (s.checks_updFrame f _ fun _ => rfl)

@[simp] theorem checks_offLog (f : FrameNo) (n : Option Nat) : (s.offLog f n).checks = s.checks := checks_log ..

theorem State.checks_marks (l : List Nat) (m : Mark) : (l.foldl (fun (t : State) k => t.mark k m) s).checks = s.checks :=
  State.checks_foldl l (fun (t : State) k => t.mark k m) (fun _ _ => rfl) s

theorem State.checks_unmarks (l : List Nat) : (l.foldl State.unmark s).checks = s.checks :=
  State.checks_foldl l State.unmark (fun _ _ => rfl) s

@[simp] theorem checks_store (a : Nat) (bs : List Byte) (m : Option Mark) : (s.store a bs m).checks = s.checks := by
  unfold State.store
  dsimp only
  split
  · exact State.checks_marks ..
  · exact State.checks_unmarks ..

@[simp] theorem checks_ingest (i : Fin 64) (a : Nat) (bs : List Byte) (m : Option Mark) :
    (s.ingest i a bs m).checks = s.checks := by
  unfold State.ingest
  dsimp only
  rw [checks_updLayer]
  split
  · exact (State.checks_marks ..).trans (checks_lineWrite s 2 a bs.length true)
  · exact checks_lineWrite s 2 a bs.length true

@[simp] theorem checks_combine (i l : Nat) (bs : List Byte) (m : Option Code) : (s.combine i l bs m).checks = s.checks := by
  unfold State.combine
  dsimp only
  rw [checks_updSet]
  split
  · rfl
  · have line (d : Bool) : (s.lineWrite 2 (lineBase (s.set? i).contrib + l * 2048) 2048 d).checks = s.checks :=
      checks_lineWrite ..
    split
    · exact line _
    · split <;> exact line _

@[simp] theorem checks_closeLine (i l : Nat) (bs : List Byte) (c : Option Code) : (s.closeLine i l bs c).checks = s.checks :=
  (checks_updSet ..).trans (State.checks_foldl _ _ (fun _ _ => checks_sendRole ..) s)

@[simp] theorem checks_lineData (i l : Nat) : (s.lineData i l).1.checks = s.checks := by
  unfold State.lineData
  dsimp only
  split
  · rfl
  · exact checks_lineRead ..

@[simp] theorem checks_job (j : Job) : (s.job j).1.checks = s.checks := by
  unfold State.job
  cases j with
  | write a bs m c =>
    dsimp only
    split
    · split <;> simp
    · split
      · rfl
      · split <;> simp
  | contribute i l bs m =>
    dsimp only
    split <;> simp
  | complete i l =>
    dsimp only
    split
    · split <;> simp
    · rfl
  | deliver i l bs c =>
    dsimp only
    split <;> simp
  | round i =>
    dsimp only
    split
    · split
      · split
        · simp
        · split
          · simp
          · split <;> simp
      · simp
    · rfl

@[simp] theorem checks_memArrive (a : Nat) (bs : List Byte) (m : Option Mark) (c : Fin 4) :
    (s.memArrive a bs m c).checks = s.checks :=
  State.work_induct (fun t => t.checks = s.checks) (fun t j h => (checks_job t j).trans h)
    (fun t h => (checks_pumpAll t).trans h) _ s _ rfl

@[simp] theorem checks_nibArrive (w : PWrite) (m : Option Mark) : (s.nibArrive w m).1.checks = s.checks := by
  unfold State.nibArrive
  split
  · exact checks_memArrive ..
  · dsimp only
    split <;> exact checks_lineWrite s 2 w.addr 1 false

@[simp] theorem checks_lineArrive (cs : List Host.Cell) (ns : List PWrite) (m : Option Mark) :
    (s.lineArrive cs ns m).1.checks = s.checks := by
  have rows (l : List (Nat × List Byte)) (r : State × List Code) : (l.foldl (fun (r : State × List Code) x =>
      ((r.1.tryArrive x.1 x.2 m).1, r.2 ++ (r.1.tryArrive x.1 x.2 m).2)) r).1.checks = r.1.checks :=
    State.checks_foldl_fst l _ (fun _ _ => checks_memArrive ..) r
  have nibs (r : State × List Code) : (ns.foldl (fun (r : State × List Code) w =>
      ((r.1.nibArrive w m).1, r.2 ++ (r.1.nibArrive w m).2)) r).1.checks = r.1.checks :=
    State.checks_foldl_fst ns (fun (r : State × List Code) w => ((r.1.nibArrive w m).1, r.2 ++ (r.1.nibArrive w m).2))
      (fun _ _ => checks_nibArrive ..) r
  unfold State.lineArrive State.oneLine
  dsimp only
  split
  · rw [checks_updLayer]
    exact (nibs _).trans (rows _ _)
  · exact (nibs _).trans (rows _ _)

@[simp] theorem checks_commitLines (f : FrameNo) (o : EngOp) (ls : List Nat) : (s.commitLines f o ls).checks = s.checks := by
  unfold State.commitLines
  refine State.checks_foldl _ _ (fun t l => ?_) s
  have drops (u : State) (cs : List Code) : (cs.foldl (fun (s : State) c =>
      (s.event o.run c f.val).noteDrop f { beat := some o.lastBeat, addr := l * 2048 }) u).checks = u.checks :=
    State.checks_foldl cs _ (fun _ _ => by simp) u
  dsimp only
  split
  · rw [checks_forget, drops, checks_lineArrive]
  · rw [drops, checks_lineArrive]

@[simp] theorem checks_commitOp (f : FrameNo) (o : EngOp) : (s.commitOp f o).checks = s.checks :=
  (checks_commitLines ..).trans rfl

@[simp] theorem checks_pend (f : FrameNo) (ps : List Pend) : (s.pend f ps).checks = s.checks :=
  s.checks_updFrame f _ fun _ => rfl
end

/-! What a list of bytes written reads as. -/

/-- A byte written leaves every other byte, whatever the memory's form. -/
theorem memRead_memWrite_other (m : List Host.Cell) {a b : Nat} (v : Byte) (h : a ≠ b) :
    memRead (memWrite m a v) b = memRead m b := by
  induction m with
  | nil =>
    unfold memWrite
    split <;> simp [memRead, h]
  | cons c m ih =>
    unfold memWrite
    split
    · split <;> simp [memRead, h]
    · split
      next heq => split <;> simp [memRead, ← heq, h]
      next => simp only [memRead, ih]

theorem memRead_memWriteCells_other (m cs : List Host.Cell) {a : Nat} (h : ∀ c ∈ cs, c.1 ≠ a) :
    memRead (memWriteCells m cs) a = memRead m a := by
  induction cs generalizing m with
  | nil => rfl
  | cons c cs ih =>
    obtain ⟨hc, hcs⟩ := List.forall_mem_cons.mp h
    exact (ih _ hcs).trans (memRead_memWrite_other m c.2 hc)

/-- Each byte that is written once reads as it was written. -/
theorem memRead_memWriteCells_mem {m cs : List Host.Cell} (hm : memWf m = true) (hcs : cs.Pairwise fun c d => c.1 ≠ d.1)
    {c : Host.Cell} (hc : c ∈ cs) : memRead (memWriteCells m cs) c.1 = c.2 := by
  induction cs generalizing m with
  | nil => exact absurd hc List.not_mem_nil
  | cons d cs ih =>
    obtain ⟨hd, hcs⟩ := List.pairwise_cons.mp hcs
    obtain rfl | hc := List.mem_cons.mp hc
    · refine (memRead_memWriteCells_other _ cs fun e he => (hd e he).symm).trans ?_
      rw [memRead_memWrite _ hm, if_pos rfl]
    · exact ih (memWf_memWrite _ _ hm) hcs hc

/-! The fetch. -/

/-- A list of as many words is fetched whatever memory holds. -/
theorem State.ringWords_length (s t : State) (fr : Frame) (i : Nat) : (t.ringWords fr i).length = (s.ringWords fr i).length := by
  simp [State.ringWords]

theorem State.ringWords_congr {s t : State} (h : t.mem = s.mem) (fr : Frame) (i : Nat) : t.ringWords fr i = s.ringWords fr i := by
  rw [State.ringWords, State.ringWords, h]

/-- R251: the words of the next line of the queue ring enter the window. -/
theorem wordFetch_completes {s : State} {f : FrameNo} (hrun : (s.frame f).rn.run ≠ 0) (hend : (s.frame f).rn.ended = false) :
    (let fr := s.frame f
     let keep := keepFrom fr.rn.ctx fr.rn.word
     let window := fr.rn.window.drop (keep - fr.rn.winBase)
     let base := max keep fr.rn.winBase
     let more := s.ringWords fr (base + window.length)
     more ≠ [] → window.length + more.length ≤ 4096 → ∀ ups, Completes (.wordFetch ⟨f, ups⟩) s fun t =>
       (∃ ws, (t.frame f).rn.window = window ++ ws ∧ ws.length = more.length ∧ (s.memc.wipes = [] → ws = more)) ∧
       (t.frame f).rn.winBase = base ∧ (t.frame f).rn.tables = true ∧ SameRegisters f s t ∧ SameOthers f s t ∧
       (s.memc.wipes = [] → SameMemory s t)) := by
  intro fr keep window base more hmore hlen ups
  let span := fr.ringSpan (base + window.length)
  let u := (s.upset ups).lineRead 0 span.1 (span.2 * 16)
  let t := u.updFrame f fun fr => { fr with rn := { fr.rn with
    window := window ++ u.ringWords (s.frame f) (base + window.length), winBase := base, tables := true } }
  have hexec : exec (.wordFetch ⟨f, ups⟩) s = guardStep (fr.rn.run != 0 && !fr.rn.ended &&
      (!fr.rn.tables || !(u.ringWords fr (base + window.length)).isEmpty) &&
      window.length + (u.ringWords fr (base + window.length)).length ≤ 4096) s t := rfl
  have hframe (g : FrameNo) : u.frame g = s.frame g := by
    show u.frames[g] = _
    rw [State.lineRead_frames, State.upset_frames]
    rfl
  have hkeep (hw : s.memc.wipes = []) : u.mem = s.mem ∧ u.vis = s.vis := by
    obtain ⟨hm, hv, -, -⟩ := State.onlyRead_lineRead (s := s.upset ups) 0 span.1 (span.2 * 16) hw
    exact ⟨hm, hv⟩
  clear_value u
  have hws : (u.ringWords fr (base + window.length)).length = more.length := State.ringWords_length ..
  have hne : u.ringWords fr (base + window.length) ≠ [] := by
    rw [← List.length_pos_iff, hws, List.length_pos_iff]
    exact hmore
  refine ⟨t, hexec.trans (congrArg Host.Outcome.next (if_pos (by simp [fr, hrun, hend, hne, hws, hlen]))), ?_⟩
  have ht : t.frame f = { u.frame f with rn := { (u.frame f).rn with
      window := window ++ u.ringWords (s.frame f) (base + window.length), winBase := base, tables := true } } :=
    State.updFrame_same ..
  refine ⟨⟨_, by rw [ht], hws, fun hw => State.ringWords_congr (hkeep hw).1 ..⟩, by rw [ht], by rw [ht], ?_, fun g hg => ?_,
    fun hw => ?_⟩
  · rw [SameRegisters, ht, hframe]
    exact ⟨fun _ => rfl, rfl, rfl, rfl⟩
  · exact (State.updFrame_other _ _ _ _ hg).trans (hframe g)
  · obtain ⟨hm, hv⟩ := hkeep hw
    exact sameMemory_of_bytes ((bytes_updFrame ..).trans (Prod.ext hm hv))

/-! The end of an operation. -/

/-- An operation leaves its frame's list. -/
def State.dropOp (s : State) (f : FrameNo) (p : EngOp → Bool) : State :=
  s.updFrame f fun fr => { fr with rn := { fr.rn with ops := fr.rn.ops.eraseP p } }

theorem exec_engineOperationEnd {s : State} {f : FrameNo} {te : Bool} {o : EngOp} (fail : Bool) (hp : s.powered f = true)
    (hr : ∀ r, s.runOf f = some r → r.aborted = none) {p : EngOp → Bool}
    (hdef : p = fun o => (o.engines == [.te]) == te && (decide (o.lastBeat < s.tally.count.toNat) ||
      (o.lastBeat == s.tally.count.toNat && decide (f.val % s.adm.cur.phases ≤ s.adm.group))))
    (ho : (s.frame f).rn.ops.find? p = some o) :
    exec (.engineOperationEnd f te fail) s = .next ((s.dropOp f p).endOp f o fail) := by
  subst hdef
  show execEngineOperationEnd f te fail s = _
  cases hrun : s.runOf f with
  | none => simp [execEngineOperationEnd, hrun, hp, ho, State.dropOp]
  | some r => simp [execEngineOperationEnd, hrun, hr r hrun, hp, ho, State.dropOp]

/-- The list is one operation shorter, whatever the operation's end does. -/
theorem endOp_dropOp_length {s : State} {f : FrameNo} {o : EngOp} {p : EngOp → Bool}
    (ho : (s.frame f).rn.ops.find? p = some o) (fail : Bool) :
    (((s.dropOp f p).endOp f o fail).frame f).rn.ops.length + 1 = (s.frame f).rn.ops.length := by
  have hmem : o ∈ (s.frame f).rn.ops := List.mem_of_find?_eq_some ho
  rw [State.ops_of_core (core_endOp ..), State.dropOp, State.updFrame_same,
    List.length_eraseP_of_mem hmem (List.find?_some ho)]
  exact Nat.sub_add_cancel (List.length_pos_of_mem hmem)

/-! An operation that fails its check. -/

theorem alGet_alSet_other {α : Type} (l : List (Nat × α)) {k j : Nat} (v : α) (h : k ≠ j) : alGet (alSet l k v) j = alGet l j := by
  induction l with
  | nil => simp [alSet, alGet, h]
  | cons p l ih =>
    unfold alSet
    split
    · simp [alGet, h]
    · split
      next heq => simp [alGet, ← heq, h]
      next => simp only [alGet, ih]

/-- Rows poisoned one after another all carry the mark. -/
theorem alGet_foldl_alSet (rows : List Nat) (m : Mark) (p : List (Nat × Mark)) {l : Nat} (h : l ∈ rows ∨ alGet p l = some m) :
    alGet (rows.foldl (fun p row => alSet p row m) p) l = some m := by
  induction rows generalizing p with
  | nil => exact h.resolve_left List.not_mem_nil
  | cons r rows ih =>
    refine ih _ ?_
    by_cases hr : r = l
    · exact .inr (by rw [hr, alGet_alSet_same])
    · rw [alGet_alSet_other _ _ hr]
      exact h.imp_left fun hm => (List.mem_cons.mp hm).resolve_left fun e => hr e.symm

theorem State.failOp_poison (s : State) (f : FrameNo) (o : EngOp) (c : Code) {l : Nat} (h : l ∈ o.foot) :
    alGet (s.failOp f o c).poison l = some { cause := c, run := o.run } :=
  alGet_foldl_alSet o.foot _ s.poison (.inl h)

@[simp] theorem checks_failOp (s : State) (f : FrameNo) (o : EngOp) (c : Code) : (s.failOp f o c).checks = s.checks :=
  (checks_pend ..).trans rfl

theorem State.logNotice_frame (s : State) (c : Code) (x : LogSrc) (a : LogArgs) (f : FrameNo) :
    (s.logNotice c x a).frame f = s.frame f := by
  obtain ⟨_, _, _, _, e⟩ := s.logNotice_parts c x a
  rw [e]
  rfl

theorem State.logNotice_poison (s : State) (c : Code) (x : LogSrc) (a : LogArgs) : (s.logNotice c x a).poison = s.poison := by
  obtain ⟨_, _, _, _, e⟩ := s.logNotice_parts c x a
  rw [e]

/-- R484: the count goes up by one, and no row's mark changes. -/
theorem State.countCheckFail_spec (s : State) (f : FrameNo) (limb : Option Nat) :
    ((s.countCheckFail f limb).frame f).reg.checkFails = satInc (s.frame f).reg.checkFails ∧
      (s.countCheckFail f limb).poison = s.poison := by
  unfold State.countCheckFail
  dsimp only
  rw [State.logNotice_frame, State.logNotice_poison]
  exact ⟨by simp [State.frame, State.updFrame], rfl⟩

/-- R123: an operation whose checked limb differs poisons its rows and is counted. -/
theorem State.endOp_checkFails {s : State} {f : FrameNo} {o : EngOp} {fail : Bool} (hc : o.checked = true)
    (hf : fail = true ∨ o.badLimb ≠ none) :
    s.endOp f o fail =
      ((((s.commitOp f o).pend f o.pend).failOp f o Codes.transformCheckFail).countCheckFail f o.badLimb) := by
  have hb : (fail || o.badLimb.isSome) = true := by simpa [Option.isSome_iff_ne_none] using hf
  simp [State.endOp, hc, hb]

theorem engineOperationEnd_checkFails {s : State} {f : FrameNo} {te : Bool} {o : EngOp} {fail : Bool}
    {p : EngOp → Bool} (hexec : exec (.engineOperationEnd f te fail) s = .next ((s.dropOp f p).endOp f o fail))
    (ho : (s.frame f).rn.ops.find? p = some o) (hc : o.checked = true) (hf : fail = true ∨ o.badLimb ≠ none) :
    Completes (.engineOperationEnd f te fail) s fun t =>
      (t.frame f).rn.ops.length + 1 = (s.frame f).rn.ops.length ∧
      (∀ l ∈ o.foot, alGet t.poison l = some { cause := Codes.transformCheckFail, run := o.run }) ∧
      (t.frame f).reg.checkFails = satInc (s.frame f).reg.checkFails := by
  refine ⟨_, hexec, endOp_dropOp_length ho fail, ?_⟩
  rw [State.endOp_checkFails hc hf]
  obtain ⟨hcount, hpoison⟩ := State.countCheckFail_spec
    ((((s.dropOp f p).commitOp f o).pend f o.pend).failOp f o Codes.transformCheckFail) f o.badLimb
  refine ⟨fun l hl => ?_, ?_⟩
  · rw [hpoison]
    exact State.failOp_poison _ _ _ _ hl
  · have hkeep : ((((s.dropOp f p).commitOp f o).pend f o.pend).failOp f o Codes.transformCheckFail).checks = s.checks := by
      simp only [checks_failOp, checks_pend, checks_commitOp]
      exact s.checks_updFrame f _ fun _ => rfl
    rw [hcount, State.checks_frame hkeep]

/-! An operation that passes, in scratchpad. -/

/-- Where no row of an operation is in device memory, what it computed is stored as it stands. -/
theorem State.commitOp_spad {s : State} {f : FrameNo} {o : EngOp} (hfoot : ∀ l ∈ o.foot, s.usable ≤ l * 2048)
    (hcells : ∀ c ∈ o.cells, s.usable ≤ c.1 / 2048 * 2048) (hnibs : o.nibs = []) :
    ∃ q, s.commitOp f o = { s with mem := memWriteCells s.mem o.cells, poison := q } := by
  have hf : o.foot.filter (fun l => decide (l * 2048 < s.usable)) = [] :=
    List.filter_eq_nil_iff.mpr fun l hl => by simpa using hfoot l hl
  have hc : o.cells.filter (fun c => !decide (c.1 / 2048 * 2048 < s.usable)) = o.cells :=
    List.filter_eq_self.mpr fun c hc => by simpa using hcells c hc
  unfold State.commitOp
  dsimp only
  rw [hf, hc, hnibs]
  exact ⟨_, rfl⟩

theorem engineOperationEnd_passes {s : State} {f : FrameNo} {te : Bool} {o : EngOp}
    {p : EngOp → Bool} (hexec : exec (.engineOperationEnd f te false) s = .next ((s.dropOp f p).endOp f o false))
    (ho : (s.frame f).rn.ops.find? p = some o) (hx : o.execFault = none) (hb : o.badLimb = none)
    (hfoot : ∀ l ∈ o.foot, s.usable ≤ l * 2048) (hcells : ∀ c ∈ o.cells, s.usable ≤ c.1 / 2048 * 2048)
    (hnibs : o.nibs = []) : Completes (.engineOperationEnd f te false) s fun t =>
      (t.frame f).rn.ops.length + 1 = (s.frame f).rn.ops.length ∧
      (t.frame f).rn.pend = (s.frame f).rn.pend ++ o.pend ∧
      (∀ a, (∀ c ∈ o.cells, c.1 ≠ a) → memRead t.mem a = memRead s.mem a) ∧
      (s.memOk → o.cells.Pairwise (fun c d => c.1 ≠ d.1) → ∀ c ∈ o.cells, memRead t.mem c.1 = c.2) ∧
      t.vis = s.vis ∧ SameRegisters f s t ∧ SameOthers f s t := by
  refine ⟨_, hexec, endOp_dropOp_length ho false, ?_⟩
  obtain ⟨q, hq⟩ := State.commitOp_spad (s := s.dropOp f p) (f := f) hfoot hcells hnibs
  have hend : (s.dropOp f p).endOp f o false = State.pend
      { s.dropOp f p with mem := memWriteCells s.mem o.cells, poison := q } f o.pend := by
    simp only [State.endOp, hx, hb, hq, Option.isSome_none, Bool.or_self, Bool.and_false, Bool.false_eq_true, if_false]
    rfl
  have hdrop : (s.dropOp f p).frame f =
      { s.frame f with rn := { (s.frame f).rn with ops := (s.frame f).rn.ops.eraseP p } } := State.updFrame_same ..
  rw [hend, State.pend]
  refine ⟨?_, fun a ha => ?_, fun hm hd c hc => ?_, rfl, ?_, fun g hg => ?_⟩
  · rw [State.updFrame_same]
    exact congrArg (fun fr => fr.rn.pend ++ o.pend) hdrop
  · exact memRead_memWriteCells_other _ _ ha
  · exact memRead_memWriteCells_mem hm.1 hd hc
  · rw [SameRegisters, State.updFrame_same]
    show (∀ i : Fin 32, ((s.dropOp f p).frame f).scalars[i].value = _) ∧ ((s.dropOp f p).frame f).flags = _ ∧
      ((s.dropOp f p).frame f).regions = _ ∧ ((s.dropOp f p).frame f).rn.dtab = _
    rw [hdrop]
    exact ⟨fun _ => rfl, rfl, rfl, rfl⟩
  · have hother : (s.dropOp f p).frame g = s.frame g := State.updFrame_other _ _ _ _ hg
    exact (State.updFrame_other _ _ _ _ hg).trans hother

/-- Settles O20: the fetch, the end of an operation whose check fails, and that of one in scratchpad that passes. -/
theorem supplyAndOperationEnd : Obligations.SupplyAndOperationEnd :=
  ⟨fun _ _ => wordFetch_completes, fun _ _ _ _ hp hr ho =>
    ⟨fun hc _ hf => engineOperationEnd_checkFails (exec_engineOperationEnd _ hp hr rfl ho) ho hc hf,
      fun hx hb hfoot hcells hnibs =>
        engineOperationEnd_passes (exec_engineOperationEnd _ hp hr rfl ho) ho hx hb hfoot hcells hnibs⟩⟩

end Sys2Proof.Machine
end

section

/-!
SUPPORT. What the transforms, the base conversion and the automorphisms compute (R114, R117, R130, R145, R146): the
arithmetic of O18.
-/

namespace Sys2Proof.Machine

open Sys2Proof

/-! Bit reversal. -/

theorem brv_lt (m j : Nat) : brv m j < 2 ^ m := by
  induction m generalizing j with
  | zero => exact Nat.one_pos
  | succ m ih =>
    have h := ih (j / 2)
    have hb : j % 2 * 2 ^ m ≤ 1 * 2 ^ m := Nat.mul_le_mul_right _ (by omega)
    rw [brv, pow_succ]
    omega

/-- The top bit of a number is the lowest of its reversal. -/
theorem brv_succ_top (m b j : Nat) (hb : b < 2) (hj : j < 2 ^ m) : brv (m + 1) (b * 2 ^ m + j) = 2 * brv m j + b := by
  induction m generalizing j with
  | zero =>
    have hj0 : j = 0 := by simpa using hj
    simp [brv, hj0, Nat.mod_eq_of_lt hb]
  | succ m ih =>
    have htop : b * 2 ^ (m + 1) = 2 * (b * 2 ^ m) := by ring
    have hmod : (b * 2 ^ (m + 1) + j) % 2 = j % 2 := by omega
    have hdiv : (b * 2 ^ (m + 1) + j) / 2 = b * 2 ^ m + j / 2 := by omega
    rw [brv, hmod, hdiv, ih _ (by rw [pow_succ] at hj; omega), brv, pow_succ]
    ring

theorem brv_brv (m j : Nat) (hj : j < 2 ^ m) : brv m (brv m j) = j := by
  induction m generalizing j with
  | zero =>
    have hj0 : j = 0 := by simpa using hj
    rw [hj0, brv]
  | succ m ih =>
    have hb : brv (m + 1) j = j % 2 * 2 ^ m + brv m (j / 2) := rfl
    rw [hb, brv_succ_top _ _ _ (Nat.mod_lt _ (by decide)) (brv_lt ..), ih _ (by rw [pow_succ] at hj; omega)]
    omega

/-- A sum over the slots is one over their reversals. -/
theorem sum_brv {α : Type} [AddCommMonoid α] (m : Nat) (f : Nat → α) :
    ∑ j ∈ Finset.range (2 ^ m), f (brv m j) = ∑ j ∈ Finset.range (2 ^ m), f j :=
  Finset.sum_nbij' (brv m) (brv m) (fun j _ => Finset.mem_range.mpr (brv_lt m j)) (fun j _ => Finset.mem_range.mpr (brv_lt m j))
    (fun j hj => brv_brv m j (Finset.mem_range.mp hj)) (fun j hj => brv_brv m j (Finset.mem_range.mp hj)) fun _ _ => rfl

/-! The inverse of a Galois element, by Euclid's algorithm. -/

/-- What the algorithm keeps: a remainder is its coefficient's multiple of `a` modulo `m`. -/
def IsRemainder (a m : Nat) (s : Int) (r : Nat) : Prop := (m : Int) ∣ s * a - r

theorem IsRemainder.step {a m r r' : Nat} {s s' : Int} (h : IsRemainder a m s r) (h' : IsRemainder a m s' r') :
    IsRemainder a m (s - (r / r' : Nat) * s') (r % r') := by
  have e : (s - (r / r' : Nat) * s') * a - (r % r' : Nat) = (s * a - r) - (r / r' : Nat) * (s' * a - r') := by
    have hr : (r : Int) = r' * (r / r' : Nat) + (r % r' : Nat) := by exact_mod_cast (Nat.div_add_mod r r').symm
    linear_combination hr
  rw [IsRemainder, e]
  exact Int.dvd_sub h (Dvd.dvd.mul_left h' _)

/-- With fuel for the product of the remainders the algorithm ends at their common divisor. -/
theorem egcdFuel_spec {a m : Nat} (n : Nat) {r r' : Nat} {s s' : Int} (hle : r' ≤ r) (hf : r * r' < 2 ^ n)
    (h : IsRemainder a m s r) (h' : IsRemainder a m s' r') :
    (egcdFuel n r r' s s').2 = Nat.gcd r r' ∧ IsRemainder a m (egcdFuel n r r' s s').1 (egcdFuel n r r' s s').2 := by
  induction n generalizing r r' s s' with
  | zero =>
    have h0 : r' = 0 := by
      have hz : r * r' = 0 := by simpa using hf
      obtain h | h := Nat.mul_eq_zero.mp hz
      · omega
      · exact h
    subst h0
    exact ⟨(Nat.gcd_zero_right r).symm, h⟩
  | succ n ih =>
    unfold egcdFuel
    split
    next h0 =>
      subst h0
      exact ⟨(Nat.gcd_zero_right r).symm, h⟩
    next h0 =>
      have hpos : 0 < r' := Nat.pos_of_ne_zero h0
      have hlt : r % r' < r' := Nat.mod_lt _ hpos
      have hhalf : 2 * (r % r') ≤ r := by
        have := Nat.div_add_mod r r'
        have : r' * 1 ≤ r' * (r / r') := Nat.mul_le_mul_left _ (Nat.div_pos hle hpos)
        omega
      have hprod : r' * (r % r') < 2 ^ n := by
        have := Nat.mul_le_mul_left r' hhalf
        rw [pow_succ] at hf
        nlinarith
      obtain ⟨hg, hs⟩ := ih hlt.le hprod h' (h.step h')
      exact ⟨by rw [hg, Nat.gcd_comm, ← Nat.gcd_rec, Nat.gcd_comm], hs⟩

/-- A number coprime to the modulus has its inverse found. -/
theorem invMod?_spec {a m : Nat} (hm : 1 < m) (h : Nat.Coprime a m) : ∃ x, invMod? a m = some x ∧ a * x % m = 1 := by
  let f := 2 * (a.log2 + m.log2 + 1) + 1
  have hm0 : m ≠ 0 := by omega
  have hf : m * (a % m % m) < 2 ^ f := by
    have hma : a % m % m ≤ a := by rw [Nat.mod_mod]; exact Nat.mod_le a m
    calc m * (a % m % m) ≤ m * a := Nat.mul_le_mul_left _ hma
      _ < 2 ^ (m.log2 + 1) * 2 ^ (a.log2 + 1) := Nat.mul_lt_mul'' Nat.lt_log2_self Nat.lt_log2_self
      _ = 2 ^ (m.log2 + 1 + (a.log2 + 1)) := (Nat.pow_add ..).symm
      _ ≤ 2 ^ f := Nat.pow_le_pow_right (by decide) (by omega)
  have h0 : IsRemainder a m 0 m := by simp [IsRemainder]
  have h1 : IsRemainder a m 1 (a % m) := by
    rw [IsRemainder, one_mul, Int.natCast_mod]
    exact Int.dvd_self_sub_emod
  obtain ⟨hg, hs⟩ := egcdFuel_spec f (Nat.mod_lt _ (by omega)).le hf h0 (h1.step h0)
  have hone : Nat.gcd m (a % m % m) = 1 := by
    rw [Nat.mod_mod, Nat.gcd_comm, ← Nat.gcd_rec, Nat.gcd_comm]
    exact h
  rw [hone] at hg
  set e := egcdFuel f m (a % m % m) 0 (1 - (a % m / m : Nat) * 0) with he
  have hinv : invMod? a m = if e.2 = 1 then some (intMod e.1 m) else none := by
    have hstep : egcdFuel (2 * (a.log2 + m.log2 + 2)) (a % m) m 1 0 = e := by
      rw [show 2 * (a.log2 + m.log2 + 2) = f + 1 by simp only [f]; ring, egcdFuel, if_neg hm0]
    rw [invMod?, hstep]
  refine ⟨_, hinv.trans (if_pos hg), ?_⟩
  rw [hg] at hs
  have hcast : ((intMod e.1 m : Nat) : Int) = e.1 % m := Int.toNat_of_nonneg (Int.emod_nonneg _ (by exact_mod_cast hm0))
  have hmod : ((a * intMod e.1 m : Nat) : Int) ≡ 1 [ZMOD m] := by
    rw [Nat.cast_mul, hcast, mul_comm]
    exact ((Int.mod_modEq e.1 m).mul_right _).trans ((Int.modEq_iff_dvd.mpr hs).symm)
  have := (Int.natCast_modEq_iff (b := 1)).mp hmod
  rwa [Nat.ModEq, Nat.mod_eq_of_lt hm] at this

/-! Residues as elements of the field. -/

section
variable {q : Nat}

/-- Residues below the modulus are equal where they are congruent. -/
theorem eq_of_residue {x y : Nat} (hx : x < q) (hy : y < q) (h : (x : ZMod q) = y) : x = y := by
  rw [ZMod.natCast_eq_natCast_iff', Nat.mod_eq_of_lt hx, Nat.mod_eq_of_lt hy] at h
  exact h

/-- So are lists of residues. -/
theorem list_eq_of_residues {n : Nat} {l l' : List Nat} (hl : l.length = n) (hl' : l'.length = n) (hlt : ∀ v ∈ l, v < q)
    (hlt' : ∀ v ∈ l', v < q) (h : ∀ i < n, ((l.getD i 0 : Nat) : ZMod q) = (l'.getD i 0 : Nat)) : l = l' := by
  refine List.ext_getElem (hl.trans hl'.symm) fun i hi hi' => ?_
  have e := h i (hl ▸ hi)
  rw [List.getD_eq_getElem _ _ hi, List.getD_eq_getElem _ _ hi'] at e
  exact eq_of_residue (hlt _ (List.getElem_mem hi)) (hlt' _ (List.getElem_mem hi')) e

/-- A sum of products is accumulated below the modulus. -/
theorem twistSum_eq (a : List Nat) (f : Nat → Nat) :
    twistSum a f q = (∑ i ∈ Finset.range a.length, mont (a.getD i 0) (f i) q) % q := by
  induction a using List.reverseRecOn with
  | nil => simp [twistSum]
  | append_singleton a x ih =>
    have hsum : ∑ i ∈ Finset.range a.length, mont ((a ++ [x]).getD i 0) (f i) q =
        ∑ i ∈ Finset.range a.length, mont (a.getD i 0) (f i) q :=
      Finset.sum_congr rfl fun i hi => by rw [List.getD_append _ _ _ _ (Finset.mem_range.mp hi)]
    have hstep : twistSum (a ++ [x]) f q = (twistSum a f q + mont x (f a.length) q) % q := by
      simp [twistSum, List.zipIdx_append]
    rw [hstep, ih, List.length_append, List.length_singleton, Finset.sum_range_succ, hsum]
    simp

/-- R100, R114: the primes' twiddles, powers of a root of -1, in M-form, and their inverses. -/
structure Twiddles (q m psi : Nat) (pw ipw : Nat → Nat) : Prop where
  prime : q.Prime
  odd : q % 2 = 1
  lt : q < 2 ^ 31
  root : psi ^ 2 ^ m % q = q - 1
  pw : ∀ x < 2 * 2 ^ m, pw x = psi ^ x * 2 ^ 32 % q
  ipw : ∀ x < 2 * 2 ^ m, ipw x < q ∧ ipw x * psi ^ x % q = 2 ^ 32 % q

variable {m psi : Nat} {pw ipw : Nat → Nat}

section
variable (w : Twiddles q m psi pw ipw)
include w

theorem Twiddles.pos : 0 < q := w.prime.pos

theorem Twiddles.two_ne : ((2 : Nat) : ZMod q) ≠ 0 := by
  rw [Ne, ZMod.natCast_eq_zero_iff]
  intro h
  have h2 := (Nat.prime_dvd_prime_iff_eq w.prime Nat.prime_two).mp h
  have := w.odd
  omega

theorem Twiddles.half : (psi : ZMod q) ^ 2 ^ m = -1 := by
  have h : ((psi ^ 2 ^ m : Nat) : ZMod q) = ((q - 1 : Nat) : ZMod q) := by
    rw [ZMod.natCast_eq_natCast_iff', w.root, Nat.mod_eq_of_lt (Nat.sub_lt w.pos Nat.one_pos)]
  rw [Nat.cast_pow, Nat.cast_sub w.pos] at h
  simpa using h

theorem Twiddles.full : (psi : ZMod q) ^ (2 * 2 ^ m) = 1 := by
  rw [mul_comm, pow_mul, w.half]
  norm_num

theorem Twiddles.pow_mod (x : Nat) : (psi : ZMod q) ^ (x % (2 * 2 ^ m)) = (psi : ZMod q) ^ x :=
  (pow_eq_pow_mod x w.full).symm

theorem Twiddles.field : Fact q.Prime := ⟨w.prime⟩

theorem Twiddles.root_ne : (psi : ZMod q) ≠ 0 := by
  intro h
  have e := w.full
  have := w.field
  rw [h, zero_pow (by positivity)] at e
  exact zero_ne_one e

/-- The Montgomery product of a residue and a constant in M-form is their product. -/
theorem Twiddles.cast_mont {a b : Nat} {c : ZMod q} (hb : (b : ZMod q) = c * (2 : Nat) ^ 32) :
    (mont a b q : ZMod q) = a * c := by
  have := w.field
  have h := (ZMod.natCast_eq_natCast_iff' _ _ q).mpr (mont_mul_mod w.odd a b)
  rw [Nat.cast_mul, Nat.cast_mul, Nat.cast_pow, hb, ← mul_assoc] at h
  exact mul_right_cancel₀ (pow_ne_zero _ w.two_ne) h

theorem Twiddles.cast_pw {x : Nat} (hx : x < 2 * 2 ^ m) : (pw x : ZMod q) = (psi : ZMod q) ^ x * (2 : Nat) ^ 32 := by
  rw [w.pw x hx, ZMod.natCast_mod, Nat.cast_mul, Nat.cast_pow, Nat.cast_pow]

theorem Twiddles.cast_ipw {x : Nat} (hx : x < 2 * 2 ^ m) : (ipw x : ZMod q) = ((psi : ZMod q) ^ x)⁻¹ * (2 : Nat) ^ 32 := by
  have := w.field
  have h := (ZMod.natCast_eq_natCast_iff' _ _ q).mpr (w.ipw x hx).2
  rw [Nat.cast_mul, Nat.cast_pow, Nat.cast_pow] at h
  rw [← h, mul_comm, mul_assoc, mul_inv_cancel₀ (pow_ne_zero _ w.root_ne), mul_one]

/-- A sum accumulated over constants in M-form is the sum of products. -/
theorem Twiddles.cast_twistSum {a : List Nat} {f : Nat → Nat} {c : Nat → ZMod q}
    (hf : ∀ i < a.length, (f i : ZMod q) = c i * (2 : Nat) ^ 32) :
    (twistSum a f q : ZMod q) = ∑ i ∈ Finset.range a.length, (a.getD i 0 : ZMod q) * c i := by
  rw [twistSum_eq, ZMod.natCast_mod, Nat.cast_sum]
  exact Finset.sum_congr rfl fun i hi => w.cast_mont (hf i (Finset.mem_range.mp hi))

theorem Twiddles.twistSum_lt (a : List Nat) (f : Nat → Nat) : twistSum a f q < q := by
  rw [twistSum_eq]
  exact Nat.mod_lt _ w.pos

/-! The transforms. -/

/-- Slot `j` of a transform evaluates at this power of the root (R114). -/
def slotExp (m j : Nat) : Nat := 2 * brv m j + 1

theorem Twiddles.cast_slot {a : List Nat} {j : Nat} (ha : a.length = 2 ^ m) :
    (twistSum a (fun i => pw (slotExp m j * i % (2 * 2 ^ m))) q : ZMod q) =
      ∑ i ∈ Finset.range (2 ^ m), (a.getD i 0 : ZMod q) * (psi : ZMod q) ^ (slotExp m j * i) := by
  rw [w.cast_twistSum fun i _ => w.cast_pw (Nat.mod_lt _ (by positivity)), ha]
  exact Finset.sum_congr rfl fun i _ => by rw [w.pow_mod]

theorem Twiddles.cast_nttI_slot {b : List Nat} {i : Nat} (hb : b.length = 2 ^ m) :
    (twistSum b (fun j => ipw (slotExp m j * i % (2 * 2 ^ m))) q : ZMod q) =
      ∑ j ∈ Finset.range (2 ^ m), (b.getD j 0 : ZMod q) * ((psi : ZMod q) ^ (slotExp m j * i))⁻¹ := by
  rw [w.cast_twistSum fun i _ => w.cast_ipw (Nat.mod_lt _ (by positivity)), hb]
  exact Finset.sum_congr rfl fun i _ => by rw [w.pow_mod]
end

theorem nttF_length (a : List Nat) (m : Nat) (pw : Nat → Nat) (q : Nat) : (nttF a m pw q).length = 2 ^ m := by simp [nttF]
theorem nttI_length (a : List Nat) (m : Nat) (ipw : Nat → Nat) (q : Nat) : (nttI a m ipw q).length = 2 ^ m := by simp [nttI]
theorem autSlot_length (a : List Nat) (m g : Nat) : (autSlot a m g).length = 2 ^ m := by simp [autSlot]
theorem autCoef_length (a : List Nat) (m g q : Nat) : (autCoef a m g q).length = 2 ^ m := by simp [autCoef]

theorem nttF_getElem? (a : List Nat) (pw : Nat → Nat) (q : Nat) {m j : Nat} (hj : j < 2 ^ m) :
    (nttF a m pw q)[j]? = some (twistSum a (fun i => pw (slotExp m j * i % (2 * 2 ^ m))) q) := by
  simp [nttF, hj, slotExp]

section
variable (w : Twiddles q m psi pw ipw)
include w

theorem Twiddles.nttF_lt (a : List Nat) : ∀ v ∈ nttF a m pw q, v < q := by
  intro v hv
  obtain ⟨j, -, rfl⟩ := List.mem_map.mp hv
  exact w.twistSum_lt ..

theorem Twiddles.cast_nttF {a : List Nat} {j : Nat} (ha : a.length = 2 ^ m) (hj : j < 2 ^ m) :
    ((nttF a m pw q).getD j 0 : ZMod q) =
      ∑ i ∈ Finset.range (2 ^ m), (a.getD i 0 : ZMod q) * (psi : ZMod q) ^ (slotExp m j * i) := by
  rw [List.getD_eq_getElem?_getD, nttF_getElem? a pw q hj, Option.getD_some]
  exact w.cast_slot ha

/-- R114: a slot of the transform is the polynomial's value there. -/
theorem Twiddles.nttF_value {a : List Nat} {j : Nat} (ha : a.length = 2 ^ m) (hj : j < 2 ^ m) :
    (nttF a m pw q)[j]? =
      some (((List.range (2 ^ m)).map fun i => a.getD i 0 * psi ^ ((2 * brv m j + 1) * i)).sum % q) := by
  rw [nttF_getElem? a pw q hj]
  refine congrArg some (eq_of_residue (w.twistSum_lt ..) (Nat.mod_lt _ w.pos) ?_)
  rw [w.cast_slot ha, ZMod.natCast_mod]
  have hsum : ((List.range (2 ^ m)).map fun i => a.getD i 0 * psi ^ ((2 * brv m j + 1) * i)).sum =
      ∑ i ∈ Finset.range (2 ^ m), a.getD i 0 * psi ^ (slotExp m j * i) := rfl
  rw [hsum, Nat.cast_sum]
  exact Finset.sum_congr rfl fun i _ => by rw [Nat.cast_mul, Nat.cast_pow]

theorem Twiddles.ninv : ((2 ^ m : Nat) : ZMod q) * (invPrime (2 ^ m % q) q : ZMod q) = 1 := by
  have hnd : ¬ q ∣ 2 ^ m % q := by
    rw [Nat.dvd_mod_iff (dvd_refl q), ← ZMod.natCast_eq_zero_iff, Nat.cast_pow]
    have := w.field
    exact pow_ne_zero _ w.two_ne
  have h : ((2 ^ m % q * invPrime (2 ^ m % q) q : Nat) : ZMod q) = ((1 : Nat) : ZMod q) := by
    rw [ZMod.natCast_eq_natCast_iff', invPrime_mul w.prime hnd, Nat.mod_eq_of_lt w.prime.one_lt]
  rwa [Nat.cast_mul, ZMod.natCast_mod, Nat.cast_one] at h

/-- The root's square is a primitive root of unity of the ring's degree. -/
theorem Twiddles.primitive : IsPrimitiveRoot ((psi : ZMod q) ^ 2) (2 ^ m) := by
  have := w.field
  have hne : ¬ (psi : ZMod q) ^ 2 ^ m = 1 := by
    rw [w.half]
    intro h
    have h2 : (2 : ZMod q) = 0 := by linear_combination -h
    exact w.two_ne (by exact_mod_cast h2)
  have hord : orderOf (psi : ZMod q) = 2 ^ (m + 1) := orderOf_eq_prime_pow hne (by rw [pow_succ']; exact w.full)
  have hprim : IsPrimitiveRoot (psi : ZMod q) (2 ^ (m + 1)) := hord ▸ IsPrimitiveRoot.orderOf _
  exact hprim.pow (by positivity) (pow_succ' 2 m)

/-- Over the slots, the powers of the root at the difference of two indices sum to 0, and to N where they are equal. -/
theorem Twiddles.orthogonal {i k : Nat} (hi : i < 2 ^ m) (hk : k < 2 ^ m) :
    ∑ j ∈ Finset.range (2 ^ m), (psi : ZMod q) ^ (slotExp m j * k) * ((psi : ZMod q) ^ (slotExp m j * i))⁻¹ =
      if k = i then ((2 ^ m : Nat) : ZMod q) else 0 := by
  have := w.field
  set y : ZMod q := (psi : ZMod q) ^ k * ((psi : ZMod q) ^ i)⁻¹ with hy
  have hterm (j : Nat) : (psi : ZMod q) ^ (slotExp m j * k) * ((psi : ZMod q) ^ (slotExp m j * i))⁻¹ =
      y * (y ^ 2) ^ brv m j := by
    rw [mul_comm (slotExp m j), mul_comm (slotExp m j), pow_mul, pow_mul, ← inv_pow, ← mul_pow, slotExp, pow_succ', pow_mul]
  rw [Finset.sum_congr rfl fun j _ => hterm j, sum_brv m fun j => y * (y ^ 2) ^ j, ← Finset.mul_sum]
  split
  next h =>
    have h1 : y = 1 := by rw [hy, h, mul_inv_cancel₀ (pow_ne_zero _ w.root_ne)]
    simp [h1]
  next h =>
    have hne : y ^ 2 ≠ 1 := by
      intro e
      refine h (w.primitive.pow_inj hk hi ?_)
      rw [hy, mul_pow, inv_pow, mul_inv_eq_one₀ (pow_ne_zero _ (pow_ne_zero _ w.root_ne))] at e
      rw [← pow_mul, ← pow_mul, mul_comm 2 k, mul_comm 2 i, pow_mul, pow_mul, e]
    have hone : (y ^ 2) ^ 2 ^ m = 1 := by
      have hx (x : Nat) : (((psi : ZMod q) ^ x) ^ 2) ^ 2 ^ m = 1 := by
        rw [← pow_mul, ← pow_mul, mul_comm, pow_mul, w.full, one_pow]
      rw [hy, mul_pow, mul_pow, hx, inv_pow, inv_pow, hx, inv_one, mul_one]
    rw [geom_sum_eq hne, hone, sub_self, zero_div, mul_zero]

/-- R117: the inverse transform gives the values back. -/
theorem Twiddles.nttI_nttF {a : List Nat} (ha : a.length = 2 ^ m) (hlt : ∀ v ∈ a, v < q) :
    nttI (nttF a m pw q) m ipw q = a := by
  refine list_eq_of_residues (nttI_length ..) ha (fun v hv => ?_) hlt fun i hi => ?_
  · obtain ⟨i, -, rfl⟩ := List.mem_map.mp hv
    exact Nat.mod_lt _ w.pos
  · have hget : (nttI (nttF a m pw q) m ipw q).getD i 0 = invPrime (2 ^ m % q) q *
        twistSum (nttF a m pw q) (fun j => ipw (slotExp m j * i % (2 * 2 ^ m))) q % q := by
      simp [nttI, hi, slotExp]
    have hsum : ∑ j ∈ Finset.range (2 ^ m), (((nttF a m pw q).getD j 0 : Nat) : ZMod q) *
        ((psi : ZMod q) ^ (slotExp m j * i))⁻¹ = ((2 ^ m : Nat) : ZMod q) * (a.getD i 0 : ZMod q) := by
      calc _ = ∑ j ∈ Finset.range (2 ^ m), ∑ k ∈ Finset.range (2 ^ m), (a.getD k 0 : ZMod q) *
            ((psi : ZMod q) ^ (slotExp m j * k) * ((psi : ZMod q) ^ (slotExp m j * i))⁻¹) :=
            Finset.sum_congr rfl fun j hj => by
              rw [w.cast_nttF ha (Finset.mem_range.mp hj), Finset.sum_mul]
              exact Finset.sum_congr rfl fun k _ => mul_assoc ..
        _ = ∑ k ∈ Finset.range (2 ^ m), (a.getD k 0 : ZMod q) * if k = i then ((2 ^ m : Nat) : ZMod q) else 0 := by
            rw [Finset.sum_comm]
            exact Finset.sum_congr rfl fun k hk => by rw [← Finset.mul_sum, w.orthogonal hi (Finset.mem_range.mp hk)]
        _ = _ := by
            simp only [mul_ite, mul_zero, Finset.sum_ite_eq', Finset.mem_range, hi, if_true]
            exact mul_comm ..
    rw [hget, ZMod.natCast_mod, Nat.cast_mul, w.cast_nttI_slot (nttF_length ..), hsum, ← mul_assoc,
      mul_comm (invPrime (2 ^ m % q) q : ZMod q), w.ninv, one_mul]

end

/-! Automorphisms. -/

section
variable {m g : Nat}

/-- An odd element has its inverse modulo twice the degree. -/
theorem galois_inverse (hg : g % 2 = 1) : ∃ h, invMod? g (2 * 2 ^ m) = some h ∧ g * h % (2 * 2 ^ m) = 1 := by
  refine invMod?_spec (by have := Nat.one_le_two_pow (n := m); omega) ?_
  rw [← pow_succ']
  exact Nat.Coprime.pow_right _ (Nat.coprime_two_right.mpr (Nat.odd_iff.mpr hg))

/-- Where the automorphism puts coefficient `i`, modulo twice the degree. -/
def autPlace (m g i : Nat) : Nat := i * g % (2 * 2 ^ m)

theorem autPlace_lt (m g i : Nat) : autPlace m g i < 2 * 2 ^ m := Nat.mod_lt _ (by positivity)

theorem autCoef_getElem? (a : List Nat) (q : Nat) {h k : Nat} (hh : invMod? g (2 * 2 ^ m) = some h) (hk : k < 2 ^ m) :
    (autCoef a m g q)[k]? = some (if k * h % (2 * 2 ^ m) < 2 ^ m then a.getD (k * h % (2 * 2 ^ m)) 0
      else (q - a.getD (k * h % (2 * 2 ^ m) - 2 ^ m) 0) % q) := by
  simp [autCoef, hk, hh]

/-- R145: a coefficient placed below the degree keeps its sign. -/
theorem autCoef_below (a : List Nat) (q : Nat) {i : Nat} (hg : g % 2 = 1) (hi : i < 2 ^ m) (hp : autPlace m g i < 2 ^ m) :
    (autCoef a m g q)[autPlace m g i]? = some (a.getD i 0) := by
  obtain ⟨h, hh, hinv⟩ := galois_inverse (m := m) hg
  have hback : autPlace m g i * h % (2 * 2 ^ m) = i := by
    rw [autPlace, Nat.mod_mul_mod, mul_assoc, Nat.mul_mod, hinv, mul_one, Nat.mod_mod, Nat.mod_eq_of_lt (by omega)]
  rw [autCoef_getElem? a q hh hp, hback, if_pos hi]

/-- One placed past it comes to the place less the degree, its sign turned. -/
theorem autCoef_past (a : List Nat) (q : Nat) {i : Nat} (hg : g % 2 = 1) (hi : i < 2 ^ m) (hp : 2 ^ m ≤ autPlace m g i) :
    (autCoef a m g q)[autPlace m g i - 2 ^ m]? = some ((q - a.getD i 0) % q) := by
  obtain ⟨h, hh, hinv⟩ := galois_inverse (m := m) hg
  have hlt := autPlace_lt m g i
  have hodd : h % 2 = 1 := by
    have h2 : g * h % 2 = 1 := by rw [← Nat.mod_mul_right_mod (g * h) 2 (2 ^ m), hinv]
    exact Nat.odd_iff.mp (Nat.odd_mul.mp (Nat.odd_iff.mpr h2)).2
  have hturn : 2 ^ m * h ≡ 2 ^ m [MOD 2 * 2 ^ m] := by
    have e : 2 ^ m * h = 2 ^ m + 2 * 2 ^ m * (h / 2) := by
      conv_lhs => rw [← Nat.div_add_mod h 2, hodd]
      ring
    rw [e, Nat.ModEq, Nat.add_mul_mod_self_left]
  have hback : (autPlace m g i - 2 ^ m) * h + 2 ^ m ≡ i [MOD 2 * 2 ^ m] := by
    calc (autPlace m g i - 2 ^ m) * h + 2 ^ m ≡ (autPlace m g i - 2 ^ m) * h + 2 ^ m * h [MOD 2 * 2 ^ m] := hturn.symm.add_left _
      _ = autPlace m g i * h := by rw [← add_mul, Nat.sub_add_cancel hp]
      _ ≡ i * (g * h) [MOD 2 * 2 ^ m] := by rw [← mul_assoc]; exact (Nat.mod_modEq ..).mul_right _
      _ ≡ i * 1 [MOD 2 * 2 ^ m] := Nat.ModEq.mul_left _ (by rw [Nat.ModEq, hinv, Nat.mod_eq_of_lt (by omega)])
      _ = i := mul_one i
  have hplace : (autPlace m g i - 2 ^ m) * h % (2 * 2 ^ m) = i + 2 ^ m := by
    have hy := Nat.mod_lt ((autPlace m g i - 2 ^ m) * h) (show 0 < 2 * 2 ^ m by positivity)
    rw [Nat.ModEq, ← Nat.mod_add_mod, Nat.mod_eq_of_lt (a := i) (by omega)] at hback
    obtain hs | hs := Nat.lt_or_ge ((autPlace m g i - 2 ^ m) * h % (2 * 2 ^ m) + 2 ^ m) (2 * 2 ^ m)
    · rw [Nat.mod_eq_of_lt hs] at hback
      omega
    · rw [Nat.mod_eq_sub_mod hs, Nat.mod_eq_of_lt (by omega)] at hback
      omega
  rw [autCoef_getElem? a q hh (by omega), hplace, if_neg (by omega), Nat.add_sub_cancel]
end

section
variable {q m psi : Nat} {pw ipw : Nat → Nat} (w : Twiddles q m psi pw ipw)
include w

theorem Twiddles.turn {e : Nat} (he : e % 2 = 1) : (psi : ZMod q) ^ (e * 2 ^ m) = -1 := by
  rw [mul_comm, pow_mul, w.half, Odd.neg_one_pow (Nat.odd_iff.mpr he)]

/-- At an odd power of the root, the automorphism's coefficients sum as the polynomial's own at the power times `g`. -/
theorem Twiddles.cast_autCoef {a : List Nat} {g e i : Nat} (hlt : ∀ v ∈ a, v < q) (hg : g % 2 = 1) (he : e % 2 = 1)
    (hi : i < 2 ^ m) : ((autCoef a m g q).getD (i * g % 2 ^ m) 0 : ZMod q) * (psi : ZMod q) ^ (e * (i * g % 2 ^ m)) =
      (a.getD i 0 : ZMod q) * (psi : ZMod q) ^ (g * e * i) := by
  have hmod : i * g % 2 ^ m = autPlace m g i % 2 ^ m := (Nat.mod_mod_of_dvd _ (Dvd.intro_left 2 rfl)).symm
  have hpow : (psi : ZMod q) ^ (g * e * i) = (psi : ZMod q) ^ (e * autPlace m g i) := by
    rw [← w.pow_mod (e * autPlace m g i), autPlace, Nat.mul_mod_mod, w.pow_mod]
    congr 1
    ring
  have hplace := autPlace_lt m g i
  rw [hmod, hpow, List.getD_eq_getElem?_getD]
  obtain hp | hp := Nat.lt_or_ge (autPlace m g i) (2 ^ m)
  · rw [Nat.mod_eq_of_lt hp, autCoef_below a q hg hi hp, Option.getD_some]
  · have hle : a.getD i 0 ≤ q := by
      rw [List.getD_eq_getElem?_getD]
      cases hv : a[i]? with
      | none => exact Nat.zero_le q
      | some v => exact (hlt v (List.mem_of_getElem? hv)).le
    have hsplit : (psi : ZMod q) ^ (e * autPlace m g i) = -(psi : ZMod q) ^ (e * (autPlace m g i - 2 ^ m)) := by
      conv_lhs => rw [← Nat.sub_add_cancel hp, mul_add, pow_add, w.turn he]
      ring
    rw [Nat.mod_eq_sub_mod hp, Nat.mod_eq_of_lt (by omega), autCoef_past a q hg hi hp, Option.getD_some, hsplit,
      ZMod.natCast_mod, Nat.cast_sub hle, ZMod.natCast_self]
    ring

/-- The slot at which the transform's power is `g` times slot `j`'s. -/
def autFrom (m g j : Nat) : Nat := brv m ((g * slotExp m j % (2 * 2 ^ m) - 1) / 2)

omit w in
theorem autFrom_lt (m g j : Nat) : autFrom m g j < 2 ^ m := brv_lt ..

omit w in
theorem slotExp_autFrom {m g j : Nat} (hg : g % 2 = 1) : slotExp m (autFrom m g j) = g * slotExp m j % (2 * 2 ^ m) := by
  have hlt : g * slotExp m j % (2 * 2 ^ m) < 2 * 2 ^ m := Nat.mod_lt _ (by positivity)
  have hodd : g * slotExp m j % (2 * 2 ^ m) % 2 = 1 := by
    rw [Nat.mod_mul_right_mod, Nat.mul_mod, hg, slotExp, Nat.mul_add_mod]
  rw [slotExp, autFrom, brv_brv _ _ (by omega)]
  omega

omit w in
theorem autSlot_getD (b : List Nat) (g : Nat) {m j : Nat} (hj : j < 2 ^ m) :
    (autSlot b m g).getD j 0 = b.getD (autFrom m g j) 0 := by
  simp [autSlot, hj, autFrom, slotExp]

/-- R145, R146: the automorphism on slots is the transform of that on coefficients. -/
theorem Twiddles.autSlot_nttF {a : List Nat} {g : Nat} (ha : a.length = 2 ^ m) (hlt : ∀ v ∈ a, v < q) (hg : g % 2 = 1) :
    autSlot (nttF a m pw q) m g = nttF (autCoef a m g q) m pw q := by
  have slot_lt (j : Nat) (hj : j < 2 ^ m) : (nttF a m pw q).getD j 0 < q := by
    rw [List.getD_eq_getElem _ _ (by rw [nttF_length]; exact hj)]
    exact w.nttF_lt a _ (List.getElem_mem _)
  obtain ⟨h, -, hinv⟩ := galois_inverse (m := m) hg
  have hinvN : g * h % 2 ^ m = 1 % 2 ^ m := by rw [← Nat.mod_mul_left_mod (g * h) 2, hinv]
  have hback (x y : Nat) (hxy : x * y % 2 ^ m = 1 % 2 ^ m) (i : Nat) (hi : i < 2 ^ m) : i * x % 2 ^ m * y % 2 ^ m = i := by
    rw [Nat.mod_mul_mod, mul_assoc, Nat.mul_mod, hxy, Nat.mul_mod_mod, Nat.mod_mul_mod, mul_one, Nat.mod_eq_of_lt hi]
  have place_lt (x : Nat) : x % 2 ^ m < 2 ^ m := Nat.mod_lt _ (by positivity)
  refine list_eq_of_residues (autSlot_length ..) (nttF_length ..) (fun v hv => ?_) (w.nttF_lt _) fun j hj => ?_
  · obtain ⟨j, hj, rfl⟩ := List.mem_map.mp hv
    exact slot_lt _ (brv_lt ..)
  · have he : slotExp m j % 2 = 1 := Nat.mul_add_mod ..
    calc _ = ∑ i ∈ Finset.range (2 ^ m), (a.getD i 0 : ZMod q) * (psi : ZMod q) ^ (g * slotExp m j * i) := by
          rw [autSlot_getD _ _ hj, w.cast_nttF ha (autFrom_lt ..), slotExp_autFrom hg]
          exact Finset.sum_congr rfl fun i _ => by rw [← w.pow_mod, Nat.mod_mul_mod, w.pow_mod]
      _ = ∑ k ∈ Finset.range (2 ^ m), ((autCoef a m g q).getD k 0 : ZMod q) * (psi : ZMod q) ^ (slotExp m j * k) :=
          Finset.sum_nbij' (fun i => i * g % 2 ^ m) (fun k => k * h % 2 ^ m) (fun _ _ => Finset.mem_range.mpr (place_lt _))
            (fun _ _ => Finset.mem_range.mpr (place_lt _)) (fun i hi => hback g h hinvN i (Finset.mem_range.mp hi))
            (fun k hk => hback h g (by rw [mul_comm, hinvN]) k (Finset.mem_range.mp hk))
            fun i hi => (w.cast_autCoef hlt hg he (Finset.mem_range.mp hi)).symm
      _ = _ := (w.cast_nttF (autCoef_length ..) hj).symm

end
end

/-! The base conversion. -/

/-- R130: a column's value is the sum of products, reduced, less the factor of the M-form. -/
theorem bconvVal_spec {p : Nat} (ys cs : List Nat) (hp : p.Prime) (hodd : p % 2 = 1) :
    bconvVal p ys cs < p ∧ bconvVal p ys cs * 2 ^ 32 % p = (List.zipWith (· * ·) ys cs).sum % p := by
  refine ⟨Nat.mod_lt _ hp.pos, ?_⟩
  have hsum : ((ys.zip cs).map fun x => x.1 * x.2).sum = (List.zipWith (· * ·) ys cs).sum := by
    rw [← List.map_uncurry_zip_eq_zipWith]
    rfl
  have hnd : ¬ p ∣ 2 ^ 32 % p := by
    rw [Nat.dvd_mod_iff (dvd_refl p)]
    intro h
    have h2 := (Nat.prime_dvd_prime_iff_eq hp Nat.prime_two).mp (hp.dvd_of_dvd_pow h)
    omega
  have hinv : invPrime (2 ^ 32 % p) p * 2 ^ 32 ≡ 1 [MOD p] := by
    have h := invPrime_mul hp hnd
    rw [Nat.mod_mul_mod, mul_comm] at h
    rw [Nat.ModEq, h, Nat.mod_eq_of_lt hp.one_lt]
  rw [bconvVal, hsum, Nat.mod_mul_mod, mul_assoc]
  exact (hinv.mul_left _).trans (by rw [mul_one])

end Sys2Proof.Machine
end

section

/-!
SUPPORT. The changes that an engine word leaves for the next launch (R97, R98, R106): its destination's descriptor. The
settlement of O18.
-/

namespace Sys2Proof.Machine

open Sys2Proof

/-! What the reads of an issue leave alone. -/

section
variable (s : State) (f : FrameNo)

@[simp] theorem still_fault (id : Nat) (c : Code) (k : Nat) : (s.fault id c k).still = s.still :=
  State.still_updRun _ _ _ fun r => by split <;> exact ⟨rfl, rfl⟩

@[simp] theorem still_consume (r : Nat) (ms : List Mark) : (s.consume r f ms).still = s.still := by
  unfold State.consume
  split
  · exact still_fault ..
  · rfl

@[simp] theorem still_mend (u : Upset) : (s.mend u).still = s.still := rfl

@[simp] theorem still_checkCache (l : Nat) : (s.checkCache f l).still = s.still := by
  unfold State.checkCache
  extract_lets u a
  have hu : u.still = s.still := by
    unfold u
    split
    · rw [State.still_updFrame, still_mend]
      exact fun _ => rfl
    · rfl
  clear_value u
  split
  · rw [State.still_logNotice, State.still_updFrame, still_mend]
    · exact hu
    · exact fun _ => rfl
  · exact hu

@[simp] theorem still_fillLine (l : Nat) (b : Bool) : (s.fillLine f l b).still = s.still := by
  unfold State.fillLine
  dsimp only
  rw [State.still_updFrame, State.still_lineRead]
  exact fun _ => rfl

@[simp] theorem still_fetchLines (ls : List Nat) : (s.fetchLines f ls).1.still = s.still := by
  induction ls generalizing s with
  | nil => rfl
  | cons l ls ih =>
    unfold State.fetchLines
    dsimp only
    split
    · rw [ih, State.still_updFrame, still_checkCache]
      exact fun _ => rfl
    · rw [ih, still_fillLine, still_checkCache]

@[simp] theorem still_reader (r : Run) (b : Bool) (rows : List Nat) : (s.reader f r b rows).1.still = s.still := by
  have hread (ls ms : List Nat) :
      ((ls.foldl (fun (u : State) l => u.checkSpad (l * 2048) 2048) s).fetchLines f ms).1.still = s.still :=
    (still_fetchLines ..).trans (State.still_foldl ls _ (fun _ _ => State.still_checkSpad ..) s)
  unfold State.reader
  dsimp only
  split
  · exact (still_fault ..).trans (hread _ _)
  · exact hread _ _

@[simp] theorem still_constLines (rd : Reader) (ls : List Nat) : (s.constLines f rd ls).1.still = s.still :=
  still_fetchLines ..
end

/-- What frame `f` has for the next launch. -/
def State.pends (s : State) (f : FrameNo) : List Pend := (s.frame f).rn.pend

theorem State.pends_of_still {s t : State} (h : t.still = s.still) (f : FrameNo) : t.pends f = s.pends f :=
  congrArg Frame.Still.pend (State.still_frame h f)

/-! What the start of an operation leaves for the next launch. -/

section
variable (s : State) (f : FrameNo) (i : Iss) (op : Op)

theorem State.pends_pend (ps : List Pend) : (s.pend f ps).pends f = s.pends f ++ ps := by
  rw [State.pends, State.pend, State.updFrame_same]
  rfl

theorem State.pends_startOp (wr : Writes) (ds : List Nat) (ps : List Pend) (b : Bool) (c : Option Code) (l : Option Nat) :
    (s.startOp f i op wr ds ps b c l).pends f = s.pends f := by
  unfold State.startOp
  extract_lets o u v
  have hv : v.still = s.still := (State.still_foldl wr.dropped _ (fun _ _ => by simp) u).trans rfl
  rw [State.pends, State.updFrame_same]
  exact State.pends_of_still hv f

theorem State.pends_startPoisoned (x : Ops) (rd : Reader) (rows : Dest → List Nat) (ps : List Pend) (nd : Dest → Pend)
    (m : Mark) (extra : Writes) :
    (s.startPoisoned f i op x rd rows ps nd m extra).pends f = s.pends f ++ x.dests.map nd := by
  unfold State.startPoisoned
  rw [State.pends_pend, State.pends_startOp]

variable {s f i op} {x : Ops} {dst : Dest} (chunks : State → Reader → List Chunk) (ps : List Pend) (b : Bool)
  (bad : State → Reader → Option Nat)

/-- R106: a poisoned source leaves the destination's poison alone. -/
theorem State.startWhole_poisoned (hx : x.dests = [dst]) (hm : x.descs.filterMap (·.mark) ≠ []) :
    ∃ m, (s.startWhole f i op x chunks ps b bad).pends f = s.pends f ++ [.descPoison dst.slot m] := by
  refine ⟨markFrom (x.descs.filterMap (·.mark)) i.r.id, ?_⟩
  have hne : (!(x.descs.filterMap (·.mark)).isEmpty) = true := by simpa using hm
  unfold State.startWhole State.startChecked
  dsimp only
  rw [if_pos hne, State.pends_startPoisoned, State.pends_of_still (still_consume ..), hx]
  rfl

/-- R98: a check that fails, but one of SCALE or NOISE, leaves its mark. -/
theorem State.startWhole_refused {c : Code} (hx : x.dests = [dst]) (hm : x.descs.filterMap (·.mark) = [])
    (hc : x.code = some c) (hs : ¬ (c = Codes.scaleRange ∨ c = Codes.noiseExhausted)) (he : c ≠ Codes.entropyUnavailable) :
    (s.startWhole f i op x chunks ps b bad).pends f = s.pends f ++ [.desc dst.slot (failDesc c dst.d x.src i.r.id)] := by
  have hne : ¬ (!(x.descs.filterMap (·.mark)).isEmpty) = true := by simp [hm]
  unfold State.startWhole State.startChecked
  dsimp only
  rw [if_neg hne]
  simp only [hc, if_neg hs, if_neg he]
  rw [State.pends_startPoisoned, State.pends_of_still (still_fault ..), hx]
  rfl

/-- R97: where every check passes the derived fields are left, poisoned or not as the rows that were read. -/
theorem State.startWhole_passes (hx : x.dests = [dst]) (hm : x.descs.filterMap (·.mark) = []) (hc : x.code = none) :
    ∃ m, (s.startWhole f i op x chunks ps b bad).pends f = s.pends f ++ [.desc dst.slot { dst.derived with mark := m }] := by
  have hne : ¬ (!(x.descs.filterMap (·.mark)).isEmpty) = true := by simp [hm]
  have hread (u : Bool) : (((s.reader f i.r u x.rows).1.constLines f (s.reader f i.r u x.rows).2 x.consts).1).still =
      s.still := (still_constLines ..).trans (still_reader ..)
  unfold State.startWhole State.startChecked
  dsimp only
  rw [if_neg hne]
  simp only [hc]
  split
  · rw [State.pends_startPoisoned, State.pends_of_still (still_consume ..), State.pends_of_still (hread _), hx]
    exact ⟨_, rfl⟩
  · rw [State.pends_pend, State.pends_startOp, State.pends_of_still (hread _), hx]
    exact ⟨_, rfl⟩
end

/-- A word that issues goes on, with what its issue leaves for the next launch. -/
theorem State.pends_next (s : State) (f : FrameNo) (w : BcWord) : (s.next f w).pends f = s.pends f := by
  rw [State.pends, State.next, State.updFrame_same]
  rfl

/-! The checks of a word that derives its destination from one source. -/

section
variable {s : State} {p : Program} {bad : Bool} {a nd : Desc} {bound : Nat}

/-- The checks of NTT and AUT, in order: the operand's, the tag's, and those of the derived fields. -/
def State.deriveCheck (s : State) (p : Program) (bad : Bool) (a : Desc) (bound : Nat) (nd : Desc) : Desc × Option Code :=
  s.checkAll p [(bad, Codes.operandMismatch), (tagBad [a] bound, Codes.keyTagMismatch)] nd a.scale [a] none

theorem State.deriveCheck_bad (h : bad = true) : s.deriveCheck p bad a bound nd = (nd, some Codes.operandMismatch) := by
  simp [State.deriveCheck, State.checkAll, firstBad, h]

theorem State.deriveCheck_passes (h : bad = false) (ht : tagBad [a] bound = false) (hs : nd.scaled = false) :
    s.deriveCheck p bad a bound nd = (nd, none) := by
  simp [State.deriveCheck, State.checkAll, firstBad, h, ht, State.closeDesc, hs]

/-- A check of the operands that fails leaves its mark and no other field. -/
theorem failDesc_operand (d a : Desc) (run : Nat) :
    failDesc Codes.operandMismatch d a run = { d with mark := some { cause := Codes.operandMismatch, run } } := by
  rw [failDesc, if_neg (by decide)]

/-- What a word that derives descriptor `k` from one source leaves for the next launch. -/
structure State.LeavesDerived (s t : State) (f : FrameNo) (i : Iss) (k : Nat) (d a nd : Desc) (bad : Bool) : Prop where
  poisoned : a.mark ≠ none → ∃ m, t.pends f = s.pends f ++ [.descPoison k m]
  refused : a.mark = none → bad = true →
    t.pends f = s.pends f ++ [.desc k { d with mark := some { cause := Codes.operandMismatch, run := i.r.id } }]
  derived : a.mark = none → bad = false → tagBad [a] i.r.keyTag = false → nd.scaled = false →
    ∃ m, t.pends f = s.pends f ++ [.desc k { nd with mark := m }]

theorem State.startWhole_leavesDerived {s u : State} {f : FrameNo} {i : Iss} {op : Op} {x : Ops} {k : Nat} {d a nd : Desc}
    {bad : Bool} (chunks : State → Reader → List Chunk) (ps : List Pend) (b : Bool) (limb : State → Reader → Option Nat)
    (hu : u.pends f = s.pends f) (hdests : x.dests = [{ slot := k, d, derived := (s.deriveCheck i.p bad a i.r.keyTag nd).1 }])
    (hdescs : x.descs = [a]) (hcode : x.code = (s.deriveCheck i.p bad a i.r.keyTag nd).2) :
    s.LeavesDerived (u.startWhole f i op x chunks ps b limb) f i k d a nd bad := by
  have hmarks (hm : a.mark = none) : x.descs.filterMap (·.mark) = [] := by simp [hdescs, hm]
  refine ⟨fun hm => ?_, fun hm hbad => ?_, fun hm hbad htag hs => ?_⟩
  · obtain ⟨m, hm⟩ := Option.ne_none_iff_exists'.mp hm
    obtain ⟨m', h⟩ := State.startWhole_poisoned (s := u) (f := f) (i := i) (op := op) chunks ps b limb hdests
      (by simp [hdescs, hm])
    exact ⟨m', h.trans (by rw [hu])⟩
  · rw [State.deriveCheck_bad hbad] at hdests hcode
    rw [State.startWhole_refused chunks ps b limb hdests (hmarks hm) hcode (by decide) (by decide), hu, failDesc_operand]
  · rw [State.deriveCheck_passes hbad htag hs] at hdests hcode
    obtain ⟨m, h⟩ := State.startWhole_passes (s := u) (f := f) (i := i) (op := op) chunks ps b limb hdests (hmarks hm) hcode
    exact ⟨m, h.trans (by rw [hu])⟩
end

/-- The limbs and components named are the object's. -/
theorem limbsBad_false {first l : Nat} {d : Desc} (h : first + l ≤ d.level + d.special) : limbsBad first l d = false := by
  simp [limbsBad, Nat.not_lt.mpr h]

theorem compsBad_false {first n : Nat} {d : Desc} (h : d.comps ≤ 1 ∨ first + n ≤ d.comps) : compsBad first n d = false := by
  obtain h | h := h
  · simp [compsBad, Nat.not_lt.mpr h]
  · simp [compsBad, Nat.not_lt.mpr h]

/-! NTT.F and NTT.I. -/

section
variable (s : State) (f : FrameNo) (fwd : Bool) (i : Iss)

/-- An NTT's operand does not fit its destination, the transform, or the limbs and the component named. -/
def nttOperandBad (fwd : Bool) (w : BcWord) (d a : Desc) : Bool :=
  let l := fld w 94 8
  let spread := fwd && flag1 w 102
  ringDiff d a || a.domain != (if fwd then 0 else 1) || (spread && a.form == 1) ||
    limbsBad (fld w 80 7) (if spread then 1 else l) a ||
    limbsBad (fld w 87 7) l { deriveFrom d a with domain := if fwd then 1 else 0 } || compsBad (fld w 76 2) 1 a

/-- An NTT of some limbs derives its destination from its source. -/
theorem State.nttIssue_leavesDerived (hl : fld i.w 94 8 ≠ 0) :
    let a := slot (s.frame f).rn.dtab (wA i.w)
    let d := slot (s.frame f).rn.dtab (wD i.w)
    s.LeavesDerived (s.nttIssue f fwd i) f i (wD i.w) d a { deriveFrom d a with domain := if fwd then 1 else 0 }
      (nttOperandBad fwd i.w d a) := by
  intro a d
  have hk : (s.updFrame f fun fr => { fr with rn := { fr.rn with kcount := fr.rn.kcount + fld i.w 94 8 } }).pends f =
      s.pends f := by
    rw [State.pends, State.updFrame_same]
    rfl
  unfold State.nttIssue
  rw [if_neg hl]
  exact State.startWhole_leavesDerived _ _ _ _ hk rfl rfl rfl

variable {fwd i}

/-- The case where NTT's operand passes (R98). -/
theorem nttOperandBad_false {w : BcWord} {d a : Desc} (hdom : a.domain = (if fwd then 0 else 1)) (hring : ringDiff d a = false)
    (hform : ¬(fwd = true ∧ flag1 w 102 = true ∧ a.form = 1))
    (hsrc : fld w 80 7 + (if fwd && flag1 w 102 then 1 else fld w 94 8) ≤ a.level + a.special)
    (hdst : fld w 87 7 + fld w 94 8 ≤ a.level + a.special) (hcomp : a.comps ≤ 1 ∨ fld w 76 2 < a.comps) :
    nttOperandBad fwd w d a = false := by
  have hspread : (fwd && flag1 w 102 && a.form == 1) = false := by
    rw [← Bool.not_eq_true]
    simpa [and_assoc] using hform
  simp only [nttOperandBad, hring, hdom, bne_self_eq_false, hspread, limbsBad_false hsrc,
    limbsBad_false (d := { deriveFrom d a with domain := if fwd then 1 else 0 }) hdst, compsBad_false (n := 1) hcomp, Bool.or_self]

theorem nttOperandBad_domain {w : BcWord} {d a : Desc} (hdom : a.domain ≠ (if fwd then 0 else 1)) :
    nttOperandBad fwd w d a = true := by
  simp [nttOperandBad, hdom]

end

/-! AUT. -/

section
variable (s : State) (f : FrameNo) (i : Iss)

/-- AUT's operand does not fit its destination, or the limbs and components named. -/
def autOperandBad (w : BcWord) (d a : Desc) : Bool :=
  ringDiff d a || (limbsBad (fld w 80 7) (fld w 87 8) a || limbsBad (fld w 80 7) (fld w 87 8) (deriveFrom d a) ||
    compsBad (fld w 76 2) (fld w 78 2) a)

/-- An AUT of some limbs and components derives its destination from its source. -/
theorem State.autIssue_leavesDerived (hl : fld i.w 87 8 ≠ 0) (hc : fld i.w 78 2 ≠ 0) :
    let a := slot (s.frame f).rn.dtab (wA i.w)
    let d := slot (s.frame f).rn.dtab (wD i.w)
    s.LeavesDerived (s.autIssue f i) f i (wD i.w) d a (deriveFrom d a) (autOperandBad i.w d a) := by
  intro a d
  unfold State.autIssue
  rw [if_neg (not_or.mpr ⟨hl, hc⟩)]
  exact State.startWhole_leavesDerived _ _ _ _ rfl rfl rfl rfl

theorem autOperandBad_false {w : BcWord} {d a : Desc} (hring : ringDiff d a = false)
    (hlimbs : fld w 80 7 + fld w 87 8 ≤ a.level + a.special) (hcomps : a.comps ≤ 1 ∨ fld w 76 2 + fld w 78 2 ≤ a.comps) :
    autOperandBad w d a = false := by
  simp only [autOperandBad, hring, limbsBad_false hlimbs, limbsBad_false (d := deriveFrom d a) hlimbs, compsBad_false hcomps,
    Bool.or_self]
end

/-! The settlement. -/

theorem exec_ntt {s : State} {f : FrameNo} {i : Iss} {fwd : Bool} (h : s.iss? f (if fwd then .nttF else .nttI) = some i) :
    exec (if fwd then .nttF f else .nttI f) s = .next ((s.nttIssue f fwd i).next f i.w) := by
  cases fwd with
  | true => exact issueStep_some (s.nttIssue f true) h
  | false => exact issueStep_some (s.nttIssue f false) h

theorem exec_aut {s : State} {f : FrameNo} {i : Iss} (h : s.iss? f .aut = some i) :
    exec (.aut f) s = .next ((s.autIssue f i).next f i.w) := issueStep_some (s.autIssue f) h

/-- Settles O18: the transforms as evaluations at powers of a root of -1, the conversion as an exact sum of products, and the
descriptor changes by the source's poison, the checks and the derived fields. -/
theorem enginesComputeWhatTheirRulesSay : Obligations.EnginesComputeWhatTheirRulesSay := by
  refine ⟨fun q m g psi pw ipw a hq hodd hlt hroot hpw hipw ha hal => ?_, fun p ys cs => bconvVal_spec ys cs,
    fun s f i fwd h hl => ⟨_, exec_ntt h, ?_⟩, fun s f i h hl hc => ⟨_, exec_aut h, ?_⟩⟩
  · have w : Twiddles q m psi pw ipw := ⟨hq, hodd, hlt, hroot, hpw, hipw⟩
    exact ⟨fun j => w.nttF_value ha, w.nttI_nttF ha hal, fun hg _ => ⟨w.autSlot_nttF ha hal hg,
      fun i hi => ⟨autCoef_below a q hg hi, autCoef_past a q hg hi⟩⟩⟩
  · obtain ⟨hpois, href, hder⟩ := s.nttIssue_leavesDerived f fwd i hl
    have hnext (p : Pend) (hp : (s.nttIssue f fwd i).pends f = s.pends f ++ [p]) :
        (((s.nttIssue f fwd i).next f i.w).frame f).rn.pend = (s.frame f).rn.pend ++ [p] :=
      (State.pends_next ..).trans hp
    refine ⟨fun hm => (hpois hm).imp fun _ => hnext _, fun hm hdom => hnext _ (href hm (nttOperandBad_domain hdom)),
      fun hm hdom hring htag hform hs hd hc hscale => ?_⟩
    exact (hder hm (nttOperandBad_false hdom hring hform hs hd hc) htag hscale).imp fun _ => hnext _
  · obtain ⟨hpois, -, hder⟩ := s.autIssue_leavesDerived f i hl hc
    have hnext (p : Pend) (hp : (s.autIssue f i).pends f = s.pends f ++ [p]) :
        (((s.autIssue f i).next f i.w).frame f).rn.pend = (s.frame f).rn.pend ++ [p] :=
      (State.pends_next ..).trans hp
    exact ⟨fun hm => (hpois hm).imp fun _ => hnext _, fun hm hring htag hlimbs hcomps hscale =>
      (hder hm (autOperandBad_false hring hlimbs hcomps) htag hscale).imp fun _ => hnext _⟩

end Sys2Proof.Machine
end

section

/-!
SUPPORT. Seal windows, the wipes of device memory and the reads they hold (R171, R172, R370 to R372), command by command. The
settlement of O26.
-/

namespace Sys2Proof.Machine

open Sys2Proof

/-! What a wipe zeroes. -/

/-- From its start on, every byte of a wipe reads zero (R370). -/
theorem State.zeroed_startWipe (s : State) (k : WipeKind) (b n : Nat) :
    State.Zeroed (fun a => b ≤ a ∧ a < b + n) s (s.startWipe k b n) := by
  unfold State.startWipe
  split
  next hn => exact fun a => ⟨fun _ => by omega, fun _ => ⟨rfl, rfl⟩⟩
  next => exact (s.zeroed_wipeBytes b n).of_mem rfl rfl

/-- The bytes of a span read zero and no other byte changes, as homes read them. -/
theorem State.Zeroed.home {s t : State} {b n : Nat} (h : State.Zeroed (fun a => b ≤ a ∧ a < b + n) s t) :
    (∀ a, b ≤ a → a < b + n → memRead t.mem a = 0) ∧
      ∀ a, (a < b ∨ b + n ≤ a) → memRead t.mem a = memRead s.mem a :=
  ⟨fun a hlo hhi => ((h a).1 ⟨hlo, hhi⟩).1, fun a hout => ((h a).2 (by omega)).1⟩

@[simp] theorem State.startWipe_empty (s : State) (k : WipeKind) (b : Nat) : s.startWipe k b 0 = s := if_pos rfl

/-- The end of a span wipe changes no byte of a line outside the span (R372). -/
theorem State.memRead_overwrite (s : State) (w : Wipe) {a : Nat}
    (h : a / 2048 * 2048 < w.base ∨ w.base + w.size ≤ a / 2048 * 2048) :
    memRead (s.overwrite w).mem a = memRead s.mem a := by
  unfold State.overwrite
  extract_lets keep
  rw [memRead_filter fun b => keep (b / 2048), if_pos]
  obtain h | h := h
  · simp [keep, h]
  · simp [keep, h]

/-! Seal windows: the answer and the end of an operation. -/

theorem exec_sealSet {s : State} (hok : s.hostOk = true) (hbusy : s.global.sealBusy = false) (hop : s.global.sealOp = false) :
    exec .sealSet s = .next { s with global := { s.global with
      sealBusy := true, sealPend := some (false, s.global.sealIndex, s.global.stagedWin, 0) } } := by
  show execSealSet s = _
  simp [execSealSet, hok, hbusy, hop]

theorem exec_sealRelease {s : State} (hok : s.hostOk = true) (hbusy : s.global.sealBusy = false)
    (hop : s.global.sealOp = true) (hres : s.sealReleaseResult s.global.sealIndex = 0) :
    let w := s.global.seals[s.global.sealIndex.toNat]
    exec .sealRelease s = .next { s.startWipe (.sealed s.global.sealIndex.toNat) w.span.1 w.span.2 with
      global := { s.global with sealBusy := true, sealPend := some (true, s.global.sealIndex, w, 0) } } := by
  show execSealRelease s = _
  simp [execSealRelease, hok, hbusy, hop, hres]

/-- The operation on entry `i` is over with its RESULT; the entry becomes `w` where that is 0 (R171, R172). -/
def State.sealDone (s : State) (i : BitVec 6) (res : BitVec 3) (w : SealWin) : State :=
  { s with global := { s.global with
    sealBusy := false, sealPend := none, sealResult := res, sealLast := i
    seals := if res ≠ 0 then s.global.seals else s.global.seals.set i.toNat w i.isLt } }

theorem exec_sealOpComplete_set {s : State} {i : BitVec 6} {w : SealWin} {x : BitVec 3}
    (hp : s.global.sealPend = some (false, i, w, x)) :
    exec .sealOpComplete s = .next (s.sealDone i (BitVec.ofNat 3 (s.sealSetResult i w)) w) := by
  show execSealOpComplete s = _
  simp [execSealOpComplete, hp, State.sealDone]

theorem exec_sealOpComplete_release {s : State} {i : BitVec 6} {w : SealWin} {j : BitVec 3}
    (hp : s.global.sealPend = some (true, i, w, j)) (hw : (s.memc.wipes.any fun x => x.kind == .sealed i.toNat) = false) :
    exec .sealOpComplete s = .next (s.sealDone i j {}) := by
  show execSealOpComplete s = _
  simp [execSealOpComplete, hp, State.sealDone, hw]

/-- RESULT, its entry and BUSY are written, and nothing but the entry where RESULT is 0. -/
theorem State.sealDone_spec (s : State) (i : BitVec 6) (res : BitVec 3) (w : SealWin) :
    let t := s.sealDone i res w
    t.global.sealBusy = false ∧ t.global.sealLast = i ∧ t.global.sealResult = res ∧
      (res = 0 → t.global.seals[i.toNat] = w) ∧ (res ≠ 0 → t.global.seals = s.global.seals) ∧
      (∀ (k : Nat) (h : k < 64), k ≠ i.toNat → t.global.seals[k] = s.global.seals[k]) ∧ OnlyGlobal s t := by
  refine ⟨rfl, rfl, rfl, fun h => ?_, fun h => if_pos h, fun k hk hne => ?_, rfl⟩
  · simp [State.sealDone, h]
  · show (if res ≠ 0 then s.global.seals else s.global.seals.set i.toNat w i.isLt)[k] = _
    split
    · rfl
    · exact Vector.getElem_set_ne _ _ hne.symm

/-- The RESULT of SET fits its field, so it is 0 only for a window that is taken. -/
theorem State.sealSetResult_eq_zero (s : State) (i : BitVec 6) (w : SealWin) :
    BitVec.ofNat 3 (s.sealSetResult i w) = 0 ↔ s.sealSetResult i w = 0 := by
  unfold State.sealSetResult
  split
  · decide
  · split
    · decide
    · split <;> decide

/-! Wipes of a span. -/

theorem State.layers_idle {s : State} (h : ∀ i : Fin 64, s.mas.layers[i].state = .idle) (p : Layer → Bool) :
    (s.mas.layers.toList.any fun l => l.state != .idle && p l) = false := by
  refine List.any_eq_false.mpr fun l hl => ?_
  obtain ⟨i, hi, rfl⟩ := List.getElem_of_mem hl
  rw [Vector.length_toList] at hi
  have hidle : s.mas.layers[i].state = .idle := h ⟨i, hi⟩
  simp [hidle]

/-- A wipe of an empty span, or of one that nothing stands in the way of (R372). -/
theorem exec_memcWipeGo {s : State} (hok : s.hostOk = true) (hw : s.memc.wipes = []) :
    let a := s.memc.wipeBase.toNat * 2048
    let n := s.memc.wipeSize.toNat * 2048
    let t := s.startWipe .span a n
    (s.memc.wipeSize ≠ 0 → a + n ≤ s.usable ∧ s.meetsSeal a n = false ∧ ∀ i : Fin 64, s.mas.layers[i].state = .idle) →
      exec .memcWipeGo s = .next { t with memc := { t.memc with wipeResult := 0 } } := by
  intro a n t hfree
  show execMemcWipeGo s = _
  by_cases hz : s.memc.wipeSize = 0
  · simp [execMemcWipeGo, hok, hw, hz, t, n]
  · obtain ⟨hin, hseal, hidle⟩ := hfree hz
    simp [execMemcWipeGo, hok, hw, hseal, s.layers_idle hidle, Nat.not_lt.mpr hin, t, a, n]

/-! The end of a wipe. -/

/-- What waited for wipes goes on in the functions' registers and in what goes out alone. -/
theorem State.settle_memc (s : State) : s.settle.memc = s.memc := by
  refine State.foldl_induct (fun t => t.memc = s.memc) _ _ (fun t n h => ?_) s rfl
  rw [← h]
  unfold State.settleFunc
  extract_lets g clear sealed
  split
  · rfl
  · split <;> rfl

/-- Wipe `k` is over: the lines that a span wipe was to reach are overwritten, and the list loses it (R372). -/
def State.endWipe (s : State) (k : Nat) (w : Wipe) : State :=
  let u := (if w.kind = .span then s.overwrite w else s).movedSpan 3 w.base w.size
  { u with memc := { u.memc with wipes := s.memc.wipes.eraseIdx k, wipeDone := BitVec.ofNat 64 w.size } }

/-- What waited for a wipe goes on after it, and neither the wipes nor a byte of memory changes then (R446). -/
theorem exec_wipeComplete {s : State} {k : Nat} {w : Wipe} (h : s.memc.wipes[k]? = some w) :
    ∃ t, exec (.wipeComplete k) s = .next t ∧ t.memc = (s.endWipe k w).memc ∧ t.bytes = (s.endWipe k w).bytes := by
  have hlist : (if w.kind = .span then s.overwrite w else s).memc.wipes = s.memc.wipes := by split <;> rfl
  show ∃ t, execWipeComplete k s = .next t ∧ _
  unfold execWipeComplete
  rw [h]
  dsimp only
  split
  next f e => exact ⟨_, rfl, by simp [State.endWipe, State.movedSpan, e], by simp [State.endWipe, e]⟩
  next e => exact ⟨_, rfl, by simp [State.settle_memc, State.endWipe, State.movedSpan, hlist], by simp [State.endWipe]⟩

theorem State.endWipe_bytes_other (s : State) (k : Nat) {w : Wipe} (h : w.kind ≠ .span) : (s.endWipe k w).bytes = s.bytes := by
  simp [State.endWipe, h]

theorem State.memRead_endWipe (s : State) (k : Nat) (w : Wipe) {a : Nat}
    (h : a / 2048 * 2048 < w.base ∨ w.base + w.size ≤ a / 2048 * 2048) :
    memRead (s.endWipe k w).mem a = memRead s.mem a := by
  by_cases hk : w.kind = .span
  · have hmem : (s.endWipe k w).mem = (s.overwrite w).mem := by simp [State.endWipe, hk]
    rw [hmem, s.memRead_overwrite w h]
  · rw [(Prod.mk.inj (s.endWipe_bytes_other k hk)).1]

/-! Reads held for a wipe. -/

/-- A held read that waits too long is answered with a Completer Abort (R371). -/
theorem wipePending_completes {s : State} {h : HeldRead} {rest : List HeldRead} (hh : s.memc.held = h :: rest) :
    Completes .wipePending s fun t => t.memc.held = rest ∧ t.outbox.getLast? = some (.completerAbort h.tag) ∧
      t.global.pfErrCode = Codes.wipePending ∧ SameMemory s t ∧ t.frames = s.frames := by
  let u : State := { s with memc := { s.memc with held := rest } }
  have hexec : exec .wipePending s = .next (((u.log Codes.wipePending .memory
      { func := some h.func, detail := h.offset }).pfErr Codes.wipePending h.func).emit (.completerAbort h.tag)) := by
    show execWipePending s = _
    unfold execWipePending
    rw [hh]
  refine ⟨_, hexec, by simp [u], by simp, rfl, sameMemory_of_bytes (by simp [u]), by simp [u]⟩

theorem exec_heldAccessRelease {s : State} {h : HeldRead} {rest : List HeldRead} (hh : s.memc.held = h :: rest) :
    exec .heldAccessRelease s =
      .next (({ s with memc := { s.memc with held := rest } } : State).emit (.readData h.tag h.bytes h.ep)) := by
  show execHeldAccessRelease s = _
  unfold execHeldAccessRelease
  rw [hh]

/-! The settlement. -/

/-- Settles O26: each command is followed to the one register record, the wipe or the answer that it makes. -/
theorem sealsAndWipesComplete : Obligations.SealsAndWipesComplete := by
  refine ⟨fun s hok hbusy hop => ⟨_, exec_sealSet hok hbusy hop, rfl, rfl, rfl, rfl⟩,
    fun s hok hbusy hop hres => ⟨_, exec_sealRelease hok hbusy hop hres, rfl, rfl, ?_⟩,
    fun s i w j hp hw => ⟨_, exec_sealOpComplete_release hp hw, s.sealDone_spec i j {}⟩,
    fun s i w x hp => ⟨_, exec_sealOpComplete_set hp, ?_⟩, fun s hok hw => ⟨fun hz => ?_, fun hin hseal hidle => ?_⟩,
    fun s k w h => ?_, fun s h rest hh => ⟨wipePending_completes hh, ⟨_, exec_heldAccessRelease hh, rfl, rfl, rfl⟩⟩⟩
  · exact (s.zeroed_startWipe _ _ _).home
  · simp only [ne_eq, ← s.sealSetResult_eq_zero i w]
    exact s.sealDone_spec i _ w
  · refine ⟨_, exec_memcWipeGo hok hw fun h => absurd hz h, rfl, ?_⟩
    simp [OnlyMemc, hz]
  · obtain ⟨hzero, hkeep⟩ := (s.zeroed_startWipe .span (s.memc.wipeBase.toNat * 2048) (s.memc.wipeSize.toNat * 2048)).home
    exact ⟨_, exec_memcWipeGo hok hw fun _ => ⟨hin, hseal, hidle⟩, rfl, hzero, hkeep, State.startWipe_frames ..⟩
  · obtain ⟨t, ht, hmemc, hbytes⟩ := exec_wipeComplete h
    refine ⟨t, ht, by rw [hmemc]; rfl, by rw [hmemc]; rfl, fun hk => ?_, fun a ha => ?_⟩
    · exact sameMemory_of_bytes (hbytes.trans (s.endWipe_bytes_other k hk))
    · rw [(Prod.mk.inj hbytes).1, s.memRead_endWipe k w ha]

end Sys2Proof.Machine
end

section

/-!
SUPPORT. What the reads of device memory at a port keep and count (R359, R361, R371), and lines that none has to be wiped for.
-/

namespace Sys2Proof.Machine

open Sys2Proof

/-! The lines of an access. -/

theorem mem_dedup {l : List Nat} {x : Nat} : x ∈ dedup l ↔ x ∈ l := by
  refine ⟨mem_of_mem_dedup, fun h => ?_⟩
  have key (acc : List Nat) (h : x ∈ acc ∨ x ∈ l) : x ∈ l.foldl (fun acc x => if acc.contains x then acc else acc ++ [x]) acc := by
    clear * - h
    induction l generalizing acc with
    | nil => exact h.resolve_right List.not_mem_nil
    | cons y l ih =>
      refine ih _ ?_
      obtain h | h := h
      · refine .inl ?_
        dsimp only
        split
        · exact h
        · exact List.mem_append_left _ h
      · obtain rfl | h := List.mem_cons.mp h
        · refine .inl ?_
          dsimp only
          split
          next hc => exact List.contains_iff_mem.mp hc
          next => exact List.mem_append_right _ (List.mem_singleton_self x)
        · exact .inr h
  exact key [] (.inr h)

/-- Bytes within one line touch that line alone. -/
theorem linesOf_within {a n : Nat} (hn : n ≠ 0) (h : a % 2048 + n ≤ 2048) : linesOf a n = [a / 2048] := by
  have hone : (a + n - 1) / 2048 + 1 - a / 2048 = 1 := by omega
  rw [linesOf, if_neg hn, hone]
  simp

/-- Rising numbers below a bound leave room for as many of them. -/
theorem add_length_le_of_rising {a b : Nat} {l : List Nat} (hr : (a :: l).Pairwise (· < ·)) (hb : ∀ x ∈ a :: l, x < b) :
    a + (l.length + 1) ≤ b := by
  induction l generalizing a with
  | nil => exact hb a List.mem_cons_self
  | cons c l ih =>
    obtain ⟨ha, hr⟩ := List.pairwise_cons.mp hr
    have hac := ha c List.mem_cons_self
    have := ih hr fun x hx => hb x (List.mem_cons_of_mem _ hx)
    simp only [List.length_cons]
    omega

/-- Each part of an access at rising addresses lies in one line, which the access reaches. -/
theorem linesOf_linesIn {span : List (Nat × Nat)} (hr : span.Pairwise fun x y => x.2 < y.2) {y : Nat × List Nat}
    (hy : y ∈ linesIn span) : ∀ l ∈ linesOf y.1 y.2.length, ∃ x ∈ span, x.2 / 2048 = l := by
  obtain ⟨l, -, hl⟩ := List.mem_filterMap.mp hy
  dsimp only at hl
  generalize hm : span.filter (·.2 / 2048 == l) = mine at hl
  cases mine with
  | nil => simp at hl
  | cons x xs =>
    have hmem (z : Nat × Nat) (hz : z ∈ x :: xs) : z ∈ span ∧ z.2 / 2048 = l := by
      rw [← hm] at hz
      simpa using hz
    have hrise : ((x :: xs).map (·.2)).Pairwise (· < ·) := by
      rw [← hm]
      exact List.pairwise_map.mpr (hr.sublist List.filter_sublist)
    have hroom : x.2 + (xs.length + 1) ≤ (l + 1) * 2048 := by
      have := add_length_le_of_rising (b := (l + 1) * 2048) hrise fun z hz => by
        obtain ⟨w, hw, rfl⟩ := List.mem_map.mp (show z ∈ (x :: xs).map (·.2) from hz)
        have := (hmem w hw).2
        omega
      simpa using this
    obtain ⟨hx, hxl⟩ := hmem x List.mem_cons_self
    obtain rfl : (x.2, (x :: xs).map (·.1)) = y := by simpa using hl
    intro k hk
    rw [linesOf_within (by simp) (by simp; omega)] at hk
    exact ⟨x, hx, (List.mem_singleton.mp hk).symm⟩

/-! Reads of lines that no wipe has to reach. -/

theorem State.unwiped_of_noWipes {s : State} (h : s.memc.wipes = []) (l : Nat) : s.unwiped l = false := by
  rw [State.unwiped, h]
  rfl

theorem State.reachLines_of_reached {s : State} {ls : List Nat} (w : Bool) (h : ∀ l ∈ ls, s.unwiped l = false) :
    s.reachLines ls w = s := by
  unfold State.reachLines
  split
  · rfl
  · extract_lets new zero
    have hnew (x : Wipe) (hx : x ∈ s.memc.wipes) : new x = [] := by
      unfold new
      split
      · rfl
      · refine List.filter_eq_nil_iff.mpr fun l hl hin => ?_
        exact absurd hin (List.any_eq_false.mp (h l hl) x hx)
    have hzero : zero = [] := List.flatMap_eq_nil_iff.mpr hnew
    have hwipes : s.memc.wipes.map (fun (x : Wipe) => { x with wiped := x.wiped ++ new x }) = s.memc.wipes :=
      (List.map_congr_left fun x hx => by rw [hnew x hx, List.append_nil]; rfl).trans (List.map_id _)
    have hkeep {α : Type} (l : List α) (g : α → Nat) : (l.filter fun c => !zero.contains (g c)) = l := by simp [hzero]
    rw [hwipes, hkeep, hkeep]

theorem State.onlyRead_lineRead_of_reached {s : State} (c : Fin 4) (a n : Nat) (h : ∀ l ∈ linesOf a n, s.unwiped l = false) :
    State.OnlyRead s (s.lineRead c a n) := by
  unfold State.lineRead
  rw [State.reachLines_of_reached _ h]
  exact .trans (State.foldl_induct (State.OnlyRead s) _ _ (fun t x k => k.trans (t.onlyRead_foundSector x)) s (.refl s))
    ⟨rfl, rfl, rfl, rfl⟩

/-! What no read changes of the registers of device memory: all but the ports' counts and the wipes. -/

/-- A port but for what its reads count. -/
def MemPort.uncounted (p : MemPort) : MemPort := { p with ce := 0, ue := 0, eccLine := 0, bytes := Vector.replicate 4 0 }

/-- The registers of device memory but for the wipes in progress and what the ports' reads count. -/
def MemC.steady (m : MemC) : MemC := { m with ports := m.ports.map MemPort.uncounted, wipes := [] }

/-- What a read of device memory leaves of its registers. -/
def State.steady (s : State) : MemC := s.memc.steady

theorem State.steady_updMem (s : State) (p : Fin 16) (g : MemPort → MemPort)
    (h : (g s.memc.ports[p]).uncounted = s.memc.ports[p].uncounted) : (s.updMem p g).steady = s.steady := by
  have hports : (s.memc.ports.set p (g s.memc.ports[p])).map MemPort.uncounted = s.memc.ports.map MemPort.uncounted := by
    ext i hi
    by_cases e : p.val = i
    · subst e
      simpa using h
    · simp [Vector.getElem_set_ne _ _ e]
  simp only [State.steady, MemC.steady, State.updMem, hports]

theorem State.logNotice_memc (s : State) (c : Code) (x : LogSrc) (a : LogArgs) : (s.logNotice c x a).memc = s.memc := by
  obtain ⟨_, _, _, _, e⟩ := s.logNotice_parts c x a
  rw [e]

@[simp] theorem State.steady_logNotice (s : State) (c : Code) (x : LogSrc) (a : LogArgs) : (s.logNotice c x a).steady = s.steady :=
  congrArg MemC.steady (s.logNotice_memc c x a)

@[simp] theorem State.steady_moved (s : State) (c : Fin 4) (a n : Nat) : (s.moved c a n).steady = s.steady :=
  s.steady_updMem _ _ rfl

@[simp] theorem State.steady_eccUe (s : State) (p : Fin 16) (a : Nat) : (s.eccUe p a).steady = s.steady := by
  unfold State.eccUe
  dsimp only
  rw [State.steady_logNotice]
  exact State.steady_updMem (s.mark (a / 2048) {}) _ _ rfl

@[simp] theorem State.steady_foundSector (s : State) (x : Nat × SectorErr) : (s.foundSector x).steady = s.steady := by
  unfold State.foundSector
  dsimp only
  split
  · exact (State.steady_moved ..).trans (State.steady_updMem (s.mend _) _ _ rfl)
  · exact s.steady_eccUe ..

@[simp] theorem State.steady_reachLines (s : State) (ls : List Nat) (w : Bool) : (s.reachLines ls w).steady = s.steady := by
  unfold State.reachLines
  split <;> rfl

@[simp] theorem State.steady_lineRead (s : State) (c : Fin 4) (a n : Nat) : (s.lineRead c a n).steady = s.steady := by
  refine (State.steady_moved ..).trans ?_
  exact State.foldl_induct (fun t => t.steady = s.steady) _ _ (fun t x h => (t.steady_foundSector x).trans h) _
    (s.steady_reachLines ..)

theorem State.held_of_steady {s t : State} (h : t.steady = s.steady) : t.memc.held = s.memc.held :=
  (congrArg MemC.held h :)

theorem State.port_of_steady {s t : State} (h : t.steady = s.steady) (p : Fin 16) :
    t.memc.ports[p].uncounted = s.memc.ports[p].uncounted := by
  have := congrArg (fun m : MemC => m.ports[p]) h
  simpa [State.steady, MemC.steady] using this

theorem State.granule_of_steady {s t : State} (h : t.steady = s.steady) : t.granule = s.granule :=
  (congrArg (fun p : MemPort => p.granule.toNat + 11) (State.port_of_steady h 0) :)

/-! What a sector's check counts and marks. -/

theorem State.updMem_port (s : State) (p : Fin 16) (g : MemPort → MemPort) : (s.updMem p g).memc.ports[p] = g s.memc.ports[p] := by
  simp [State.updMem]

theorem State.moved_ce (s : State) (c : Fin 4) (a n : Nat) (p : Fin 16) :
    (s.moved c a n).memc.ports[p].ce = s.memc.ports[p].ce := by
  by_cases e : s.portAt a = p
  · subst e
    rw [State.moved, State.updMem_port]
  · simp [State.moved, State.updMem, Vector.getElem_set_ne _ _ (Fin.val_ne_of_ne e)]

theorem State.eccUe_ce (s : State) (p : Fin 16) (a : Nat) : (s.eccUe p a).memc.ports[p].ce = s.memc.ports[p].ce := by
  unfold State.eccUe
  dsimp only
  rw [State.logNotice_memc, State.updMem_port]
  rfl

theorem State.foundSector_other (s : State) {x : Nat × SectorErr} (h : x.2 ≠ .single) :
    s.foundSector x = s.eccUe (s.portAt (x.1 * 64)) (x.1 * 64) := by
  unfold State.foundSector
  dsimp only
  split
  next e => exact absurd e h
  next => rfl

/-- R359: a single-bit error is counted at the port that serves its sector. -/
theorem State.foundSector_ce (s : State) (x : Nat × SectorErr) {p : Fin 16} (hp : s.portAt (x.1 * 64) = p) :
    (s.foundSector x).memc.ports[p].ce = if x.2 = .single then satInc s.memc.ports[p].ce else s.memc.ports[p].ce := by
  by_cases e : x.2 = .single
  · rw [if_pos e, State.foundSector, e, hp]
    dsimp only
    rw [State.moved_ce, State.updMem_port]
    rfl
  · rw [if_neg e, s.foundSector_other e, hp, State.eccUe_ce]

theorem State.portAt_of_steady {s t : State} (h : t.steady = s.steady) (a : Nat) : t.portAt a = s.portAt a := by
  rw [State.portAt, State.granule_of_steady h, State.portAt]

theorem State.foundSectors_ce {s : State} {l : List (Nat × SectorErr)} {p : Fin 16} (hp : ∀ x ∈ l, s.portAt (x.1 * 64) = p) :
    (l.foldl State.foundSector s).memc.ports[p].ce =
      (l.filter (·.2 == .single)).foldl (fun c _ => satInc c) s.memc.ports[p].ce := by
  induction l generalizing s with
  | nil => rfl
  | cons x l ih =>
    obtain ⟨hx, hl⟩ := List.forall_mem_cons.mp hp
    have hnext : ∀ y ∈ l, (s.foundSector x).portAt (y.1 * 64) = p := fun y hy => by
      rw [State.portAt_of_steady (s.steady_foundSector x), hl y hy]
    rw [List.foldl_cons, ih hnext, s.foundSector_ce x hx]
    by_cases e : x.2 = .single <;> simp [e]

/-- A mark is not taken away by another. -/
theorem alGet_alSet_marked {α : Type} {l : List (Nat × α)} (k : Nat) (v : α) {j : Nat} (h : alGet l j ≠ none) :
    alGet (alSet l k v) j ≠ none := by
  by_cases e : k = j
  · rw [e, alGet_alSet_same]
    exact Option.some_ne_none v
  · rwa [alGet_alSet_other _ _ e]

theorem State.eccUe_poison (s : State) (p : Fin 16) (a : Nat) : (s.eccUe p a).poison = alSet s.poison (a / 2048) {} := by
  unfold State.eccUe
  dsimp only
  rw [State.logNotice_poison]
  rfl

theorem State.foundSector_poison (s : State) (x : Nat × SectorErr) : (s.foundSector x).poison =
    if x.2 = .single then s.poison else alSet s.poison (x.1 * 64 / 2048) {} := by
  by_cases e : x.2 = .single
  · rw [if_pos e, State.foundSector, e]
    rfl
  · rw [if_neg e, s.foundSector_other e, State.eccUe_poison]

/-- R359: the line of a sector that cannot be corrected is poisoned, whatever is found after it. -/
theorem State.foundSectors_poison {l : List (Nat × SectorErr)} {k : Nat} (s : State)
    (h : alGet s.poison k ≠ none ∨ ∃ y ∈ l, y.2 ≠ .single ∧ y.1 * 64 / 2048 = k) :
    alGet (l.foldl State.foundSector s).poison k ≠ none := by
  induction l generalizing s with
  | nil => exact h.resolve_right fun ⟨_, hy, _⟩ => absurd hy List.not_mem_nil
  | cons x l ih =>
    refine ih _ ?_
    rw [State.foundSector_poison]
    obtain h | ⟨y, hy, hne, hk⟩ := h
    · refine .inl ?_
      split
      · exact h
      · exact alGet_alSet_marked _ _ h
    · obtain rfl | hy := List.mem_cons.mp hy
      · refine .inl ?_
        rw [if_neg hne, hk, alGet_alSet_same]
        exact Option.some_ne_none _
      · exact .inr ⟨y, hy, hne, hk⟩

/-! A port's own lines (R361). -/

theorem mod_2048_of_mod_granule {g : Nat} (hg : 11 ≤ g) (n : Nat) : n % 2 ^ g % 2048 = n % 2048 :=
  Nat.mod_mod_of_dvd n (Nat.pow_dvd_pow 2 hg)

/-- A port's line lies in one granule. -/
theorem granule_room {g loc o : Nat} (hg : 11 ≤ g) (hl : loc % 2048 = 0) (ho : o < 2048) : loc % 2 ^ g + o < 2 ^ g := by
  obtain ⟨m, hm⟩ : 2048 ∣ 2 ^ g := Nat.pow_dvd_pow 2 hg
  have hlt : loc % 2 ^ g < 2 ^ g := Nat.mod_lt _ (Nat.two_pow_pos g)
  have hmod : loc % 2 ^ g % 2048 = 0 := (mod_2048_of_mod_granule hg loc).trans hl
  omega

/-- The interleave is undone: every byte of a line that a port numbers is served by it. -/
theorem memPortOf_portAddr {g p loc o : Nat} (hg : 11 ≤ g) (hp : p < 16) (hl : loc % 2048 = 0) (ho : o < 2048) :
    memPortOf g (portAddr g p loc + o) = p := by
  unfold memPortOf portAddr
  extract_lets v low u w
  have hlow : low < 2 ^ 4 := Nat.xor_lt_two_pow (Nat.xor_lt_two_pow hp (Nat.mod_lt v (by decide))) (Nat.mod_lt (v / 16) (by decide))
  have hu : u = v * 16 + low := by
    unfold u
    rw [Nat.add_assoc, Nat.mul_comm, Nat.mul_add_div (Nat.two_pow_pos g), Nat.div_eq_of_lt (granule_room hg hl ho), Nat.add_zero]
  have hw : w = v := by omega
  have hm : u % 16 = low := by omega
  rw [hm, hw]
  show p ^^^ (v % 16) ^^^ (v / 16 % 16) ^^^ (v % 16) ^^^ (v / 16 % 16) = p
  rw [Nat.xor_right_comm (p ^^^ _), Nat.xor_xor_cancel_right, Nat.xor_xor_cancel_right]

theorem portAddr_mod {g p loc : Nat} (hg : 11 ≤ g) (hl : loc % 2048 = 0) : portAddr g p loc % 2048 = 0 := by
  obtain ⟨m, hm⟩ : 2048 ∣ 2 ^ g := Nat.pow_dvd_pow 2 hg
  unfold portAddr
  extract_lets v low
  rw [hm, Nat.mul_left_comm, Nat.mul_add_mod, ← hm, mod_2048_of_mod_granule hg, hl]

/-- The sectors that the check of a port's line finds wrong lie in that line, at that port. -/
theorem State.badSectors_line {s : State} {a : Nat} (ha : a % 2048 = 0) {x : Nat × SectorErr} (hx : x ∈ s.badSectors a 2048) :
    a ≤ x.1 * 64 ∧ x.1 * 64 < a + 2048 := by
  rw [State.badSectors, if_neg (by decide)] at hx
  obtain ⟨u, -, hu⟩ := List.mem_filterMap.mp hx
  split at hu
  · split at hu
    next h =>
      obtain rfl := Option.some.inj hu
      dsimp only
      omega
    next => simp at hu
  · simp at hu

end Sys2Proof.Machine
end

section

/-!
SUPPORT. Host accesses through BAR2 (R175, R422, R428), the scrub (R369) and a retraining (R357). The settlement of O27.
-/

namespace Sys2Proof.Machine

open Sys2Proof

/-! The addresses of an access. -/

theorem State.bar2Addr_from (s : State) (n : FuncNo) : ∃ b, ∀ o a, s.bar2Addr n o = some a → a = b + o := by
  have key {p : Prop} [Decidable p] {c a : Nat} (h : (if p then some c else none) = some a) : a = c := by
    obtain ⟨-, h⟩ := Option.ite_none_right_eq_some.mp h
    exact (Option.some.inj h).symm
  unfold State.bar2Addr
  split
  · exact ⟨s.global.bar2Base.toNat * 0x10000000 / 2 ^ s.global.bar2Log * 2 ^ s.global.bar2Log, fun o a h => key h⟩
  · exact ⟨(s.partition n).1, fun o a h => key h⟩

section
variable (s : State) (n : FuncNo) (o len : Nat)

theorem State.mem_bar2Span {x : Nat × Nat} : x ∈ s.bar2Span n o len ↔ x.1 < len ∧ s.bar2Addr n (o + x.1) = some x.2 := by
  obtain ⟨i, a⟩ := x
  simp only [State.bar2Span, List.mem_filterMap, List.mem_range, Option.map_eq_some_iff, Prod.mk.injEq]
  constructor
  · rintro ⟨j, hj, b, hb, rfl, rfl⟩
    exact ⟨hj, hb⟩
  · exact fun ⟨hi, ha⟩ => ⟨i, hi, a, ha, rfl, rfl⟩

/-- The address that byte `k` of an access finds, where it lies in reach and in no seal window. -/
def State.openAddr (k : Nat) : Option Nat := (s.bar2Addr n (o + k)).filter fun a => (s.sealWindow a).isNone

theorem State.openAddr_eq_some {k a : Nat} : s.openAddr n o k = some a ↔ s.bar2Addr n (o + k) = some a ∧ s.sealWindow a = none := by
  rw [State.openAddr, Option.filter_eq_some_iff, Option.isNone_iff_eq_none]

theorem State.openAddr_eq_none {k : Nat} : s.openAddr n o k = none ↔ ∀ a, s.bar2Addr n (o + k) = some a → s.sealWindow a ≠ none := by
  simp [State.openAddr, Option.filter_eq_none_iff]

theorem State.mem_openBar2 {x : Nat × Nat} :
    x ∈ s.openBytes (s.bar2Span n o len) ↔ x.1 < len ∧ s.openAddr n o x.1 = some x.2 := by
  rw [State.openBytes, List.mem_filter, State.mem_bar2Span, Option.isNone_iff_eq_none, and_assoc, State.openAddr_eq_some]

theorem State.openBar2_rising : (s.openBytes (s.bar2Span n o len)).Pairwise fun x y => x.2 < y.2 := by
  obtain ⟨b, hb⟩ := s.bar2Addr_from n
  refine List.Pairwise.filter _ (List.pairwise_filterMap.mpr (List.pairwise_lt_range.imp fun {i j} hij x hx y hy => ?_))
  obtain ⟨c, hc, rfl⟩ := Option.map_eq_some_iff.mp hx
  obtain ⟨d, hd, rfl⟩ := Option.map_eq_some_iff.mp hy
  have := hb _ _ hc
  have := hb _ _ hd
  dsimp only
  omega

theorem State.find_openBar2 {k : Nat} (hk : k < len) :
    (s.openBytes (s.bar2Span n o len)).find? (·.1 == k) = (s.openAddr n o k).map fun a => (k, a) := by
  cases h : (s.openBytes (s.bar2Span n o len)).find? (·.1 == k) with
  | none =>
    cases ha : s.openAddr n o k with
    | none => rfl
    | some a => exact absurd (List.find?_eq_none.mp h (k, a) ((s.mem_openBar2 n o len).mpr ⟨hk, ha⟩)) (by simp)
  | some x =>
    obtain ⟨i, a⟩ := x
    obtain ⟨-, ha⟩ := (s.mem_openBar2 n o len).mp (List.mem_of_find?_eq_some h)
    obtain rfl : i = k := by simpa using List.find?_some h
    exact (congrArg (Option.map _) ha).symm

/-! What a read finds. -/

theorem State.bar2Data_length (span : List (Nat × Nat)) : (s.bar2Data span len).1.length = len := by simp [State.bar2Data]

theorem State.bar2Data_find (span : List (Nat × Nat)) {k : Nat} (hk : k < (s.bar2Data span len).1.length) :
    (s.bar2Data span len).1[k] = ((span.find? (·.1 == k)).map fun x => memRead s.mem x.2).getD 0 := by
  simp only [State.bar2Data, List.getElem_map, List.getElem_range]
  cases span.find? (·.1 == k) <;> rfl

theorem State.bar2Data_byte (u : State) {k : Nat} (hk : k < (u.bar2Data (s.openBytes (s.bar2Span n o len)) len).1.length) :
    (u.bar2Data (s.openBytes (s.bar2Span n o len)) len).1[k] = ((s.openAddr n o k).map (memRead u.mem)).getD 0 := by
  rw [State.bar2Data_find, s.find_openBar2 n o len (by simpa [State.bar2Data_length] using hk), Option.map_map]
  rfl

theorem State.bar2Data_poisoned (span : List (Nat × Nat)) :
    (s.bar2Data span len).2 = true ↔ ∃ x ∈ span, poisonAt s.poison x.2 ≠ none := by
  simp [State.bar2Data, mem_dedup, poisonAt, Option.isSome_iff_ne_none]

end

/-! A read. -/

/-- The lines of a host read, each in one access. -/
def State.readLines (s : State) (ls : List (Nat × List Nat)) : State :=
  ls.foldl (fun (s : State) x => s.lineRead 1 x.1 x.2.length) s

theorem State.readLines_frames (s : State) (ls : List (Nat × List Nat)) : (s.readLines ls).frames = s.frames :=
  State.foldl_induct (fun t => t.frames = s.frames) _ _ (fun t _ h => (t.lineRead_frames ..).trans h) s rfl

theorem State.readLines_held (s : State) (ls : List (Nat × List Nat)) : (s.readLines ls).memc.held = s.memc.held :=
  State.held_of_steady (State.foldl_induct (fun t => t.steady = s.steady) _ _ (fun t _ h => (t.steady_lineRead ..).trans h) s rfl)

theorem State.unwiped_congr {s t : State} (h : t.memc.wipes = s.memc.wipes) (l : Nat) : t.unwiped l = s.unwiped l := by
  rw [State.unwiped, h, State.unwiped]

/-- Reads of lines that no wipe has to reach change no byte (R371). -/
theorem State.onlyRead_readLines {s : State} {ls : List (Nat × List Nat)}
    (h : ∀ y ∈ ls, ∀ l ∈ linesOf y.1 y.2.length, s.unwiped l = false) : State.OnlyRead s (s.readLines ls) := by
  refine List.foldlRecOn ls _ (.refl s) fun t ht y hy => ht.trans (State.onlyRead_lineRead_of_reached _ _ _ fun l hl => ?_)
  obtain ⟨-, -, -, hw⟩ := ht
  rw [State.unwiped_congr hw, h y hy l hl]

theorem State.served_iff {s : State} {n : FuncNo} :
    s.served n = true ↔ s.hostOk = true ∧ s.global.funcs[n].enable = true ∧ s.present n = true := by
  simp [State.served, and_assoc]

theorem State.not_recovery {s : State} (h : s.hostOk = true) : s.boot.state ≠ .recovery := by
  simp only [State.hostOk, Bool.and_eq_true, bne_iff_ne] at h
  obtain ⟨⟨-, h⟩, -⟩ := h
  exact h

/-- What a host read of a function that is served leaves: an answer, or a read that is held, after its lines were read in a
state `u` with the seal it met reported (R175, R371). -/
theorem exec_hostBar2Read_served {s : State} {n : FuncNo} (hs : s.served n = true) (o len tag : Nat) (ups : List Upset) :
    let free := s.openBytes (s.bar2Span n o len)
    ∃ u : State, u.frames = s.frames ∧ u.memc.held = s.memc.held ∧
      ((∀ x ∈ free, s.lineFree (x.2 / 2048) = true) → u.bytes = s.bytes ∧
        exec (.hostBar2Read n ⟨o, ups⟩ len tag) s =
          .next (u.emit (.readData tag (u.bar2Data free len).1 (u.bar2Data free len).2))) ∧
      ((∃ x ∈ free, s.lineFree (x.2 / 2048) = false) → ∃ h : HeldRead, h.func = n.val ∧ h.tag = tag ∧ h.bytes.length = len ∧
        exec (.hostBar2Read n ⟨o, ups⟩ len tag) s =
          .next { u with memc := { u.memc with held := u.memc.held ++ [h] } }) := by
  intro free
  obtain ⟨hok, -, -⟩ := State.served_iff.mp hs
  let v : State := match (s.bar2Span n o len).find? fun x => (s.sealWindow x.2).isSome with
    | some x => (s.upset ups).barSealed n x.2
    | none => s.upset ups
  have hv : v.bytes = s.bytes ∧ v.frames = s.frames ∧ v.memc = s.memc := by
    unfold v
    split
    · simp [State.barSealed]
    · simp
  obtain ⟨hbytes, hframes, hmemc⟩ := hv
  let u := v.readLines (linesIn free)
  let h : HeldRead := { func := n.val, offset := o, tag, lines := dedup (free.map (·.2 / 2048))
                        bytes := (u.bar2Data free len).1, ep := (u.bar2Data free len).2 }
  have hexec : exec (.hostBar2Read n ⟨o, ups⟩ len tag) s =
      .next (if h.lines.all s.lineFree then u.emit (.readData tag h.bytes h.ep)
        else { u with memc := { u.memc with held := u.memc.held ++ [h] } }) := by
    show execHostBar2Read n ⟨o, ups⟩ len tag s = _
    unfold execHostBar2Read
    rw [if_neg fun h => State.not_recovery hok h.1, if_neg (by simp [hs])]
    rfl
  refine ⟨u, (v.readLines_frames _).trans hframes, (v.readLines_held _).trans (by rw [hmemc]), fun hfree => ⟨?_, ?_⟩,
    fun ⟨x, hx, hbusy⟩ => ⟨h, rfl, rfl, State.bar2Data_length .., ?_⟩⟩
  · obtain ⟨hm, hvis, -, -⟩ := State.onlyRead_readLines (s := v) (ls := linesIn free) fun y hy l hl => by
      obtain ⟨x, hx, rfl⟩ := linesOf_linesIn (s.openBar2_rising n o len) hy l hl
      have hl := hfree x hx
      rw [State.lineFree, Bool.and_eq_true, Bool.not_eq_true'] at hl
      obtain ⟨hreached, -⟩ := hl
      exact (State.unwiped_congr (congrArg MemC.wipes hmemc) _).trans hreached
    exact (Prod.ext hm hvis).trans hbytes
  · refine hexec.trans (congrArg _ (if_pos (List.all_eq_true.mpr fun l hl => ?_)))
    obtain ⟨x, hx, rfl⟩ := List.mem_map.mp (mem_dedup.mp hl)
    exact hfree x hx
  · refine hexec.trans (congrArg _ (if_neg fun hall => ?_))
    rw [List.all_eq_true.mp hall _ (mem_dedup.mpr (List.mem_map_of_mem hx))] at hbusy
    cases hbusy

theorem hostBar2Read_held {s : State} {n : FuncNo} (hs : s.served n = true) (o len tag : Nat) (ups : List Upset)
    (h : ∃ x ∈ s.openBytes (s.bar2Span n o len), s.lineFree (x.2 / 2048) = false) :
    Completes (.hostBar2Read n ⟨o, ups⟩ len tag) s fun t => t.frames = s.frames ∧
      ∃ h, t.memc.held = s.memc.held ++ [h] ∧ h.func = n.val ∧ h.tag = tag ∧ h.bytes.length = len := by
  obtain ⟨u, hframes, hheld, -, hexec⟩ := exec_hostBar2Read_served hs o len tag ups
  obtain ⟨r, hfunc, htag, hlen, hexec⟩ := hexec h
  exact ⟨_, hexec, hframes, r, congrArg (· ++ [r]) hheld, hfunc, htag, hlen⟩

theorem hostBar2Read_answered {s : State} {n : FuncNo} (hs : s.served n = true) (o len tag : Nat) (ups : List Upset)
    (h : ∀ x ∈ s.openBytes (s.bar2Span n o len), s.lineFree (x.2 / 2048) = true) :
    Completes (.hostBar2Read n ⟨o, ups⟩ len tag) s fun t =>
      SameMemory s t ∧ t.frames = s.frames ∧ t.memc.held = s.memc.held ∧
      ∃ bytes ep, t.outbox.getLast? = some (.readData tag bytes ep) ∧ bytes.length = len ∧
        (ep = true ↔ ∃ x ∈ s.openBytes (s.bar2Span n o len), poisonAt t.poison x.2 ≠ none) ∧
        ∀ k, (h : k < bytes.length) → bytes[k] = ((s.openAddr n o k).map (memRead s.mem)).getD 0 := by
  obtain ⟨u, hframes, hheld, hexec, -⟩ := exec_hostBar2Read_served hs o len tag ups
  obtain ⟨hbytes, hexec⟩ := hexec h
  refine ⟨_, hexec, sameMemory_of_bytes hbytes, hframes, hheld, _, _, List.getLast?_concat .., State.bar2Data_length ..,
    State.bar2Data_poisoned .., fun k hk => ?_⟩
  rw [s.bar2Data_byte, (Prod.mk.inj hbytes).1]

/-! A function that is not served (R422, R551). -/

theorem exec_hostBar2Read_recovery {s : State} {n : FuncNo} (h : s.boot.state = .recovery ∧ n = 0 ∧ s.global.fault.orphan = false)
    (o len tag : Nat) (ups : List Upset) :
    exec (.hostBar2Read n ⟨o, ups⟩ len tag) s = .next (s.emit (.readData tag (List.replicate len 0) false)) := by
  obtain ⟨hb, rfl, ho⟩ := h
  exact if_pos ⟨hb, rfl, by simp [ho]⟩

theorem exec_hostBar2Read_unsupported {s : State} {n : FuncNo} (hs : s.served n = false)
    (h : ¬(s.boot.state = .recovery ∧ n = 0 ∧ s.global.fault.orphan = false)) (o len tag : Nat) (ups : List Upset) :
    exec (.hostBar2Read n ⟨o, ups⟩ len tag) s = .next (s.emit (.unsupported tag)) := by
  show execHostBar2Read n ⟨o, ups⟩ len tag s = _
  unfold execHostBar2Read
  rw [if_neg fun ⟨hb, hn, ho⟩ => h ⟨hb, Fin.ext hn, by simpa using ho⟩, if_pos (by simp [hs])]

theorem exec_hostBar2Write_unsupported {s : State} {n : FuncNo} (hs : s.served n = false) (hok : s.hostOk = true) (o : Nat)
    (bytes : List Byte) (ep : Bool) : exec (.hostBar2Write n o bytes ep) s = .next (s.emit (.unsupported 0)) := by
  have h : (!s.global.funcs[n].enable || !s.present n) = true := by
    rw [State.served, hok, Bool.true_and] at hs
    rw [← Bool.not_and, hs]
    rfl
  show execHostBar2Write n o bytes ep s = _
  unfold execHostBar2Write
  rw [if_neg (by simp [hok]), if_pos h]

theorem exec_hostBar2Write_closed {s : State} (hok : s.hostOk = false) (n : FuncNo) (o : Nat) (bytes : List Byte) (ep : Bool) :
    exec (.hostBar2Write n o bytes ep) s = .next s := if_pos (by simp [hok])

/-! A write to a plain line. -/

theorem memRead_memWriteN_other (m : List Host.Cell) {a b : Nat} (bs : List Byte) (h : b < a ∨ a + bs.length ≤ b) :
    memRead (memWriteN m a bs) b = memRead m b := by
  induction bs generalizing m a with
  | nil => rfl
  | cons v bs ih =>
    rw [List.length_cons] at h
    exact (ih _ (by omega)).trans (memRead_memWrite_other m v (by omega))

theorem memRead_memWriteN {m : List Host.Cell} (hm : memWf m = true) (a : Nat) (bs : List Byte) (k : Nat) (h : k < bs.length) :
    memRead (memWriteN m a bs) (a + k) = bs[k] := by
  induction bs generalizing m a k with
  | nil => exact absurd h (Nat.not_lt_zero k)
  | cons v bs ih =>
    have hm' : memWf (memWrite m a v) = true := memWf_memWrite a v hm
    cases k with
    | zero =>
      refine (memRead_memWriteN_other _ bs (by omega)).trans ?_
      rw [memRead_memWrite v hm]
      exact if_pos rfl
    | succ k =>
      rw [show a + (k + 1) = a + 1 + k by omega]
      exact ih hm' (a + 1) k (Nat.lt_of_succ_lt_succ h)

theorem State.store_parts (s : State) (a : Nat) (bs : List Byte) (m : Option Mark) :
    ∃ p, s.store a bs m = { s with mem := memWriteN s.mem a bs, poison := p } := by
  have key (ls : List Nat) (g : State → Nat → State) (hg : ∀ t l, ∃ p, g t l = { t with poison := p }) (t : State) :
      ∃ p, ls.foldl g t = { t with poison := p } :=
    State.foldl_induct (fun u => ∃ p, u = { t with poison := p }) ls g (fun u l ⟨p, e⟩ => by
      obtain ⟨q, h⟩ := hg u l
      exact ⟨q, by rw [h, e]⟩) t ⟨t.poison, rfl⟩
  unfold State.store
  dsimp only
  split
  · exact key _ _ (fun t l => ⟨_, rfl⟩) _
  · exact key _ _ (fun t l => ⟨_, rfl⟩) _

/-- A poisoned write within a line marks it (R422). -/
theorem State.store_marks (s : State) {a : Nat} {bs : List Byte} (m : Mark) (hne : bs ≠ []) (hin : a % 2048 + bs.length ≤ 2048) :
    poisonAt (s.store a bs (some m)).poison a = some m := by
  unfold State.store
  dsimp only
  rw [linesOf_within (by simpa using hne) hin]
  exact alGet_alSet_same ..

/-- With no wipe in progress a write at a port finds errors and counts. -/
theorem State.checkOnly_lineWrite {s : State} (c : Fin 4) (a n : Nat) (r : Bool) (h : s.memc.wipes = []) :
    State.CheckOnly s (s.lineWrite c a n r) := by
  unfold State.lineWrite
  rw [State.reachLines_of_reached true fun l _ => State.unwiped_of_noWipes h l]
  exact (State.checkOnly_checkWrite ..).trans (State.checkOnly_moved ..)

/-- R108: bytes that arrive at a line that no set and no layer takes are stored there. -/
theorem State.memArrive_plain {s : State} {a : Nat} (bs : List Byte) (m : Option Mark) (hc : s.contribAt a = none)
    (hl : s.layerAt a = none) : s.memArrive a bs m = ((s.lineWrite 2 a bs.length false).store a bs m).pumpAll := by
  have hjob : s.job (.write a bs m) = ((s.lineWrite 2 a bs.length false).store a bs m, []) := by
    simp [State.job, State.memDrop, hc, hl]
  have hwork (k : Nat) : State.work (k + 2) s [.write a bs m] = (s.job (.write a bs m)).1.pumpAll := by
    rw [State.work, hjob]
    rfl
  rw [State.memArrive, hwork 4094, hjob]

theorem dedup_replicate (k x : Nat) : dedup (List.replicate (k + 1) x) = [x] := by
  have key : (List.replicate k x).foldl (fun acc x => if acc.contains x then acc else acc ++ [x]) [x] = [x] := by
    induction k with
    | zero => rfl
    | succ k ih => simpa [List.replicate_succ] using ih
  exact key

/-- The bytes of an access that lies in reach as one span. -/
theorem State.bar2Span_whole {s : State} {n : FuncNo} {o len a : Nat} (h : ∀ k < len, s.bar2Addr n (o + k) = some (a + k)) :
    s.bar2Span n o len = (List.range len).map fun k => (k, a + k) := by
  rw [State.bar2Span, ← List.filterMap_eq_map]
  refine List.filterMap_congr fun k hk => ?_
  rw [h k (List.mem_range.mp hk)]
  rfl

/-- An access of one span within a line is one part. -/
theorem linesIn_whole {a len : Nat} (hne : len ≠ 0) (hin : a % 2048 + len ≤ 2048) :
    linesIn ((List.range len).map fun k => (k, a + k)) = [(a, List.range len)] := by
  obtain ⟨m, rfl⟩ := Nat.exists_eq_succ_of_ne_zero hne
  let span := (List.range (m + 1)).map fun k => (k, a + k)
  have hline (x : Nat × Nat) (hx : x ∈ span) : x.2 / 2048 = a / 2048 := by
    obtain ⟨k, hk, rfl⟩ := List.mem_map.mp hx
    have := List.mem_range.mp hk
    dsimp only
    omega
  have hlines : span.map (·.2 / 2048) = List.replicate (m + 1) (a / 2048) :=
    List.eq_replicate_iff.mpr ⟨by simp [span], fun l hl => by
      obtain ⟨x, hx, rfl⟩ := List.mem_map.mp hl
      exact hline x hx⟩
  have hall : span.filter (·.2 / 2048 == a / 2048) = span := List.filter_eq_self.mpr fun x hx => by simp [hline x hx]
  have hhead : span.head? = some (0, a) := by simp [span, List.range_succ_eq_map]
  have hplaces : span.map (·.1) = List.range (m + 1) := by simp [span, Function.comp_def]
  show linesIn span = _
  rw [linesIn, hlines, dedup_replicate]
  simp only [List.filterMap_cons, List.filterMap_nil, hall, hhead, hplaces, Option.map_some]

theorem getD_range (bytes : List Byte) : (List.range bytes.length).map (fun k => bytes.getD k 0) = bytes :=
  List.ext_getElem (by simp) fun k hk _ => by
    simp at hk
    simp [hk]

/-- A host write within a line of plain open memory is one arrival at that line. -/
theorem exec_hostBar2Write_line {s : State} {n : FuncNo} (hs : s.served n = true) {o a : Nat} {bytes : List Byte}
    (hne : bytes ≠ []) (hreach : ∀ k < bytes.length, s.bar2Addr n (o + k) = some (a + k) ∧ s.sealWindow (a + k) = none)
    (hin : a % 2048 + bytes.length ≤ 2048) (ep : Bool) :
    let t := s.memArrive a bytes (if ep then some {} else none)
    exec (.hostBar2Write n o bytes ep) s = .next (if ep then t.emit (.aerPoisoned n.val) else t) := by
  obtain ⟨hok, hen, hpres⟩ := State.served_iff.mp hs
  have hspan := State.bar2Span_whole fun k hk => (hreach k hk).1
  have hopen (x : Nat × Nat) (hx : x ∈ s.bar2Span n o bytes.length) : s.sealWindow x.2 = none := by
    rw [hspan] at hx
    obtain ⟨k, hk, rfl⟩ := List.mem_map.mp hx
    exact (hreach k (List.mem_range.mp hk)).2
  have hseal : (s.bar2Span n o bytes.length).find? (fun x => (s.sealWindow x.2).isSome) = none :=
    List.find?_eq_none.mpr fun x hx => by simp [hopen x hx]
  have hlines : linesIn (s.openBytes (s.bar2Span n o bytes.length)) = [(a, List.range bytes.length)] := by
    rw [State.openBytes, List.filter_eq_self.mpr fun x hx => by simp [hopen x hx], hspan, linesIn_whole (by simpa using hne) hin]
  show execHostBar2Write n o bytes ep s = _
  unfold execHostBar2Write
  rw [if_neg (by simp [hok]), if_neg (by rw [hen, hpres]; decide)]
  simp only [hseal, hlines, List.foldl_cons, List.foldl_nil, getD_range]

/-- What the arrival at a plain line leaves with no wipe in progress: its bytes, and poison. -/
theorem State.memArrive_line {s : State} {a : Nat} (bs : List Byte) (m : Option Mark) (hc : s.contribAt a = none)
    (hl : s.layerAt a = none) (hw : s.memc.wipes = []) :
    (s.memArrive a bs m).bytes = (memWriteN s.mem a bs, s.vis) ∧ (s.memArrive a bs m).frames = s.frames ∧
      (∀ k, m = some k → bs ≠ [] → a % 2048 + bs.length ≤ 2048 → poisonAt (s.memArrive a bs m).poison a = some k) := by
  rw [State.memArrive_plain bs m hc hl]
  have hcheck := State.checkOnly_lineWrite 2 a bs.length false hw
  generalize s.lineWrite 2 a bs.length false = u at hcheck ⊢
  obtain ⟨_, _, _, _, _, _, _, rfl⟩ := hcheck
  obtain ⟨p, e⟩ := State.store_parts _ a bs m
  obtain ⟨c, o, epump⟩ := (State.store _ a bs m).pumpAll_parts
  refine ⟨?_, by rw [epump, e], fun k hk hne hin => ?_⟩
  · rw [bytes_pumpAll, e]
    rfl
  · rw [epump, hk]
    exact State.store_marks _ k hne hin

theorem hostBar2Write_completes {s : State} {n : FuncNo} {o a : Nat} {bytes : List Byte} (hm : s.memOk) (hs : s.served n = true)
    (hne : bytes ≠ []) (hreach : ∀ k < bytes.length, s.bar2Addr n (o + k) = some (a + k) ∧ s.sealWindow (a + k) = none)
    (hin : a % 2048 + bytes.length ≤ 2048) (hc : s.contribAt a = none) (hl : s.layerAt a = none) (hw : s.memc.wipes = []) (ep : Bool) :
    Completes (.hostBar2Write n o bytes ep) s fun t =>
      (∀ k (h : k < bytes.length), memRead t.mem (a + k) = bytes[k]) ∧
      (∀ b, (b < a ∨ a + bytes.length ≤ b) → memRead t.mem b = memRead s.mem b) ∧ t.vis = s.vis ∧ t.frames = s.frames ∧
      (ep = true → poisonAt t.poison a ≠ none ∧ t.outbox.getLast? = some (.aerPoisoned n.val)) := by
  obtain ⟨hbytes, hframes, hmark⟩ := State.memArrive_line bytes (if ep then some {} else none) hc hl hw
  obtain ⟨hmem, hvis⟩ := Prod.mk.inj hbytes
  have hexec := exec_hostBar2Write_line hs hne hreach hin ep
  generalize s.memArrive a bytes (if ep then some {} else none) = u at hexec hframes hmark hmem hvis
  have hread (t : State) (ht : t.mem = u.mem) : (∀ k (h : k < bytes.length), memRead t.mem (a + k) = bytes[k]) ∧
      ∀ b, (b < a ∨ a + bytes.length ≤ b) → memRead t.mem b = memRead s.mem b := by
    obtain ⟨hwf, -⟩ := hm
    rw [ht, hmem]
    exact ⟨memRead_memWriteN hwf a bytes, fun b hb => memRead_memWriteN_other s.mem bytes hb⟩
  cases ep with
  | false => exact ⟨u, hexec, (hread u rfl).1, (hread u rfl).2, hvis, hframes, fun h => absurd h (by decide)⟩
  | true =>
    refine ⟨_, hexec, (hread _ rfl).1, (hread _ rfl).2, hvis, hframes, fun _ => ⟨?_, List.getLast?_concat ..⟩⟩
    show poisonAt u.poison a ≠ none
    rw [hmark {} rfl hne hin]
    exact Option.some_ne_none _

/-! The scrub (R369) and a retraining (R357). -/

/-- A scrub that is on reads the port's next line, and goes on from there. -/
theorem exec_scrubRead {s : State} {p : Fin 16} (ht : s.memc.ports[p].trained = true) (hp : s.memc.ports[p].periodH ≠ 0)
    (hr : s.memc.selfRefresh = false) (ce ue : List Nat) : ∃ g : MemPort → MemPort,
      (∀ q, (g q).ce = q.ce ∧ (g q).scrubNext =
        if s.usable / 16 / 2048 ≤ s.memc.ports[p].scrubNext + 1 then 0 else q.scrubNext + 1) ∧
      exec (.scrubRead p ce ue) s = .next (((s.upset (sectorUpsets ce ue)).lineRead 3
        (portAddr s.granule p.val (s.memc.ports[p].scrubNext * 2048)) 2048).updMem p g) := by
  refine ⟨_, fun q => ⟨?_, ?_⟩, congrArg Host.Outcome.next (if_pos ?_)⟩
  · rfl
  · rfl
  · rw [ht, hr]
    simpa using hp

/-- With no wipe in progress a read at a port checks its sectors and counts its bytes. -/
theorem State.lineRead_of_noWipes {s : State} (c : Fin 4) (a n : Nat) (h : s.memc.wipes = []) :
    s.lineRead c a n = ((s.badSectors a n).foldl State.foundSector s).moved c a n := by
  rw [State.lineRead, State.reachLines_of_reached false fun l _ => State.unwiped_of_noWipes h l, State.checkRead]

/-- R359, R369: the errors of a port's line are counted at the port, and one that cannot be corrected poisons the line. -/
theorem State.lineRead_portLine {s : State} (p : Fin 16) (l : Nat) (h : s.memc.wipes = []) :
    let a := portAddr s.granule p.val (l * 2048)
    let t := s.lineRead 3 a 2048
    t.memc.ports[p].ce = ((s.badSectors a 2048).filter (·.2 == .single)).foldl (fun c _ => satInc c) s.memc.ports[p].ce ∧
      ((∃ y ∈ s.badSectors a 2048, y.2 ≠ .single) → poisonAt t.poison a ≠ none) := by
  intro a t
  have hg : 11 ≤ s.granule := Nat.le_add_left ..
  have ha : a % 2048 = 0 := portAddr_mod hg (Nat.mul_mod_left l 2048)
  have hport : ∀ x ∈ s.badSectors a 2048, s.portAt (x.1 * 64) = p := fun x hx => by
    obtain ⟨hlo, hhi⟩ := State.badSectors_line ha hx
    have hat := memPortOf_portAddr hg p.isLt (Nat.mul_mod_left l 2048) (o := x.1 * 64 - a) (by omega)
    rw [Nat.add_sub_cancel' hlo] at hat
    rw [State.portAt, hat]
    exact Fin.ofNat_val_eq_self p
  unfold t
  rw [State.lineRead_of_noWipes 3 a 2048 h]
  refine ⟨(State.moved_ce ..).trans (State.foundSectors_ce hport), fun ⟨y, hy, hne⟩ => ?_⟩
  obtain ⟨hlo, hhi⟩ := State.badSectors_line ha hy
  exact s.foundSectors_poison (.inr ⟨y, hy, hne, by omega⟩)

theorem scrubRead_completes {s : State} {p : Fin 16} (ht : s.memc.ports[p].trained = true) (hp : s.memc.ports[p].periodH ≠ 0)
    (hr : s.memc.selfRefresh = false) (hw : s.memc.wipes = []) (ce ue : List Nat) :
    Completes (.scrubRead p ce ue) s fun t =>
      (let a := portAddr s.granule p.val (s.memc.ports[p].scrubNext * 2048)
       let bad := (s.upset (sectorUpsets ce ue)).badSectors a 2048
       t.memc.ports[p].ce = (bad.filter (·.2 == .single)).foldl (fun c _ => satInc c) s.memc.ports[p].ce ∧
       ((∃ y ∈ bad, y.2 ≠ .single) → poisonAt t.poison a ≠ none)) ∧
      SameMemory s t ∧ t.frames = s.frames ∧
      t.memc.ports[p].scrubNext = (if s.usable / 16 / 2048 ≤ s.memc.ports[p].scrubNext + 1 then 0 else s.memc.ports[p].scrubNext + 1) := by
  obtain ⟨g, hg, hexec⟩ := exec_scrubRead ht hp hr ce ue
  obtain ⟨hce, hpoison⟩ := State.lineRead_portLine (s := s.upset (sectorUpsets ce ue)) p s.memc.ports[p].scrubNext hw
  obtain ⟨hm, hv, hf, -⟩ := State.onlyRead_lineRead (s := s.upset (sectorUpsets ce ue)) 3
    (portAddr s.granule p.val (s.memc.ports[p].scrubNext * 2048)) 2048 hw
  have hnext := congrArg MemPort.scrubNext (State.port_of_steady ((s.upset (sectorUpsets ce ue)).steady_lineRead 3
    (portAddr s.granule p.val (s.memc.ports[p].scrubNext * 2048)) 2048) p)
  refine ⟨_, hexec, ⟨?_, hpoison⟩, sameMemory_of_bytes (Prod.ext hm hv), hf, ?_⟩
  · rw [State.updMem_port, (hg _).1]
    exact hce
  · rw [State.updMem_port, (hg _).2]
    exact congrArg (fun k : Nat => if s.usable / 16 / 2048 ≤ s.memc.ports[p].scrubNext + 1 then 0 else k + 1) hnext

theorem memRetrain_completes (s : State) (p : Fin 16) : Completes (.memRetrain p) s fun t =>
    t.memc.ports[p] = { s.memc.ports[p] with retraining := false } ∧ OnlyMemc s t :=
  ⟨_, rfl, by simp, rfl⟩

/-! The settlement. -/

/-- Settles O27: a read is followed to its lines and to the bytes it finds, a write to the one line it reaches, and the scrub
to the sectors of the port's line. -/
theorem hostMemoryAccessesComplete : Obligations.HostMemoryAccessesComplete := by
  refine ⟨fun s n o len tag ups hs hbusy => hostBar2Read_held hs o len tag ups hbusy, fun s n o len tag ups hs hfree => ?_,
    fun s n o tag len ups bytes ep hs => ⟨fun h => exec_hostBar2Read_recovery h o len tag ups,
      fun h => exec_hostBar2Read_unsupported hs h o len tag ups, fun hok => exec_hostBar2Write_unsupported hs hok o bytes ep,
      fun hok => exec_hostBar2Write_closed hok n o bytes ep⟩,
    fun s n o a bytes hm hs hne hreach hin hc hl hw ep => hostBar2Write_completes hm hs hne hreach hin hc hl hw ep,
    fun s p ce ue ht hp hr hw => scrubRead_completes ht hp hr hw ce ue, memRetrain_completes⟩
  obtain ⟨t, hexec, hsame, hframes, hheld, bytes, ep, hout, hlen, hep, hbyte⟩ := hostBar2Read_answered hs o len tag ups hfree
  refine ⟨t, hexec, hsame, hframes, hheld, bytes, ep, hout, hlen, hep, fun k hk => ?_⟩
  rw [hbyte k hk]
  refine ⟨fun a ha hopen => ?_, fun ha => ?_, fun a ha hseal => ?_⟩
  · rw [(s.openAddr_eq_some n o).mpr ⟨ha, hopen⟩]
    rfl
  · rw [(s.openAddr_eq_none n o).mpr fun a e => by simp [ha] at e]
    rfl
  · rw [(s.openAddr_eq_none n o).mpr fun b e => by rwa [← Option.some.inj (ha.symm.trans e)]]
    rfl

end Sys2Proof.Machine
end
